-- ==== Sys2Proof/Word.lean ====
section
/-! DEFINITION. The word types of the block and the names of its numbered parts. -/

namespace Sys2Proof

/-- A register or FIFO word: every register is 32 bits wide (R20). -/
abbrev Word := BitVec 32

/-- One byte of buffer memory, of the Cellar or of a Canvas image. -/
abbrev Byte := BitVec 8

/-- A pickup, H0 to H3 (R12). -/
abbrev Head := Fin 4
/-- A read lane, L00 to L27 (R13). -/
abbrev Lane := Fin 28
/-- A servo loop, 0 to 16 (R27). -/
abbrev Loop := Fin 17
/-- A matrix unit, 0 to 3. -/
abbrev MUnit := Fin 4
/-- A layer, 0 to 47 (R14). -/
abbrev Layer := Fin 48
/-- A band, B00 to B31 (R15). -/
abbrev Band := Fin 32
/-- A host port: 0 is A, 1 is B (R17). -/
abbrev Port := Fin 2
/-- A decoder of the pool. -/
abbrev Dec := Fin 8
/-- A Larder way. -/
abbrev Way := Fin 16
/-- A sequencer: 0 Front, 1 Stripe, 2 to 5 Track 0 to 3 (R437). -/
abbrev Seq := Fin 6
/-- A DMA channel. -/
abbrev Chan := Fin 8
/-- A FIFO: 0 event, 1 telemetry, 2 FLT_LOG (R451). -/
abbrev FifoId := Fin 3

end Sys2Proof
end

