-- ==== Sys2Proof/Syntax.lean ====
section
/-! DEFINITION. The commands and events of the block, one constructor per row of the table. An operand is what the
outside world supplies: the port and the value of a register write, the number of a head, lane or channel, a measured
value, the bytes of a fetched image, the words of a microinstruction the ROM holds. -/

namespace Sys2Proof

/-- Classes of scheduled events (Table 2.3), the one-shot ones. -/
inductive EvClass
  | varnish | readWin | writeWin | calWin | seek | layerJump | tempDemand | scrub | patrol | alarm
  deriving DecidableEq, Repr

/-- A microword's fields (Table 17.1) beside its OP, which the row of the table names. -/
structure Microword where
  dwell : Fin 4
  cond : Fin 16
  neg : Bool
  tgt : Fin 32768        -- P in bit 14, the word address below
  rd : Fin 32
  ra : Fin 32
  bimm : Bool
  q : Fin 256
  imm : Fin 16777216
  bsel : Fin 16
  addr : Fin 1048576
  deriving DecidableEq, Repr

/-- What a measurement window fitted on one layer (R271): the 55 coefficients h(j, k) in 2⁻¹⁶, j from −2 the slower index and k from −5,
and the mean square residual in 2⁻³². -/
structure LayerWin where
  layer : Layer
  h : List Int
  sigma : Nat
  deriving DecidableEq, Repr

/-- What a window of 16 revolutions measured besides its servo samples (R8, R71): the noise variance per wobble sample, in 2⁻¹⁶ of a
squared converter LSB. -/
structure WinMeas where
  noise : Nat
  layers : List LayerWin
  deriving DecidableEq, Repr

/-- What one lane measured in a servo sample (R250, R254, R257): its clipped samples, the greatest RMS of its samples in 2⁻⁸ ADC LSB, the
disagreements of its self-check, the codes that its gain, offset and asymmetry stages went through, and its residual frequency in
ppm. -/
structure LaneIn where
  lane : Lane
  clipped : Nat
  rms : Nat
  self : Nat
  gain : List Int
  offs : List Int
  asym : List Int
  foff : BitVec 16
  deriving DecidableEq, Repr

/-- One channel bit of a head as its joint detector takes it (R263, R268): the bit's number from the wedge start, the ADC codes of the
tracks around it, one list a track, oldest first with the bit's own in the middle, and DET's decisions for the bit before, the bit and
the bit behind, one list a track. -/
structure EqIn where
  head : Head
  bit : Nat
  adc : List (List Int)
  dec : List (List Bool)
  deriving DecidableEq, Repr

/-- The servo inputs of one head at a tick (Table 6.2: FE, SUM, TEPP, TEOUT, TILT, SAE, LPMON, LPOS), as converter codes, the
amplitude of its wobble in converter LSB, and the phase error in au of each wobble period of the sample that ended, none in a gap
field (R57). -/
structure HeadIn where
  head : Head
  svi : List (BitVec 16)
  wamp : Nat
  wob : List Int
  deriving DecidableEq, Repr

/-- A matrix unit that fails in a servo sample (R186): by an overrun, else by a residue, and the loops whose checks failed
or that did not finish. -/
structure UnitFault where
  unit : MUnit
  overrun : Bool
  loops : List Loop
  deriving DecidableEq, Repr

/-- What the outside shows the device at a tick (R63, R72, R173, R234, R254, R263): heads, lanes, channel bits, the field observer's speed in sixteenths
of an rpm and rate, the output of the wobble loop's filter, the difference between the angle estimate and the timing recovery of the
reference head's spot 2 lane in 2⁻²⁴ au, the q-axis current, and the matrix units that fail. -/
structure SampleIn where
  heads : List HeadIn
  lanes : List LaneIn
  eq : List EqIn
  rpm : Nat
  rate : BitVec 24
  wobRate : BitVec 24
  diff : Int
  iq : BitVec 16
  faults : List UnitFault
  deriving DecidableEq, Repr


/-- The kinds of class S seek (Table 9.1). -/
inductive SeekKind
  | shock
  | preempt (g : Fin 262144)
  | cal (g : Fin 262144)
  | park
  | stop
  | host (target : BitVec 24)
  | search
  deriving DecidableEq, Repr

/-- One PWM period of the spindle drive (R232 to R239): the leg currents U, V, W in mA, VIN in mV, the electrical angle that the current loop
uses, the observer's or the forced one, as cosine and sine in 2⁻¹⁵, the peak of the back-EMF estimate in µV, the observer's speed in
sixteenths of an rpm, and how far its angle lies from the forced one, in tenths of an electrical degree. -/
structure PwmIn where
  iu : Int
  iv : Int
  iw : Int
  vin : Nat
  cosE : Int
  sinE : Int
  bemf : Nat
  rpm : Nat
  angErr : Int
  deriving DecidableEq, Repr

/-- A command entry of an I/O queue (R391): its port, queue, identifier, namespace, first LBA and zero-based number of
blocks. -/
structure IoCmd where
  port : Port
  qid : BitVec 16
  cid : BitVec 16
  nsid : BitVec 32
  slba : BitVec 64
  nlb : BitVec 16
  deriving DecidableEq, Repr

/-- What a calibration measured (Table 14.1): an active sweep's mean SNR at its points, again where it was repeated, with the
mean sensor reading at the result; the tracking offset with its mean SUM; the change of FE of the slope measurement; SUM and
wobble amplitude; a spot's adapted row with the eye widths of the head's lanes; an equalizer set with its error, that of the
default set, and the head SNR. -/
inductive CalResult
  | sa (q1 q2 : List Int) (mean : Int)
  | focus (q1 q2 : List Int)
  | track (tepp sum : Int)
  | tilt (b : Band) (q1 q2 : List Int) (mean : Int)
  | slope (dfe : Int)
  | amps (b : Band) (sum wamp : Nat)
  | row (b : Band) (spot : Fin 6) (gain offs asym : BitVec 8) (eye : List Nat)
  | eqz (b : Band) (coef : List (BitVec 16)) (mse dflt snr : Nat)
  deriving DecidableEq, Repr

/-- The host-specified fields of a namespace create (R386): CSI, NSZE, NCAP, FLBAS, DPS, NMIC, ENC, and whether every other
field is zero. -/
structure NsCreate where
  csi : BitVec 8
  nsze : BitVec 64
  ncap : BitVec 64
  flbas : BitVec 8
  dps : BitVec 8
  nmic : BitVec 8
  enc : Bool
  rest : Bool
  deriving DecidableEq, Repr

/-- What buffer memory returns for a block (R418): the block whose stored codeword comes back, none for the right one, and the
symbols of its 68 stored bytes that come back wrong, with what is added to each. -/
structure BlockRead where
  seen : Option (BitVec 28) := none
  cells : List (Fin 68 × Byte) := []
  deriving DecidableEq, Repr

/-- What an access finds in the Larder line that it hits (Table 16.3). -/
inductive LineOutcome
  | clean | ce | ue | tag
  deriving DecidableEq, Repr
/-- The commands and events of the table of operations, in its order. -/
inductive Instr
  /-- VIN_POWER_GOOD (R478): VIN rises past the power-good level for 1 ms and AON starts the regulators in order. -/
  | vinPowerGood
  /-- POWER_GOOD_FUSES_LOADED (R478): Every PG bit has held for 100 µs, the fuses load and the state goes from OFF to BARE. -/
  | powerGoodFusesLoaded
  /-- REGULATOR_FAULT (R479): A rail has stayed out of its window for 20 µs; the safety block trips and every regulator turns off. -/
  | regulatorFault (rail : Fin 6)
  /-- REGULATOR_RESTART (R479): 100 ms after a regulator fault, AON restarts the regulators as a power-on reset. -/
  | regulatorRestart
  /-- VIN_HOLD_UP (R480): VIN stays below 10.4 V for 20 µs; the spindle coasts, write windows close and an orderly stop with cause 0x22 starts in MOUNTING or MOUNTED. -/
  | vinHoldUp
  /-- VIN_BROWN_OUT (R480): VIN stays below 9.2 V for 2 µs; the Cellar blocks new program pulses and ends the pulse in progress. -/
  | vinBrownOut
  /-- UNDER_VOLTAGE_LOCKOUT (R480): VIN stays below 8.5 V for 2 µs; the safety block trips, every domain except AON resets and the state becomes OFF. -/
  | underVoltageLockout
  /-- VIN_RECOVERED (R481): VIN has stayed at or above 10.6 V for 100 ms, which clears halt cause 0x22 and releases Cellar programs and the park after a 0x22 stop. -/
  | vinRecovered
  /-- SYS_RESET_FULL (R543): A write of SYS_RESET with the key and FULL raises a full reset, or is discarded with BADKEY set. -/
  | sysResetFull (p : Port) (v : Word)
  /-- FULL_RESET_COMPLETE (R543): After the 10 µs hold and the fuse reload, the device enters BARE with cause 0x02. -/
  | fullResetComplete
  /-- PCIE_LINK_UP (R547): A port's link reaches L0 and custody passes by R95 where no port holds it. -/
  | pcieLinkUp (p : Port) (width : Fin 8) (speed : Fin 16)
  /-- PCIE_LINK_DOWN (R376): A port leaves L0; only that port's commands end and a FLT_LOG entry is written. -/
  | pcieLinkDown (p : Port) (ltssm : BitVec 24)
  /-- PERST (R542): PERST# asserts on a port and resets that port's host domain as Table 15.12 gives. -/
  | perst (p : Port)
  /-- FUNCTION_LEVEL_RESET (R542): An FLR resets one port's NVMe state, queues and features. -/
  | functionLevelReset (p : Port)
  /-- CONTROLLER_RESET (R412): CC.EN goes from 1 to 0 on a controller and that port's commands end as Table 15.12 gives. -/
  | controllerReset (p : Port)
  /-- CONTROLLER_ENABLE (R46): CC.EN is set to 1; CSTS.RDY follows outside BARE. -/
  | controllerEnable (p : Port) (asqs : Fin 4096) (acqs : Fin 4096) (wrr : Bool)
  /-- NORMAL_SHUTDOWN (R392): A write of CC.SHN makes every partly filled stripe commit short, and then sets CSTS.SHST. -/
  | normalShutdown (p : Port)
  /-- LINK_LOSS_TIMEOUT (R377): A port has stayed out of L0, or at CC.EN 0 after 1, for LINKLOSS ms, and its custody passes on. -/
  | linkLossTimeout (p : Port)
  /-- FREEZE_PIN (R530): FREEZE# is held low for 20 ns; every clock except TCK stops, the safety block trips and the state becomes FROZEN. -/
  | freezePin
  /-- LSR_EN_FALL (R170): LSR_EN falls; LON and the pairs go low or IDLE, LASER off is sent and a safe stop with cause 0x33 follows outside BARE and HALTED. -/
  | lsrEnFall
  /-- LSR_EN_RISE (R168): LSR_EN rises and LON may rise for the heads whose other conditions hold. -/
  | lsrEnRise
  /-- CART_SEATED_ASSERTED (R577): CART_SEATED has been high for 10 ms and counts as asserted. -/
  | cartSeatedAsserted
  /-- CART_SEATED_DEASSERTED (R44): CART_SEATED has been low for 1 ms; a safe stop with cause 0x32 follows where the state and spindle require it. -/
  | cartSeatedDeasserted
  /-- SAFESTOP (R43): A write of SYS_CTRL.SAFESTOP requests a safe stop with cause 0x35. -/
  | safestop (p : Port) (v : Word)
  /-- RESUME (R43): A write of SYS_CTRL.RESUME moves HALTED to PRIMED when the halt cause has cleared, or is rejected with RSMREJ set. -/
  | resume (p : Port) (v : Word)
  /-- TRIGGER_RESOLUTION (R45): At the tick that ends a servo sample, the highest-ranked held trigger makes its transition and the others are discarded. -/
  | triggerResolution
  /-- PARK_COMPLETE (R229): Every present sled has parked and the spindle has stopped, and PARKING ends in PRIMED or HALTED. -/
  | parkComplete
  /-- CNV_LOAD (R97): A write of CNV_CTRL.LOAD starts the fetch of the image on DMA channel 0, or is refused per Table 3.14. -/
  | cnvLoad (p : Port) (v : Word)
  /-- CNV_APPLY (R98): A write of CNV_CTRL.APPLY starts validation of the staged image, or is refused per Table 3.14. -/
  | cnvApply (p : Port) (v : Word)
  /-- CNV_ABORT (R100): A write of CNV_CTRL.ABORT abandons a load or a validation with ERR ABORTED. -/
  | cnvAbort (p : Port) (v : Word)
  /-- CANVAS_FETCH_DONE (R97): The image fetch ends, and PHASE becomes LOADED or FAILED with ERR DMA. -/
  | canvasFetchDone (image : List Byte) (ok : Bool)
  /-- CANVAS_VALIDATION_DONE (R98): Steps 1–6 of the validation pass and memory training starts, or a check fails and PHASE becomes FAILED. -/
  | canvasValidationDone (us : Nat)
  /-- MEM_TRAINING_DONE (R415): LPDDR5 training ends; the density is checked against MEMLAYOUT.SIZE and COMMITTING begins or the apply fails. -/
  | memTrainingDone (trained : Fin 16) (gib : Nat) (us : Nat)
  /-- CANVAS_COMMIT_DONE (R98): COMMITTING ends; PHASE becomes APPLIED, the state PRIMED, ANG_NOW starts and the sweep begins. -/
  | canvasCommitDone (us : Nat)
  /-- ENUM_NOP_RETRY (R166): Every 1 ms without an ACK, enumeration sends NOP again to a head. -/
  | enumNopRetry (h : Head)
  /-- ENUM_WAIT_EXPIRED (R166): ENUMWAIT ms pass with no ACK and the head is marked ABSENT. -/
  | enumWaitExpired (h : Head)
  /-- PICKUP_RESPONSE (R160): A control-link response arrives whole and is acted on for its command, with STATUS bits copied and handled. -/
  | pickupResponse (h : Head) (resp : Word)
  /-- PICKUP_RESPONSE_TIMEOUT (R161): No response begins within 8 clocks; the link error counts and the transaction is repeated or fails. -/
  | pickupResponseTimeout (h : Head)
  /-- PICKUP_LINK_ERROR (R161): The third attempt of a transaction fails; the head is taken out of service, or ends its enumeration FAILED. -/
  | pickupLinkError (h : Head)
  /-- STATUS_POLL (R162): Once per wedge with nothing pending, an RD of pickup register 0x00 is queued. -/
  | statusPoll (h : Head)
  /-- PICKUP_TEMP_READ (R165): 200 µs after a TCONV, the RD of TEMP is issued for a temperature demand. -/
  | pickupTempRead (h : Head)
  /-- OPU_LINKCMD (R172): A write of OPU_LINKCMD queues one direct host transaction, or is discarded with ERR set. -/
  | opuLinkcmd (p : Port) (h : Head) (v : Word)
  /-- LOFF_WRITE (R169): A write of OPU_CTRL.LOFF holds LON low, makes the head leave, or is discarded with LOFFREJ set. -/
  | loffWrite (p : Port) (h : Head) (v : Word)
  /-- LPMON_FAULT (R164): LPMON is out by 25% for 64 samples or at full scale; LASER off is sent and the head is taken out of service. -/
  | lpmonFault (h : Head)
  /-- LASER_STAGGER_NEXT (R171): The previous head's LPMON check has passed and 1,048,576 au have elapsed, so the next head gets LASER on. -/
  | laserStaggerNext
  /-- SERVO_SAMPLE (R173): At each tick every running loop computes its law, checks its supervisor and publishes its status and outputs. -/
  | servoSample (x : SampleIn)
  /-- LOOP_HOLD (R181): OOB reaches SUPN and the loop enters HOLD. -/
  | loopHold (l : Loop)
  /-- LOOP_RESUME (R181): INB reaches SUPM in HOLD and the loop returns to RUN. -/
  | loopResume (l : Loop)
  /-- LOOP_FAIL (R181): A loop has held for HOLDMAX samples and enters FAIL; its owner is told. -/
  | loopFail (l : Loop)
  /-- SRV_UNIT_OFFLINE (R187): SRV_UNITCTL OFFLINE moves a unit's loops to their ALT units and powers the unit down, or is refused. -/
  | srvUnitOffline (p : Port) (v : Word)
  /-- SRV_UNIT_RESTORE (R187): SRV_UNITCTL RESTORE powers a unit and runs its BIST, or is refused. -/
  | srvUnitRestore (p : Port) (v : Word)
  /-- SRV_UNIT_RESTORE_DONE (R187): A unit's BIST and reload end, and its HOME loops return or BISTFAIL sets. -/
  | srvUnitRestoreDone (u : MUnit) (pass : Bool)
  /-- SPEED_BAND_CHANGE (R189): At the first tick after the measured speed crosses a threshold, all loops switch Palette slots. -/
  | speedBandChange
  /-- TICK (R64): A tick boundary fires the events due at it in the order of R66. -/
  | tick
  /-- WEDGE_BOUNDARY (R54): A head reaches a wedge start at its own offset and its track sequencer is told. -/
  | wedgeBoundary (h : Head)
  /-- WLID_DECODED (R132): A WLID with a passing CRC is counted; a wedge or layer mismatch is handled. -/
  | wlidDecoded (h : Head) (bits : Word) (minfo : Option Word)
  /-- TRID_DECODED (R133): A counted TRID set gives G₀, indexes the sled and feeds CONF. -/
  | tridDecoded (h : Head) (trids : List (Option Word))
  /-- MARK_DECODED (R55): A timing mark decoded in a gap field updates MARK timing and the head offset. -/
  | markDecoded (h : Head) (wedge : Fin 64) (word : BitVec 24) (rate : BitVec 24) (rev : BitVec 24)
  /-- MARK_ENTRY (R58): Two consistent marks make SRC MARK and index the angle, or correct it. -/
  | markEntry (h : Head)
  /-- SLEW_COMPLETE (R59): A backward slew brings the error within 256 au and SLEW clears. -/
  | slewComplete
  /-- MARK_LOSS (R55): Two expected marks are missed on every head in focus, or mismatch, and SRC falls to COARSE. -/
  | markLoss
  /-- COARSE_ENTRY (R55): The spindle exceeds 600 rpm and SRC may enter COARSE. -/
  | coarseEntry (rate : BitVec 24)
  /-- COARSE_LOSS (R55): The spindle falls below 450 rpm and COARSE is left. -/
  | coarseLoss
  /-- WOBBLE_LOCK (R57): The reference head's phase error stays within ±32 au for LOCKN periods and SRC becomes WOBBLE. -/
  | wobbleLock (e : Int) (rate : BitVec 24)
  /-- WOBBLE_LOCK_LOSS (R57): The phase error stays out of ±128 au for LOSSN periods, or the reference stops being a candidate. -/
  | wobbleLockLoss
  /-- WOBBLE_REF_SWITCH (R60): At the next wobble period after the reference is lost, ANG switches to the lowest remaining candidate. -/
  | wobbleRefSwitch
  /-- RAMP_SETTLED (R69): The speed has held within 0.1% for one revolution and RAMP clears. -/
  | rampSettled
  /-- ANG_ALARM_ARM (R70): A write of ANG_ALARM_HI arms the host alarm with the staged target, or is refused with REFUSED set. -/
  | angAlarmArm (p : Port) (v : Word)
  /-- ALARM (R70): The alarm target is reached; FIRED sets and an ALARM record enters the event FIFO. -/
  | alarm
  /-- MEASUREMENT_WINDOW_END (R8): A 16-revolution window ends and the bound figures update, or the window is discarded. -/
  | measurementWindowEnd (m : WinMeas)
  /-- SKT_STAGE (R106): A write of SKT_STAGE appends an entry, or is refused with STGERR. -/
  | sktStage (p : Port) (v : Word)
  /-- SKT_CANCEL (R117): SKT_CTRL.CANCEL aborts an armed Varnish with CANCELLED. -/
  | sktCancel (p : Port) (v : Word)
  /-- SKT_CLEAR (R117): SKT_CTRL.CLEAR discards the Sketch and clears STGERR. -/
  | sktClear (p : Port) (v : Word)
  /-- VARNISH_ARM (R109): A write of SKT_VARNISH_HI arms the Varnish and starts distribution. -/
  | varnishArm (p : Port) (v : Word)
  /-- VARNISH_DISTRIBUTED (R109): Distribution of every entry ends and PHASE becomes WAITING, or a check aborts it with RANGE. -/
  | varnishDistributed
  /-- VARNISH_FINAL_CHECK (R113): From 8,192 au before the commit tick, SKT checks every target domain each cycle. -/
  | varnishFinalCheck
  /-- VARNISH_COMMIT (R114): At the commit tick one strobe moves every holding latch into its register and updates the shadow. -/
  | varnishCommit
  /-- FOCUS_ACQUISITION (R197): The track sequencer sweeps focus and counts peaks toward the target layer. -/
  | focusAcquisition (h : Head)
  /-- FOCUS_SETTLED (R197): FSETN consecutive in-bounds samples settle focus and track capture begins. -/
  | focusSettled (h : Head)
  /-- FOCUS_ATTEMPT_FAILED (R198): An acquisition attempt fails and is retried, or the head is taken out of service after TRIES. -/
  | focusAttemptFailed (h : Head)
  /-- TRACK_CAPTURE (R200): The first qualifying TEPP crossing sets tracking and tilt to RUN. -/
  | trackCapture (h : Head) (land : Bool)
  /-- TRACK_JUMP (R201): A track jump of 1–12 tracks runs in a granted seek interval. -/
  | trackJump (h : Head) (k : Int)
  /-- TRACK_JUMP_DONE (R201): A track jump lands and the landing TRID is checked. -/
  | trackJumpDone (h : Head) (g : Option (Fin 262144))
  /-- LAYER_JUMP (R202): A layer jump runs in its granted interval, sweeping focus and SA. -/
  | layerJump (h : Head) (l : Layer) (g : Fin 262144)
  /-- LAYER_JUMP_DONE (R202): A layer jump reaches ON_TRACK, or fails and starts recovery. -/
  | layerJumpDone (h : Head) (us : Nat)
  /-- FOCUS_LOSS (R205): SUM stays low for FLOSSN samples or focus fails, and recovery starts. -/
  | focusLoss (h : Head)
  /-- TRACK_LOSS (R205): TEOUT stays high for 4 samples, tracking fails or a TRID disagrees, and recovery starts. -/
  | trackLoss (h : Head)
  /-- RECOVERY_DONE (R206): A recovery brings the head to its planned layer and track, or fails and takes it out of service. -/
  | recoveryDone (h : Head) (ok : Bool)
  /-- TILT_SA_FAIL_RETRY (R207): One revolution after a tilt or SA FAIL, the loop is set RUN again. -/
  | tiltSaFailRetry (h : Head) (k : Fin 2)
  /-- INHIBIT_CLEAR (R210): A cause has been absent for INHCLR samples and clears. -/
  | inhibitClear (h : Head) (c : Fin 7)
  /-- SRV_HCTRL_WINH (R208): A write of SRV_HCTRL.WINH sets or clears the HOST inhibit cause. -/
  | srvHctrlWinh (p : Port) (h : Head) (v : Word)
  /-- SHOCK_SENSOR_READ (R212): Every 4.0 µs of REF time a burst read of the accelerometer may raise SHOCK. -/
  | shockSensorRead (axial : BitVec 16) (radial : BitVec 16)
  /-- SLED_STEP (R221): At each step edge the planner updates the S-curve and loads the next interval. -/
  | sledStep (h : Head)
  /-- CLASS_D_SEEK (R223): A class D seek starts in a granted seek interval, or is refused during a class S seek. -/
  | classDSeek (h : Head) (g : Fin 262144)
  /-- CLASS_S_SEEK (R225): A class S seek of one of seven kinds starts, preempts or retargets a seek. -/
  | classSSeek (h : Head) (k : SeekKind)
  /-- SLD_HSEEK (R225): A write of SLD_HSEEK.GO starts a HOST seek in PRIMED, or is refused. -/
  | sldHseek (p : Port) (h : Head) (v : Word)
  /-- SEEK_COMPLETE (R227): A seek reaches its target; the sequencer captures track and corrects G₀. -/
  | seekComplete (h : Head)
  /-- SLED_FOLLOW_STEP (R228): After two wedges of off-centre LPOS, one follow step is issued at the next gap field. -/
  | sledFollowStep (h : Head)
  /-- SEARCH_TIMEOUT (R220): No TRID arrives within 4 revolutions and the sled moves on in its search. -/
  | searchTimeout (h : Head)
  /-- PWM_PERIOD (R233): Each PWM period samples the leg currents and runs the current loop. -/
  | pwmPeriod (x : PwmIn)
  /-- SPINDLE_FAULT (R235): A spindle fault condition is met; PWM turns off and a safe stop with cause 0x34 follows. -/
  | spindleFault (cause : Fin 5)
  /-- SPIN_UP_START (R236): The spindle target becomes nonzero from rest or coasting and SPN starts a catch. -/
  | spinUpStart
  /-- CATCH_WINDOW_END (R237): The CATCHT window ends and SPN picks closed loop, open loop, short brake or align. -/
  | catchWindowEnd (crossings : Nat) (peak : Nat) (rpm : Nat)
  /-- ALIGN_END (R237): ALIGNT expires and the open-loop ramp starts. -/
  | alignEnd
  /-- SPINDLE_HANDOVER (R237): The observer agrees with the forced angle for 32 periods above 600 rpm and SPN enters RUN. -/
  | spindleHandover
  /-- SPIN_UP_ATTEMPT_FAILED (R237): No hand-over by 900 rpm; SPN coasts and starts again, or declares a start fault. -/
  | spinUpAttemptFailed
  /-- SPINDLE_STOPPED (R239): A brake or coast window shows back-EMF below BEMFMIN and PHASE becomes STOPPED. -/
  | spindleStopped (peak : Nat)
  /-- SPN_TEST_WRITE (R244): A write of SPN_TEST sets the test spin in PRIMED, or is discarded for an out-of-range RPM. -/
  | spnTestWrite (p : Port) (v : Word)
  /-- SPEEDREF_DECODE (R242): The decoded SPEEDREF speed updates SPN_SREFIN, or the input becomes invalid. -/
  | speedrefDecode (x : Option Nat)
  /-- SPEEDREF_ADOPT (R242): The rounded speed has held for HOLD ms and is adopted as S. -/
  | speedrefAdopt
  /-- LANE_FAILURE (R256): A second failing check declares a lane failed and its spans missing. -/
  | laneFailure (l : Lane)
  /-- LANE_SPARE (R248): CHN_LANECTL SPARE starts the spare acquiring on an active lane's input. -/
  | laneSpare (p : Port) (v : Word)
  /-- LANE_RESTORE (R248): CHN_LANECTL RESTORE runs a lane's self-test. -/
  | laneRestore (p : Port) (v : Word)
  /-- LANE_EYE (R269): CHN_LANECTL EYE starts an eye-width sweep. -/
  | laneEye (p : Port) (v : Word)
  /-- LANE_SELFTEST_DONE (R248): A lane's self-test ends; the lane reacquires or stays FAILED with BISTFAIL. -/
  | laneSelftestDone (pass : Bool)
  /-- LANE_ACQUIRED (R248): An acquiring lane passes two checks and DET switches the track at the next frame start. -/
  | laneAcquired (l : Lane)
  /-- CAL_SHADOW (R249): CAL requests a calibration shadow and the spare carries the lane's data. -/
  | calShadow (l : Lane)
  /-- TIMING_LOCK (R259): A lane's phase error meets the lock criterion and LOCK sets. -/
  | timingLock (l : Lane) (err : List Int)
  /-- TIMING_LOCK_LOSS (R259): A lane loses lock and reacquires. -/
  | timingLockLoss (l : Lane) (err : List Int)
  /-- EQ_RELOAD (R263): Two gap fields of high REFPAT error make DET reload the equalizer set. -/
  | eqReload (h : Head) (track : Fin 6) (o : BlockRead)
  /-- EYE_SWEEP_DONE (R269): A 512-gap-field sweep ends and EYEW is set. -/
  | eyeSweepDone (errs : List Nat)
  /-- QUALITY_UPDATE (R267): Every 16 revolutions of reading, the lane and head quality figures update. -/
  | qualityUpdate (h : Head)
  /-- CODEWORD_RELEASE (R30): The lane verdicts cover a codeword and it enters the decoder queue. -/
  | codewordRelease (pba : BitVec 32) (cwix : Fin 16) (soft : List Int)
  /-- DECODE_COMPLETE (R285): A decode ends and the codeword is tagged, or given another pass. -/
  | decodeComplete (d : Dec) (x : Nat) (conv : Bool) (iters : Nat)
  /-- DECODER_TIMEOUT (R286): A decode has not ended by its limit and the decoder is declared faulty. -/
  | decoderTimeout (d : Dec)
  /-- DECODER_OFFLINE (R287): CWD_DECCTL OFFLINE powers a decoder down after its decode, or is refused. -/
  | decoderOffline (p : Port) (v : Word)
  /-- DECODER_RESTORE (R287): CWD_DECCTL RESTORE powers a decoder and runs its BIST. -/
  | decoderRestore (p : Port) (v : Word)
  /-- DECODER_BIST_DONE (R287): A decoder's BIST ends and it returns to the pool or stays offline. -/
  | decoderBistDone (d : Dec) (pass : Bool)
  /-- WINDOW_OPEN (R64): A granted read, write or calibration window opens at its tick. -/
  | windowOpen (h : Head) (act : Fin 9) (blocks : List (BitVec 32)) (os : List BlockRead)
  /-- WINDOW_CLOSE (R290): A window closes after its last frame and the pairs go IDLE. -/
  | windowClose (h : Head)
  /-- LEVELS_SENT (R291): The write levels have been sent and a held window may open. -/
  | levelsSent (h : Head)
  /-- OPC_RUN (R298): An OPC run writes the eight-step power sweep in a calibration window. -/
  | opcRun (h : Head) (l : Layer) (b : Band)
  /-- OPC_READBACK_DONE (R298): The OPC block is read back and the new PEAK is accepted or failed. -/
  | opcReadbackDone (h : Head) (r0 : List Nat) (r1 : List Nat)
  /-- WRS_OPCCTL (R297): A write of WRS_OPCCTL.GO requests an OPC run. -/
  | wrsOpcctl (p : Port) (v : Word)
  /-- VERIFY_RESULT (R300): A verify read of a block ends pass, fail or inconclusive, leading to a reread or rewrite. -/
  | verifyResult (h : Head) (pba : BitVec 32)
  /-- STRIPE_OPEN (R315): A stripe's data is gathered, its DIRTY record is durable and it opens with a WSEQ. -/
  | stripeOpen (nsid : Nat) (zone : Nat) (us : List BlockRead)
  /-- GATHER_TIMEOUT (R392): GATHER ms pass since a partly filled stripe's oldest data and it commits short. -/
  | gatherTimeout (nsid : Nat)
  /-- STRIPE_WRITTEN (R315): A stripe's last member write window closes complete. -/
  | stripeWritten (stripe : Nat)
  /-- STRIPE_VERIFIED (R315): Every member of a stripe has passed verify. -/
  | stripeVerified (stripe : Nat)
  /-- STRIPE_COMMIT (R316): At the commit tick the write pointer or map moves and the waiting writes complete. -/
  | stripeCommit (stripe : Nat)
  /-- STRIPE_VOID (R317): A member fails after its remaps and the stripe is voided and reopened. -/
  | stripeVoid (stripe : Nat)
  /-- MEMBER_ARRIVAL (R325): A member block arrives in ASSEMBLY; its stripe is released when complete. -/
  | memberArrival (stripe : Nat) (member : Fin 20) (planned : Nat) (tags words : List BlockRead)
  /-- SLOW_MEMBER_DEADLINE (R325): A stripe's deadline passes and its missing members count as failed. -/
  | slowMemberDeadline (stripe : Nat)
  /-- REBUILD_START (R327): A rebuild job starts in precedence order. -/
  | rebuildStart
  /-- REBUILD_COMPLETE (R328): A rebuilt block has verified and its GDEFECT record is durable. -/
  | rebuildComplete (stripe : Nat) (member : Fin 20)
  /-- CHECKPOINT (R322): A checkpoint writes map pages, checkpoint records and CLEAN records. -/
  | checkpoint
  /-- CHECKPOINT_TIMER (R322): CKPTS seconds after the oldest uncovered commit, a checkpoint starts. -/
  | checkpointTimer
  /-- MAP_DEMAND_LOAD (R332): A command needs a map page not yet loaded and its read preempts the data seek. -/
  | mapDemandLoad (nsid : Nat) (page : Nat) (o : BlockRead)
  /-- MAP_PAGE_LOADED (R332): A map page load completes and the waiting commands proceed. -/
  | mapPageLoaded (nsid : Nat) (page : Nat) (us : Nat)
  /-- CLEANING (R333): A namespace with fewer than two free zones has its emptiest zone cleaned. -/
  | cleaning (nsid : Nat)
  /-- LEDGER_TIMER (R342): LEDGMIN minutes after a layer's first COUNT change, its LEDGER record is written. -/
  | ledgerTimer (l : Layer)
  /-- READ_CONFIRM (R351): A second read within CONFIRM revolutions fails again and the block is retired. -/
  | readConfirm (pba : BitVec 32) (cwix : Fin 16)
  /-- LAYER_FAILED (R352): A layer is declared failed and its members are queued for rebuild. -/
  | layerFailed (l : Layer)
  /-- PATROL_LAP_END (R353): A patrol lap ends and the lap figures update. -/
  | patrolLapEnd (sec : Nat)
  /-- REFRESH (R355): The lowest-margin queued stripe is read and rewritten in place. -/
  | refresh
  /-- HLT_CTRL_RESTART (R353): A write of HLT_CTRL.RESTART starts a new patrol lap. -/
  | hltCtrlRestart (p : Port) (v : Word)
  /-- HLT_CTRL_PAUSE (R354): A write of HLT_CTRL.PAUSE stops or allows patrol reads. -/
  | hltCtrlPause (p : Port) (v : Word)
  /-- CAL_DUE (R368): CALINT minutes pass since a layer's calibration and incremental calibration begins. -/
  | calDue (h : Head) (l : Layer)
  /-- CAL_SWEEP_DONE (R361): An active sweep ends and its result is judged against Table 14.2. -/
  | calSweepDone (h : Head) (l : Layer) (r : CalResult)
  /-- CAL_CTL (R370): A write of CAL_CTL.GO requests an incremental or full calibration. -/
  | calCtl (p : Port) (v : Word)
  /-- FULL_CAL_LAYER_DONE (R369): A layer's full calibration ends and its CALIB record is written. -/
  | fullCalLayerDone (h : Head) (l : Layer)
  /-- CUSTODY_ARBITRATION (R399): At each tick, HST arbitrates the custody requests of each resource. -/
  | custodyArbitration
  /-- NAMESPACE_SWAP_END (R401): The old custodian's commands drain or ANATT expires, and namespace custody moves. -/
  | namespaceSwapEnd (nsid : Fin 65) (expired : Bool)
  /-- SQ_DOORBELL (R379): A submission queue tail doorbell write makes entries available for fetch. -/
  | sqDoorbell (p : Port) (qid : BitVec 16) (tail : BitVec 16)
  /-- DELETE_IO_SQ (R382): Admin command 0x00 deletes an I/O submission queue. -/
  | deleteIoSq (p : Port) (cid : BitVec 16) (qid : BitVec 16)
  /-- CREATE_IO_SQ (R382): Admin command 0x01 creates an I/O submission queue within IOQP and MQES. -/
  | createIoSq (p : Port) (cid : BitVec 16) (qid : BitVec 16) (size : BitVec 16) (cqid : BitVec 16) (prio : Fin 4)
  /-- GET_LOG_PAGE (R385): Admin command 0x02 returns a log page. -/
  | getLogPage (p : Port) (cid : BitVec 16) (lid : BitVec 8) (nsid : BitVec 32) (off : Nat) (len : Nat) (rae : Bool)
  /-- DELETE_IO_CQ (R382): Admin command 0x04 deletes an I/O completion queue. -/
  | deleteIoCq (p : Port) (cid : BitVec 16) (qid : BitVec 16)
  /-- CREATE_IO_CQ (R382): Admin command 0x05 creates an I/O completion queue. -/
  | createIoCq (p : Port) (cid : BitVec 16) (qid : BitVec 16) (size : BitVec 16) (vec : BitVec 16)
  /-- IDENTIFY (R383): Admin command 0x06 returns an Identify data structure. -/
  | identify (p : Port) (cid : BitVec 16) (cns : BitVec 8) (csi : BitVec 8) (nsid : BitVec 32) (cntid : BitVec 16)
  /-- ABORT (R381): Admin command 0x08 aborts a command that has not begun medium access. -/
  | abort (p : Port) (cid : BitVec 16) (sqid : BitVec 16) (target : BitVec 16)
  /-- SET_FEATURES (R384): Admin command 0x09 sets a feature of the controller. -/
  | setFeatures (p : Port) (cid : BitVec 16) (fid : BitVec 8) (nsid : BitVec 32) (val : Word) (sv : Bool)
  /-- GET_FEATURES (R384): Admin command 0x0A returns a feature value. -/
  | getFeatures (p : Port) (cid : BitVec 16) (fid : BitVec 8) (nsid : BitVec 32) (sel : Fin 8) (val : Word)
  /-- ASYNCHRONOUS_EVENT_REQUEST (R382): Admin command 0x0C posts a request for asynchronous events. -/
  | asynchronousEventRequest (p : Port) (cid : BitVec 16)
  /-- NAMESPACE_CREATE (R386): Namespace Management SEL 0 creates a namespace, formatting the volume if needed. -/
  | namespaceCreate (p : Port) (cid : BitVec 16) (n : NsCreate)
  /-- NAMESPACE_DELETE (R388): Namespace Management SEL 1 deletes a namespace or all of them. -/
  | namespaceDelete (p : Port) (cid : BitVec 16) (nsid : BitVec 32)
  /-- NAMESPACE_ATTACHMENT (R388): Admin command 0x15 attaches or detaches controllers. -/
  | namespaceAttachment (p : Port) (cid : BitVec 16) (nsid : BitVec 32) (detach : Bool) (ctrls : BitVec 2)
  /-- KEY_DELIVER (R521): Security Send SPSP 0x0001 delivers and checks a wrapped namespace key. -/
  | keyDeliver (p : Port) (cid : BitVec 16) (payload : List Byte)
  /-- KEK_INSTALL (R520): Security Send SPSP 0x0002 installs a new key-encryption key. -/
  | kekInstall (p : Port) (cid : BitVec 16) (payload : List Byte)
  /-- KEY_PURGE (R521): Security Send SPSP 0x0003 clears key slots. -/
  | keyPurge (p : Port) (cid : BitVec 16) (nsid : BitVec 32)
  /-- SECURITY_RECEIVE (R521): Security Receive returns protocol lists or the key status. -/
  | securityReceive (p : Port) (cid : BitVec 16) (proto : BitVec 8) (spsp : BitVec 16)
  /-- SANITIZE (R524): Sanitize with Crypto Erase starts the sanitize steps. -/
  | sanitize (p : Port) (cid : BitVec 16) (cdw10 : Word)
  /-- SANITIZE_STEP_DONE (R525): A sanitize step ends and the next starts, until DONE is programmed. -/
  | sanitizeStepDone (ok : Bool)
  /-- SANITIZE_RESUME (R526): At MOUNTED, a START without DONE resumes the sanitize. -/
  | sanitizeResume
  /-- MOUNT (R405): Vendor command Mount enters MOUNTING in PRIMED with a seated cartridge, or is refused. -/
  | mount (p : Port) (cid : BitVec 16) (cdw10 : Word)
  /-- MOUNT_STEP_DONE (R549): A mount step ends and the next begins, up to MOUNTED. -/
  | mountStepDone
  /-- ATTIC_PART1_DONE (R550): The primary Attic copies are read and the mount goes on or extends. -/
  | atticPart1Done
  /-- ATTIC_PART2_DONE (R552): The other copies are read after MOUNTED and stale copies are repaired. -/
  | atticPart2Done
  /-- RESYNC_DONE (R323): Resynchronisation resolves every stripe of the scan set. -/
  | resyncDone
  /-- MOUNT_FAILURE (R549): A mount step finds a failure and the state goes to PARKING. -/
  | mountFailure (cause : Fin 3)
  /-- UNMOUNT (R406): Vendor command Unmount commits stripes, writes records and parks. -/
  | unmount (p : Port) (cid : BitVec 16) (cdw10 : Word)
  /-- UNMOUNT_STEP_DONE (R556): An Unmount step ends and the next begins, until PRIMED. -/
  | unmountStepDone
  /-- CALIBRATE (R407): Vendor command Calibrate makes the request CAL_CTL would make. -/
  | calibrate (p : Port) (cid : BitVec 16) (cdw10 : Word)
  /-- PATROL_QUERY (R404): Vendor command Patrol action 0 returns HLT_STAT. -/
  | patrolQuery (p : Port) (cid : BitVec 16)
  /-- PATROL_PAUSE (R407): Vendor command Patrol action 1 sets HLT_CTRL.PAUSE. -/
  | patrolPause (p : Port) (cid : BitVec 16)
  /-- PATROL_RESUME (R407): Vendor command Patrol action 2 clears HLT_CTRL.PAUSE. -/
  | patrolResume (p : Port) (cid : BitVec 16)
  /-- PATROL_RESTART (R407): Vendor command Patrol action 3 restarts the lap. -/
  | patrolRestart (p : Port) (cid : BitVec 16)
  /-- CUSTODY_QUERY (R408): Vendor command Custody action 0 returns a resource's custodian. -/
  | custodyQuery (p : Port) (cid : BitVec 16) (nsid : BitVec 32)
  /-- CUSTODY_REQUEST (R408): Vendor command Custody action 1 enters a request into arbitration. -/
  | custodyRequest (p : Port) (cid : BitVec 16) (nsid : BitVec 32) (target : Fin 4)
  /-- MODE (R409): Vendor command Mode stages SYS_MODE_REQ and arms it in ASAP mode. -/
  | mode (p : Port) (cid : BitVec 16) (cdw10 : Word)
  /-- UNSUPPORTED_OPCODE (R382): An unsupported admin or I/O opcode completes with Invalid Command Opcode. -/
  | unsupportedOpcode (p : Port) (qid : BitVec 16) (cid : BitVec 16) (op : BitVec 8)
  /-- FLUSH (R392): I/O Flush commits partly filled stripes short and completes once they commit. -/
  | flush (c : IoCmd)
  /-- WRITE (R392): I/O Write gathers data into stripes and completes at their commit. -/
  | write (c : IoCmd) (data : List Nat) (ls : List LineOutcome)
  /-- READ (R395): I/O Read returns data, zeros or an error status. -/
  | read (c : IoCmd) (fua : Bool) (os : List BlockRead)
  /-- WRITE_ZEROES (R391): I/O Write Zeroes deallocates units, completing after its MAPCKPT verifies. -/
  | writeZeroes (c : IoCmd)
  /-- DATASET_MANAGEMENT (R391): I/O Dataset Management deallocates units at once. -/
  | datasetManagement (c : IoCmd) (ad : Bool) (ranges : List (Nat × Nat))
  /-- VERIFY (R391): I/O Verify reads and decodes without transfer. -/
  | verify (c : IoCmd)
  /-- ZONE_OPEN (R394): Zone Management Send Open opens a zone. -/
  | zoneOpen (c : IoCmd) (all : Bool)
  /-- ZONE_CLOSE (R394): Zone Management Send Close closes a zone. -/
  | zoneClose (c : IoCmd) (all : Bool)
  /-- ZONE_FINISH (R394): Zone Management Send Finish commits the open stripe short and makes the zone Full. -/
  | zoneFinish (c : IoCmd) (all : Bool)
  /-- ZONE_RESET (R394): Zone Management Send Reset empties a zone, completing after its ZONECKPT verifies. -/
  | zoneReset (c : IoCmd) (all : Bool)
  /-- REPORT_ZONES (R391): Zone Management Receive reports the zones and their write pointers. -/
  | reportZones (c : IoCmd) (opt : Fin 8) (len : Nat)
  /-- ZONE_APPEND (R393): I/O Zone Append takes SLBA from the submission pointer. -/
  | zoneAppend (c : IoCmd) (data : List Nat) (ls : List LineOutcome)
  /-- RANGE_LOCK_RELEASE (R396): A command completes and the commands waiting on its range-lock entry proceed. -/
  | rangeLockRelease
  /-- BAR2_READ (R417): A BAR2 read reaches buffer memory through the DIAG region. -/
  | bar2Read (p : Port) (off : BitVec 32) (reach : Fin 16385) (o : BlockRead) (l : LineOutcome)
  /-- BAR2_WRITE (R417): A BAR2 write from the custody port writes buffer memory, or is discarded. -/
  | bar2Write (p : Port) (off : BitVec 32) (data : List Byte) (reach : Fin 16385) (os : List BlockRead) (ls : List LineOutcome)
  /-- SWEEP_COMPLETE (R422): The power-up sweep finishes and MEM becomes READY. -/
  | sweepComplete (pulls : Nat)
  /-- SCRUB_SLOT (R424): In a granted scrub slot MEM reads the next blocks and corrects them. -/
  | scrubSlot (os : List BlockRead)
  /-- SCRUB_LAP_END (R424): A scrub lap ends and the next starts at block 0. -/
  | scrubLapEnd (lap : Nat)
  /-- CE_BUCKET_LEAK (R420): Every LEAK seconds the CE bucket level decreases by 1. -/
  | ceBucketLeak
  /-- MEMORY_ERROR_WINDOW (R501): A one-second window reaches UELIM or ADDRLIM and a safe stop follows. -/
  | memoryErrorWindow (n : Nat)
  /-- REFRESH_RATE_POLL (R414): Every 16 ms MEM reads MR4 and sets the refresh interval. -/
  | refreshRatePoll (rates : List (BitVec 8))
  /-- LARDER_WAY_FAULT (R429): A way is declared faulty, stops allocating and is cleaned. -/
  | larderWayFault (w : Way) (line : BitVec 26) (dirty : Bool)
  /-- LARDER_WAY_CE_WINDOW (R428): WAYCE correctable errors in one second declare a way faulty. -/
  | larderWayCeWindow (w : Way) (k n : Nat) (block : BitVec 28)
  /-- LARDER_WAY_CLEANED (R429): A way's cleaning ends and it is powered down. -/
  | larderWayCleaned (w : Way)
  /-- LRD_WAY_OFFLINE (R431): LRD_WAYCTL OFFLINE cleans a way and powers it down, or is refused. -/
  | lrdWayOffline (p : Port) (v : Word)
  /-- LRD_WAY_RESTORE (R431): LRD_WAYCTL RESTORE powers a way and runs its BIST. -/
  | lrdWayRestore (p : Port) (v : Word)
  /-- LRD_WAY_BIST_DONE (R431): A way's BIST ends and the way is initialised or stays offline. -/
  | lrdWayBistDone (pass : Bool)
  /-- LRD_DISABLE (R432): A write of 1 to LRD_CTL.DISABLE starts cleaning the Larder. -/
  | lrdDisable (p : Port) (v : Word)
  /-- LRD_ENABLE (R432): A write of 0 to LRD_CTL.DISABLE returns the Larder to ENABLED. -/
  | lrdEnable (p : Port) (v : Word)
  /-- LARDER_DISABLED (R432): Every dirty line has been written back; the ways power down and STATE becomes DISABLED. -/
  | larderDisabled
  /-- NOP (R437): Microword NOP does nothing. -/
  | nop (q : Seq) (w : Microword)
  /-- MOV (R437): Microword MOV sets rd to operand B. -/
  | mov (q : Seq) (w : Microword)
  /-- ADD (R437): Microword ADD adds and sets the flags. -/
  | add (q : Seq) (w : Microword)
  /-- SUB (R437): Microword SUB subtracts and sets the flags. -/
  | sub (q : Seq) (w : Microword)
  /-- AND (R437): Microword AND. -/
  | and (q : Seq) (w : Microword)
  /-- OR (R437): Microword OR. -/
  | or (q : Seq) (w : Microword)
  /-- XOR (R437): Microword XOR. -/
  | xor (q : Seq) (w : Microword)
  /-- SHL (R437): Microword SHL shifts left. -/
  | shl (q : Seq) (w : Microword)
  /-- SHR (R437): Microword SHR shifts right logically. -/
  | shr (q : Seq) (w : Microword)
  /-- CMP (R437): Microword CMP sets the flags of ra − B. -/
  | cmp (q : Seq) (w : Microword)
  /-- LD (R438): Microword LD reads a register of the access set. -/
  | ld (q : Seq) (w : Microword)
  /-- ST (R438): Microword ST writes a register of the access set. -/
  | st (q : Seq) (w : Microword)
  /-- DEQ (R437): Microword DEQ takes a descriptor from an input queue. -/
  | deq (q : Seq) (w : Microword)
  /-- ENQ (R437): Microword ENQ appends a descriptor, waiting while the queue is full. -/
  | enq (q : Seq) (w : Microword)
  /-- WAITQ (R437): Microword WAITQ waits until an input queue is not empty. -/
  | waitq (q : Seq) (w : Microword)
  /-- WAITA (R437): Microword WAITA submits a request to the angle scheduler and waits. -/
  | waita (q : Seq) (w : Microword) (cls : EvClass) (owner : Fin 28) (target : Nat) (len : Nat) (rank : Fin 7) (exempt : Bool)
  /-- BAR (R439): Microword BAR waits at a barrier over the named sequencers. -/
  | bar (q : Seq) (w : Microword)
  /-- CALL (R437): Microword CALL pushes and branches when its condition holds. -/
  | call (q : Seq) (w : Microword)
  /-- RET (R437): Microword RET pops and branches when its condition holds. -/
  | ret (q : Seq) (w : Microword)
  /-- BR (R437): Microword BR branches when its condition holds. -/
  | br (q : Seq) (w : Microword)
  /-- MCHK (R443): Microword MCHK raises a machine check with cause ASSERT. -/
  | mchk (q : Seq) (w : Microword)
  /-- QUEUE_WAIT_END (R437): A waiting queue becomes ready and the waiting microword proceeds. -/
  | queueWaitEnd (q : Seq) (i : Fin 8) (desc : List (BitVec 24))
  /-- BARRIER_COMPLETE (R36): The last participant arrives and the barrier completes after 4 × ⌈log₂ n⌉ cycles. -/
  | barrierComplete (mask : BitVec 6)
  /-- ANGLE_GRANT (R33): The angle scheduler grants or refuses a submitted request. -/
  | angleGrant (idx : Nat)
  /-- MACHINE_CHECK (R443): A sequencer stops on a machine-check cause and a safe stop with cause 0x31 follows. -/
  | machineCheck (q : Seq) (cause : Fin 2) (scan : Option (BitVec 14))
  /-- ROM_SCAN_LAP (R444): The ROM parity scan completes a lap. -/
  | romScanLap
  /-- DMA_START (R446): DMA_CTRL.START starts a channel, or is refused. -/
  | dmaStart (p : Port) (c : Chan) (v : Word)
  /-- DMA_PAUSE (R449): DMA_CTRL.PAUSE stops new reads and drains to PAUSED. -/
  | dmaPause (p : Port) (c : Chan) (v : Word) (out : Nat)
  /-- DMA_RESUME (R449): A write of 0 to DMA_CTRL.PAUSE resumes a paused channel. -/
  | dmaResume (p : Port) (c : Chan) (v : Word)
  /-- DMA_ABORT (R449): DMA_CTRL.ABORT stops a channel with ERR ABORTED. -/
  | dmaAbort (p : Port) (c : Chan) (v : Word)
  /-- DMA_HALF (R447): The halfway read-back completes and HALF sets. -/
  | dmaHalf (c : Chan)
  /-- DMA_DONE (R447): The final read-back completes and DONE sets, or a circular channel wraps. -/
  | dmaDone (c : Chan)
  /-- DMA_ERROR (R450): An error completion, poison, bus error or port reset ends a channel. -/
  | dmaError (c : Chan) (err : Fin 3) (o : BlockRead) (l : LineOutcome)
  /-- DMA_FIFO_PACKET (R446): A channel with a FIFO source moves each packet as it enters. -/
  | dmaFifoPacket (c : Chan)
  /-- FIF_DROP (R454): A write of FIF_DROP discards the rest of a started packet. -/
  | fifDrop (p : Port) (v : Word)
  /-- FIF_DATA_READ (R454): A read of FIF_DATA returns the next word and advances the read pointer. -/
  | fifDataRead (p : Port) (f : FifoId) (o : BlockRead)
  /-- FIF_TCFG_WRITE (R456): A write of FIF_TCFG starts, stops or retimes telemetry sampling. -/
  | fifTcfgWrite (p : Port) (v : Word)
  /-- TELEMETRY_SAMPLE (R456): At every PERIOD-th tick, FIF samples the selected registers into the telemetry FIFO. -/
  | telemetrySample
  /-- GOVERNOR_DEMAND (R485): Every PERIOD au, THM submits a demand to convert the die sensors. -/
  | governorDemand
  /-- THM_DEMAND (R485): A write of THM_DEMAND.GO submits a host temperature demand. -/
  | thmDemand (p : Port) (v : Word)
  /-- DIE_CONVERSION_DONE (R487): A conversion ends and THM updates the suspects, T_max, the rate, T_g and the stop checks. -/
  | dieConversionDone (codes : List (BitVec 16)) (us : Nat)
  /-- SENSOR_SUSPECT (R486): A sensor departs from its estimate for three demands and is marked suspect. -/
  | sensorSuspect (k : Fin 16) (code : BitVec 16)
  /-- DUTY_UPDATE (R488): A new lane duty takes effect at the next tick at angle word 0. -/
  | dutyUpdate
  /-- DIE_BAND_CHANGE (R491): The die band changes at the next tick and the factory trims switch. -/
  | dieBandChange
  /-- THERMAL_COMPARATOR_TRIP (R490): The 125 °C comparator trips the safety block. -/
  | thermalComparatorTrip
  /-- CEL_READ (R518): CEL_CMD READ reads one code word. -/
  | celRead (p : Port) (v : Word)
  /-- CEL_PROGRAM (R518): CEL_CMD PROGRAM programs one code word, or is refused. -/
  | celProgram (p : Port) (v : Word)
  /-- CEL_ERASE (R518): CEL_CMD ERASE erases one sector, or is refused. -/
  | celErase (p : Port) (v : Word)
  /-- CELLAR_OP_COMPLETE (R513): A Cellar read, program or erase ends and DONE sets. -/
  | cellarOpComplete (ok : Bool)
  /-- CELLAR_ERASE_REQUEST (R514): Two erased sectors remain ahead and the owner is asked to re-append its state. -/
  | cellarEraseRequest (ledger : Bool)
  /-- CEL_UNLOCK (R516): CEL_UNLOCK UNLOCK compares the password. -/
  | celUnlock (p : Port) (v : Word) (recent : Bool)
  /-- CEL_LOCK (R516): CEL_UNLOCK LOCK clears UNLOCKED. -/
  | celLock (p : Port) (v : Word)
  /-- CEL_SETPW (R516): CEL_UNLOCK SETPW stores a new password. -/
  | celSetpw (p : Port) (v : Word)
  /-- CEL_SETPROT (R516): CEL_UNLOCK SETPROT stores the protection bits. -/
  | celSetprot (p : Port) (v : Word)
  /-- DBG_UNLOCK (R540): A write of DBG_UNLOCK presents the password and starts the sequence of R527. -/
  | dbgUnlock (p : Port) (v : Word) (recent : Bool)
  /-- DEBUG_PORT_OPEN (R527): The Seal erase completes, DBGOPEN sets and the port opens. -/
  | debugPortOpen
  /-- IDCODE (R538): TAP instruction IDCODE selects the identification register. -/
  | idcode
  /-- SAMPLE_PRELOAD (R538): TAP instruction SAMPLE/PRELOAD selects the boundary register. -/
  | samplePreload (balls : List Bool) (cells : List Bool)
  /-- EXTEST (R539): TAP instruction EXTEST drives the boundary, freezing first in BARE. -/
  | extest (balls : List Bool) (cells : List Bool)
  /-- CLAMP (R539): TAP instruction CLAMP holds the boundary with bypass selected. -/
  | clamp
  /-- HIGHZ (R539): TAP instruction HIGHZ floats the outputs. -/
  | highz
  /-- TAP_UNLOCK (R540): TAP instruction UNLOCK takes a password at Update-DR. -/
  | tapUnlock (pw : BitVec 64) (recent : Bool)
  /-- DSTAT (R538): TAP instruction DSTAT captures DBG_STAT. -/
  | dstat
  /-- SCANOUT (R533): TAP instruction SCANOUT shifts the read-out chain in FROZEN. -/
  | scanout (capture : Bool) (n : Nat)
  /-- FULLRST (R543): TAP instruction FULLRST raises a full reset at Update-IR. -/
  | fullrst
  /-- TFREEZE (R530): TAP instruction TFREEZE freezes the device at Update-IR. -/
  | tfreeze
  /-- BYPASS (R538): TAP instruction BYPASS, or an unassigned code, selects the bypass register. -/
  | bypass (code : BitVec 8)
  /-- TRST (R542): TRST# resets the TAP controller only. -/
  | trst
  /-- FLT_HEAD_OFFLINE (R508): FLT_HEADCTL OFFLINE makes a head leave service without a fault, or is refused. -/
  | fltHeadOffline (p : Port) (v : Word)
  /-- FLT_HEAD_RESTORE (R508): FLT_HEADCTL RESTORE enumerates an out-of-service head. -/
  | fltHeadRestore (p : Port) (v : Word)
  /-- RAMPWAIT_END (R469): The first tick with no open write window after a mode change sets the new spindle target. -/
  | rampwaitEnd
  /-- HEAD_LEAVE_DONE (R470): A leaving head completes its span, read-back, hand-off and park. -/
  | headLeaveDone (h : Head)
  /-- HEAD_JOIN_DONE (R471): A joining head reaches ON_TRACK and STR plans work on it. -/
  | headJoinDone (h : Head)
  /-- READBACK_DONE (R472): The spans written under VERIFY 1 have been read back after a mode change. -/
  | readbackDone
  /-- REGISTER_WRITE (R24): A write to a vendor register with no row of its own takes effect from the custody port, or is discarded. -/
  | registerWrite (p : Port) (off : Nat) (v : Word) (whole : Bool) (out : Nat) (recent : Bool)
  /-- LO_REGISTER_READ (R21): A read of ANG_NOW_LO, SKT_COMMIT_LO or STR_WSEQ_LO latches its _HI partner. -/
  | loRegisterRead (p : Port) (which : Fin 3) (viaAlias : Bool)
  /-- ANG_LOCK_READ (R73): A read of ANG_LOCK clears LOSSCNT. -/
  | angLockRead (p : Port)
  /-- ANG_EVT_READ (R73): A read of ANG_EVT clears LATE. -/
  | angEvtRead (p : Port)
  /-- ANG_QWIN_READ (R73): A read of ANG_QWIN clears its window counts. -/
  | angQwinRead (p : Port)
  /-- SKT_CNT_READ (R122): A read of SKT_CNT clears its counts. -/
  | sktCntRead (p : Port)
  /-- OPU_HSTAT_READ (R172): A read of OPU_HSTAT clears LINKERR. -/
  | opuHstatRead (p : Port) (h : Head)
  /-- OPU_LINKRSP_READ (R172): A read of OPU_LINKRSP clears DONE. -/
  | opuLinkrspRead (p : Port) (h : Head)
  /-- OPU_GSTAT_READ (R172): A read of OPU_GSTAT clears TRIPS. -/
  | opuGstatRead (p : Port)
  /-- SRV_LSTAT_READ (R191): A read of SRV_LSTAT clears HOLDS. -/
  | srvLstatRead (p : Port) (l : Loop)
  /-- SRV_ARITH_READ (R191): A read of SRV_ARITH clears SATN and LOSTN. -/
  | srvArithRead (p : Port) (l : Loop)
  /-- SRV_HCNT_READ (R216): A read of SRV_HCNT clears its loss counts. -/
  | srvHcntRead (p : Port) (h : Head)
  /-- SRV_TQWIN_READ (R216): A read of SRV_TQWIN clears its window counts. -/
  | srvTqwinRead (p : Port) (h : Head)
  /-- SRV_SHKST_READ (R216): A read of SRV_SHKST clears EVENTS and PEAK. -/
  | srvShkstRead (p : Port)
  /-- SLD_CNT_READ (R243): A read of SLD_CNT clears its counts. -/
  | sldCntRead (p : Port) (h : Head)
  /-- SPN_DIST_READ (R244): A read of SPN_DIST clears its counts. -/
  | spnDistRead (p : Port)
  /-- CHN_LSTAT_READ (R274): A read of CHN_LSTAT clears FAILCHK. -/
  | chnLstatRead (p : Port) (l : Lane)
  /-- DET_HCNT_READ (R275): A read of DET_HCNT clears its counts. -/
  | detHcntRead (p : Port) (h : Head)
  /-- DET_PASS_READ (R275): A read of DET_PASS clears its counts. -/
  | detPassRead (p : Port) (h : Head)
  /-- CWD_QUEUE_READ (R301): A read of CWD_QUEUE clears PEAK. -/
  | cwdQueueRead (p : Port)
  /-- CWD_TAGCNT_READ (R301): A read of CWD_TAGCNT clears its counts. -/
  | cwdTagcntRead (p : Port)
  /-- CWD_CNT_READ (R301): A read of CWD_CNT clears its counts. -/
  | cwdCntRead (p : Port)
  /-- WRS_HSTAT_READ (R302): A read of WRS_HSTAT clears CLAMP. -/
  | wrsHstatRead (p : Port) (h : Head)
  /-- WRS_OPCST_READ (R302): A read of WRS_OPCST clears RUNS and FAILS. -/
  | wrsOpcstRead (p : Port) (h : Head)
  /-- WRS_VCNT_READ (R302): A read of WRS_VCNT clears its counts. -/
  | wrsVcntRead (p : Port) (h : Head)
  /-- STR_CNT_READ (R334): A read of STR_CNT clears its counts. -/
  | strCntRead (p : Port)
  /-- STR_RECON_READ (R334): A read of STR_RECON clears its counts. -/
  | strReconRead (p : Port)
  /-- STR_SLOW_READ (R334): A read of STR_SLOW clears its counts. -/
  | strSlowRead (p : Port)
  /-- STR_RB_READ (R334): A read of STR_RB clears DONE. -/
  | strRbRead (p : Port)
  /-- MAP_DF_READ (R335): A read of MAP_DF clears its count. -/
  | mapDfRead (p : Port)
  /-- MAP_DFMAX_READ (R335): A read of MAP_DFMAX clears the longest wait. -/
  | mapDfmaxRead (p : Port)
  /-- MAP_CKPT_READ (R335): A read of MAP_CKPT clears its counts. -/
  | mapCkptRead (p : Port)
  /-- MAP_CLEAN_READ (R335): A read of MAP_CLEAN clears its count. -/
  | mapCleanRead (p : Port)
  /-- HLT_REFQ_READ (R359): A read of HLT_REFQ clears DROP. -/
  | hltRefqRead (p : Port)
  /-- HLT_CNT_READ (R359): A read of HLT_CNT clears its counts. -/
  | hltCntRead (p : Port)
  /-- HLT_LEDG_READ (R359): A read of HLT_LEDG clears DELTAS. -/
  | hltLedgRead (p : Port)
  /-- CAL_CNT_READ (R374): A read of CAL_CNT clears its counts. -/
  | calCntRead (p : Port)
  /-- HST_PORT_READ (R413): A read of HST_PORT clears LINKDOWNS. -/
  | hstPortRead (p : Port) (x : Port)
  /-- HST_INFL_READ (R413): A read of HST_INFL clears PEAK. -/
  | hstInflRead (p : Port) (x : Port)
  /-- HST_CUST_READ (R413): A read of HST_CUST clears DISCARDS. -/
  | hstCustRead (p : Port)
  /-- HST_RLOCK_READ (R413): A read of HST_RLOCK clears STALLS. -/
  | hstRlockRead (p : Port)
  /-- HST_ERRCNT_READ (R413): A read of HST_ERRCNT clears its counts. -/
  | hstErrcntRead (p : Port)
  /-- MEM_SWEEP_READ (R434): A read of MEM_SWEEP clears PULLS. -/
  | memSweepRead (p : Port)
  /-- MEM_CE_BUCKET_READ (R434): A read of MEM_CE_BUCKET clears OVFN. -/
  | memCeBucketRead (p : Port)
  /-- MEM_CECNT_READ (R434): A read of MEM_CECNT clears its count. -/
  | memCecntRead (p : Port)
  /-- MEM_UECNT_READ (R434): A read of MEM_UECNT clears its counts. -/
  | memUecntRead (p : Port)
  /-- MEM_BAR2_READ (R434): A read of MEM_BAR2 clears DISCARDS. -/
  | memBar2Read (p : Port)
  /-- LRD_HITS_READ (R435): A read of LRD_HITS clears its count. -/
  | lrdHitsRead (p : Port)
  /-- LRD_MISSES_READ (R435): A read of LRD_MISSES clears its count. -/
  | lrdMissesRead (p : Port)
  /-- LRD_SEQCNT_READ (R435): A read of LRD_SEQCNT clears its count. -/
  | lrdSeqcntRead (p : Port)
  /-- LRD_ERR_READ (R435): A read of LRD_ERR clears its counts. -/
  | lrdErrRead (p : Port)
  /-- SEQ_HITS_READ (R458): A read of SEQ_HITS clears its count. -/
  | seqHitsRead (p : Port) (q : Seq)
  /-- FIF_LOST_READ (R460): A read of FIF_LOST clears its count. -/
  | fifLostRead (p : Port) (f : FifoId)
  /-- SYS_MODE_ST_READ (R476): A read of SYS_MODE_ST clears CHANGES. -/
  | sysModeStRead (p : Port)
  /-- PWR_VIN_READ (R493): A read of PWR_VIN returns MIN to 0xFFFF. -/
  | pwrVinRead (p : Port)
  /-- PWR_EVT_READ (R493): A read of PWR_EVT clears HOLDUP and BROWNOUT. -/
  | pwrEvtRead (p : Port)
  /-- THM_CNT_READ (R494): A read of THM_CNT clears its counts. -/
  | thmCntRead (p : Port)
  /-- FLT_STAT_READ (R510): A read of FLT_STAT clears its counts. -/
  | fltStatRead (p : Port)
  /-- CEL_CNT_READ (R528): A read of CEL_CNT clears its counts. -/
  | celCntRead (p : Port)
  /-- SEC_CNT_READ (R529): A read of SEC_CNT clears its counts. -/
  | secCntRead (p : Port)
  /-- PATROL_IDLE_START (R354): Under PATROL 1, after HLT_PCFG.IDLEMS ms with no host I/O command outstanding on either port, HLT starts requesting patrol reads. -/
  | patrolIdleStart
  /-- VIN_SAMPLE (R480): Every 10 µs AON samples VIN into PWR_VIN.NOW and lowers PWR_VIN.MIN when the sample is lower. -/
  | vinSample (mv : BitVec 16)
  /-- DMA_READ_COMPLETION (R449): A read completion for a DMA channel's request arrives; its data is written, SRC, DST and LEN advance, and a pausing channel sets PAUSED once its issued reads have drained. -/
  | dmaReadCompletion (c : Chan) (n : Nat) (data : List Byte) (left : Nat)
  deriving DecidableEq, Repr

end Sys2Proof
end

