-- ==== Sys2Proof/Config.lean ====
section
/-! DEFINITION. What an implementation fixes and the free values. Nothing here has a body that a proof could look into:
a statement that mentions one of these holds for every value of it. -/

namespace Sys2Proof

/-- A free value: the `n`-th value the spec leaves open in a run (`State.freeCtr` counts them). Its user takes it
modulo the width of what it fills. DESIGN CHOICE, log entry 1. -/
opaque Config.freeValue : Nat → Nat

/-- The temperature grade the fuses hold: R589 gives the codes 0x1 and 0x2; the spec leaves the part's own grade open.
DESIGN CHOICE, log entry 2. -/
opaque Config.gradeTwo : Bool

/-- The number of fractional bits of the sled planner's 48-bit fixed point (R221), which the spec does not give.
DESIGN CHOICE, log entry 4. -/
opaque Config.planFrac : Nat

/-- The retention acceleration of a whole °C, in 2⁻¹⁶: the entry of the fixed table of R347, whose rounding the spec does not give.
DESIGN CHOICE, log entry 85. -/
opaque Config.agingFactor : Int → Nat

/-- The wiring of descriptor queues between the sequencers, fixed in hardware and given nowhere (R437): output queue `i` of sequencer
`q`, numbered 8 q + i, feeds the input queue of that number less one; 0 where a block takes its descriptors. DESIGN CHOICE, log entry
170. -/
opaque Config.queueWire : Nat → Nat

/-- The estimated access time of a partial read or a piece (R465): seek, layer jump and rotational wait together, which the spec does not
give as a figure. Its arguments are the head's layer and base track, the angle, and the PBA. DESIGN CHOICE, log entry 182. -/
opaque Config.accessTime : Nat → Nat → Nat → Nat → Nat

end Sys2Proof
end

