-- ==== Sys2Proof/Machine/Fields.lean ====
section
/-! DEFINITION. The register file as data: a sparse map from bit addresses to numbers in one canonical form, and the
description of one register field (R20 to R23): where it lies, its width, its access code, what sets it, its Reset
column and the range its table gives. -/

namespace Sys2Proof.Machine

/-- A map from keys to numbers: keys strictly rising, no entry with value 0; an unlisted key reads as 0. -/
abbrev Sparse := List (Nat × Nat)

/-- The canonical form of `Sparse`. -/
def Sparse.wf : Sparse → Bool
  | [] => true
  | [(_, v)] => v != 0
  | (k, v) :: (k', v') :: m => v != 0 && k < k' && Sparse.wf ((k', v') :: m)

def Sparse.get : Sparse → Nat → Nat
  | [], _ => 0
  | (k', v') :: m, k => if k = k' then v' else Sparse.get m k

/-- Insert a value that is not 0 at `k`. -/
def Sparse.insert : Sparse → Nat → Nat → Sparse
  | [], k, v => [(k, v)]
  | (k', v') :: m, k, v =>
    if k < k' then (k, v) :: (k', v') :: m
    else if k = k' then (k, v) :: m
    else (k', v') :: Sparse.insert m k v

/-- Store `v` at `k`; storing 0 removes the entry. -/
def Sparse.set (m : Sparse) (k v : Nat) : Sparse :=
  if v = 0 then m.filter fun p => p.1 != k else Sparse.insert m k v
/-- What a key counts grows by n. -/
def addTo (m : Sparse) (k n : Nat) : Sparse := Sparse.set m k (Sparse.get m k + n)

/-- Buffer memory (R416): addresses strictly rising, no entry with byte 0, which an unlisted address holds after the sweep
(R422). -/
abbrev Memory := List Host.Cell

/-- The canonical form of `Memory`. -/
def Memory.wf : Memory → Bool
  | [] => true
  | [(_, v)] => v != 0#8
  | (a, v) :: (b, w) :: m => v != 0#8 && a < b && Memory.wf ((b, w) :: m)

def Memory.read : Memory → Nat → Byte
  | [], _ => 0#8
  | (b, v) :: m, a => if a = b then v else Memory.read m a

/-- Insert a byte that is not 0 at `a`. -/
def Memory.insert : Memory → Nat → Byte → Memory
  | [], a, v => [(a, v)]
  | (b, w) :: m, a, v =>
    if a < b then (a, v) :: (b, w) :: m
    else if a = b then (a, v) :: m
    else (b, w) :: Memory.insert m a v

/-- Store a byte; storing 0 removes the entry. -/
def Memory.write (m : Memory) (a : Nat) (v : Byte) : Memory :=
  if v = 0#8 then m.filter fun p => p.1 != a else Memory.insert m a v

/-- Store bytes from an address upward. -/
def Memory.writes (m : Memory) (a : Nat) : List Byte → Memory
  | [] => m
  | v :: l => Memory.writes (m.write a v) (a + 1) l

/-- Access codes (Table 0.6; no register of the map uses W1S). -/
inductive Acc
  | rw | ro | wo | w1c | rc | rs
  deriving DecidableEq, Repr

/-- The Set by column (R23). -/
inductive SetBy
  | canvas | run | hw
  deriving DecidableEq, Repr

/-- One field of one register. `key` is its bit address: 8 × byte offset in the vendor window + its lowest bit. -/
structure Fld where
  key : Nat
  width : Nat
  acc : Acc
  setBy : SetBy
  reset : Nat
  signed : Bool := false
  lo : Int := 0
  hi : Int := 0
  ranged : Bool := false
  deriving DecidableEq, Repr

def fld (off lsb width : Nat) (acc : Acc) (setBy : SetBy) (reset : Nat) : Fld :=
  { key := 8 * off + lsb, width, acc, setBy, reset }

def sgn (f : Fld) : Fld := { f with signed := true }

def rng (f : Fld) (lo hi : Int) : Fld := { f with lo, hi, ranged := true }

/-- The offset of the field's register and its lowest bit. -/
def Fld.off (f : Fld) : Nat := f.key / 32 * 4
def Fld.lsb (f : Fld) : Nat := f.key % 32

/-- The same field `d` bytes further on (another instance of its register). -/
def Fld.shift (f : Fld) (d : Nat) : Fld := { f with key := f.key + 8 * d }

/-- The largest value of a field, at which a saturating count stops. -/
def Fld.max (f : Fld) : Nat := 2 ^ f.width - 1

/-- The bits of the field inside its 32-bit word. -/
def Fld.mask (f : Fld) : Nat := f.max * 2 ^ f.lsb

/-- Two's complement reading of the low `w` bits of `v`. -/
def toSigned (w v : Nat) : Int :=
  let u := v % 2 ^ w
  if 2 * u < 2 ^ w then (u : Int) else (u : Int) - (2 ^ w : Nat)

/-- The low `w` bits of an integer in two's complement. -/
def ofSigned (w : Nat) (i : Int) : Nat := (i % (2 ^ w : Nat)).toNat

/-- A field's value as the number its range speaks of. -/
def Fld.num (f : Fld) (v : Nat) : Int := if f.signed then toSigned f.width v else (v % 2 ^ f.width : Nat)

/-- The range check of one field (its register table's range). -/
def Fld.inRange (f : Fld) (v : Nat) : Bool :=
  !f.ranged || (f.lo ≤ f.num v && f.num v ≤ f.hi)

/-- A register of the index with all its instances: base offset, first count and stride, second count and stride,
and its assigned fields at instance (0, 0). -/
structure Grp where
  base : Nat
  n1 : Nat
  s1 : Nat
  n2 : Nat
  s2 : Nat
  flds : List Fld
  deriving DecidableEq, Repr

/-- How far into the register's instances an offset lies, if the register has an instance there. -/
def Grp.disp (g : Grp) (off : Nat) : Option Nat :=
  if g.base ≤ off then
    let d := off - g.base
    if d / g.s1 < g.n1 && d % g.s1 / g.s2 < g.n2 && d % g.s1 % g.s2 = 0 then some d else none
  else none

/-- The register file: the difference of every field from its Reset column, keyed by bit address. -/
abbrev RegFile := Sparse

/-- A field's value (its Reset column where nothing is listed). -/
def RegFile.read (r : RegFile) (f : Fld) : Nat := Nat.xor (Sparse.get r f.key) f.reset

/-- Set a field; the value is taken modulo the field's width. -/
def RegFile.write (r : RegFile) (f : Fld) (v : Nat) : RegFile :=
  Sparse.set r f.key (Nat.xor (v % 2 ^ f.width) f.reset)

end Sys2Proof.Machine
end

