-- ==== Sys2Proof/Machine/RegMap.lean ====
section
/-! DEFINITION. The fields of every vendor register, one definition a field, written from the register tables of the
chapters (bits, access, reset value, Set by, range) at the offsets and strides of Tables 24.4 to 24.32 (R561, R568).
An indexed register takes its instance number (head, loop, lane, port, channel, layer ...) as argument; a second
argument counts within the instance. -/

namespace Sys2Proof.Machine.R

def SYS_ID_PART : Fld := fld 0x100000 16 16 .ro .hw 0x9648
def SYS_ID_STEP : Fld := fld 0x100000 8 8 .ro .hw 176
def SYS_ID_GRADE : Fld := fld 0x100000 4 4 .ro .hw 0
def SYS_STATE_RSMREJ : Fld := fld 0x100004 16 1 .w1c .hw 0
def SYS_STATE_CAUSE : Fld := fld 0x100004 8 8 .ro .hw 0
def SYS_STATE_PREV : Fld := fld 0x100004 4 4 .ro .hw 0
def SYS_STATE_STATE : Fld := fld 0x100004 0 4 .ro .hw 1
def SYS_CTRL_SAFESTOP : Fld := fld 0x100008 1 1 .wo .run 0
def SYS_CTRL_RESUME : Fld := fld 0x100008 0 1 .wo .run 0
def SYS_DOMAIN_HEAD : Fld := fld 0x10000c 7 4 .ro .hw 0
def SYS_DOMAIN_MOT : Fld := fld 0x10000c 6 1 .ro .hw 0
def SYS_DOMAIN_MEM : Fld := fld 0x10000c 5 1 .ro .hw 0
def SYS_DOMAIN_LRD : Fld := fld 0x10000c 4 1 .ro .hw 1
def SYS_DOMAIN_DEC : Fld := fld 0x10000c 3 1 .ro .hw 0
def SYS_DOMAIN_CORE : Fld := fld 0x10000c 2 1 .ro .hw 0
def SYS_DOMAIN_HOSTB : Fld := fld 0x10000c 1 1 .ro .hw 1
def SYS_DOMAIN_HOSTA : Fld := fld 0x10000c 0 1 .ro .hw 1
def ANG_NOW_LO_ANGLE : Fld := fld 0x200000 0 24 .rs .hw 0
def ANG_NOW_HI_REV : Fld := fld 0x200004 0 24 .ro .hw 0
def ANG_SPEED_RATE : Fld := fld 0x200008 0 24 .ro .hw 0x20365
def ANG_LOCK_LOSSCNT : Fld := fld 0x20000c 24 8 .rc .hw 0
def ANG_LOCK_MARKH : Fld := fld 0x20000c 20 4 .ro .hw 0
def ANG_LOCK_CAND : Fld := fld 0x20000c 16 4 .ro .hw 0
def ANG_LOCK_REF : Fld := fld 0x20000c 8 2 .ro .hw 0
def ANG_LOCK_RAMP : Fld := fld 0x20000c 7 1 .ro .hw 0
def ANG_LOCK_SLEW : Fld := fld 0x20000c 6 1 .ro .hw 0
def ANG_LOCK_INDEXED : Fld := fld 0x20000c 5 1 .ro .hw 0
def ANG_LOCK_SRC : Fld := fld 0x20000c 0 2 .ro .hw 0
def ANG_FREE_RATE : Fld := rng (fld 0x200010 0 24 .rw .canvas 0x20365) (65536) (196608)
def ANG_PLL_AMPMIN : Fld := rng (fld 0x200014 16 8 .rw .canvas 64) (32) (192)
def ANG_PLL_LOSSN : Fld := rng (fld 0x200014 12 4 .rw .canvas 4) (2) (15)
def ANG_PLL_LOCKN : Fld := rng (fld 0x200014 4 8 .rw .canvas 64) (16) (255)
def ANG_PLL_BW : Fld := rng (fld 0x200014 0 4 .rw .canvas 8) (6) (10)
def ANG_HOFF_VALID (i : Nat) : Fld := fld (0x200020 + 0x4 * i) 24 1 .ro .hw 0
def ANG_HOFF_OFFSET (i : Nat) : Fld := fld (0x200020 + 0x4 * i) 0 24 .ro .hw 0
def ANG_ALARM_LO_TGT : Fld := fld 0x200030 0 24 .rw .run 0
def ANG_ALARM_HI_TGT : Fld := fld 0x200034 0 24 .rw .run 0
def ANG_ALARM_ST_REFUSED : Fld := fld 0x200038 3 1 .w1c .hw 0
def ANG_ALARM_ST_LATE : Fld := fld 0x200038 2 1 .w1c .hw 0
def ANG_ALARM_ST_FIRED : Fld := fld 0x200038 1 1 .w1c .hw 0
def ANG_ALARM_ST_ARMED : Fld := fld 0x200038 0 1 .ro .hw 0
def ANG_EVT_LATE : Fld := fld 0x20003c 12 12 .rc .hw 0
def ANG_EVT_PEND : Fld := fld 0x20003c 0 11 .ro .hw 0
def ANG_JIT_JIT : Fld := fld 0x200040 0 24 .ro .hw 0
def ANG_CRB_CRB : Fld := fld 0x200044 0 24 .ro .hw 0
def ANG_WSNR_SNR : Fld := fld 0x200048 0 16 .ro .hw 0
def ANG_QWIN_DISCARD : Fld := fld 0x20004c 12 12 .rc .hw 0
def ANG_QWIN_ACCEPT : Fld := fld 0x20004c 0 12 .rc .hw 0
def CNV_CTRL_ABORT : Fld := fld 0x300000 2 1 .wo .run 0
def CNV_CTRL_APPLY : Fld := fld 0x300000 1 1 .wo .run 0
def CNV_CTRL_LOAD : Fld := fld 0x300000 0 1 .wo .run 0
def CNV_STATUS_STRAY : Fld := fld 0x300004 24 1 .w1c .hw 0
def CNV_STATUS_ERR : Fld := fld 0x300004 8 8 .ro .hw 0
def CNV_STATUS_PHASE : Fld := fld 0x300004 0 4 .ro .hw 0
def CNV_SRC_LO_ADDR : Fld := fld 0x300008 2 30 .rw .run 0
def CNV_SRC_HI_ADDR : Fld := fld 0x30000c 0 32 .rw .run 0
def CNV_LEN_LEN : Fld := fld 0x300010 0 23 .rw .run 0
def CNV_ERRREC_REC : Fld := fld 0x300014 0 16 .ro .hw 0
def CNV_ERROFF_OFF : Fld := fld 0x300018 0 23 .ro .hw 0
def CNV_ID_ID : Fld := fld 0x30001c 0 32 .ro .hw 0
def CNV_IMGCRC_CRC : Fld := fld 0x300020 0 32 .ro .hw 0
def CNV_EDITS_COUNT : Fld := fld 0x300024 0 24 .ro .hw 0
def CNV_TIME_US : Fld := fld 0x300028 0 24 .ro .hw 0
def SKT_CTRL_AUTOINC : Fld := fld 0x400000 2 1 .rw .run 0
def SKT_CTRL_CANCEL : Fld := fld 0x400000 1 1 .wo .run 0
def SKT_CTRL_CLEAR : Fld := fld 0x400000 0 1 .wo .run 0
def SKT_STAGE_ADDR_OFFSET : Fld := fld 0x400004 2 23 .rw .run 0
def SKT_STAGE_MASK_MASK : Fld := fld 0x400008 0 32 .rw .run 0xffffffff
def SKT_STAGE_VALUE : Fld := fld 0x40000c 0 32 .wo .run 0
def SKT_STATUS_STGERR : Fld := fld 0x400010 16 8 .ro .hw 0
def SKT_STATUS_COUNT : Fld := fld 0x400010 4 10 .ro .hw 0
def SKT_STATUS_PHASE : Fld := fld 0x400010 0 4 .ro .hw 0
def SKT_VARNISH_LO_TGT : Fld := fld 0x400014 0 24 .rw .run 0
def SKT_VARNISH_HI_ASAP : Fld := fld 0x400018 24 1 .rw .run 0
def SKT_VARNISH_HI_TGT : Fld := fld 0x400018 0 24 .rw .run 0
def SKT_RESULT_OVR : Fld := fld 0x40001c 25 1 .ro .hw 0
def SKT_RESULT_ENTRY : Fld := fld 0x40001c 16 9 .ro .hw 0
def SKT_RESULT_CODE : Fld := fld 0x40001c 8 8 .ro .hw 0
def SKT_RESULT_DONE : Fld := fld 0x40001c 0 1 .w1c .hw 0
def SKT_COMMIT_LO_ANGLE : Fld := fld 0x400020 0 24 .rs .hw 0
def SKT_COMMIT_HI_REV : Fld := fld 0x400024 0 24 .ro .hw 0
def SKT_CNT_ABORTS : Fld := fld 0x400028 12 12 .rc .hw 0
def SKT_CNT_COMMITS : Fld := fld 0x400028 0 12 .rc .hw 0
def SYS_MEDIUM_ATTOK : Fld := fld 0x100100 18 6 .ro .hw 0
def SYS_MEDIUM_ATTSTALE : Fld := fld 0x100100 12 6 .ro .hw 0
def SYS_MEDIUM_FMT : Fld := fld 0x100100 4 4 .ro .hw 0
def SYS_MEDIUM_FORMATTED : Fld := fld 0x100100 3 1 .ro .hw 0
def SYS_MEDIUM_MINFO_OK : Fld := fld 0x100100 2 1 .ro .hw 0
def SYS_MEDIUM_FOLEO : Fld := fld 0x100100 1 1 .ro .hw 0
def SYS_MEDIUM_VALID : Fld := fld 0x100100 0 1 .ro .hw 0
def SYS_MINFO_WORD (i : Nat) : Fld := fld (0x100200 + 0x4 * i) 0 32 .ro .hw 0
def OPU_HSTAT_LINKERR (i : Nat) : Fld := fld (0x600000 + 0x200 * i) 24 8 .rc .hw 0
def OPU_HSTAT_LPERR (i : Nat) : Fld := fld (0x600000 + 0x200 * i) 16 1 .w1c .hw 0
def OPU_HSTAT_PSTAT (i : Nat) : Fld := fld (0x600000 + 0x200 * i) 12 4 .ro .hw 0
def OPU_HSTAT_LASERON (i : Nat) : Fld := fld (0x600000 + 0x200 * i) 6 6 .ro .hw 0
def OPU_HSTAT_LON (i : Nat) : Fld := fld (0x600000 + 0x200 * i) 5 1 .ro .hw 0
def OPU_HSTAT_INSVC (i : Nat) : Fld := fld (0x600000 + 0x200 * i) 4 1 .ro .hw 0
def OPU_HSTAT_LOFFREJ (i : Nat) : Fld := fld (0x600000 + 0x200 * i) 3 1 .w1c .hw 0
def OPU_HSTAT_ENUM (i : Nat) : Fld := fld (0x600000 + 0x200 * i) 0 3 .ro .hw 0
def OPU_ID_HWREV (i : Nat) : Fld := fld (0x600004 + 0x200 * i) 16 8 .ro .hw 0
def OPU_ID_MODEL (i : Nat) : Fld := fld (0x600004 + 0x200 * i) 0 16 .ro .hw 0
def OPU_TEMP_VALID (i : Nat) : Fld := fld (0x600008 + 0x200 * i) 16 1 .ro .hw 0
def OPU_TEMP_TEMP (i : Nat) : Fld := fld (0x600008 + 0x200 * i) 0 16 .ro .hw 0
def OPU_CTRL_LOFF (i : Nat) : Fld := fld (0x60000c + 0x200 * i) 0 1 .rw .run 0
def OPU_RDPWR_READ (i : Nat) : Fld := rng (fld (0x600010 + 0x200 * i) 0 16 .rw .canvas 80) (40) (160)
def OPU_LINKCMD_CMD (i : Nat) : Fld := fld (0x600014 + 0x200 * i) 24 4 .wo .run 0
def OPU_LINKCMD_ADDR (i : Nat) : Fld := fld (0x600014 + 0x200 * i) 16 8 .wo .run 0
def OPU_LINKCMD_DATA (i : Nat) : Fld := fld (0x600014 + 0x200 * i) 0 16 .wo .run 0
def OPU_LINKRSP_DONE (i : Nat) : Fld := fld (0x600018 + 0x200 * i) 29 1 .rc .hw 0
def OPU_LINKRSP_ERR (i : Nat) : Fld := fld (0x600018 + 0x200 * i) 28 1 .ro .hw 0
def OPU_LINKRSP_STATUS (i : Nat) : Fld := fld (0x600018 + 0x200 * i) 24 4 .ro .hw 0
def OPU_LINKRSP_DATA (i : Nat) : Fld := fld (0x600018 + 0x200 * i) 0 16 .ro .hw 0
def OPU_LVL_LEVEL (i : Nat) (j : Nat) : Fld := fld (0x600040 + 0x200 * i + 0x4 * j) 0 16 .ro .hw 0
def OPU_ROM_WORD (i : Nat) (j : Nat) : Fld := fld (0x600100 + 0x200 * i + 0x4 * j) 0 16 .ro .hw 0
def OPU_CFG_ENUMWAIT : Fld := rng (fld 0x600800 0 8 .rw .canvas 20) (1) (250)
def OPU_GSTAT_LSREN : Fld := fld 0x600804 8 1 .ro .hw 0
def OPU_GSTAT_TRIPS : Fld := fld 0x600804 0 8 .rc .hw 0
def SRV_UNIT_REFUSED : Fld := fld 0x500000 20 1 .w1c .hw 0
def SRV_UNIT_BISTFAIL : Fld := fld 0x500000 16 4 .ro .hw 0
def SRV_UNIT_SPAREOK : Fld := fld 0x500000 12 4 .ro .hw 0
def SRV_UNIT_OFFLINE : Fld := fld 0x500000 8 4 .ro .hw 0
def SRV_UNIT_FAULT : Fld := fld 0x500000 4 4 .w1c .hw 0
def SRV_UNIT_INSVC : Fld := fld 0x500000 0 4 .ro .hw 0
def SRV_UNITCTL_RESTORE : Fld := fld 0x500004 3 1 .wo .run 0
def SRV_UNITCTL_OFFLINE : Fld := fld 0x500004 2 1 .wo .run 0
def SRV_UNITCTL_UNIT : Fld := fld 0x500004 0 2 .wo .run 0
def SRV_LOAD_NOW (i : Nat) : Fld := fld (0x500010 + 0x4 * i) 16 9 .ro .hw 0
def SRV_LOAD_HOME (i : Nat) : Fld := fld (0x500010 + 0x4 * i) 0 9 .ro .hw 0
def SRV_SPB_BAND : Fld := fld 0x500020 0 2 .ro .hw 1
def SRV_LSTAT_HOLDS (i : Nat) : Fld := fld (0x500100 + 0x40 * i) 24 8 .rc .hw 0
def SRV_LSTAT_OOB (i : Nat) : Fld := fld (0x500100 + 0x40 * i) 16 8 .ro .hw 0
def SRV_LSTAT_UNIT (i : Nat) : Fld := fld (0x500100 + 0x40 * i) 8 2 .ro .hw 0
def SRV_LSTAT_LOST (i : Nat) : Fld := fld (0x500100 + 0x40 * i) 7 1 .w1c .hw 0
def SRV_LSTAT_SAT (i : Nat) : Fld := fld (0x500100 + 0x40 * i) 6 1 .w1c .hw 0
def SRV_LSTAT_CLIP (i : Nat) : Fld := fld (0x500100 + 0x40 * i) 5 1 .w1c .hw 0
def SRV_LSTAT_STATE (i : Nat) : Fld := fld (0x500100 + 0x40 * i) 0 3 .ro .hw 0
def SRV_ACT_SLOT2 (i : Nat) : Fld := fld (0x500104 + 0x40 * i) 16 8 .rw .canvas 0
def SRV_ACT_SLOT1 (i : Nat) : Fld := fld (0x500104 + 0x40 * i) 8 8 .rw .canvas 0
def SRV_ACT_SLOT0 (i : Nat) : Fld := fld (0x500104 + 0x40 * i) 0 8 .rw .canvas 0
def SRV_ARITH_SATN (i : Nat) : Fld := fld (0x500108 + 0x40 * i) 12 12 .rc .hw 0
def SRV_ARITH_LOSTN (i : Nat) : Fld := fld (0x500108 + 0x40 * i) 0 12 .rc .hw 0
def SRV_REF_REF (i : Nat) (j : Nat) : Fld := fld (0x500110 + 0x40 * i + 0x4 * j) 0 24 .ro .hw 0
def SRV_INNOV_E (i : Nat) (j : Nat) : Fld := fld (0x500120 + 0x40 * i + 0x4 * j) 0 24 .ro .hw 0
def SRV_OUT_CODE (i : Nat) (j : Nat) : Fld := fld (0x500130 + 0x40 * i + 0x4 * j) 0 16 .ro .hw 0
def SRV_PALDIR_VALID (i : Nat) : Fld := fld (0x501000 + 0x4 * i) 31 1 .ro .canvas 0
def SRV_PALDIR_SPEED (i : Nat) : Fld := fld (0x501000 + 0x4 * i) 29 2 .ro .canvas 0
def SRV_PALDIR_LOOP (i : Nat) : Fld := fld (0x501000 + 0x4 * i) 24 5 .ro .canvas 0
def SRV_PALDIR_WORDS (i : Nat) : Fld := fld (0x501000 + 0x4 * i) 15 9 .ro .canvas 0
def SRV_PALDIR_BASE (i : Nat) : Fld := fld (0x501000 + 0x4 * i) 0 14 .ro .canvas 0
def SRV_PAL_SIGN (i : Nat) : Fld := fld (0x510000 + 0x4 * i) 24 8 .rw .canvas 0
def SRV_PAL_COEF (i : Nat) : Fld := fld (0x510000 + 0x4 * i) 0 24 .rw .canvas 0
def SRV_HSTAT_INHC (i : Nat) : Fld := fld (0x520000 + 0x100 * i) 24 8 .ro .hw 0
def SRV_HSTAT_CONF (i : Nat) : Fld := fld (0x520000 + 0x100 * i) 16 1 .ro .hw 0
def SRV_HSTAT_INH (i : Nat) : Fld := fld (0x520000 + 0x100 * i) 15 1 .ro .hw 1
def SRV_HSTAT_LAND (i : Nat) : Fld := fld (0x520000 + 0x100 * i) 14 1 .ro .hw 0
def SRV_HSTAT_LAYER (i : Nat) : Fld := fld (0x520000 + 0x100 * i) 8 6 .ro .hw 0
def SRV_HSTAT_PHASE (i : Nat) : Fld := fld (0x520000 + 0x100 * i) 0 4 .ro .hw 0
def SRV_HTRK_GTRK (i : Nat) : Fld := fld (0x520004 + 0x100 * i) 0 18 .ro .hw 0
def SRV_HCNT_FLOSS (i : Nat) : Fld := fld (0x520008 + 0x100 * i) 24 8 .rc .hw 0
def SRV_HCNT_TLOSS (i : Nat) : Fld := fld (0x520008 + 0x100 * i) 16 8 .rc .hw 0
def SRV_HCNT_INHN (i : Nat) : Fld := fld (0x520008 + 0x100 * i) 8 8 .rc .hw 0
def SRV_HCNT_JFAIL (i : Nat) : Fld := fld (0x520008 + 0x100 * i) 0 8 .rc .hw 0
def SRV_HJUMP_US (i : Nat) : Fld := fld (0x52000c + 0x100 * i) 0 24 .ro .hw 0
def SRV_HCTRL_WINH (i : Nat) : Fld := fld (0x520010 + 0x100 * i) 0 1 .rw .run 0
def SRV_TRES_RES (i : Nat) : Fld := fld (0x520014 + 0x100 * i) 0 24 .ro .hw 0
def SRV_TFLR_FLR (i : Nat) : Fld := fld (0x520018 + 0x100 * i) 0 24 .ro .hw 0
def SRV_TQWIN_DISCARD (i : Nat) : Fld := fld (0x52001c + 0x100 * i) 12 12 .rc .hw 0
def SRV_TQWIN_ACCEPT (i : Nat) : Fld := fld (0x52001c + 0x100 * i) 0 12 .rc .hw 0
def SRV_TFG_SUMGAIN (i : Nat) : Fld := rng (fld (0x520020 + 0x100 * i) 0 24 .rw .canvas 0xf4240) (1) (16777215)
def SRV_TENB_ENB (i : Nat) : Fld := rng (fld (0x520024 + 0x100 * i) 0 16 .rw .canvas 150) (20) (200)
def SRV_TPP_APP (i : Nat) : Fld := fld (0x520028 + 0x100 * i) 0 16 .ro .hw 0
def SRV_SAP_CODE (i : Nat) (j : Nat) : Fld := fld (0x520040 + 0x100 * i + 0x4 * j) 0 16 .ro .hw 0
def SRV_FACQ_SUMTHR : Fld := rng (fld 0x520800 16 8 .rw .canvas 32) (1) (255)
def SRV_FACQ_FSPEED : Fld := rng (fld 0x520800 0 16 .rw .canvas 0x1388) (1000) (20000)
def SRV_FLIM_SUMLOSS : Fld := rng (fld 0x520804 16 8 .rw .canvas 40) (10) (80)
def SRV_FLIM_FLOSSN : Fld := rng (fld 0x520804 8 8 .rw .canvas 16) (4) (64)
def SRV_FLIM_TRIES : Fld := rng (fld 0x520804 0 8 .rw .canvas 3) (1) (8)
def SRV_JUMP_JRATE : Fld := rng (fld 0x520808 12 12 .rw .canvas 100) (10) (400)
def SRV_JUMP_FSETN : Fld := rng (fld 0x520808 0 12 .rw .canvas 0x100) (64) (1024)
def SRV_TCAP_CAPT : Fld := rng (fld 0x52080c 12 12 .rw .canvas 180) (50) (1000)
def SRV_TCAP_TEOMAX : Fld := rng (fld 0x52080c 0 12 .rw .canvas 0x400) (64) (2047)
def SRV_WINH_PEMAX : Fld := rng (fld 0x520810 16 8 .rw .canvas 120) (50) (200)
def SRV_WINH_FEMAX : Fld := rng (fld 0x520810 8 8 .rw .canvas 60) (20) (200)
def SRV_WINH_INHCLR : Fld := rng (fld 0x520810 0 8 .rw .canvas 64) (8) (255)
def SRV_SHK_EN : Fld := fld 0x520814 24 1 .rw .canvas 0
def SRV_SHK_LIMIT : Fld := fld 0x520814 8 16 .rw .canvas 0
def SRV_SHK_CMD : Fld := fld 0x520814 0 8 .rw .canvas 0
def SRV_SHKST_EVENTS : Fld := fld 0x520818 24 8 .rc .hw 0
def SRV_SHKST_PEAK : Fld := fld 0x520818 0 16 .rc .hw 0
def SRV_SAZC_ZC : Fld := rng (fld 0x52081c 0 24 .rw .canvas 0x4baf) (4500) (34250)
def SLD_POS_KNOWN (i : Nat) : Fld := fld (0x700000 + 0x100 * i) 24 1 .ro .hw 0
def SLD_POS_P (i : Nat) : Fld := fld (0x700000 + 0x100 * i) 0 24 .ro .hw 0
def SLD_STAT_EN (i : Nat) : Fld := fld (0x700004 + 0x100 * i) 15 1 .ro .hw 0
def SLD_STAT_DIR (i : Nat) : Fld := fld (0x700004 + 0x100 * i) 14 1 .ro .hw 0
def SLD_STAT_LIMLATE (i : Nat) : Fld := fld (0x700004 + 0x100 * i) 13 1 .w1c .hw 0
def SLD_STAT_MOVING (i : Nat) : Fld := fld (0x700004 + 0x100 * i) 12 1 .ro .hw 0
def SLD_STAT_KIND (i : Nat) : Fld := fld (0x700004 + 0x100 * i) 8 4 .ro .hw 0
def SLD_STAT_PHASE (i : Nat) : Fld := fld (0x700004 + 0x100 * i) 0 3 .ro .hw 0
def SLD_TGT_TGT (i : Nat) : Fld := fld (0x700008 + 0x100 * i) 0 24 .ro .hw 0
def SLD_EST_US (i : Nat) : Fld := fld (0x70000c + 0x100 * i) 0 24 .ro .hw 0
def SLD_CNT_SLIPS (i : Nat) : Fld := fld (0x700010 + 0x100 * i) 24 8 .rc .hw 0
def SLD_CNT_PREEMPT (i : Nat) : Fld := fld (0x700010 + 0x100 * i) 16 8 .rc .hw 0
def SLD_CNT_RETGT (i : Nat) : Fld := fld (0x700010 + 0x100 * i) 8 8 .rc .hw 0
def SLD_CNT_REFUSED (i : Nat) : Fld := fld (0x700010 + 0x100 * i) 0 8 .rc .hw 0
def SLD_HSEEK_GO (i : Nat) : Fld := fld (0x700014 + 0x100 * i) 24 1 .wo .run 0
def SLD_HSEEK_TGT (i : Nat) : Fld := sgn (fld (0x700014 + 0x100 * i) 0 24 .wo .run 0)
def SLD_CFG_DIRINV (i : Nat) : Fld := fld (0x700018 + 0x100 * i) 0 1 .rw .canvas 0
def SLD_PROF_D_JMAX : Fld := rng (fld 0x700800 24 8 .rw .canvas 100) (10) (255)
def SLD_PROF_D_AMAX : Fld := rng (fld 0x700800 12 12 .rw .canvas 100) (10) (300)
def SLD_PROF_D_VMAX : Fld := rng (fld 0x700800 0 12 .rw .canvas 0x190) (10) (400)
def SLD_PROF_S_JMAX : Fld := rng (fld 0x700804 24 8 .rw .canvas 150) (10) (255)
def SLD_PROF_S_AMAX : Fld := rng (fld 0x700804 12 12 .rw .canvas 150) (10) (300)
def SLD_PROF_S_VMAX : Fld := rng (fld 0x700804 0 12 .rw .canvas 0x190) (10) (400)
def SLD_LIM_MAX : Fld := rng (sgn (fld 0x700808 16 16 .rw .canvas 0x1d95)) (7000) (8000)
def SLD_LIM_MIN : Fld := rng (sgn (fld 0x700808 0 16 .rw .canvas 0xfec0)) (-2000) (0)
def SLD_MISC_PARK : Fld := sgn (fld 0x70080c 16 16 .rw .canvas 160)
def SLD_MISC_SLIP : Fld := rng (fld 0x70080c 8 8 .rw .canvas 4) (1) (64)
def SLD_MISC_RETRY : Fld := rng (fld 0x70080c 0 8 .rw .canvas 2) (0) (8)
def SLD_FOLLOW_THR : Fld := rng (fld 0x700810 0 16 .rw .canvas 0x400) (64) (16384)
def SPN_STAT_VINLIM : Fld := fld 0x800000 19 1 .ro .hw 0
def SPN_STAT_CAPPED : Fld := fld 0x800000 18 1 .ro .hw 0
def SPN_STAT_SREFVALID : Fld := fld 0x800000 17 1 .ro .hw 0
def SPN_STAT_FAULT : Fld := fld 0x800000 16 1 .w1c .hw 0
def SPN_STAT_FCAUSE : Fld := fld 0x800000 12 4 .ro .hw 0
def SPN_STAT_PHASE : Fld := fld 0x800000 0 4 .ro .hw 0
def SPN_MEAS_FROMANG : Fld := fld 0x800004 31 1 .ro .hw 0
def SPN_MEAS_RPM : Fld := fld 0x800004 0 24 .ro .hw 0
def SPN_TGT_REF : Fld := fld 0x800008 16 16 .ro .hw 0
def SPN_TGT_TARGET : Fld := fld 0x800008 0 16 .ro .hw 0
def SPN_TEST_EN : Fld := fld 0x80000c 16 1 .rw .run 0
def SPN_TEST_RPM : Fld := fld 0x80000c 0 16 .rw .run 0
def SPN_SREF_FALLBACK : Fld := rng (fld 0x800010 26 2 .rw .canvas 1) (0) (2)
def SPN_SREF_ENC : Fld := rng (fld 0x800010 24 2 .rw .canvas 0) (0) (2)
def SPN_SREF_SEL : Fld := rng (fld 0x800010 22 2 .rw .canvas 0) (0) (2)
def SPN_SREF_STEP : Fld := rng (fld 0x800010 12 10 .rw .canvas 60) (1) (600)
def SPN_SREF_HOLD : Fld := rng (fld 0x800010 0 12 .rw .canvas 100) (10) (2000)
def SPN_SREFIN_VALID : Fld := fld 0x800014 16 1 .ro .hw 0
def SPN_SREFIN_RPM : Fld := fld 0x800014 0 16 .ro .hw 0
def SPN_RAMP_RATE : Fld := rng (fld 0x800018 0 12 .rw .canvas 0xbb8) (100) (3000)
def SPN_MOTOR_POLES : Fld := rng (fld 0x80001c 28 4 .rw .canvas 4) (2) (8)
def SPN_MOTOR_RS : Fld := rng (fld 0x80001c 16 12 .rw .canvas 0x320) (100) (4000)
def SPN_MOTOR_LS : Fld := rng (fld 0x80001c 0 16 .rw .canvas 0x1388) (10) (20000)
def SPN_MOTOR2_KE : Fld := rng (fld 0x800020 16 16 .rw .canvas 0x258) (100) (20000)
def SPN_MOTOR2_RSH : Fld := rng (fld 0x800020 0 16 .rw .canvas 100) (10) (1000)
def SPN_PWM_FREQ : Fld := rng (fld 0x800024 16 8 .rw .canvas 40) (20) (80)
def SPN_PWM_DEAD : Fld := rng (fld 0x800024 0 16 .rw .canvas 100) (20) (500)
def SPN_ILIM_IMAX : Fld := rng (fld 0x800028 16 16 .rw .canvas 0x1770) (500) (15000)
def SPN_ILIM_IQMAX : Fld := rng (fld 0x800028 0 16 .rw .canvas 0xbb8) (100) (10000)
def SPN_CHECK_ISUMMAX : Fld := rng (fld 0x80002c 16 16 .rw .canvas 200) (50) (2000)
def SPN_CHECK_BEMFMIN : Fld := rng (fld 0x80002c 0 16 .rw .canvas 20) (5) (500)
def SPN_CURLOOP_KP : Fld := rng (fld 0x800030 16 16 .rw .canvas 0x7d0) (1) (65535)
def SPN_CURLOOP_KI : Fld := rng (fld 0x800030 0 16 .rw .canvas 0xc80) (1) (65535)
def SPN_START_ALIGNT : Fld := rng (fld 0x800034 24 8 .rw .canvas 80) (20) (255)
def SPN_START_CATCHT : Fld := rng (fld 0x800034 16 8 .rw .canvas 40) (20) (200)
def SPN_START_TRIES : Fld := rng (fld 0x800034 12 4 .rw .canvas 2) (1) (8)
def SPN_START_IFRATE : Fld := rng (fld 0x800034 0 12 .rw .canvas 0x7d0) (500) (3000)
def SPN_BRAKE_VBUS : Fld := rng (fld 0x800038 0 16 .rw .canvas 0x32c8) (12000) (13200)
def SPN_DIST_OCN : Fld := fld 0x80003c 24 8 .rc .hw 0
def SPN_DIST_NARROWW : Fld := fld 0x80003c 16 8 .rc .hw 0
def SPN_DIST_NARROWV : Fld := fld 0x80003c 8 8 .rc .hw 0
def SPN_DIST_NARROWU : Fld := fld 0x80003c 0 8 .rc .hw 0
def SPN_CATCH_RESULT : Fld := fld 0x800040 16 2 .ro .hw 0
def SPN_CATCH_RPM : Fld := fld 0x800040 0 16 .ro .hw 0
def CHN_LANEMAP_FOR (i : Nat) : Fld := fld (0x900000 + 0x40 * i) 12 5 .ro .hw 31
def CHN_LANEMAP_STATE (i : Nat) : Fld := fld (0x900000 + 0x40 * i) 8 4 .ro .hw 0
def CHN_LANEMAP_INPUT (i : Nat) : Fld := fld (0x900000 + 0x40 * i) 0 5 .ro .hw 31
def CHN_LSTAT_FAILCHK (i : Nat) : Fld := fld (0x900004 + 0x40 * i) 24 8 .rc .hw 0
def CHN_LSTAT_CAUSE (i : Nat) : Fld := fld (0x900004 + 0x40 * i) 3 5 .ro .hw 0
def CHN_LSTAT_PEND (i : Nat) : Fld := fld (0x900004 + 0x40 * i) 2 1 .ro .hw 0
def CHN_LSTAT_LOCK (i : Nat) : Fld := fld (0x900004 + 0x40 * i) 1 1 .ro .hw 0
def CHN_LSTAT_RX (i : Nat) : Fld := fld (0x900004 + 0x40 * i) 0 1 .ro .hw 0
def CHN_FE_GAIN (i : Nat) : Fld := fld (0x900008 + 0x40 * i) 16 8 .ro .hw 0
def CHN_FE_OFFS (i : Nat) : Fld := fld (0x900008 + 0x40 * i) 8 8 .ro .hw 0
def CHN_FE_ASYM (i : Nat) : Fld := fld (0x900008 + 0x40 * i) 0 8 .ro .hw 0
def CHN_TR_ASSIST (i : Nat) : Fld := fld (0x90000c + 0x40 * i) 16 1 .ro .hw 0
def CHN_TR_FOFF (i : Nat) : Fld := fld (0x90000c + 0x40 * i) 0 16 .ro .hw 0
def CHN_SNR_SNR (i : Nat) : Fld := fld (0x900010 + 0x40 * i) 0 16 .ro .hw 0
def CHN_EYE_VALID (i : Nat) : Fld := fld (0x900014 + 0x40 * i) 8 1 .ro .hw 0
def CHN_EYE_EYEW (i : Nat) : Fld := fld (0x900014 + 0x40 * i) 0 8 .ro .hw 0
def CHN_LANECTL_ACT : Fld := fld 0x900800 8 2 .wo .run 0
def CHN_LANECTL_LANE : Fld := fld 0x900800 0 5 .wo .run 0
def CHN_CTLST_RESULT : Fld := fld 0x900804 8 8 .ro .hw 0
def CHN_CTLST_BUSY : Fld := fld 0x900804 0 1 .ro .hw 0
def CHN_HSTAT_LOSTTRK (i : Nat) : Fld := fld (0x900810 + 0x4 * i) 0 6 .ro .hw 0
def CHN_HLIM_SELFMAX : Fld := rng (fld 0x900820 8 8 .rw .canvas 16) (1) (255)
def CHN_HLIM_CLIP : Fld := rng (fld 0x900820 0 8 .rw .canvas 8) (1) (128)
def CHN_BT_B3 (i : Nat) : Fld := fld (0x910000 + 0x4 * i) 24 8 .rw .canvas 0
def CHN_BT_B2 (i : Nat) : Fld := fld (0x910000 + 0x4 * i) 16 8 .rw .canvas 0
def CHN_BT_B1 (i : Nat) : Fld := fld (0x910000 + 0x4 * i) 8 8 .rw .canvas 0
def CHN_BT_B0 (i : Nat) : Fld := fld (0x910000 + 0x4 * i) 0 8 .rw .canvas 0
def DET_HSTAT_ZEROC (i : Nat) : Fld := fld (0xa00000 + 0x100 * i) 16 6 .ro .hw 0
def DET_HSTAT_TRK (i : Nat) : Fld := fld (0xa00000 + 0x100 * i) 8 6 .ro .hw 0
def DET_HSTAT_ADAPT (i : Nat) : Fld := fld (0xa00000 + 0x100 * i) 1 1 .ro .hw 0
def DET_HSTAT_RUN (i : Nat) : Fld := fld (0xa00000 + 0x100 * i) 0 1 .ro .hw 0
def DET_HCNT_EQRELOAD (i : Nat) : Fld := fld (0xa00004 + 0x100 * i) 24 8 .rc .hw 0
def DET_HCNT_REPROFULL (i : Nat) : Fld := fld (0xa00004 + 0x100 * i) 16 8 .rc .hw 0
def DET_PASS_PASS3 (i : Nat) : Fld := fld (0xa00008 + 0x100 * i) 12 12 .rc .hw 0
def DET_PASS_PASS2 (i : Nat) : Fld := fld (0xa00008 + 0x100 * i) 0 12 .rc .hw 0
def DET_PBERR_ERR (i : Nat) : Fld := fld (0xa0000c + 0x100 * i) 0 24 .ro .hw 0
def DET_PBBITS_BITS (i : Nat) : Fld := fld (0xa00010 + 0x100 * i) 0 24 .ro .hw 0
def DET_ITER_MEAN (i : Nat) : Fld := fld (0xa00014 + 0x100 * i) 0 16 .ro .hw 0
def DET_ALIGN_DELAY (i : Nat) (j : Nat) : Fld := fld (0xa00020 + 0x100 * i + 0x4 * j) 0 11 .ro .hw 0
def DET_CFG_NTAPS : Fld := fld 0xa00800 28 4 .rw .canvas 11
def DET_CFG_MU : Fld := fld 0xa00800 24 4 .rw .canvas 10
def DET_CFG_LLRCLIP : Fld := fld 0xa00800 16 8 .rw .canvas 24
def DET_CFG_M : Fld := fld 0xa00800 8 8 .rw .canvas 32
def DET_TGT_D : Fld := sgn (fld 0xa00804 24 8 .rw .canvas 8)
def DET_TGT_C : Fld := sgn (fld 0xa00804 16 8 .rw .canvas 4)
def DET_TGT_B : Fld := sgn (fld 0xa00804 8 8 .rw .canvas 32)
def DET_TGT_A : Fld := sgn (fld 0xa00804 0 8 .rw .canvas 16)
def DET_LQ_ACH (i : Nat) : Fld := fld (0xa01000 + 0x10 * i) 0 24 .ro .hw 0
def DET_LQ_IRB (i : Nat) : Fld := fld (0xa01004 + 0x10 * i) 0 24 .ro .hw 0
def DET_LQ_SNR (i : Nat) : Fld := fld (0xa01008 + 0x10 * i) 0 16 .ro .hw 0
def DET_LQ_COVER (i : Nat) : Fld := fld (0xa0100c + 0x10 * i) 0 32 .ro .hw 0
def DET_EQ_SIGN (i : Nat) : Fld := fld (0xa04000 + 0x4 * i) 24 8 .ro .hw 0
def DET_EQ_COEF (i : Nat) : Fld := fld (0xa04000 + 0x4 * i) 0 24 .ro .hw 0
def CWD_DEC_BUSYQ : Fld := rng (fld 0xb00000 16 8 .rw .canvas 48) (8) (64)
def CWD_DEC_BUSYIT : Fld := fld 0xb00000 8 8 .rw .canvas 8
def CWD_DEC_MAXIT : Fld := rng (fld 0xb00000 0 8 .rw .canvas 20) (2) (48)
def CWD_POOL_BISTFAIL : Fld := fld 0xb00004 24 8 .ro .hw 0
def CWD_POOL_FAULT : Fld := fld 0xb00004 16 8 .w1c .hw 0
def CWD_POOL_OFFLINE : Fld := fld 0xb00004 8 8 .ro .hw 0
def CWD_POOL_INSVC : Fld := fld 0xb00004 0 8 .ro .hw 0
def CWD_DECCTL_RESTORE : Fld := fld 0xb00008 4 1 .wo .run 0
def CWD_DECCTL_OFFLINE : Fld := fld 0xb00008 3 1 .wo .run 0
def CWD_DECCTL_DEC : Fld := fld 0xb00008 0 3 .wo .run 0
def CWD_QUEUE_REFUSED : Fld := fld 0xb0000c 31 1 .w1c .hw 0
def CWD_QUEUE_PEAK : Fld := fld 0xb0000c 16 8 .rc .hw 0
def CWD_QUEUE_OCC : Fld := fld 0xb0000c 0 7 .ro .hw 0
def CWD_TAGCNT_LOST : Fld := fld 0xb00010 24 8 .rc .hw 0
def CWD_TAGCNT_ERASED : Fld := fld 0xb00010 16 8 .rc .hw 0
def CWD_TAGCNT_CORR : Fld := fld 0xb00010 8 8 .rc .hw 0
def CWD_TAGCNT_CLEAN : Fld := fld 0xb00010 0 8 .rc .hw 0
def CWD_CNT_OVF : Fld := fld 0xb00014 24 8 .rc .hw 0
def CWD_CNT_BUSY : Fld := fld 0xb00014 12 12 .rc .hw 0
def WRS_HSTAT_CLAMP (i : Nat) : Fld := fld (0xc00000 + 0x100 * i) 24 8 .rc .hw 0
def WRS_HSTAT_TBAND (i : Nat) : Fld := fld (0xc00000 + 0x100 * i) 20 3 .ro .hw 0
def WRS_HSTAT_GROUP (i : Nat) : Fld := fld (0xc00000 + 0x100 * i) 16 4 .ro .hw 0
def WRS_HSTAT_LVLPEND (i : Nat) : Fld := fld (0xc00000 + 0x100 * i) 1 1 .ro .hw 0
def WRS_HSTAT_WRITING (i : Nat) : Fld := fld (0xc00000 + 0x100 * i) 0 1 .ro .hw 0
def WRS_OPCST_RUNS (i : Nat) : Fld := fld (0xc00004 + 0x100 * i) 24 8 .rc .hw 0
def WRS_OPCST_FAILS (i : Nat) : Fld := fld (0xc00004 + 0x100 * i) 16 8 .rc .hw 0
def WRS_OPCST_LASTERR (i : Nat) : Fld := fld (0xc00004 + 0x100 * i) 8 8 .ro .hw 0
def WRS_VCNT_VFAIL (i : Nat) : Fld := fld (0xc00008 + 0x100 * i) 24 8 .rc .hw 0
def WRS_VCNT_INCONCL (i : Nat) : Fld := fld (0xc00008 + 0x100 * i) 16 8 .rc .hw 0
def WRS_VCNT_REWRITE (i : Nat) : Fld := fld (0xc00008 + 0x100 * i) 8 8 .rc .hw 0
def WRS_VCNT_WFAIL (i : Nat) : Fld := fld (0xc00008 + 0x100 * i) 0 8 .rc .hw 0
def WRS_RATIO_ERATIO : Fld := rng (fld 0xc00800 8 8 .rw .canvas 96) (64) (255)
def WRS_RATIO_BRATIO : Fld := fld 0xc00800 0 8 .rw .canvas 24
def WRS_PDEF_PEAK : Fld := rng (fld 0xc00804 0 16 .rw .canvas 0x4b0) (100) (4000)
def WRS_OPCCFG_OPCM : Fld := rng (fld 0xc00808 20 12 .rw .canvas 0x10d) (230) (320)
def WRS_OPCCFG_MAXBER : Fld := rng (fld 0xc00808 12 8 .rw .canvas 64) (1) (255)
def WRS_VFY_VFYIT : Fld := rng (fld 0xc0080c 24 8 .rw .canvas 15) (1) (48)
def WRS_VFY_MARGINIT : Fld := fld 0xc0080c 16 8 .rw .canvas 6
def WRS_VFY_REREAD : Fld := rng (fld 0xc0080c 8 8 .rw .canvas 2) (0) (4)
def WRS_OPCCTL_GO : Fld := fld 0xc00810 24 1 .wo .run 0
def WRS_OPCCTL_HEAD : Fld := fld 0xc00810 20 2 .wo .run 0
def WRS_OPCCTL_LAYER : Fld := fld 0xc00810 8 6 .wo .run 0
def WRS_OPCCTL_BAND : Fld := fld 0xc00810 0 5 .wo .run 0
def WRS_STCNT_COUNT (i : Nat) : Fld := rng (fld (0xc01000 + 0x4 * i) 0 7 .rw .canvas 0) (1) (64)
def WRS_OPC_PEAK1 (i : Nat) (j : Nat) : Fld := fld (0xc10000 + 0x4000 * i + 0x8 * j) 16 16 .ro .hw 0
def WRS_OPC_PEAK0 (i : Nat) (j : Nat) : Fld := fld (0xc10000 + 0x4000 * i + 0x8 * j) 0 16 .ro .hw 0
def WRS_OPC_VALID (i : Nat) (j : Nat) : Fld := fld (0xc10004 + 0x4000 * i + 0x8 * j) 31 1 .ro .hw 0
def WRS_OPC_TBAND (i : Nat) (j : Nat) : Fld := fld (0xc10004 + 0x4000 * i + 0x8 * j) 16 3 .ro .hw 0
def WRS_ST_B3 (i : Nat) : Fld := fld (0xc20000 + 0x4 * i) 24 8 .rw .canvas 0
def WRS_ST_B2 (i : Nat) : Fld := fld (0xc20000 + 0x4 * i) 16 8 .rw .canvas 0
def WRS_ST_B1 (i : Nat) : Fld := fld (0xc20000 + 0x4 * i) 8 8 .rw .canvas 0
def WRS_ST_B0 (i : Nat) : Fld := fld (0xc20000 + 0x4 * i) 0 8 .rw .canvas 0
def STR_STAT_OPEN : Fld := fld 0xd00000 16 7 .ro .hw 0
def STR_STAT_DEGRADED : Fld := fld 0xd00000 3 1 .ro .hw 0
def STR_STAT_RESYNC : Fld := fld 0xd00000 2 1 .ro .hw 0
def STR_STAT_FORMATTED : Fld := fld 0xd00000 1 1 .ro .hw 0
def STR_GEOM_SPARE : Fld := fld 0xd00004 16 8 .ro .hw 0
def STR_GEOM_PARITY : Fld := fld 0xd00004 8 2 .ro .hw 0
def STR_GEOM_WIDTH : Fld := fld 0xd00004 0 5 .ro .hw 0
def STR_CHUNKS_N : Fld := fld 0xd00008 16 11 .ro .hw 0
def STR_CHUNKS_D : Fld := fld 0xd00008 0 11 .ro .hw 0
def STR_ZONES_Z : Fld := fld 0xd0000c 0 14 .ro .hw 0
def STR_SEED_LO_SEED : Fld := fld 0xd00010 0 32 .ro .hw 0
def STR_SEED_HI_SEED : Fld := fld 0xd00014 0 32 .ro .hw 0
def STR_WSEQ_LO_WSEQ : Fld := fld 0xd00018 0 32 .rs .hw 0
def STR_WSEQ_HI_WSEQ : Fld := fld 0xd0001c 0 32 .ro .hw 0
def STR_CNT_COMMITS : Fld := fld 0xd00020 12 12 .rc .hw 0
def STR_CNT_VOIDS : Fld := fld 0xd00020 0 12 .rc .hw 0
def STR_RECON_RECON : Fld := fld 0xd00024 12 12 .rc .hw 0
def STR_RECON_UNREC : Fld := fld 0xd00024 0 12 .rc .hw 0
def STR_SLOW_SLOW : Fld := fld 0xd00028 12 12 .rc .hw 0
def STR_SLOW_DEGRD : Fld := fld 0xd00028 0 12 .rc .hw 0
def STR_RB_PEND : Fld := fld 0xd0002c 16 16 .ro .hw 0
def STR_RB_DONE : Fld := fld 0xd0002c 0 16 .rc .hw 0
def STR_RESYNC_FWD : Fld := fld 0xd00030 12 12 .ro .hw 0
def STR_RESYNC_BACK : Fld := fld 0xd00030 0 12 .ro .hw 0
def STR_DIRTY_COUNT : Fld := fld 0xd00034 0 14 .ro .hw 0
def STR_CFG_MAXOPEN : Fld := rng (fld 0xd00800 16 8 .rw .canvas 32) (1) (64)
def STR_CFG_DRAIN : Fld := rng (fld 0xd00800 12 4 .rw .canvas 4) (0) (15)
def STR_CFG_EXT : Fld := rng (fld 0xd00800 0 12 .rw .canvas 0x100) (8) (1024)
def STR_JCFG_CKPTS : Fld := rng (fld 0xd00804 16 8 .rw .canvas 60) (10) (255)
def STR_JCFG_MAXDIRTY : Fld := rng (fld 0xd00804 8 8 .rw .canvas 4) (1) (16)
def STR_RBCFG_SHARE : Fld := rng (fld 0xd00808 0 8 .rw .canvas 20) (5) (100)
def MAP_STAT_NSID : Fld := fld 0xe00000 16 7 .ro .hw 0
def MAP_STAT_PHASE : Fld := fld 0xe00000 0 4 .ro .hw 0
def MAP_PROG_LOADED : Fld := fld 0xe00004 0 24 .ro .hw 0
def MAP_TOTAL_PAGES : Fld := fld 0xe00008 0 24 .ro .hw 0
def MAP_DF_COUNT : Fld := fld 0xe0000c 0 12 .rc .hw 0
def MAP_DFMAX_US : Fld := fld 0xe00010 0 24 .rc .hw 0
def MAP_CKPT_MAPCK : Fld := fld 0xe00014 12 12 .rc .hw 0
def MAP_CKPT_ZONECK : Fld := fld 0xe00014 0 12 .rc .hw 0
def MAP_CLEAN_UNITS : Fld := fld 0xe00018 0 24 .rc .hw 0
def HLT_STAT_FAILED : Fld := fld 0xf00000 8 6 .ro .hw 0
def HLT_STAT_DEGR : Fld := fld 0xf00000 7 1 .ro .hw 0
def HLT_STAT_SPARELOW : Fld := fld 0xf00000 6 1 .ro .hw 0
def HLT_STAT_WARN : Fld := fld 0xf00000 5 1 .ro .hw 0
def HLT_STAT_DUE : Fld := fld 0xf00000 4 1 .ro .hw 0
def HLT_STAT_PATROL : Fld := fld 0xf00000 0 4 .ro .hw 0
def HLT_WEAR_LAYER : Fld := fld 0xf00004 16 6 .ro .hw 0
def HLT_WEAR_MAXCNT : Fld := fld 0xf00004 0 14 .ro .hw 0
def HLT_RETIRED_BLOCKS : Fld := fld 0xf00008 0 24 .ro .hw 0
def HLT_SPARE_THR : Fld := rng (fld 0xf0000c 8 8 .rw .canvas 10) (1) (50)
def HLT_SPARE_AVAIL : Fld := fld 0xf0000c 0 8 .ro .hw 0
def HLT_AGE_HOURS : Fld := fld 0xf00010 0 24 .ro .hw 0
def HLT_LAP_SEC : Fld := fld 0xf00014 0 24 .ro .hw 0
def HLT_PROG_FRAC : Fld := fld 0xf00018 16 16 .ro .hw 0
def HLT_PROG_ZONE : Fld := fld 0xf00018 0 14 .ro .hw 0
def HLT_REFQ_DROP : Fld := fld 0xf0001c 12 12 .rc .hw 0
def HLT_REFQ_LEN : Fld := fld 0xf0001c 0 11 .ro .hw 0
def HLT_CNT_REFRESH : Fld := fld 0xf00020 12 12 .rc .hw 0
def HLT_CNT_RETIRE : Fld := fld 0xf00020 0 12 .rc .hw 0
def HLT_LEDG_CASE : Fld := fld 0xf00024 24 2 .ro .hw 0
def HLT_LEDG_DELTAS : Fld := fld 0xf00024 0 24 .rc .hw 0
def HLT_CTRL_PAUSE : Fld := fld 0xf00028 1 1 .rw .run 0
def HLT_CTRL_RESTART : Fld := fld 0xf00028 0 1 .wo .run 0
def HLT_WCFG_STEP : Fld := rng (fld 0xf00800 16 4 .rw .canvas 8) (1) (15)
def HLT_WCFG_RETIRE : Fld := rng (fld 0xf00800 0 14 .rw .canvas 0x1f40) (1000) (8000)
def HLT_WCFG2_FOREIGN : Fld := rng (fld 0xf00804 16 8 .rw .canvas 16) (0) (255)
def HLT_WCFG2_WARN : Fld := fld 0xf00804 0 14 .rw .canvas 0x1b58
def HLT_LCFG_CONFIRM : Fld := rng (fld 0xf00808 8 8 .rw .canvas 4) (1) (64)
def HLT_LCFG_LEDGMIN : Fld := rng (fld 0xf00808 0 8 .rw .canvas 30) (5) (240)
def HLT_RCFG_REFRESH : Fld := rng (fld 0xf0080c 16 8 .rw .canvas 64) (8) (192)
def HLT_RCFG_SWCAP : Fld := rng (fld 0xf0080c 0 13 .rw .canvas 0x480) (256) (4608)
def HLT_PCFG_IDLEMS : Fld := rng (fld 0xf00810 16 8 .rw .canvas 50) (1) (255)
def HLT_PCFG_RSHARE : Fld := rng (fld 0xf00810 8 8 .rw .canvas 5) (1) (50)
def HLT_PCFG_SHARE : Fld := rng (fld 0xf00810 0 8 .rw .canvas 10) (1) (50)
def HLT_LIM_LFAIL : Fld := rng (fld 0xf00814 16 8 .rw .canvas 5) (1) (50)
def HLT_LIM_LAPAGE : Fld := rng (fld 0xf00814 0 16 .rw .canvas 0x16d) (7) (3650)
def HLT_LSTAT_FAILED (i : Nat) : Fld := fld (0xf01000 + 0x10 * i) 16 1 .ro .hw 0
def HLT_LSTAT_MAXCNT (i : Nat) : Fld := fld (0xf01000 + 0x10 * i) 0 14 .ro .hw 0
def HLT_LSTAT_RETIRED (i : Nat) : Fld := fld (0xf01004 + 0x10 * i) 0 24 .ro .hw 0
def HLT_LSTAT_FREE (i : Nat) : Fld := fld (0xf01008 + 0x10 * i) 0 24 .ro .hw 0
def HLT_LSTAT_MARGIN (i : Nat) : Fld := fld (0xf0100c + 0x10 * i) 0 8 .ro .hw 0
def CAL_STAT_LASTERR : Fld := fld 0x1000000 16 8 .ro .hw 0
def CAL_STAT_FULL : Fld := fld 0x1000000 8 4 .ro .hw 0
def CAL_STAT_DUE : Fld := fld 0x1000000 4 4 .ro .hw 0
def CAL_STAT_BUSY : Fld := fld 0x1000000 0 4 .ro .hw 0
def CAL_CTL_GO : Fld := fld 0x1000004 24 1 .wo .run 0
def CAL_CTL_KIND : Fld := fld 0x1000004 22 2 .wo .run 0
def CAL_CTL_HEAD : Fld := fld 0x1000004 20 2 .wo .run 0
def CAL_CTL_LAYER : Fld := fld 0x1000004 8 6 .wo .run 0
def CAL_CNT_FAILS : Fld := fld 0x1000008 12 12 .rc .hw 0
def CAL_CNT_RUNS : Fld := fld 0x1000008 0 12 .rc .hw 0
def CAL_PROG_DONE : Fld := fld 0x100000c 8 8 .ro .hw 0
def CAL_PROG_TODO : Fld := fld 0x100000c 0 8 .ro .hw 0
def CAL_CFG_TRIES : Fld := rng (fld 0x1000800 12 4 .rw .canvas 3) (1) (8)
def CAL_CFG_WINREV : Fld := rng (fld 0x1000800 8 4 .rw .canvas 2) (1) (8)
def CAL_CFG_SHARE : Fld := rng (fld 0x1000800 0 8 .rw .canvas 10) (1) (50)
def CAL_LIM_EYEMIN : Fld := rng (fld 0x1000804 16 8 .rw .canvas 16) (4) (48)
def CAL_LIM_SNRMIN : Fld := rng (fld 0x1000804 0 16 .rw .canvas 0xa00) (1280) (6400)
def CAL_LIM2_OFSMAX : Fld := rng (fld 0x1000808 16 8 .rw .canvas 40) (10) (100)
def CAL_LIM2_TILTMAX : Fld := rng (fld 0x1000808 8 8 .rw .canvas 60) (10) (200)
def CAL_LIM2_SAWIN : Fld := rng (fld 0x1000808 0 8 .rw .canvas 10) (2) (40)
def CAL_HL_EYE (i : Nat) (j : Nat) : Fld := fld (0x1001000 + 0x400 * i + 0x10 * j) 16 8 .ro .hw 0
def CAL_HL_SNR (i : Nat) (j : Nat) : Fld := fld (0x1001000 + 0x400 * i + 0x10 * j) 0 16 .ro .hw 0
def CAL_HL_EQMSE (i : Nat) (j : Nat) : Fld := fld (0x1001004 + 0x400 * i + 0x10 * j) 0 16 .ro .hw 0
def CAL_HL_TRES (i : Nat) (j : Nat) : Fld := fld (0x1001008 + 0x400 * i + 0x10 * j) 0 16 .ro .hw 0
def CAL_HL_MINUTES (i : Nat) (j : Nat) : Fld := fld (0x100100c + 0x400 * i + 0x10 * j) 16 16 .ro .hw 0
def CAL_HL_FAILMASK (i : Nat) (j : Nat) : Fld := fld (0x100100c + 0x400 * i + 0x10 * j) 8 8 .ro .hw 0
def CAL_HL_SRC (i : Nat) (j : Nat) : Fld := fld (0x100100c + 0x400 * i + 0x10 * j) 0 8 .ro .hw 0
def HST_PORT_LINKDOWNS (i : Nat) : Fld := fld (0x1100000 + 0x100 * i) 24 8 .rc .hw 0
def HST_PORT_RDY (i : Nat) : Fld := fld (0x1100000 + 0x100 * i) 11 1 .ro .hw 0
def HST_PORT_EN (i : Nat) : Fld := fld (0x1100000 + 0x100 * i) 9 1 .ro .canvas 0
def HST_PORT_UP (i : Nat) : Fld := fld (0x1100000 + 0x100 * i) 8 1 .ro .hw 0
def HST_PORT_WIDTH (i : Nat) : Fld := fld (0x1100000 + 0x100 * i) 4 3 .ro .hw 0
def HST_PORT_SPEED (i : Nat) : Fld := fld (0x1100000 + 0x100 * i) 0 4 .ro .hw 0
def HST_INFL_PEAK (i : Nat) : Fld := fld (0x1100004 + 0x100 * i) 16 13 .rc .hw 0
def HST_INFL_NOW (i : Nat) : Fld := fld (0x1100004 + 0x100 * i) 0 13 .ro .hw 0
def HST_CUST_DISCARDS : Fld := fld 0x1100800 24 8 .rc .hw 0
def HST_CUST_SWAP : Fld := fld 0x1100800 4 1 .ro .hw 0
def HST_CUST_LOSER : Fld := fld 0x1100800 2 2 .ro .hw 1
def HST_CUST_MGMT : Fld := fld 0x1100800 0 2 .ro .hw 0
def HST_DISCADDR_PORT : Fld := fld 0x1100804 31 1 .ro .hw 0
def HST_DISCADDR_OFFSET : Fld := fld 0x1100804 0 25 .ro .hw 0
def HST_RLOCK_STALLS : Fld := fld 0x1100808 16 16 .rc .hw 0
def HST_RLOCK_ENTRIES : Fld := fld 0x1100808 0 13 .ro .hw 0
def HST_ERRCNT_UNREC : Fld := fld 0x110080c 12 12 .rc .hw 0
def HST_ERRCNT_ERRLOG : Fld := fld 0x110080c 0 12 .rc .hw 0
def HST_CFG_GATHER : Fld := rng (fld 0x1100810 16 8 .rw .canvas 20) (0) (255)
def HST_CFG_LINKLOSS : Fld := rng (fld 0x1100810 8 8 .rw .canvas 100) (10) (255)
def HST_CFG_ANATT : Fld := rng (fld 0x1100810 0 8 .rw .canvas 10) (1) (255)
def HST_NSCUST_CUST (n : Nat) : Fld := fld (0x1100820 + 4 * ((n - 1) / 8)) (4 * ((n - 1) % 8) + 0) 2 .ro .hw 0
def HST_NSCUST_LOSER (n : Nat) : Fld := fld (0x1100820 + 4 * ((n - 1) / 8)) (4 * ((n - 1) % 8) + 2) 1 .ro .hw 0
def HST_NSCUST_SWAP (n : Nat) : Fld := fld (0x1100820 + 4 * ((n - 1) / 8)) (4 * ((n - 1) % 8) + 3) 1 .ro .hw 0
def MEM_INFO_DENS : Fld := fld 0x1200000 4 4 .ro .hw 0
def MEM_INFO_TRAINED : Fld := fld 0x1200000 0 4 .ro .hw 0
def MEM_STAT_UE : Fld := fld 0x1200004 5 1 .w1c .hw 0
def MEM_STAT_ADDRERR : Fld := fld 0x1200004 4 1 .w1c .hw 0
def MEM_STAT_PHASE : Fld := fld 0x1200004 0 4 .ro .hw 0
def MEM_SWEEP_PULLS : Fld := fld 0x1200008 16 16 .rc .hw 0
def MEM_SWEEP_DONE : Fld := fld 0x1200008 0 15 .ro .hw 0
def MEM_CE_BUCKET_OVFN : Fld := fld 0x120000c 24 8 .rc .hw 0
def MEM_CE_BUCKET_LEVEL : Fld := fld 0x120000c 0 16 .ro .hw 0
def MEM_CECFG_LEAK : Fld := rng (fld 0x1200010 16 8 .rw .canvas 10) (1) (255)
def MEM_CECFG_LIMIT : Fld := rng (fld 0x1200010 0 16 .rw .canvas 64) (1) (65535)
def MEM_CECNT_CE : Fld := fld 0x1200014 0 24 .rc .hw 0
def MEM_CELAST_SRC : Fld := fld 0x1200018 28 4 .ro .hw 15
def MEM_CELAST_BLOCK : Fld := fld 0x1200018 0 28 .ro .hw 0
def MEM_UECNT_ADDRN : Fld := fld 0x120001c 12 12 .rc .hw 0
def MEM_UECNT_UEN : Fld := fld 0x120001c 0 12 .rc .hw 0
def MEM_UELAST_SRC : Fld := fld 0x1200020 28 4 .ro .hw 15
def MEM_UELAST_BLOCK : Fld := fld 0x1200020 0 28 .ro .hw 0
def MEM_SCRUB_EN : Fld := fld 0x1200024 31 1 .rw .canvas 1
def MEM_SCRUB_SLOT : Fld := rng (fld 0x1200024 16 8 .rw .canvas 64) (1) (255)
def MEM_SCRUB_RATE : Fld := rng (fld 0x1200024 0 16 .rw .canvas 0x100) (16) (1024)
def MEM_SCRLAP_LAP : Fld := fld 0x1200028 0 24 .ro .hw 0
def MEM_SCRPROG_BLOCK : Fld := fld 0x120002c 0 28 .ro .hw 0
def MEM_BAR2_DISCARDS : Fld := fld 0x1200030 0 8 .rc .hw 0
def LRD_STAT_WAY : Fld := fld 0x1300000 8 4 .ro .hw 0
def LRD_STAT_CLEANING : Fld := fld 0x1300000 4 1 .ro .hw 0
def LRD_STAT_STATE : Fld := fld 0x1300000 0 4 .ro .hw 0
def LRD_WAYS_OFFLINE : Fld := fld 0x1300004 16 16 .ro .hw 0
def LRD_WAYS_INSVC : Fld := fld 0x1300004 0 16 .ro .hw 0
def LRD_WAYST_BISTFAIL : Fld := fld 0x1300008 16 16 .ro .hw 0
def LRD_WAYST_FAULT : Fld := fld 0x1300008 0 16 .w1c .hw 0
def LRD_CTL_DISABLE : Fld := fld 0x130000c 0 1 .rw .run 0
def LRD_WAYCTL_RESTORE : Fld := fld 0x1300010 5 1 .wo .run 0
def LRD_WAYCTL_OFFLINE : Fld := fld 0x1300010 4 1 .wo .run 0
def LRD_WAYCTL_WAY : Fld := fld 0x1300010 0 4 .wo .run 0
def LRD_ACTST_RESULT : Fld := fld 0x1300014 8 8 .ro .hw 0
def LRD_ACTST_BUSY : Fld := fld 0x1300014 0 1 .ro .hw 0
def LRD_DIRTY_LINES : Fld := fld 0x1300018 0 18 .ro .hw 0
def LRD_HITS_HITS : Fld := fld 0x130001c 0 24 .rc .hw 0
def LRD_MISSES_MISSES : Fld := fld 0x1300020 0 24 .rc .hw 0
def LRD_SEQ_RUN : Fld := rng (fld 0x1300024 0 8 .rw .canvas 16) (4) (255)
def LRD_SEQCNT_BYPASS : Fld := fld 0x1300028 0 24 .rc .hw 0
def LRD_ERR_UE : Fld := fld 0x130002c 24 8 .rc .hw 0
def LRD_ERR_CE : Fld := fld 0x130002c 0 24 .rc .hw 0
def LRD_WCFG_WAYCE : Fld := rng (fld 0x1300030 0 16 .rw .canvas 16) (1) (65535)
def LRD_LFSR_STATE : Fld := fld 0x1300034 0 16 .ro .hw 0xace1
def SEQ_STAT_PC (i : Nat) : Fld := fld (0x1400000 + 0x100 * i) 8 15 .ro .hw 0
def SEQ_STAT_STATE (i : Nat) : Fld := fld (0x1400000 + 0x100 * i) 0 4 .ro .hw 0
def SEQ_HITS_HITS (i : Nat) : Fld := fld (0x1400004 + 0x100 * i) 0 24 .rc .hw 0
def SEQ_MATCH_VALID (i : Nat) (j : Nat) : Fld := fld (0x1400040 + 0x100 * i + 0x4 * j) 31 1 .ro .canvas 0
def SEQ_MATCH_ROMADDR (i : Nat) (j : Nat) : Fld := fld (0x1400040 + 0x100 * i + 0x4 * j) 16 14 .ro .canvas 0
def SEQ_MATCH_PATADDR (i : Nat) (j : Nat) : Fld := fld (0x1400040 + 0x100 * i + 0x4 * j) 0 8 .ro .canvas 0
def SEQ_MCHK_CAUSE : Fld := fld 0x1400800 28 4 .ro .hw 0
def SEQ_MCHK_SEQ : Fld := fld 0x1400800 24 3 .ro .hw 0
def SEQ_MCHK_VALID : Fld := fld 0x1400800 23 1 .ro .hw 0
def SEQ_MCHK_ADDR : Fld := fld 0x1400800 0 15 .ro .hw 0
def SEQ_ROMSCAN_LAPS : Fld := fld 0x1400804 0 24 .ro .hw 0
def SEQ_PATCH_W0 (i : Nat) (j : Nat) : Fld := fld (0x1410000 + 0x1000 * i + 0x10 * j) 0 32 .ro .canvas 0
def SEQ_PATCH_W1 (i : Nat) (j : Nat) : Fld := fld (0x1410004 + 0x1000 * i + 0x10 * j) 0 32 .ro .canvas 0
def SEQ_PATCH_W2 (i : Nat) (j : Nat) : Fld := fld (0x1410008 + 0x1000 * i + 0x10 * j) 0 32 .ro .canvas 0
def SEQ_PATCH_PAR (i : Nat) (j : Nat) : Fld := fld (0x141000c + 0x1000 * i + 0x10 * j) 0 1 .ro .canvas 0
def DMA_SRC_LO_ADDR (i : Nat) : Fld := fld (0x1500000 + 0x40 * i) 0 32 .rw .run 0
def DMA_SRC_HI_ADDR (i : Nat) : Fld := fld (0x1500004 + 0x40 * i) 0 32 .rw .run 0
def DMA_DST_LO_ADDR (i : Nat) : Fld := fld (0x1500008 + 0x40 * i) 0 32 .rw .run 0
def DMA_DST_HI_ADDR (i : Nat) : Fld := fld (0x150000c + 0x40 * i) 0 32 .rw .run 0
def DMA_LEN_LEN (i : Nat) : Fld := fld (0x1500010 + 0x40 * i) 0 24 .rw .run 0
def DMA_TOTAL_TOTAL (i : Nat) : Fld := fld (0x1500014 + 0x40 * i) 0 24 .ro .hw 0
def DMA_CTRL_DSPACE (i : Nat) : Fld := fld (0x1500018 + 0x40 * i) 10 2 .rw .run 0
def DMA_CTRL_SSPACE (i : Nat) : Fld := fld (0x1500018 + 0x40 * i) 8 2 .rw .run 0
def DMA_CTRL_CIRC (i : Nat) : Fld := fld (0x1500018 + 0x40 * i) 5 1 .rw .run 0
def DMA_CTRL_DONEIE (i : Nat) : Fld := fld (0x1500018 + 0x40 * i) 4 1 .rw .run 0
def DMA_CTRL_HALFIE (i : Nat) : Fld := fld (0x1500018 + 0x40 * i) 3 1 .rw .run 0
def DMA_CTRL_PAUSE (i : Nat) : Fld := fld (0x1500018 + 0x40 * i) 2 1 .rw .run 0
def DMA_CTRL_ABORT (i : Nat) : Fld := fld (0x1500018 + 0x40 * i) 1 1 .wo .run 0
def DMA_CTRL_START (i : Nat) : Fld := fld (0x1500018 + 0x40 * i) 0 1 .wo .run 0
def DMA_STAT_PORT (i : Nat) : Fld := fld (0x150001c + 0x40 * i) 12 1 .ro .hw 0
def DMA_STAT_ERR (i : Nat) : Fld := fld (0x150001c + 0x40 * i) 8 4 .ro .hw 0
def DMA_STAT_DONE (i : Nat) : Fld := fld (0x150001c + 0x40 * i) 3 1 .w1c .hw 0
def DMA_STAT_HALF (i : Nat) : Fld := fld (0x150001c + 0x40 * i) 2 1 .w1c .hw 0
def DMA_STAT_PAUSED (i : Nat) : Fld := fld (0x150001c + 0x40 * i) 1 1 .ro .hw 0
def DMA_STAT_BUSY (i : Nat) : Fld := fld (0x150001c + 0x40 * i) 0 1 .ro .hw 0
def FIF_DATA_WORD (i : Nat) : Fld := fld (0x1600000 + 0x40 * i) 0 32 .rs .hw 0
def FIF_LEVEL_WORDS (i : Nat) : Fld := fld (0x1600004 + 0x40 * i) 0 24 .ro .hw 0
def FIF_LOST_LOST (i : Nat) : Fld := fld (0x1600008 + 0x40 * i) 0 24 .rc .hw 0
def FIF_STAT_TORN (i : Nat) : Fld := fld (0x160000c + 0x40 * i) 2 1 .w1c .hw 0
def FIF_STAT_FULL (i : Nat) : Fld := fld (0x160000c + 0x40 * i) 1 1 .ro .hw 0
def FIF_STAT_EMPTY (i : Nat) : Fld := fld (0x160000c + 0x40 * i) 0 1 .ro .hw 1
def FIF_CAP_WORDS (i : Nat) : Fld := fld (0x1600010 + 0x40 * i) 0 24 .ro .hw 0x100
def FIF_THR_THR (i : Nat) : Fld := fld (0x1600014 + 0x40 * i) 0 24 .rw .canvas 1
def FIF_DROP_FIFO : Fld := fld 0x1600800 0 2 .wo .run 0
def FIF_IRQ_ST_DMA : Fld := fld 0x1600804 8 8 .w1c .hw 0
def FIF_IRQ_ST_FIFO : Fld := fld 0x1600804 0 3 .w1c .hw 0
def FIF_IRQ_EN_EN : Fld := fld 0x1600808 0 32 .rw .run 0
def FIF_IRQCFG_EN : Fld := fld 0x160080c 6 1 .rw .canvas 0
def FIF_IRQCFG_VEC : Fld := rng (fld 0x160080c 0 6 .rw .canvas 0) (0) (63)
def FIF_TCFG_EN : Fld := fld 0x1600810 31 1 .rw .run 0
def FIF_TCFG_COUNT : Fld := rng (fld 0x1600810 16 5 .rw .run 0) (0) (16)
def FIF_TCFG_PERIOD : Fld := rng (fld 0x1600810 0 12 .rw .run 64) (1) (4095)
def FIF_TSEL_OFFSET (i : Nat) : Fld := fld (0x1600820 + 0x4 * i) 2 23 .rw .run 0
def SYS_MODE_CUR_MODE : Fld := fld 0x100010 0 4 .ro .hw 2
def SYS_MODE_REQ_MODE : Fld := rng (fld 0x100014 0 4 .rw .run 2) (0) (5)
def SYS_MODE_ST_CHANGES : Fld := fld 0x100018 24 8 .rc .hw 0
def SYS_MODE_ST_EFFH : Fld := fld 0x100018 20 4 .ro .hw 0
def SYS_MODE_ST_JOIN : Fld := fld 0x100018 16 4 .ro .hw 0
def SYS_MODE_ST_LEAVE : Fld := fld 0x100018 12 4 .ro .hw 0
def SYS_MODE_ST_SUBST : Fld := fld 0x100018 4 1 .ro .hw 0
def SYS_MODE_ST_READBACK : Fld := fld 0x100018 2 1 .ro .hw 0
def SYS_MODE_ST_RAMPWAIT : Fld := fld 0x100018 1 1 .ro .hw 0
def SYS_MODE_ST_TRANS : Fld := fld 0x100018 0 1 .ro .hw 0
def PWR_STAT_PG : Fld := fld 0x1800000 8 6 .ro .hw 63
def PWR_STAT_VINLVL : Fld := fld 0x1800000 0 2 .ro .hw 0
def PWR_VIN_MIN : Fld := fld 0x1800004 16 16 .rc .hw 0xffff
def PWR_VIN_NOW : Fld := fld 0x1800004 0 16 .ro .hw 0
def PWR_EVT_REGFAULT : Fld := fld 0x1800008 24 8 .ro .hw 0
def PWR_EVT_HOLDUP : Fld := fld 0x1800008 16 8 .rc .hw 0
def PWR_EVT_BROWNOUT : Fld := fld 0x1800008 8 8 .rc .hw 0
def PWR_ICORE_PHASES : Fld := fld 0x180000c 16 3 .ro .hw 4
def PWR_ICORE_MA : Fld := fld 0x180000c 0 16 .ro .hw 0
def THM_STAT_TG : Fld := fld 0x1700000 16 16 .ro .hw 0
def THM_STAT_VALID : Fld := fld 0x1700000 15 1 .ro .hw 0
def THM_STAT_THROT : Fld := fld 0x1700000 14 1 .ro .hw 0
def THM_STAT_RISE : Fld := fld 0x1700000 13 1 .ro .hw 0
def THM_STAT_SOFT : Fld := fld 0x1700000 12 1 .ro .hw 0
def THM_STAT_HARD : Fld := fld 0x1700000 11 1 .ro .hw 0
def THM_STAT_ATRIP : Fld := fld 0x1700000 10 1 .w1c .hw 0
def THM_STAT_DUTY : Fld := fld 0x1700000 0 9 .ro .hw 0x100
def THM_DEMAND_BUSY : Fld := fld 0x1700004 31 1 .ro .hw 0
def THM_DEMAND_DONE : Fld := fld 0x1700004 30 1 .w1c .hw 0
def THM_DEMAND_GO : Fld := fld 0x1700004 24 1 .wo .run 0
def THM_DEMAND_PICK : Fld := fld 0x1700004 16 4 .rw .run 0
def THM_DEMAND_DIE : Fld := fld 0x1700004 0 16 .rw .run 0
def THM_RATE_RATE : Fld := fld 0x1700008 16 16 .ro .hw 0
def THM_RATE_DIEBAND : Fld := fld 0x1700008 13 3 .ro .hw 0
def THM_SUSPECT_MASK : Fld := fld 0x170000c 0 16 .ro .hw 0
def THM_CNT_SUSPN : Fld := fld 0x1700010 24 8 .rc .hw 0
def THM_CNT_HOSTDEM : Fld := fld 0x1700010 12 12 .rc .hw 0
def THM_CNT_THROTS : Fld := fld 0x1700010 0 12 .rc .hw 0
def THM_DIE_VALID (i : Nat) : Fld := fld (0x1700040 + 0x4 * i) 31 1 .ro .hw 0
def THM_DIE_SUSPECT (i : Nat) : Fld := fld (0x1700040 + 0x4 * i) 30 1 .ro .hw 0
def THM_DIE_TEMP (i : Nat) : Fld := fld (0x1700040 + 0x4 * i) 0 16 .ro .hw 0
def THM_SOFT_SOFT : Fld := fld 0x1700800 0 16 .rw .canvas 0x5f0
def THM_HARD_LIMIT : Fld := fld 0x1700804 16 16 .ro .canvas 0x760
def THM_HARD_HARD : Fld := fld 0x1700804 0 16 .ro .canvas 0x6e0
def THM_RISE_RISE : Fld := fld 0x1700808 0 16 .rw .canvas 48
def THM_DUTY_FLOOR : Fld := fld 0x170080c 8 8 .rw .canvas 20
def THM_DUTY_SLOPE : Fld := fld 0x170080c 0 8 .rw .canvas 10
def THM_PERIOD_PERIOD : Fld := fld 0x1700810 0 25 .rw .canvas 0x400000
def THM_EDGE_EDGEHI (i : Nat) : Fld := fld (0x1700814 + 0x4 * i) 16 16 .ro .canvas 0
def THM_EDGE_EDGELO (i : Nat) : Fld := fld (0x1700814 + 0x4 * i) 0 16 .ro .canvas 0
def THM_CFG_PKLIM : Fld := rng (fld 0x1700830 24 8 .rw .canvas 75) (50) (90)
def THM_CFG_STOPT : Fld := rng (fld 0x1700830 16 8 .rw .canvas 40) (10) (200)
def THM_CFG_PKDIV : Fld := rng (fld 0x1700830 8 8 .rw .canvas 64) (1) (255)
def THM_CFG_XDEV : Fld := rng (fld 0x1700830 0 8 .rw .canvas 8) (2) (30)
def FLT_STAT_UNCOV : Fld := fld 0x1900000 24 8 .rc .hw 0
def FLT_STAT_BYPASSN : Fld := fld 0x1900000 12 12 .rc .hw 0
def FLT_STAT_ENTRIES : Fld := fld 0x1900000 0 12 .rc .hw 0
def FLT_ACTIVE0_LANES : Fld := fld 0x1900004 0 28 .ro .hw 0
def FLT_ACTIVE1_HEADS : Fld := fld 0x1900008 28 4 .w1c .hw 0
def FLT_ACTIVE1_UNITS : Fld := fld 0x1900008 24 4 .ro .hw 0
def FLT_ACTIVE1_DECS : Fld := fld 0x1900008 16 8 .ro .hw 0
def FLT_ACTIVE1_WAYS : Fld := fld 0x1900008 0 16 .ro .hw 0
def FLT_ACTIVE2_NOSIDE : Fld := fld 0x190000c 5 1 .w1c .hw 0
def FLT_ACTIVE2_MEMLIM : Fld := fld 0x190000c 4 1 .w1c .hw 0
def FLT_ACTIVE2_MCHK : Fld := fld 0x190000c 3 1 .ro .hw 0
def FLT_ACTIVE2_SPINDLE : Fld := fld 0x190000c 2 1 .ro .hw 0
def FLT_ACTIVE2_PORTS : Fld := fld 0x190000c 0 2 .ro .hw 0
def FLT_HALT_TAG : Fld := fld 0x1900010 24 8 .ro .hw 0
def FLT_HALT_CODE : Fld := fld 0x1900010 16 8 .ro .hw 0
def FLT_HALT_UNIT : Fld := fld 0x1900010 8 8 .ro .hw 0
def FLT_HALT_CAUSE : Fld := fld 0x1900010 0 8 .ro .hw 0
def FLT_HEADCTL_RESTORE : Fld := fld 0x1900014 3 1 .wo .run 0
def FLT_HEADCTL_OFFLINE : Fld := fld 0x1900014 2 1 .wo .run 0
def FLT_HEADCTL_HEAD : Fld := fld 0x1900014 0 2 .wo .run 0
def FLT_ACTST_RESULT : Fld := fld 0x1900018 8 8 .ro .hw 0
def FLT_ACTST_BUSY : Fld := fld 0x1900018 0 1 .ro .hw 0
def FLT_CFG_UELIM : Fld := rng (fld 0x1900800 8 8 .rw .canvas 8) (1) (255)
def FLT_CFG_ADDRLIM : Fld := rng (fld 0x1900800 0 8 .rw .canvas 2) (1) (16)
def CEL_STATUS_ERR : Fld := fld 0x1a00000 16 8 .ro .hw 0
def CEL_STATUS_PWFAIL : Fld := fld 0x1a00000 12 4 .ro .hw 0
def CEL_STATUS_LOWV : Fld := fld 0x1a00000 11 1 .ro .hw 0
def CEL_STATUS_UNLOCKED : Fld := fld 0x1a00000 10 1 .ro .hw 0
def CEL_STATUS_PROTSEAL : Fld := fld 0x1a00000 9 1 .ro .hw 1
def CEL_STATUS_PROTID : Fld := fld 0x1a00000 8 1 .ro .hw 1
def CEL_STATUS_STATE : Fld := fld 0x1a00000 2 2 .ro .hw 0
def CEL_STATUS_DONE : Fld := fld 0x1a00000 1 1 .w1c .hw 0
def CEL_STATUS_BUSY : Fld := fld 0x1a00000 0 1 .ro .hw 0
def CEL_ADDR_WORD : Fld := fld 0x1a00004 4 18 .rw .run 0
def CEL_DATA_DATA (i : Nat) : Fld := fld (0x1a00008 + 0x4 * i) 0 32 .rw .run 0
def CEL_CMD_OP : Fld := fld 0x1a00018 0 2 .wo .run 0
def CEL_UNLOCK_PROT : Fld := fld 0x1a0001c 8 2 .wo .run 0
def CEL_UNLOCK_OP : Fld := fld 0x1a0001c 0 3 .wo .run 0
def CEL_LOG_LREQ : Fld := fld 0x1a00020 17 1 .ro .hw 0
def CEL_LOG_JREQ : Fld := fld 0x1a00020 16 1 .ro .hw 0
def CEL_LOG_LFREE : Fld := fld 0x1a00020 8 8 .ro .hw 0
def CEL_LOG_JFREE : Fld := fld 0x1a00020 0 8 .ro .hw 0
def CEL_CNT_ERASES : Fld := fld 0x1a00024 16 16 .rc .hw 0
def CEL_CNT_ERRWORDS : Fld := fld 0x1a00024 0 16 .rc .hw 0
def SEC_STAT_ERR : Fld := fld 0x1b00000 24 8 .ro .hw 0
def SEC_STAT_KEKGEN : Fld := fld 0x1b00000 8 16 .ro .hw 0
def SEC_STAT_SANITIZING : Fld := fld 0x1b00000 2 1 .ro .hw 0
def SEC_STAT_DBGOPEN : Fld := fld 0x1b00000 1 1 .ro .hw 0
def SEC_STAT_KEK : Fld := fld 0x1b00000 0 1 .ro .hw 0
def SEC_KEYS_LOADED (i : Nat) : Fld := fld (0x1b00004 + 0x4 * i) 0 32 .ro .hw 0
def SEC_CNT_GENMIS : Fld := fld 0x1b0000c 24 8 .rc .hw 0
def SEC_CNT_REFUSED : Fld := fld 0x1b0000c 12 12 .rc .hw 0
def SEC_CNT_DELIVERED : Fld := fld 0x1b0000c 0 12 .rc .hw 0
def SEC_SAN_SPROG : Fld := fld 0x1b00010 16 16 .ro .hw 0
def SEC_SAN_SSTAT : Fld := fld 0x1b00010 0 2 .ro .hw 0
def DBG_STAT_RESULT : Fld := fld 0x1c00000 4 4 .ro .hw 0
def DBG_STAT_BUSY : Fld := fld 0x1c00000 2 1 .ro .hw 0
def DBG_STAT_LOCK : Fld := fld 0x1c00000 1 1 .ro .canvas 0
def DBG_STAT_OPEN : Fld := fld 0x1c00000 0 1 .ro .hw 0
def DBG_PWLO_PW : Fld := fld 0x1c00004 0 32 .wo .run 0
def DBG_UNLOCK_PW : Fld := fld 0x1c00008 0 32 .wo .run 0
def SYS_RESET_KEY : Fld := fld 0x10001c 16 16 .wo .run 0
def SYS_RESET_FULL : Fld := fld 0x10001c 0 1 .wo .run 0
def SYS_RSTINFO_BADKEY : Fld := fld 0x100020 24 1 .w1c .hw 0
def SYS_RSTINFO_FULLS : Fld := fld 0x100020 16 8 .ro .hw 0
def SYS_RSTINFO_LAST : Fld := fld 0x100020 0 4 .ro .hw 1
def SYS_MNTPROG_ATTPEND : Fld := fld 0x100024 16 6 .ro .hw 0
def SYS_MNTPROG_STEP : Fld := fld 0x100024 0 4 .ro .hw 0

end Sys2Proof.Machine.R
end

