-- ==== Sys2Proof/Machine/State.lean ====
section
/-! DEFINITION. The state of the block as plain data: the register file, and for every block the state its rules name
beside its registers. A register is stored once: what another item of the state already holds (a FIFO's level, the
count of staged entries) is computed when the register is read. -/

namespace Sys2Proof.Machine

/-- Reasons a step stops with a fault. -/
inductive Fault
  /-- No command raises this: the block reports every error in its registers. Safe. -/
  | none
  deriving DecidableEq, Repr

/-- Reasons a command is refused. -/
inductive Refusal
  /-- Only an arm of `exec` that has no meaning yet raises this. Safe. -/
  | notModelled (mnemonic : String)
  deriving DecidableEq, Repr

/-- A stop or a command held for the tick that ends its servo sample (R45), best rank first. -/
inductive TrigKind
  | safeStop | orderlyStop | unmount | mount
  deriving DecidableEq, Repr

/-- A held trigger: its cause (Table 1.10), the FLT_LOG entry that raised it (tag, code, unit; 0 for host and signal
causes) and, for Mount and Unmount, the waiting command. -/
structure Trigger where
  kind : TrigKind
  cause : Nat
  tag : Nat := 0
  code : Nat := 0
  unit : Nat := 0
  port : Nat := 0
  cid : Nat := 0
  arg : Nat := 0
  deriving DecidableEq, Repr

/-- Supply, regulators, resets and lifecycle beside the SYS and PWR registers. -/
structure Sys where
  off : Bool := false             -- OFF, which has no code in SYS_STATE (R41)
  regWait : Bool := false         -- regulators started, fuses not yet loaded (R478)
  regFault : Bool := false        -- a rail left its window; the 100 ms wait runs (R479)
  resetHold : Nat := 0            -- 0, or the SYS_RSTINFO.LAST code of the full reset in its 10 µs hold (R543)
  tripped : Bool := true          -- the safety block (R157, R545)
  holdUp : Bool := false          -- VIN is below the hold-up level (R480)
  brownOut : Bool := false        -- VIN is below the brown-out level
  vinOk100 : Bool := true         -- VIN has stayed at or above 10.6 V for 100 ms (R481)
  lsrEn : Bool := true            -- pin LSR_EN
  cartSeated : Bool := false      -- pin CART_SEATED at its filtered level (R577)
  held : List Trigger := []       -- triggers held in this servo sample (R45)
  drainUntil : Option Nat := none -- the stamp at which the drain of an orderly stop ends (R502, Table 12.4)
  frzTap : Bool := false          -- the freeze was raised by TFREEZE (Table 22.4)
  afterFault : Bool := false      -- the next power-on reset is a regulator restart (R479, R558)
  parkHeld : Bool := false        -- the PARK seeks and the brake wait for VIN (R502, cause 0x22)
  stagLeft : List Nat := []       -- heads that still await their LASER on in the stagger (R171)
  stagAt : Option Nat := none     -- the stamp of the latest LASER on of the stagger
  stagHead : Option Nat := none   -- the head it went to, whose LPMON check is awaited
  modeAt : Nat := 0               -- the stamp at which the mode in force took force, and the mode before it (R266)
  modeWas : Nat := 0
  unmountWait : List (Nat × Nat) := []  -- Unmount commands (port, cid) that complete when the park completes
  deriving DecidableEq, Repr

/-- A packet FIFO: the unread packets, oldest first, and how many words of the first the consumer has read (R451). -/
structure Fifo where
  pkts : List (List Word) := []
  rd : Nat := 0
  ptr : Nat := 0                  -- words gone before the oldest packet, since its storage was set up (R451)
  deriving DecidableEq, Repr

/-- A MSI-X message sent: port and vector. -/
abbrev Msix := Nat × Nat

/-- A one-shot event in the angle scheduler's store (R65, R68). -/
structure Ev where
  cls : EvClass
  owner : Nat          -- head, lane or channel of the resource
  target : Nat         -- 48-bit stamp
  len : Nat            -- length of its interval in au
  lane : Option Nat := none       -- the lane that a calibration window takes alone (R33)
  exempt : Bool := false          -- a verify reading or a read-back (R488)
  deriving DecidableEq, Repr

/-- A block of a window (R138, R290): its PBA, its stripe and member where it is one, and the stamps at which its first channel bit
comes and its last has gone by. -/
structure WBlk where
  pba : Nat
  mem : Option (Nat × Nat) := none
  start : Nat
  stop : Nat
  deriving DecidableEq, Repr

/-- An open window of a head (R64, R290): its class, head, the stamps at which it opened and closes, and what it reads
or writes: layer, band, its blocks in the order in which the head meets them, and the activity it belongs to (0 host, 1 rebuild,
2 calibration, 3 refresh, 4 read-ahead, 5 patrol, 7 verify, 8 the Attic). -/
structure Win where
  cls : EvClass
  head : Nat
  start : Nat
  stop : Nat
  layer : Nat := 0
  band : Nat := 0
  act : Nat := 0
  cut : Bool := false             -- cut short: `stop` is the tick that closes it (R67, R208)
  dead : Bool := false            -- the pairs went IDLE inside it
  deadAt : Nat := 0               -- the stamp at which they did
  cause : Nat := 0                -- 1 + the inhibit cause that broke it
  blks : List WBlk := []
  lane : Option Nat := none       -- the lane that a calibration window takes alone
  verify : Nat := 0               -- VERIFY of the mode in force as a write window opened (Table 18.4)
  deriving DecidableEq, Repr

/-- A request submitted to the angle scheduler and not yet granted (R33, R505). -/
structure Req where
  ev : Ev
  rank : Nat           -- 0 host work; 1 to 6 as Table 20.5
  seq : Nat            -- the sequencer that waits on it, or 6 where none does
  deriving DecidableEq, Repr

/-- Angle-time beside its registers. -/
structure Ang where
  running : Bool := false         -- ANG_NOW advances (R52)
  pend : List Ev := []            -- granted one-shot events
  due : List Ev := []             -- events of the present tick, in the order of R66
  subm : List Req := []           -- requests waiting for a grant, in order of submission
  returned : List Ev := []        -- requests given back to their owners for a new plan (R67)
  refused : List Req := []        -- requests refused because the store was full (R68)
  share : Sparse := []            -- au granted to a rank of maintenance, by (revolution × 4 + head) × 8 + rank (R507)
  err : Int := 0                  -- phase error still to be removed (R59)
  errBase : Nat := 0              -- the stamp at which the slew of that error began
  stepPending : Nat := 0          -- a forward step due at the next tick (R59)
  sampleDue : Bool := false       -- the servo sample of the present tick has still to run (R66)
  obsRate : Nat := 0              -- the increment each source gives, as last measured: the observer's, that over the last two
  markRate : Nat := 0             -- marks, that over the last revolution, the output of the loop filter (R63)
  revRate : Nat := 0
  wobRate : Nat := 0
  latchHi : Nat := 0              -- ANG_NOW_HI as latched by a read of _LO (R21)
  aliasHi : Nat := 0              -- the same for the aliases (R537)
  winBad : Bool := false          -- the measurement window in progress breaks a condition (R8, R72)
  winAt : Nat := 0                -- the stamp at which it began
  jitN : Nat := 0                 -- its servo samples so far, and the sums of d, of d × sample number and of d² (R72), d in
  jitS : Int := 0                 -- 2⁻²⁴ au
  jitT : Int := 0
  jitQ : Nat := 0
  ampSum : Nat := 0               -- the sum of the wobble amplitudes of the reference head over it (R71)
  deriving DecidableEq, Repr

/-- A staged entry of the Sketch (R105). -/
structure SkEntry where
  off : Nat
  mask : Nat
  val : Nat
  deriving DecidableEq, Repr

/-- Sketch and Varnish beside the SKT registers. -/
structure Skt where
  entries : List SkEntry := []
  target : Nat := 0               -- the commit tick's target
  asap : Bool := false
  commitHiLatch : Nat := 0
  aliasHi : Nat := 0
  deriving DecidableEq, Repr

/-- A DMA channel beside its registers: DST and LEN at START (R448), the bytes of issued reads whose data has not come (R449),
whether the HALF read-back of this pass is made, whether a circular pass has ended and its read-back is due (R448), and what it has
written to host memory: address and bytes, newest first. -/
structure DmaSt where
  dst0 : Nat := 0
  len0 : Nat := 0
  issued : Nat := 0
  halfDone : Bool := false
  wrapDue : Bool := false
  sent : List (Nat × List Byte) := []
  deriving DecidableEq, Repr

/-- A sequencer beside SEQ_STAT (R437). -/
structure SeqSt where
  regs : List Nat := []           -- r0 to r31, missing entries 0
  z : Bool := false
  n : Bool := false
  c : Bool := false
  stack : List Nat := []          -- return addresses, newest first, P in bit 14
  inQ : List (List (List Nat)) := []   -- eight input queues of descriptors of four 24-bit words
  outQ : List (List (List Nat)) := []  -- eight output queues
  wait : Nat := 0                 -- 0 none, 1 ENQ on a full queue, 2 WAITQ, 3 WAITA, 4 BAR
  waitQ : Nat := 0                -- queue number or barrier mask of the wait
  waitDesc : List Nat := []       -- the descriptor an ENQ waits to append
  waitRd : Nat := 0               -- destination register of a WAITA
  deriving DecidableEq, Repr

/-- A HEADS entry of the Canvas (Table 3.4). -/
structure HeadCfg where
  declared : Bool := false
  absentOk : Bool := false
  spots : Nat := 0
  wspots : Nat := 0
  expectId : Nat := 0
  deriving DecidableEq, Repr

/-- A loop descriptor (Table 7.2). -/
structure LoopDesc where
  nst : Nat := 1
  nin : Nat := 1
  nout : Nat := 1
  negk : Bool := false
  home : Nat := 0
  alt : Nat := 0
  inpol : Nat := 0
  insrc : Nat := 0
  outdst : Nat := 0
  sha : Nat := 0
  shb : Nat := 0
  shc : Nat := 0
  shl : Nat := 0
  shk : Nat := 0
  supn : Nat := 1
  supm : Nat := 1
  holdmax : Nat := 1
  innov : List Nat := []
  deriving DecidableEq, Repr

/-- A QUEUES entry (Table 3.8). -/
structure QueueCfg where
  enable : Bool := false
  ioqp : Nat := 0
  vectors : Nat := 0
  arb : Nat := 0
  mqes : Nat := 0
  inFlight : Nat := 0
  deriving DecidableEq, Repr

/-- A MODE record (Table 3.10). -/
structure ModeCfg where
  rpm : Nat := 0
  heads : Nat := 0
  wspots : Nat := 0
  verify : Nat := 0
  iter : Nat := 0
  slowtmo : Nat := 0
  patrol : Nat := 0
  sched : Nat := 0
  rahead : Nat := 0
  calint : Nat := 0
  deriving DecidableEq, Repr

/-- A MEMLAYOUT region (Table 3.6): ID, BASE and SIZE in units of 64 KiB. -/
structure Region where
  id : Nat
  base : Nat
  size : Nat
  deriving DecidableEq, Repr

/-- The Canvas as applied, less what its records write into registers: the CNV shadow of the other records (R101). -/
structure CanvasCfg where
  defmode : Nat := 0
  heads : List HeadCfg := []
  bind : List Nat := []           -- LANES BIND, L00 to L27
  policy : List Nat := []         -- LANES POLICY, H0 to H3
  loops : List LoopDesc := []
  width : Nat := 0                -- STRIPE
  parity : Nat := 0
  spare : Nat := 0
  seedLo : Nat := 0
  seedHi : Nat := 0
  queues : List QueueCfg := []
  memSize : Nat := 0              -- MEMLAYOUT SIZE in GiB
  ways : Nat := 0                 -- MEMLAYOUT WAYS
  regions : List Region := []
  secFlags : Nat := 0             -- SECURITY FLAGS
  modes : List ModeCfg := []
  deriving DecidableEq, Repr

/-- The Canvas block beside its registers. -/
structure Cnv where
  image : List Byte := []         -- the staged image in Larder ways 0 and 1 (R97)
  staged : Bool := false          -- an image is staged
  fetchPort : Nat := 0            -- the port the fetch keeps
  fetchLen : Nat := 0             -- bytes the accepted LOAD asked for
  training : Bool := false        -- VALIDATING has reached step 7
  cfg : CanvasCfg := {}
  shadow : RegFile := []          -- committed values of the Canvas-set fields (R101)
  deriving DecidableEq, Repr

/-- A control-link transaction (R160, R162): priority class 1 to 6, CMD, ADDR, DATA, attempts already failed. -/
structure Xact where
  cls : Nat
  cmd : Nat
  addr : Nat
  data : Nat
  tries : Nat := 0
  deriving DecidableEq, Repr

/-- The link and the pickup of one head beside the OPU registers. -/
structure OpuHead where
  queue : List Xact := []         -- pending transactions; the first is the one in progress when `busy`
  busy : Bool := false
  enumStep : Nat := 0             -- step of R166 in progress, 0 none
  enumIdx : Nat := 0              -- ROM word or level reached in that step
  restore : Bool := false         -- the enumeration is one of FLT_HEADCTL RESTORE
  overtemp : Bool := false        -- holds new write windows (R163)
  req : Nat := 0                  -- the 40-bit request of the transaction in progress, else of the latest (R160)
  lonFell : Bool := false         -- LON has fallen since that transaction began (R168)
  heldLevels : List (Nat × Nat) := []  -- level changes held during a write window
  resetHeld : Option Nat := none  -- the levels are rewritten after that window, and then LASER on for these spots (R163)
  tempErr : Bool := false         -- the temperature demand in progress has met a link error (R165)
  tempWait : Bool := false        -- a TCONV was sent, its RD of TEMP is 200 µs away
  lofLeave : Bool := false        -- a LOFF write waits for step 4 of R470
  leaving : Nat := 0              -- step 4 of R470: 0 not begun, 1 its LASER off is under way, 2 retracted and parking
  lpBad : Nat := 0                -- consecutive samples with LPMON out by more than 25%, and within it (R164, R171)
  lpGood : Nat := 0
  lpCode : Int := 0               -- LPMON of the latest sample
  direct : Bool := false          -- a direct host transaction has not completed
  deriving DecidableEq, Repr

/-- One loop of the control engine beside its registers (R173, R174). -/
structure LoopSt where
  xp : List Int := []             -- predicted state, s24
  setTo : Nat := 5                -- state the owner set for the next tick; 5 none
  override : List Int := []       -- owner's outputs in OPEN
  ovr : Nat := 0                  -- 0 `override`; 1 the observer's prediction (R200); 2 the sequencer's profile, which is free
  heldN : Nat := 0                -- samples in HOLD
  satPrev : Bool := false         -- SAT in step 3 or 5 of the previous sample (R181)
  deriving DecidableEq, Repr

/-- The control engine beside its registers. -/
structure Srv where
  loops : List LoopSt := List.replicate 17 {}
  dac : List Int := List.replicate 16 0   -- the codes of ACT0 to ACT15 (R156)
  moveNext : List Nat := []       -- units that an accepted OFFLINE powers down at the next tick (R187)
  restoring : List Nat := []      -- units under BIST or reload (R187)
  deriving DecidableEq, Repr

/-- An I/O submission queue (R382); the admin queue has qid 0. -/
structure Sq where
  port : Nat
  qid : Nat
  cqid : Nat
  size : Nat
  tail : Nat := 0
  head : Nat := 0
  prio : Nat := 0                 -- its priority class: 0 urgent, 1 high, 2 medium, 3 low
  deriving DecidableEq, Repr

/-- The arbiter of one port's submission queues (R379), by class: 0 the only one of round robin, or the admin queue; 1 urgent, 2 high,
3 medium, 4 low. -/
structure SqArb where
  last : List Nat := [0, 0, 0, 0, 0]   -- the queue of the latest fetch
  run : List Nat := [0, 0, 0, 0, 0]    -- commands fetched from it in its burst
  credit : List Nat := [0, 0, 0]       -- commands left to high, medium and low in this round
  deriving DecidableEq, Repr

/-- An I/O completion queue. -/
structure Cq where
  port : Nat
  qid : Nat
  size : Nat
  vec : Nat := 0
  deriving DecidableEq, Repr

/-- A command in flight (R379). `op` is its opcode, admin when qid is 0; `lo` and `hi` are its range in 64 KiB units
(R396); `begun` says that it has begun a medium access or moved data (R381); `drop` that its completion is discarded. -/
structure HCmd where
  port : Nat
  qid : Nat
  cid : Nat
  op : Nat
  nsid : Nat := 0
  slba : Nat := 0
  nlb : Nat := 0
  data : List Nat := []
  lo : Nat := 0
  hi : Nat := 0
  modify : Bool := false
  locked : Bool := false          -- holds a range-lock entry
  waiting : Bool := false         -- waits on an earlier conflicting entry
  begun : Bool := false
  left : Nat := 0                 -- checkpoints it still waits for
  need : List (Nat × Nat × Nat) := []   -- units a read still waits for: unit, stripe, member (R324)
  got : List (Nat × Nat) := []    -- blocks a read has: LBA and contents
  fault : Option (Nat × Nat) := none    -- its first block that cannot be read, and why: 1 lost, 2 another key generation
  fua : Bool := false
  os : List BlockRead := []       -- what buffer memory returns for the blocks that HST reads of its data, by LBA
  ls : List LineOutcome := []     -- what the Larder's lines hold that the stores of its data hit
  drop : Bool := false
  seq : Nat := 0                  -- fetch order
  arg : Nat := 0
  deriving DecidableEq, Repr

/-- A completion entry posted. -/
structure Cpl where
  port : Nat
  qid : Nat
  cid : Nat
  sct : Nat
  sc : Nat
  dnr : Bool
  dw0 : Nat
  deriving DecidableEq, Repr

/-- An Error Information entry (R411): its number, port, queue, command, status, first LBA, NSID, and the Command Specific
Information of an unrecovered read: stripe × 16 + codeword index (Table 15.4). -/
structure ErrInfo where
  num : Nat
  port : Nat
  qid : Nat
  cid : Nat
  status : Nat
  lba : Nat := 0
  nsid : Nat := 0
  csi : Nat := 0
  deriving DecidableEq, Repr

/-- A namespace (Table 15.6); `zones` are its volume zones in ascending order. -/
structure Ns where
  nsid : Nat
  zoned : Bool := false
  enc : Bool := false
  lbads : Nat := 12
  attach : Nat := 0
  nsze : Nat := 0
  keygen : Nat := 0
  created : Nat := 0
  zones : List Nat := []
  deriving DecidableEq, Repr

/-- A custody request collected for the next tick: resource, requesting port, target port (1 A, 2 B) (R399). -/
structure CustReq where
  res : Nat
  port : Nat
  target : Nat
  cid : Option Nat := none        -- the Custody command that waits on it
  deriving DecidableEq, Repr

/-- A namespace swap in progress (R401). -/
structure Swap where
  nsid : Nat
  target : Nat
  cmds : List (Nat × Nat) := []   -- Custody commands (port, cid) that complete when it ends
  deriving DecidableEq, Repr

/-- A zone of a zoned namespace (R393, R394): volume zone, state (NVMe ZS code), WP and SWP in LBAs of the zone. -/
structure ZoneSt where
  nsid : Nat
  idx : Nat
  st : Nat := 1
  wp : Nat := 0
  swp : Nat := 0
  deriving DecidableEq, Repr

/-- A long-running admin command waiting its turn (R380): kind, port, cid and parameters. -/
structure LongCmd where
  kind : Nat                      -- opcode
  port : Nat
  cid : Nat
  arg : Nat := 0
  nsid : Nat := 0
  args : List Nat := []
  deriving DecidableEq, Repr

/-- The host block beside its registers. Ports A and B are the entries 0 and 1 of the per-port lists. -/
structure Hst where
  en : List Bool := [false, false]         -- CC.EN
  rdy : List Bool := [false, false]        -- CSTS.RDY
  wasEn : List Bool := [false, false]      -- CC.EN has been 1 (R377)
  ams : List Nat := [0, 0]                 -- CC.AMS: 0 round robin, 1 weighted round robin with urgent priority
  arb : List SqArb := [{}, {}]
  arbPort : Nat := 1                       -- the port of the latest fetch
  shst : List Nat := [0, 0]                -- CSTS.SHST: 0, 1 in progress, 2 complete
  shSeq : List Nat := [0, 0]               -- the fetch order a normal shutdown waits for
  sqs : List Sq := []
  cqs : List Cq := []
  cmds : List HCmd := []                   -- in flight, in order of fetch
  fetchSeq : Nat := 0
  cpl : List Cpl := []                     -- completions posted, newest first
  dataIn : List (Nat × Nat × List Nat) := []  -- data returned to a command: port, cid, contents, newest first
  msix : List (Nat × Nat) := []            -- MSI-X messages sent: port, vector, newest first
  long : Option LongCmd := none            -- the long-running admin command that executes
  longWait : List LongCmd := []
  aer : List (Nat × Nat) := []             -- outstanding Asynchronous Event Requests: port, cid
  aen : List (Nat × Nat) := []             -- events not yet reported: port, completion DW0
  feats : List ((Nat × Nat) × Nat) := []   -- features set: (port, FID × 256 + NSID), value
  errlog : List ErrInfo := []              -- Error Information, newest first, 64 at most
  ns : List Ns := []                       -- the namespace list of the latest mount (R390)
  zones : List ZoneSt := []
  custReq : List CustReq := []
  swaps : List Swap := []
  volClean : Bool := false                 -- VOLUME.CLEAN was 1 at the latest Mount
  resyncRan : Bool := false
  chgNs : List (Nat × Nat) := []           -- namespaces changed since a port's latest read of log page 0x04
  chgZones : List (Nat × Nat × Nat) := []  -- zones changed since a port's latest read of log page 0xBF
  report : List Nat := []                  -- the Mount Report of the latest Mount, 64 bytes (R410)
  mountPort : Nat := 0
  mountCid : Nat := 0
  mountWait : Bool := false                -- a Mount is held while enumeration runs (R548)
  mountMode : Nat := 0                     -- MODE field of the Mount
  unitsRead : Nat := 0                     -- SMART counts since power-on (Table 15.5)
  unitsWritten : Nat := 0
  hostReads : Nat := 0
  hostWrites : Nat := 0
  unsafeDown : Nat := 0
  mediaErrs : Nat := 0
  errEntries : Nat := 0
  deriving DecidableEq, Repr

/-- The planner of one sled beside its registers (R221, R222): quantities in fixed point with `Config.planFrac`
fractional bits, in metres and seconds. -/
structure Sled where
  v : Int := 0
  a : Int := 0
  ad : Int := 0
  vv : Int := 0                   -- limits in force for this seek
  aa : Int := 0
  jj : Int := 0
  t : Int := 0                    -- the interval to the next edge
  ns : Nat := 0                   -- the interval loaded, whole ns
  carry : Nat := 0                -- the 16-bit fraction of a ns
  back : Option Int := none       -- REVERSE: the point at which the sled comes to rest before it seeks its target (R225)
  req : Option (Nat × Int) := none    -- a seek taken at the next step edge: KIND and target (R225, R226)
  late : Bool := false            -- R224 keeps the old limits to the target
  lowered : Bool := false         -- R224 has lowered A: the acceleration comes down to it at the rate J
  returned : List Int := []       -- class D targets given back to the track sequencer (R226)
  searchMoves : Nat := 0          -- moves of the search of R220
  wedges : Nat := 0               -- consecutive wedges with |mean LPOS| above THR (R228)
  outward : Bool := false         -- the side of that mean: LPOS is positive
  retries : Nat := 0              -- correction seeks made after this landing (R227)
  ended : Nat := 0                -- kind of the seek that has ended and waits for its capture; 0 none
  deriving DecidableEq, Repr

/-- The spindle drive beside its registers. -/
structure Spn where
  tries : Nat := 0                -- start attempts that failed (R237)
  refFrac : Nat := 0              -- fraction of the reference ramp
  ocRun : Nat := 0                -- consecutive periods with an overcurrent, with a sum error, with an observer error
  sumRun : Nat := 0
  obsRun : Nat := 0
  held : List Int := [0, 0, 0]    -- last good sample of each leg (R232)
  iq : Int := 0                   -- i_q reference in mA, latched from loop 16 (R233)
  duty : List Nat := [0, 0, 0]    -- high-side duty of each leg in 2⁻¹⁶ of a period
  sumD : Int := 0                 -- sums of the errors of i_d and i_q over the periods, in mA (R233)
  sumQ : Int := 0
  forced : Nat := 0               -- the forced speed of the open loop in 10⁻⁶ rpm, and the observer's in sixteenths of an rpm (R237)
  obsRpm : Nat := 0
  agree : Nat := 0                -- consecutive periods in which the observer agrees with the forced angle and speed
  srefS : Option Nat := none      -- S as last adopted (R242)
  srefCand : Nat := 0             -- rounded speed whose HOLD runs
  srefFollow : Bool := true       -- S follows FALLBACK
  shortBrake : Bool := false      -- BRAKING has reached its short-brake part (R239)
  settleN : Nat := 0              -- consecutive servo samples with the speed within 0.1% of its target (R69)
  deriving DecidableEq, Repr

/-- Thermal management beside its registers (R484 to R491). -/
structure Thm where
  nextGov : Nat := 0              -- target of the next governor demand
  govN : Nat := 0                 -- governor demands since apply
  govDue : Bool := false          -- a governor demand is in the conversion in progress
  conv : Nat := 0                 -- die sensors in the conversion in progress
  dieWait : Bool := false         -- the host demand waits for the conversion
  hostDemand : Bool := false      -- a host demand is pending
  pickWait : List Nat := []       -- heads whose reading the host demand waits for
  govPick : List Nat := []        -- heads whose reading a governor demand waits for
  outN : List Nat := []           -- consecutive governor demands of S00 to S15 out of XDEV, and within it while suspect
  inN : List Nat := []
  hist : List (Nat × Int) := []   -- REF-clock stamp in µs and T_max of the governor demands of the last 1.25 s, newest first
  nextDuty : Option Nat := none   -- D that takes effect at the next tick at angle word 0
  duty : Nat := 256               -- D in effect
  pkBand : List Nat := [0, 0, 0, 0]   -- temperature band of each head (R292, R491)
  deriving DecidableEq, Repr

/-- A read that a head still has to make (R324, R465): the work it belongs to, whether it covers whole stripes (a piece of an extent) or
is a partial read, its members, the stamp at which it was asked for, and whether it has begun. -/
structure RdReq where
  act : Nat
  part : Bool := false
  mems : List (Nat × Nat) := []
  cws : List Nat := List.range 16 -- the codewords of each member (R324)
  at' : Nat := 0
  begun : Bool := false
  deriving DecidableEq, Repr

/-- The track sequencer of one head beside the SRV registers (R192 to R207) and what ANG follows of the head's marks. -/
structure Trk where
  planLayer : Nat := 0            -- planned layer and base track
  planG : Nat := 0
  tries : Nat := 0                -- focus attempts failed in this acquisition
  peaks : Nat := 0                -- peaks of the present sweep
  sweepAt : Option Nat := none    -- the stamp at which the sweep begins, 200 µs after the presets (R197)
  ramp : Bool := false            -- a failed attempt's override goes back to −32,768, and the loop then to OFF (R198)
  focusN : Nat := 0               -- samples since the focus loop was set RUN
  settledAt : Nat := 0            -- the stamp at which focus settled, and whether a counted TRID has come since (R220)
  tridSeen : Bool := false
  jumpK : Int := 0                -- tracks of the jump in progress
  fell : Bool := false            -- SUM has fallen below SUMTHR since the target peak
  back : Bool := false            -- the sweep of a layer jump has overshot and comes back (R203)
  jumping : Bool := false         -- a layer jump has not yet reached ON_TRACK
  jumpEnd : Nat := 0              -- the stamp at which the interval of the layer jump ends
  capt : Bool := false            -- a capture has not yet ended ON_TRACK
  tePrev : Int := 0               -- TEPP of the previous sample
  crossAt : Option Nat := none    -- the stamp of the latest zero crossing of TEPP, and how far behind the one before (R200)
  crossGap : Option Nat := none
  crossNow : Bool := false        -- it came with the latest sample
  appMax : Option Int := none     -- the extremes of TEPP / SUM over the present capture, in 2⁻¹⁶ (R213)
  appMin : Option Int := none
  winBad : Bool := false          -- the measurement window breaks a condition of R215 for the head
  resS : Int := 0                 -- its sums of r, in 2⁻²⁴, of r² and of SUM (R214)
  resQ : Nat := 0
  sumS : Int := 0
  calSum : Int := 0               -- the greatest SUM of the calibration window under way (Table 14.8)
  part : Nat := 0                 -- part of a recovery in progress, as a PHASE code (R206); 0 none
  jumpFrom : Nat := 0             -- layer a layer jump starts from
  jumpMis : Nat := 0              -- layer jumps repeated after a WLID mismatch (R203)
  corrections : Nat := 0          -- correction jumps after this landing (R201)
  losses : List (Nat × Nat) := [] -- kind and stamp of the losses of the last 16 revolutions
  fails : List (Nat × Nat) := []  -- loop (2 tilt, 3 SA) and stamp of their FAILs
  failHeld : List Nat := []       -- loops held OPEN for one revolution (R207)
  wlidOk : Bool := false          -- a counted WLID and a TRID agreement since the last change of phase (R195)
  tridOk : Bool := false
  absent : List Nat := List.replicate 8 0   -- samples for which each inhibit cause has been absent (R210)
  shock : Bool := false           -- a shock reading since the last sample (R212)
  fePrev : Int := 0               -- FE of the previous sample
  out : Nat := 0                  -- what is left of the outward sweep of a recovery, s24 (R206)
  settle : Nat := 0               -- consecutive in-bounds samples of the focus loop, of the SA loop
  saOk : Nat := 0
  capSum : Int := 0               -- SUM at focus capture
  sumLow : Nat := 0               -- consecutive samples with SUM low, with TEOUT high (R205)
  teHigh : Nat := 0
  markAge : Nat := 2              -- wedges since the last mark
  marks : Nat := 0                -- consecutive consistent marks
  lastMark : Option (Nat × Nat) := none   -- wedge index and angle word of the last mark (R55)
  wedge : Nat := 0                -- the stamp of the wedge boundary reported last (R54, R64)
  wobIn : Nat := 0                -- consecutive wobble periods within ±32 au, beyond ±128 au (R57)
  wobOut : Nat := 0
  lposSum : Int := 0              -- LPOS summed over the present wedge, and its samples (R228)
  lposN : Nat := 0
  lpos : Int := 0                 -- LPOS of the latest sample
  missed : Nat := 0               -- consecutive expected marks missed, mismatched (R55, R59)
  mismatched : Nat := 0
  gapMis : Bool := false          -- this gap field's mark has counted as a mismatch
  wlids : List (Nat × Nat) := []  -- wedge and layer of the latest WLIDs (R132)
  reads : List RdReq := []        -- reads it has to make, in order of arrival
  partials : Nat := 0             -- partial reads made since the latest piece (R465)
  deriving DecidableEq, Repr

/-- A write span of a head: its blocks as PBAs, whether it is to be verified, and whether it closed with no
rise of INH and no level or LPMON event (R299). -/
structure Span where
  blks : List Nat := []
  sampled : Bool := true
  clean : Bool := true
  verify : Nat := 0               -- VERIFY as its window opened
  back : Bool := false            -- it is read back under R472
  deriving DecidableEq, Repr

/-- Writing of one head beside the WRS registers. -/
structure WrsHead where
  spanN : Nat := 0                -- spans since the entry to MOUNTING (R299)
  spans : List Span := []         -- closed spans whose blocks are not yet reported verified, oldest first
  opc : Option (Nat × Nat × Bool) := none   -- layer, band of the OPC requested or in progress; begun
  opcHurt : Bool := false         -- an inhibit has broken the run under way (R298)
  opcPairs : List (Nat × Bool × Option Nat) := []   -- each pair's p0, whether it is the retry, its accepted PEAK
  opcBad : List (Nat × Nat) := []                  -- layers and bands whose latest run failed with no valid entry
  opcAt : List (Nat × Nat × Nat) := []             -- layer, band and stamp of the latest runs
  line : List Nat := [0, 0]       -- the line states of the two pairs: 0 IDLE, 1 PEAK, 2 ERASE, 3 BOTTOM (R158)
  delay : List Nat := [0, 0]      -- delay-line steps of 2 ps of each pair, set as a write window opens (R159)
  deriving DecidableEq, Repr

/-- A span of a track (head × 8 + spot) whose channel bits are missing, from a stamp to a stamp, or still open. -/
structure Gap where
  trk : Nat
  start : Nat
  stop : Option Nat := none
  deriving DecidableEq, Repr

/-- The lanes beside the CHN registers. -/
structure Chn where
  act : Option (Nat × Nat × Nat) := none   -- the CHN_LANECTL action: code, lane, and for RESTORE 1 once acquiring, for EYE the gap fields begun
  ok : List Nat := List.replicate 28 0     -- consecutive passing checks of a lane
  fail2 : List Nat := []                   -- lanes whose second failing check has just closed a span (R256)
  stale : List Nat := []                   -- lanes whose row has changed since they loaded it (R252)
  shadows : List Nat := []                 -- lanes with a calibration shadow requested or in force (R249)
  back : List Nat := []                    -- lanes that return from calibration
  judged : List Nat := List.replicate 28 0 -- the stamp up to which each lane's verdicts are given (R30, R256)
  gaps : List Gap := []                    -- spans of the tracks that count as missing, oldest first (R255, R256, R265)
  unlockAt : List Nat := List.replicate 28 0 -- the stamp at which each lane's timing was last unlocked (R254)
  since : List (Nat × Nat × Nat) := []     -- track, the stamp at which its present lane took it over, and the lane before (R28)
  deriving DecidableEq, Repr

/-- An accepted calibration value that takes effect at the tick of its head's next gap field (R360), or, after a Varnish has
written the same field at that tick (R115), at the next tick: a register field, or where there is none the tilt preset
`key`. -/
structure CalUpd where
  head : Nat
  field : Option Fld
  key : Nat := 0
  val : Nat
  late : Bool := false
  deriving DecidableEq, Repr

/-- A calibration request in progress for a head (R370): its kind (0 incremental, 1 and 2 full), its layers left, and whether
it is the mount's own. -/
structure CalReq where
  head : Nat
  kind : Nat
  layers : List Nat
  mount : Bool := false
  ended : List (Nat × Nat × Nat) := []    -- full: the items of the first of its layers that have ended: item, band, spot
  deriving DecidableEq, Repr

/-- A band of a CALIB pickup entry (Tables 14.5, 14.6): its block, band-table row and equalizer set. -/
structure CalBand where
  tilt : Int
  sum : Nat
  wamp : Nat
  peak0 : Nat
  peak1 : Nat
  snr : Nat
  eqmse : Nat
  eye : Nat
  flags : Nat
  row : List Nat
  eq : List Int
  deriving DecidableEq, Repr

/-- A CALIB pickup entry (Table 14.5). -/
structure CalEntry where
  serial : Nat
  model : Nat
  head : Nat
  sa : Int
  slope : Nat
  feofs : Int
  teofs : Int
  app : Nat
  tres : Nat
  bands : List CalBand
  deriving DecidableEq, Repr

/-- The body of a layer's CALIB record (R363, Table 14.3): SAZ, disc tilt by band in 0.001 mrad (−32768 where none), pickup entries. -/
structure CalBody where
  layer : Nat
  saz : Nat
  tiltm : List Int
  entries : List CalEntry
  deriving DecidableEq, Repr

/-- Calibration beside the CAL registers. Keys are (head × 48 + layer) × 32 + band where a value is per band, head × 48 + layer
where it is per layer. -/
structure Cal where
  eq : List (Nat × List Nat) := []    -- equalizer sets of the CALIB records (R263), 540 words of 24 bits each
  sum : Sparse := []              -- SUMCAL and WAMP
  wamp : Sparse := []
  tilt : Sparse := []             -- tilt codes, s16
  tiltOk : List Nat := []         -- keys whose tilt code is an accepted one
  slope : Sparse := []            -- focus-error slope, 1/256 LSB per nm
  refs : Sparse := []             -- key × 4 + loop: SRV_REF of input 0, s24; band 0 but for tilt
  fac : Sparse := []              -- factory SAZ by layer (Table 14.4)
  snr : Sparse := []              -- head SNR, equalizer error + 1, least eye + 1 of each band
  mse : Sparse := []
  eye : Sparse := []
  fails : Sparse := []            -- consecutive failures by key × 8 + item
  due : List Nat := []            -- layers due on a head
  step1 : List (Nat × List Nat) := []     -- incremental calibrations: the items of step 1 still to end, by layer key
  bands : List Nat := []          -- keys of bands whose tilt sweep and OPC an incremental calibration still has to run (R368)
  tilts : List Nat := []          -- those whose tilt sweep is under way
  rows : List Nat := []           -- keys × 8 + spot of the rows that wait for a lane shadow (R368)
  fullN : Sparse := []            -- full calibrations of layers that each head has ended (R369)
  gained : List Nat := []         -- layer keys with an accepted value since their record was written
  reqs : List CalReq := []
  rowOk : List Nat := []          -- keys whose band-table row is an accepted one
  bodies : List CalBody := []     -- the CALIB bodies of the layers (R363, R367)
  dirty : List Nat := []          -- layers whose body differs from their record
  pend : List CalUpd := []
  deriving DecidableEq, Repr

/-- Detection beside the DET registers: the accumulators of R273 at key layer × 64 + 2 × band (good bits) and + 1 (channel
bits), those of the window under way, with the channel bits of every frame read on a layer at key 4,096 + layer, and those of R272 at
key 2 × layer (channel bits) and + 1 (bits × IRB). -/
structure Det where
  lq : Sparse := []
  wlq : Sparse := []
  irb : Sparse := []
  readAu : Sparse := []           -- by head: au read since the last quality update (R267), channel bits that differed and that were compared,
  pbErr : Sparse := []            -- iterations and codewords decoded (R270)
  pbBits : Sparse := []
  itSum : Sparse := []
  itN : Sparse := []
  refE : Sparse := []             -- by head × 8 + track: squared error on REFPAT of the present gap field, and its bits (R263)
  refN : Sparse := []
  refOver : Sparse := []             -- gap fields in a row with more than four times the recorded error
  snrT : Sparse := []             -- energy of the target and of the error on REFPAT since the last quality update (R268)
  snrE : Sparse := []
  deriving DecidableEq, Repr

/-- A codeword in CWD (R283 to R286): where it was read, what its header said, its first-pass hard decisions, its missing
bits, its frame group, the passes made and allowed, the iterations used, and the work it belongs to (as `Win.act`; 8 the
Attic). -/
structure CwItem where
  head : Nat
  lane : Nat
  spare : Bool := false
  pba : Nat
  cwix : Nat
  kind : Nat
  wseq : Nat
  hard : Nat := 0
  chan : Nat := 0                 -- its first-pass hard decisions on channel bits, and those that were made (R270)
  made : Nat := 0
  sync : Bool := true
  missing : Nat := 0
  zero : Bool := false
  group : Option Nat := none
  pass : Nat := 1
  passMax : Nat := 1
  iters : Nat := 0
  act : Nat := 0
  mem : Option (Nat × Nat) := none
  reread : Bool := false
  retry : Option Nat := none      -- the faulty decoder it comes back from
  deriving DecidableEq, Repr

/-- A frame group under detection (R266): its head and slot, the pass, the codewords that have ended in it and those not
converged. -/
structure FGroup where
  head : Nat
  key : Nat
  pass : Nat := 1
  passMax : Nat := 1
  todo : Nat := 6
  left : List CwItem := []
  stored : Bool := false          -- it holds a slot of the reprocessing buffer
  deriving DecidableEq, Repr

/-- A tagged codeword that CWD has handed on (R25, R28), with its block and index, its stripe and member, its header's KIND and WSEQ,
whether its track was at zero confidence, and the address of its tag in the TAGS region. -/
structure CwOut where
  tag : Nat
  x : Nat
  mem : Option (Nat × Nat)
  kind : Nat
  wseq : Nat
  zero : Bool
  act : Nat
  pba : Nat := 0
  cwix : Nat := 0
  tagAt : Nat := 0
  sync : Bool := true             -- SYNC of its frame was found
  deriving DecidableEq, Repr

/-- A block that a read window reads (R30, R138, R260): its head and spot, the stamp of its first channel bit, the work it belongs to, its
stripe and member, whether its frames form groups (R266), the codewords not yet released, and the stamp from which
its channel bits are missing because the window closed (R206). -/
structure Expect where
  pba : Nat
  act : Nat := 0
  mem : Option (Nat × Nat) := none
  head : Nat
  spot : Nat
  start : Nat
  group : Bool := false
  left : List Nat := List.range 16
  cut : Option Nat := none
  deriving DecidableEq, Repr

/-- Codewords and decoding beside the CWD registers. -/
structure Cwd where
  queue : List CwItem := []
  busy : List (Option (CwItem × Nat)) := List.replicate 8 none   -- codeword and iteration limit of each decoder
  groups : List FGroup := []
  expect : List Expect := []      -- blocks under reading, in the order in which their windows opened
  out : List CwOut := []
  tags : Nat := 0                 -- tags written into the TAGS region
  leaving : List Nat := []        -- decoders that go offline after their decode
  bist : List Nat := []           -- decoders under BIST
  deriving DecidableEq, Repr

/-- Data of one map unit in gathering (R313): namespace, unit, blocks as LBA and contents, and the write commands, by fetch
order, that wait for it. -/
structure GUnit where
  nsid : Nat
  unit : Nat
  items : List (Nat × Nat) := []
  cmds : List Nat := []
  move : Bool := false            -- cleaning moves the unit as it stands (R333)
  wait : Bool := false            -- its present contents are being read (R313, R333)
  src : Option (Nat × Nat) := none   -- the stripe and member that they are read from
  base : List Nat := []           -- its present contents: sixteen codewords
  lost : Nat := 0                 -- those of them that cannot be read, as a mask
  slot : Nat := 0                 -- the 64 KiB of the WRITE region that hold it, in turn
  deriving DecidableEq, Repr

/-- A member that a stripe transaction writes: its index, 0 to write, 1 written, 2 verified, 3 failed, the attempts and the
rereads made. -/
structure StMem where
  idx : Nat
  st : Nat := 0
  tries : Nat := 0
  rereads : Nat := 0
  deriving DecidableEq, Repr

/-- A stripe transaction (Table 12.3): its kind (0 host data, 1 system page, 2 resynchronisation, 3 refresh, 4 cleaning) and state (0 OPEN,
1 WRITTEN, 2 VERIFIED). -/
structure Stripe where
  num : Nat
  wseq : Nat
  nsid : Nat
  kind : Nat := 0
  st : Nat := 0
  mems : List StMem := []
  units : List GUnit := []
  remaps : Nat := 0
  voiding : Bool := false         -- a member cannot be placed (R317)
  key : Nat := 0                  -- refresh: its key; `again` that it was requeued once
  again : Bool := false
  data : List (Nat × List Nat) := []   -- the members it holds, those it writes and those they stand beside: sixteen codewords each
  fails : List (Nat × Nat) := []  -- members and indices that CWD could not read to encode them (Table 16.2)
  deriving DecidableEq, Repr

/-- A zone of the volume in use: its namespace, 0 free, 1 active, 2 full, the stripes committed whole, and the units in the
stripe that follows. -/
structure VZone where
  z : Nat
  owner : Nat
  st : Nat := 1
  fill : Nat := 0
  part : Nat := 0
  held : List (Nat × List Nat) := []   -- the members of the part-filled stripe that STR holds: sixteen codewords each (R314)
  deriving DecidableEq, Repr

/-- A member in ASSEMBLY: its index in the stripe and its codewords by index, none where one has not come. -/
abbrev AsmMem := Nat × List (Option CwOut)

/-- A stripe under assembly (R324, R325): the members it waits for, each with the codewords wanted of it; whether it is read whole,
and where not, the indices that the other members were asked for; its deadline once a member has come; and what has come. -/
structure Asm where
  stripe : Nat
  want : List (Nat × List Nat) := []
  whole : Bool := true
  idx : List Nat := []
  deadline : Option Nat := none
  got : List AsmMem := []
  deriving DecidableEq, Repr

/-- A rebuild job (R326): stripe and member, whether it runs, and its replacement block once chosen. -/
structure Rebuild where
  stripe : Nat
  member : Nat
  running : Bool := false
  repl : Option Nat := none
  st : Nat := 0                   -- 0 read, 1 to write, 2 written, 3 verified
  tries : Nat := 0
  rereads : Nat := 0
  data : List Nat := []           -- the rebuilt member: sixteen codewords
  lost : Nat := 0                 -- codeword indices beyond parity (R329)
  deriving DecidableEq, Repr

/-- A checkpoint in progress (R322): its CKWSEQ, the namespaces whose record is not yet durable, each one's body up to the directory as of
its start, the changed map pages not yet committed, whether the records are appended, the zones that become free with it (R333), those
listed as active, and the zones in which stripes have committed since its start. -/
structure Ckpt where
  ckw : Nat
  left : List Nat
  heads : List (Nat × List Nat) := []
  pages : List (Nat × Nat) := []
  sent : Bool := false
  free : List Nat := []
  active : List Nat := []         -- the zones that its records and those before it list as active
  since : List Nat := []
  deriving DecidableEq, Repr

/-- Stripes and the logical map beside the STR and MAP registers. -/
structure Str where
  aliasHi : Nat := 0              -- STR_WSEQ_HI as latched by a read of the alias of _LO (R537)
  wseq : Nat := 0                 -- the next WSEQ
  wseq0 : Nat := 0                -- VOLUME.WSEQ0 (Table 12.1)
  wres : Nat := 0                 -- the limit of the latest durable WRES record (R321)
  dirty : List Nat := []          -- dirty zones, durable in the journal
  asked : List Nat := []          -- zones whose DIRTY record is being programmed
  clean : Bool := true            -- VOLUME.CLEAN
  gather : List GUnit := []       -- oldest first
  wslot : Nat := 0                -- units that the WRITE region has taken
  short : List Nat := []          -- namespaces whose gathered data must open short (R314, R392)
  stripes : List Stripe := []
  zones : List VZone := []
  map : Sparse := []              -- NSID × 2^32 + unit: stripe + member × 2^32 + state × 2^40 (R330)
  pagesLeft : List (Nat × Nat) := []   -- map pages not yet loaded: NSID and page (R332)
  pageWait : List (Nat × Nat) := []    -- pages under demand load
  rebuild : List Rebuild := []
  asm : List Asm := []
  last : Option (Nat × List AsmMem) := none   -- the stripe released last, rebuilt by R31
  readAt : List (Nat × Nat) := []      -- the last stripe that the latest host read of a namespace covered (R466)
  aheadWant : List Nat := []      -- stripes asked for as read-ahead (R466)
  ahead : List (Nat × List AsmMem) := []      -- stripes whose read-ahead data ASSEMBLY holds
  pageGot : List (Nat × Nat × List Nat) := []  -- map pages read and not yet in force: NSID, page, entries (R332)
  delta : Sparse := []            -- delta list of R332: unit key, as in `map`
  dir : Sparse := []              -- the directory: NSID × 2^32 + page, 1 + stripe + member × 2^32 + CWIX × 2^40 (Table 12.6)
  atSeq : Nat := 0                -- highest Attic SEQ (R144)
  ckActive : List Nat := []       -- zones the latest checkpoint lists as active
  changed : List Nat := []        -- namespaces changed since their latest checkpoint
  pagesDirty : List (Nat × Nat) := []  -- map pages changed since the latest checkpoint
  ckpt : Option Ckpt := none
  dirDur : Sparse := []           -- the directory that the latest durable records hold
  deriving DecidableEq, Repr

/-- A defect entry (Table 13.5); `live` once the GDEFECT record that names it has verified in copies 0 and 3 (R309). -/
structure Defect where
  pba : Nat
  repl : Nat
  kind : Nat
  cause : Nat
  lost : Nat := 0
  nblk : Nat := 0
  live : Bool := false
  deriving DecidableEq, Repr

/-- What follows once an Attic record has verified in copies 0 and 3 (R144): nothing; the first `n` defect entries of a layer take force
(R309); a layer's LEDGER record is durable (R343); VOLUME with CLEAN 0 is, and the DIRTY record of a zone follows (R319); a checkpoint
record of a namespace is (R322); the admin command of a port completes (R305, R386, R388). -/
inductive AttCont
  | nothing
  | defects (layer n : Nat)
  | ledger (layer : Nat)
  | dirty (nsid zone : Nat)
  | ckpt (nsid : Nat)
  | admin (port cid dw0 : Nat)
  deriving DecidableEq, Repr

/-- A record that lies in a copy of the Attic: its type, instance and SEQ, its blocks in order, and whether it is valid. -/
structure AttRec where
  copy : Nat
  type : Nat
  inst : Nat
  seq : Nat
  blks : List Nat
  ok : Bool := true
  deriving DecidableEq, Repr

/-- A record under writing (R144): the copies still to be written and verified, and what follows once copies 0 and 3 have. -/
structure AttJob where
  seq : Nat
  type : Nat
  inst : Nat
  body : List Nat
  todo : List Nat := [0, 1, 2, 3, 4, 5]
  cont : AttCont := .nothing
  deriving DecidableEq, Repr

/-- The copy that a side is writing: its record's SEQ, the blocks the record takes, those still to be written, those written and not yet
verified, and the attempts and rereads made at a block. -/
structure AttWr where
  seq : Nat
  copy : Nat
  blks : List Nat
  left : List Nat
  unver : List Nat := []
  tries : Sparse := []
  rereads : Sparse := []
  deriving DecidableEq, Repr

/-- The Attic (R141 to R146): the block at which each copy is appended to, the records that lie in the copies, the newest body of every
record, the copies read, the records under writing, oldest first, and what each side writes. -/
structure Att where
  wp : List Nat := List.replicate 6 192
  recs : List AttRec := []
  newest : List (Nat × Nat × Nat × List Nat) := []   -- type, instance, SEQ, body
  read : List Nat := []           -- the copies whose record area this mount has read
  jobs : List AttJob := []
  cur : List (Option AttWr) := [none, none]
  deriving DecidableEq, Repr

/-- Medium health beside the HLT registers. Region keys are layer × 8192 + region (R336). -/
structure Hlt where
  count : Sparse := []            -- COUNT
  high : Sparse := []             -- HIGH + 1 of the regions written since the mount
  retired : List Nat := []        -- regions retired
  durable : Sparse := []          -- the DELTA value programmed for a region in this mount
  deltaWait : List Nat := []      -- regions whose DELTA is being programmed
  mountWord : Bool := false       -- MOUNT is programmed for this mount
  changed : List Nat := []        -- layers whose COUNT changed since their latest LEDGER record
  gdef : List Defect := []        -- GDEFECT of all layers, in order
  pdef : List Nat := []           -- PDEFECT, as PBAs
  refresh : List (Nat × Nat × Bool) := []   -- margin, stripe, requeued once; ascending margin (R355)
  refWant : List Nat := []                  -- stripes read for their refresh, and those read: member and codewords (R355)
  refData : List (Nat × List (Nat × List Nat)) := []
  rereads : List (Nat × Nat) := []          -- PBA and codeword index to be read again at once (R346)
  suspects : List (Nat × Nat × Nat) := []   -- PBA, codeword index, stamp of the failed reread (R351)
  opcDown : Sparse := []          -- how far below its first place a track's OPC block lies, by (layer × 32 + band) × 6 + track
  confirmed : List (Nat × Nat) := []        -- PBA and codeword index of those whose second read has failed too (R351)
  checks : List Nat := []         -- blocks at the head of the patrol order (R351, R211)
  lapAt : Nat := 0                -- where the patrol lap is: what comes before this key of its order has been taken (R353)
  lapLeft : List Nat := []        -- the blocks of the record or extent under patrol that are still to be read
  age : Nat := 0                  -- equivalent age in seconds (R347)
  ageRem : Nat := 0               -- what the age lacks to the next second, in 2⁻¹⁶ µs
  lapAge : Nat := 0               -- the age at the start of the last complete lap
  startAge : Nat := 0             -- the age at the start of the present lap
  lapMin : Sparse := []           -- 256 − least margin of the present lap, by layer (a margin of 256 and no read alike)
  lapSeen : List Nat := []        -- layers with a margin in the present lap
  patrolRead : Bool := false      -- a patrol read runs (PATROL 1: the idle time has passed)
  failedLayers : List Nat := []
  jumpFails : Sparse := []        -- consecutive failed layer jumps by head × 48 + layer
  deriving DecidableEq, Repr

/-- Faults beside the FLT registers: bypass intervals still open (R500) as block index and unit, and the head of the
FLT_HEADCTL action in progress. -/
structure Flt where
  bypass : List (Nat × Nat) := []
  actHead : Nat := 0
  deriving DecidableEq, Repr

/-- An operation of the Cellar (R513): client 0 host, 1 STR, 2 HLT, 3 SEC, 4 the Seal erase of R527, 5 one whose owner a full
reset has reset; kind 1 read, 2 program, 3 erase; the code
word's number (address / 16), the 16 bytes to program as one little-endian number, and whether it appends at the write
point of its client's log instead (R514). -/
structure CelOp where
  client : Nat
  kind : Nat
  word : Nat
  data : Nat := 0
  app : Bool := false
  deriving DecidableEq, Repr

/-- A sanitize record of the Control area (R525): cartridge serial, CDW10, the SEQ of the NAMESPACES record, and whether
its DONE record follows. -/
structure SanRec where
  serial : Nat
  cdw10 : Nat
  seq : Nat
  done : Bool
  deriving DecidableEq, Repr

/-- The Cellar beside its registers (R511 to R517). A code word reads 0 ERASED, 1 + its 16 bytes as a number
PROGRAMMED, or `celERROR`. -/
structure Cel where
  words : Sparse := []
  cutSectors : List Nat := []     -- sectors whose erase was cut short: every word reads ERROR (R512)
  ops : List CelOp := []          -- the first is in progress, the rest wait in the order of R513
  password : Nat := 0
  sanRecs : List SanRec := []     -- newest last
  deriving DecidableEq, Repr

/-- The code of the ERROR state in `Cel.words`. -/
def celERROR : Nat := 2 ^ 128 + 1

/-- What a power-on reset keeps of the Cellar: the array, the password and the records; an operation in progress was
ended by the fall of VIN (R517). -/
def Cel.afterReset (c : Cel) : Cel := { c with ops := [] }

/-- Security beside its registers: the volatile KEK register, the loaded key slots (NSID, key 1, key 2), the step of a
sanitize (0 none) and of the debug-port sequence (R527; 0 none). -/
structure Sec where
  kek : Option Nat := none
  slots : List (Nat × Nat × Nat) := []
  sanStep : Nat := 0
  sanLook : Bool := false                  -- the look-up that follows a mount is still to be made (R526)
  sanCdw : Nat := 0                        -- CDW10 of the latest sanitize
  globalErased : Bool := false
  dbgStep : Nat := 0
  dbgLock : Bool := false                  -- DBG_LOCK of a Canvas applied since the power-on reset (R90)
  deriving DecidableEq, Repr

/-- A mount in progress: the MINFO words read on each side, at 64 × side + wedge, the word plus 1 (R136), and the stamp of the first focus
on each side; what its Attic read found and its later steps use: the namespaces, the CKWSEQ of each, their zones, the CALIB bodies, the map
pages; the zones that resynchronisation has still to scan, the stripe it reads, and the WSEQ that gave each entry of the delta list
(R323). `stage` counts the parts of step 0xB of an Unmount that are done. -/
structure Mnt where
  minfo : Sparse := []
  focusAt : List (Option Nat) := [none, none]
  ns : List Ns := []
  ckw : List (Nat × Nat) := []
  zones : List ZoneSt := []
  calib : List CalBody := []
  pages : List (Nat × Nat) := []
  scan : List Nat := []
  at' : Option Nat := none
  seqs : Sparse := []
  stage : Nat := 0
  deriving DecidableEq, Repr

/-- Buffer memory beside the MEM registers: the bytes by buffer address (what they hold after the sweep where nothing was
written: zero), the poisoned blocks, how far the sweep has come in physical order and the steps swept ahead of it (R422), and
the refresh-rate fields of the four channels as last read (R414). -/
structure MemSt where
  bytes : Memory := []
  poison : Sparse := []
  reach : Nat := 0
  ahead : Sparse := []
  refresh : List Nat := [0, 0, 0, 0]
  errs : List (Nat × Nat) := []   -- uncorrectable outcomes since the latest stop of R501, newest first: outcome and block
  deriving DecidableEq, Repr

/-- The Larder beside the LRD registers: its tags at key 16 × set + way, 1 + dirty + 2 × (BA / 2²¹); the streams of R427,
the earliest started first, as requester, next expected line and run; the ways under cleaning; the way action in progress, as 1
OFFLINE or 2 RESTORE and its way; a DISABLE that waits for it (R433); a write of 0 held during DISABLING (R432). -/
structure LrdSt where
  lines : Sparse := []
  ces : Sparse := []              -- correctable errors of a way that accesses have met (R428)
  streams : List (Nat × Nat × Nat) := []
  cleaning : List Nat := []
  act : Option (Nat × Nat) := none
  offWait : Bool := false
  onWait : Bool := false
  deriving DecidableEq, Repr

/-- The TAP: instruction register, how far SCANOUT has shifted, the latest bits on TDO, oldest first, and the update latches of the
boundary register (R538, R539). -/
structure Tap where
  ir : Nat := 1
  pos : Nat := 0
  tdo : List Bool := []
  cells : List Bool := []
  deriving DecidableEq, Repr

/-- The medium in the drive, as far as the write windows act on it: the frames they have recorded, at key (cartridge serial × 2^32 + PBA) ×
16 + CWIX, the codeword and above it the header's eighteen bytes, plus 1. It is outside the device: no reset changes it. -/
structure Med where
  data : Sparse := []
  deriving DecidableEq, Repr

/-- The state of the HX9648. -/
structure State where
  rf : RegFile := []
  sys : Sys := {}
  fifos : List Fifo := [{}, {}, {}]
  telAt : Nat := 0                -- stamp of the next telemetry sample while FIF_TCFG.EN is 1 (R456)
  ang : Ang := {}
  skt : Skt := {}
  cnv : Cnv := {}
  wins : List Win := []
  opu : List OpuHead := List.replicate 4 {}
  srv : Srv := {}
  dma : List DmaSt := List.replicate 8 {}
  seqs : List SeqSt := List.replicate 6 {}
  hst : Hst := {}
  sled : List Sled := List.replicate 4 {}
  spn : Spn := {}
  flt : Flt := {}
  thm : Thm := {}
  trk : List Trk := List.replicate 4 {}
  wrs : List WrsHead := List.replicate 4 {}
  chn : Chn := {}
  cal : Cal := {}
  det : Det := {}
  cwd : Cwd := {}
  str : Str := {}
  hlt : Hlt := {}
  att : Att := {}
  med : Med := {}
  cel : Cel := {}
  sec : Sec := {}
  mnt : Mnt := {}
  mem : MemSt := {}
  lrd : LrdSt := {}
  tap : Tap := {}
  rdata : Word := 0               -- the value the latest register or BAR2 read returned
  freeCtr : Nat := 0              -- free values drawn (the model's own field)
  pending : List Instr := []      -- commands waiting, first in, first out
  deriving DecidableEq, Repr

/-- What a step answers. -/
abbrev Res := Host.Outcome State Fault Refusal

/-- The machine right after power-on reset. -/
def State.reset : State := {}

end Sys2Proof.Machine
end

