-- ==== Sys2Proof/Machine/Arith.lean ====
section
/-! DEFINITION. Fixed-point arithmetic of the control engine and one sample of a loop, as functions on plain data, and sorting (R173,
R179 to R181). -/

namespace Sys2Proof.Machine

/-- An element takes its place in a sorted list. -/
def insertBy {α : Type} (le : α → α → Bool) (x : α) : List α → List α
  | [] => [x]
  | y :: l => if le x y then x :: y :: l else y :: insertBy le x l
/-- A list in ascending order. -/
def sortBy {α : Type} (le : α → α → Bool) : List α → List α
  | [] => []
  | x :: l => insertBy le x (sortBy le l)

/-- Nearest integer to `n / 2 ^ s`, ties to even. -/
def rneShift (n : Int) (s : Nat) : Int :=
  let d : Int := 2 ^ s
  let q := n / d
  let r := n % d
  if d < 2 * r then q + 1 else if 2 * r = d then q + q % 2 else q

/-- Nearest integer to a ratio with a positive denominator, ties to even. -/
def rneDiv (n d : Int) : Int :=
  let q := n / d
  let r := n % d
  if d < 2 * r then q + 1 else if 2 * r = d then q + q % 2 else q

/-- A result and whether it saturated. -/
def satTo (lo hi v : Int) : Int × Bool := if hi < v then (hi, true) else if v < lo then (lo, true) else (v, false)
def sat24 (v : Int) : Int × Bool := satTo (-8388608) 8388607 v

/-- dot(row, vec, s): the result, SAT and LOST (R179). -/
def dot (row vec : List Int) (s : Nat) : Int × Bool × Bool :=
  let p := (List.zipWith (· * ·) row vec).sum
  let r := rneShift p s
  ((sat24 r).1, (sat24 r).2, p != 0 && r == 0)

/-- conv_in with the land polarity of R194 on top of `pol`: the result and SAT. -/
def convIn (c : Int) (pol land : Bool) (ref : Int) : Int × Bool :=
  let a := c * 256
  let b := if pol then sat24 (-a) else (a, false)
  let d := if land then sat24 (-b.1) else (b.1, false)
  let r := sat24 (d.1 - ref)
  (r.1, b.2 || d.2 || r.2)

/-- conv_out: the DAC code and CLIP. -/
def convOut (v : Int) : Int × Bool := satTo (-32768) 32767 (rneShift v 8)

/-- The supervisor (R181): state, OOB or INB, samples held. -/
def supervise (d : LoopDesc) (oob : Bool) (st cnt held : Nat) : Nat × Nat × Nat :=
  if st == 2 then
    let c := if oob then cnt + 1 else 0
    if d.supn ≤ c then (3, 0, 1) else (2, c, 0)
  else if st == 3 then
    if d.holdmax ≤ held then (4, 0, held)
    else
      let c := if oob then 0 else cnt + 1
      if d.supm ≤ c then (2, 0, held) else (3, c, held + 1)
  else (st, cnt, held)

/-- What one sample of a loop gives. -/
structure LoopRun where
  st : Nat
  cnt : Nat
  held : Nat
  e : List Int
  code : List Int
  xp : List Int
  sat : Bool
  late : Bool                     -- SAT in step 3 or 5
  lost : Bool
  clip : Bool
  deriving DecidableEq, Repr

def vec (l : List Int) (n : Nat) : List Int := (List.range n).map fun i => l.getD i 0

/-- One sample of a loop in OPEN, RUN or HOLD (R173). `coef` reads its Palette, `ins` its input codes, `land` the land
polarity of input 0, `ovr` its override in OPEN (`none`: it follows the observer's prediction). -/
def loopSample (d : LoopDesc) (coef : Nat → Int) (ins refs : List Int) (land : Bool) (ovr : Option (List Int))
    (st cnt held : Nat) (satPrev : Bool) (xp0 : List Int) : LoopRun :=
  let n := d.nst
  let p := d.nin
  let m := d.nout
  let xp := vec xp0 n
  let row := fun (base w j : Nat) => (List.range w).map fun i => coef (base + j * w + i)
  let bA := 0
  let bB := n * n
  let bC := bB + n * m
  let bL := bC + p * n
  let bK := bL + n * p
  let ys := (List.range p).map fun i => convIn (ins.getD i 0) (d.inpol.testBit i) (land && i == 0) (refs.getD i 0)
  let cs := (List.range p).map fun i => dot (row bC n i) xp d.shc
  let es := (List.range p).map fun i => sat24 ((ys.getD i (0, false)).1 - (cs.getD i (0, false, false)).1)
  let e := es.map Prod.fst
  let oob := satPrev || (List.range p).any fun i => d.innov.getD i 0 * 256 < (e.getD i 0).natAbs
  let sv := supervise d oob st cnt held
  let upd := sv.1 == 2 || sv.1 == 1
  let ls := if upd then (List.range n).map fun j => dot (row bL p j) e d.shl else []
  let xs := (List.range n).map fun j =>
    if upd then sat24 (xp.getD j 0 + (ls.getD j (0, false, false)).1) else (xp.getD j 0, false)
  let x := xs.map Prod.fst
  let law := fun (x : List Int) => (List.range m).map fun k =>
    let v := dot (row bK n k) x d.shk
    let w := if d.negk then sat24 (-v.1) else (v.1, false)
    (w.1, v.2.1 || w.2, v.2.2)
  let vs := if sv.1 == 1 then
      match ovr with
      | some o => (List.range m).map fun k => (o.getD k 0, false, false)
      | none => (law xp).map fun v => (v.1, false, false)
    else law x
  let os := vs.map fun v => convOut v.1
  let code := os.map Prod.fst
  let ua := code.map (· * 256)
  let as := (List.range n).map fun j => dot (row bA n j) x d.sha
  let bs := (List.range n).map fun j => dot (row bB m j) ua d.shb
  let ps := (List.range n).map fun j => sat24 ((as.getD j (0, false, false)).1 + (bs.getD j (0, false, false)).1)
  let dsat := fun (l : List (Int × Bool × Bool)) => l.any fun v => v.2.1
  let dlost := fun (l : List (Int × Bool × Bool)) => l.any fun v => v.2.2
  let asat := fun (l : List (Int × Bool)) => l.any fun v => v.2
  let late := dsat ls || asat xs || dsat as || dsat bs || asat ps
  if sv.1 == 4 then
    { st := 4, cnt := 0, held := sv.2.2, e, code := [], xp, sat := asat ys || dsat cs || asat es, late := false,
      lost := dlost cs, clip := false }
  else
    { st := sv.1, cnt := sv.2.1, held := sv.2.2, e, code, xp := ps.map Prod.fst
      sat := asat ys || dsat cs || asat es || dsat vs || late, late
      lost := dlost cs || dlost ls || dlost vs || dlost as || dlost bs, clip := asat os }

end Sys2Proof.Machine
end

