-- ==== Sys2Proof/Machine/Crc.lean ====
section
/-! DEFINITION. Check words: CRC-8 of R133, CRC-16 of R132, CRC-32C of R75, and the byte and bit orders they read. -/

namespace Sys2Proof.Machine

/-- The `n` low bits of `v`, most significant first. -/
def bitsMsb (n v : Nat) : List Bool := (List.range n).map fun i => v.testBit (n - 1 - i)

/-- One bit into a register of `w` bits with polynomial `poly`, no reflection. -/
def crcBit (w poly reg : Nat) (b : Bool) : Nat :=
  let sh := reg * 2 % 2 ^ w
  if reg.testBit (w - 1) == b then sh else Nat.xor sh poly

/-- CRC-8 of R133: polynomial 0x07, initial value 0x00. -/
def crc8 (l : List Bool) : Nat := l.foldl (crcBit 8 0x07) 0

/-- CRC-16 of R132: polynomial 0x1021, initial value 0xFFFF. -/
def crc16 (l : List Bool) : Nat := l.foldl (crcBit 16 0x1021) 0xFFFF

/-- One byte into the reflected register of CRC-32C, eight bits from the least significant. -/
def crc32cByte (reg : Nat) (b : Nat) : Nat :=
  (List.range 8).foldl
    (fun r _ => if r % 2 == 1 then Nat.xor (r / 2) 0x82F63B78 else r / 2) (Nat.xor reg b)

/-- CRC-32C of R75 over bytes. -/
def crc32c (l : List Nat) : Nat := Nat.xor (l.foldl crc32cByte 0xFFFFFFFF) 0xFFFFFFFF

/-- Little-endian number of bytes. -/
def leNat : List Nat → Nat
  | [] => 0
  | b :: bs => b + 256 * leNat bs

/-- The `n` bytes of a number, least significant first. -/
def leBytes (n v : Nat) : List Nat := (List.range n).map fun i => v / 256 ^ i % 256

/-- The `n` bytes of a number, most significant first. -/
def beBytes (n v : Nat) : List Nat := (leBytes n v).reverse

end Sys2Proof.Machine
end

