-- ==== Sys2Proof/Machine/Ops.lean ====
section
/-! DEFINITION. The operations every family shares: fields, the stamp, FIFO packets and interrupts, FLT_LOG entries,
lifecycle transitions, triggers and stops, completions, custody and the angle scheduler's store. -/

namespace Sys2Proof.Machine

open R

/-! ### Fields -/

def State.get (s : State) (f : Fld) : Nat := s.rf.read f
def State.put (s : State) (f : Fld) (v : Nat) : State := { s with rf := s.rf.write f v }
def State.flag (s : State) (f : Fld) : Bool := s.get f != 0
/-- A count that saturates at its field's largest value. -/
def State.addSat (s : State) (f : Fld) (n : Nat) : State := s.put f (min (s.get f + n) f.max)
def State.inc (s : State) (f : Fld) : State := s.addSat f 1
def State.bit (s : State) (f : Fld) (i : Nat) : Bool := (s.get f).testBit i
def setBitNat (v i : Nat) (b : Bool) : Nat :=
  if b then v ||| 2 ^ i else if v.testBit i then v - 2 ^ i else v
def State.setBit (s : State) (f : Fld) (i : Nat) (b : Bool) : State := s.put f (setBitNat (s.get f) i b)
def State.putB (s : State) (f : Fld) (b : Bool) : State := s.put f b.toNat
/-- Put each field to its value, in order. -/
def State.puts (s : State) (l : List (Fld × Nat)) : State := l.foldl (fun s p => s.put p.1 p.2) s
/-- A signed field. -/
def State.getI (s : State) (f : Fld) : Int := toSigned f.width (s.get f)
def State.putI (s : State) (f : Fld) (v : Int) : State := s.put f (ofSigned f.width v)
/-- Apply an operation for each of `0, …, n − 1` in turn. -/
def forUpTo (n : Nat) (k : Nat → State → State) (s : State) : State := (List.range n).foldl (fun s i => k i s) s
/-- Apply an operation where a condition holds. -/
def State.when (s : State) (b : Bool) (k : State → State) : State := if b then k s else s

/-- A meaning: where its condition holds its effect, else no effect. -/
def State.doIf (s : State) (b : Bool) (k : State → State) : Res := .next (if b then k s else s)

def setAt {α : Type} (l : List α) (i : Nat) (x : α) : List α := l.set i x
def updAt {α : Type} (l : List α) (i : Nat) (k : α → α) : List α := l.modify i k

/-- The next free value, taken modulo `2 ^ w` (DESIGN CHOICE, log entry 1). -/
def State.freeVal (s : State) (w : Nat) : Nat := Config.freeValue s.freeCtr % 2 ^ w
def State.drawn (s : State) : State := { s with freeCtr := s.freeCtr + 1 }

/-! ### Lifecycle codes (R41) -/

def BARE := 1
def PRIMED := 2
def MOUNTING := 3
def MOUNTED := 4
def PARKING := 5
def HALTED := 6
def FROZEN := 7

def State.life (s : State) : Nat := s.get SYS_STATE_STATE
/-- Clocks run and no reset holds the device: not OFF, not FROZEN, not in the hold of a full reset. -/
def State.on (s : State) : Bool := !s.sys.off && s.life != FROZEN && s.sys.resetHold == 0
def State.inLife (s : State) (l : List Nat) : Bool := s.on && l.contains s.life
/-- In a state in which the Canvas is applied. -/
def State.applied (s : State) : Bool := s.inLife [PRIMED, MOUNTING, MOUNTED, PARKING, HALTED]

/-! ### The stamp (R18, R63) -/

def au24 : Nat := 2 ^ 24
def au48 : Nat := 2 ^ 48
def tickAu : Nat := 4096
def wedgeAu : Nat := 262144

def State.now (s : State) : Nat := s.get ANG_NOW_HI_REV * au24 + s.get ANG_NOW_LO_ANGLE
def State.setNow (s : State) (n : Nat) : State :=
  (s.put ANG_NOW_HI_REV (n / au24)).put ANG_NOW_LO_ANGLE n
/-- R65: target `t` has passed. -/
def passed (now t : Nat) : Bool := (now + au48 - t % au48) % au48 < 2 ^ 47
/-- The first tick at or after a stamp. -/
def tickAt (t : Nat) : Nat := (t + tickAu - 1) / tickAu * tickAu % au48
/-- The first tick after a stamp. -/
def tickAfter (t : Nat) : Nat := (t / tickAu + 1) * tickAu % au48

/-! ### FIFO packets (R451 to R453) and vendor interrupts (R457) -/

def Fifo.level (q : Fifo) : Nat := (q.pkts.map List.length).sum - q.rd
/-- The oldest packet leaves the FIFO. -/
def Fifo.next (q : Fifo) : Fifo := { pkts := q.pkts.drop 1, rd := 0, ptr := q.ptr + (q.pkts.headD []).length }

/-- Discard oldest whole packets until `n` more words fit: what remains, its read position, packets lost, torn. -/
def fifoRoom (cap n : Nat) : Nat → List (List Word) → List (List Word) × Nat × Nat × Bool
  | _, [] => ([], 0, 0, false)
  | rd, p :: ps =>
    if ((p :: ps).map List.length).sum - rd + n ≤ cap then (p :: ps, rd, 0, false)
    else
      let r := fifoRoom cap n 0 ps
      (r.1, r.2.1, r.2.2.1 + 1, r.2.2.2 || rd != 0)

def State.fifo (s : State) (i : Nat) : Fifo := s.fifos.getD i {}

/-- The custody port, 0 A or 1 B. -/
def State.mgmt (s : State) : Option Nat :=
  match s.get HST_CUST_MGMT with
  | 1 => some 0
  | 2 => some 1
  | _ => none

def State.queueCfg (s : State) (p : Nat) : QueueCfg := s.cnv.cfg.queues.getD p {}

/-- One MSI-X message on FIF_IRQCFG.VEC of the custody port, or none (R457). -/
def sendMsix (s : State) : State :=
  match s.mgmt with
  | none => s
  | some p =>
    if s.flag FIF_IRQCFG_EN && s.get FIF_IRQCFG_VEC < (s.queueCfg p).vectors then
      { s with hst := { s.hst with msix := (p, s.get FIF_IRQCFG_VEC) :: s.hst.msix } }
    else s

/-- Set bit `b` of FIF_IRQ_ST; a change from 0 to 1 of an enabled bit sends one message. -/
def raiseIrq (b : Nat) (s : State) : State :=
  let f := if b < 8 then FIF_IRQ_ST_FIFO else FIF_IRQ_ST_DMA
  let i := if b < 8 then b else b - 8
  if s.bit f i then s
  else
    let s := s.setBit f i true
    if s.bit FIF_IRQ_EN_EN b then sendMsix s else s

/-- A DMA channel ends: BUSY clears and DONE sets, with its error code (R450). -/
def dmaEnd (c err : Nat) (s : State) : State :=
  let s := s.puts [(DMA_STAT_BUSY c, 0), (DMA_STAT_PAUSED c, 0), (DMA_STAT_DONE c, 1), (DMA_STAT_ERR c, err)]
  if s.flag (DMA_CTRL_DONEIE c) then raiseIrq (8 + c) s else s

/-- A packet enters FIFO `i` whole (R453); `urgent` raises the event interrupt whatever the level (R455). -/
def pushPkt (i : Nat) (pkt : List Word) (urgent : Bool) (s : State) : State :=
  let q := s.fifo i
  let before := q.level
  let r := fifoRoom (s.get (FIF_CAP_WORDS i)) pkt.length q.rd q.pkts
  let q' : Fifo := { pkts := r.1 ++ [pkt], rd := r.2.1, ptr := q.ptr + ((q.pkts.take r.2.2.1).map List.length).sum }
  let s := { s with fifos := setAt s.fifos i q' }
  let s := s.addSat (FIF_LOST_LOST i) r.2.2.1
  let s := s.when r.2.2.2 fun s => s.put (FIF_STAT_TORN i) 1
  let thr := s.get (FIF_THR_THR i)
  if urgent || (before < thr && thr ≤ q'.level) then raiseIrq i s else s

def word (tag payload : Nat) : Word := BitVec.ofNat 32 (tag * au24 + payload % au24)

def contWords : Nat → List Nat → List Word
  | _, [] => []
  | i, a :: as => word (0x80 + i) a :: contWords (i + 1) as

/-- A packet (R452): header tag, detail, and the words after the stamp. -/
def packet (s : State) (tag detail : Nat) (args : List Nat) : List Word :=
  word tag ((2 + args.length) * 2 ^ 20 + detail % 2 ^ 20) ::
    contWords 1 (s.get ANG_NOW_LO_ANGLE :: s.get ANG_NOW_HI_REV :: args)

/-- An event record (Table 17.6). -/
def eventRec (tag detail : Nat) (args : List Nat) (urgent : Bool) (s : State) : State :=
  pushPkt 0 (packet s tag detail args) urgent s

def kINFO := 0
def kBYPASS := 1
def kDEGRADE := 2
def kSTOP := 3
def kCLEAR := 4
def kDISCARD := 6

/-- A FLT_LOG entry (R495): block index, KIND, CODE, UNIT and arguments. -/
def logFlt (src kind code unit : Nat) (args : List Nat) (s : State) : State :=
  let s := pushPkt 2 (packet s (0x40 + src) (kind * 2 ^ 16 + code * 2 ^ 8 + unit % 256) args) false s
  let s := s.inc FLT_STAT_ENTRIES
  s.when (kind == kBYPASS) fun s => s.inc FLT_STAT_BYPASSN

/-! ### Host completions (R379, R411) -/

def scSuccess : Nat × Nat × Bool := (0, 0, false)
def scInvalidOpcode : Nat × Nat × Bool := (0, 0x01, true)
def scInvalidField : Nat × Nat × Bool := (0, 0x02, true)
def scInternal : Nat × Nat × Bool := (0, 0x06, false)
def scAbortReq : Nat × Nat × Bool := (0, 0x07, true)
def scSqDeleted : Nat × Nat × Bool := (0, 0x08, true)
def scInvalidNs : Nat × Nat × Bool := (0, 0x0B, true)
def scSanitize : Nat × Nat × Bool := (0, 0x1D, false)
def scLbaRange : Nat × Nat × Bool := (0, 0x80, true)
def scNotReady : Nat × Nat × Bool := (0, 0x82, false)
def scNotSaveable : Nat × Nat × Bool := (1, 0x0D, true)
def scNsCapacity : Nat × Nat × Bool := (1, 0x15, true)
def scNsIdUnavail : Nat × Nat × Bool := (1, 0x16, true)
def scNsAttached : Nat × Nat × Bool := (1, 0x18, true)
def scNsNotAttached : Nat × Nat × Bool := (1, 0x1A, true)
def scZoneBoundary : Nat × Nat × Bool := (1, 0xB8, true)
def scZoneFull : Nat × Nat × Bool := (1, 0xB9, true)
def scZoneReadOnly : Nat × Nat × Bool := (1, 0xBA, true)
def scZoneInvalidWrite : Nat × Nat × Bool := (1, 0xBC, true)
def scTooManyActive : Nat × Nat × Bool := (1, 0xBD, true)
def scZoneTransition : Nat × Nat × Bool := (1, 0xBF, true)
def scWriteFault : Nat × Nat × Bool := (2, 0x80, true)
def scUnrecRead : Nat × Nat × Bool := (2, 0x81, true)
def scUnwritten : Nat × Nat × Bool := (2, 0x87, true)
def scAnaInaccessible : Nat × Nat × Bool := (3, 0x02, false)
def scAnaTransition : Nat × Nat × Bool := (3, 0x03, false)
def scCustody : Nat × Nat × Bool := (7, 0x80, true)
def scState : Nat × Nat × Bool := (7, 0x81, true)
def scNoCartridge : Nat × Nat × Bool := (7, 0x82, true)
def scHeadMissing : Nat × Nat × Bool := (7, 0x83, true)
def scMountFailed : Nat × Nat × Bool := (7, 0x84, true)
def scMountAborted : Nat × Nat × Bool := (7, 0x85, true)
def scStopped : Nat × Nat × Bool := (7, 0x86, false)
def scSketchBusy : Nat × Nat × Bool := (7, 0x87, false)
def scVarnishAbort : Nat × Nat × Bool := (7, 0x88, false)
def scCalRefused : Nat × Nat × Bool := (7, 0x89, true)
def scKeyMissing : Nat × Nat × Bool := (7, 0x8A, false)
def scDiscarded : Nat × Nat × Bool := (7, 0x8B, false)

def State.inFlight (s : State) (p : Nat) : Nat := (s.hst.cmds.filter fun c => c.port == p && !c.drop).length

/-- HST_INFL.NOW and its peak follow the list of commands in flight. -/
def syncInfl (p : Nat) (s : State) : State :=
  let s := s.put (HST_INFL_NOW p) (s.inFlight p)
  s.put (HST_INFL_PEAK p) (max (s.get (HST_INFL_PEAK p)) (s.inFlight p))

/-- HST_RLOCK.ENTRIES follows the entries held. -/
def syncLocks (s : State) : State := s.put HST_RLOCK_ENTRIES (s.hst.cmds.filter fun c => c.locked).length

/-- A completion with a status other than success adds an Error Information entry (R411); its status holds SC, SCT above
it, and DNR in bit 14. -/
def noteError (p qid cid : Nat) (st : Nat × Nat × Bool) (s : State) : State :=
  if st.1 == 0 && st.2.1 == 0 then s
  else
    let s := s.inc HST_ERRCNT_ERRLOG
    let s := s.when (st.1 == 2 && st.2.1 == 0x81) fun s =>
      { s.inc HST_ERRCNT_UNREC with hst := { (s.inc HST_ERRCNT_UNREC).hst with mediaErrs := s.hst.mediaErrs + 1 } }
    { s with hst := { s.hst with
        errlog := (⟨s.hst.errEntries + 1, p, qid, cid, 16384 * st.2.2.toNat + st.1 * 256 + st.2.1, 0, 0, 0⟩ :: s.hst.errlog).take 64
        errEntries := s.hst.errEntries + 1 } }

/-- Post a completion entry. -/
def postCpl (p qid cid : Nat) (st : Nat × Nat × Bool) (dw0 : Nat) (s : State) : State :=
  let s := noteError p qid cid st s
  { s with hst := { s.hst with cpl := ⟨p, qid, cid, st.1, st.2.1, st.2.2, dw0⟩ :: s.hst.cpl } }

/-- Complete a command in flight: it leaves the table, its range-lock entry is freed, its completion is posted. A
long-running admin command whose port was reset has no command left and only ends. -/
def completeCmd (p qid cid : Nat) (st : Nat × Nat × Bool) (dw0 : Nat) (s : State) : State :=
  match s.hst.cmds.find? fun c => c.port == p && c.qid == qid && c.cid == cid with
  | none => { s with hst := { s.hst with
      long := s.hst.long.filter fun l => !(qid == 0 && l.port == p && l.cid == cid) } }
  | some c =>
    let s := { s with hst := { s.hst with
      cmds := s.hst.cmds.filter fun d => !(d.port == p && d.qid == qid && d.cid == cid)
      long := match s.hst.long with
        | some l => if l.port == p && l.cid == cid && qid == 0 then none else some l
        | none => none
      longWait := s.hst.longWait.filter fun l => !(qid == 0 && l.port == p && l.cid == cid) } }
    let s := syncLocks (syncInfl p s)
    if c.drop then s else postCpl p qid cid st dw0 s

/-- Complete every command in flight that meets a condition. -/
def completeAll (sel : HCmd → Bool) (st : Nat × Nat × Bool) (dw0 : Nat) (s : State) : State :=
  (s.hst.cmds.filter sel).foldl (fun s c => completeCmd c.port c.qid c.cid st dw0 s) s

/-- The value of a controller's feature, or its default. -/
def State.feat (s : State) (p fid nsid dflt : Nat) : Nat :=
  match s.hst.feats.find? fun f => f.1 == (p, fid * 256 + nsid) with
  | some f => f.2
  | none => dflt

/-! ### Which submission entry is fetched next (R379). The mechanisms are those of NVMe Base 2.0 (PRESUMED, log entry 214). -/

/-- The class of a queue in the arbitration that CC.AMS selects. -/
def State.sqClass (s : State) (q : Sq) : Nat := if s.hst.ams.getD q.port 0 == 0 || q.qid == 0 then 0 else q.prio + 1
/-- The Arbitration feature of a controller; its burst in commands, none for no limit; the weights of high, medium and low. -/
def State.arbFeat (s : State) (p : Nat) : Nat := s.feat p 1 0 (s.queueCfg p).arb
def State.arbBurst (s : State) (p : Nat) : Option Nat := if s.arbFeat p % 8 == 7 then none else some (2 ^ (s.arbFeat p % 8))
def State.arbWeights (s : State) (p : Nat) : List Nat :=
  [s.arbFeat p / 2 ^ 24 % 256 + 1, s.arbFeat p / 2 ^ 16 % 256 + 1, s.arbFeat p / 2 ^ 8 % 256 + 1]
def State.arbOf (s : State) (p : Nat) : SqArb := s.hst.arb.getD p {}
/-- A port's queues of a class that hold an entry. -/
def State.sqReady (s : State) (p k : Nat) : List Nat :=
  (s.hst.sqs.filter fun q => q.port == p && q.head != q.tail && s.sqClass q == k).map Sq.qid
/-- A class's burst goes on in the queue of its latest fetch. -/
def State.inBurst (s : State) (p k : Nat) : Bool :=
  match s.arbBurst p with
  | none => true
  | some n => (s.arbOf p).run.getD k 0 < n
/-- The next queue of a class: the one in its burst, else the next in turn. -/
def State.sqNext (s : State) (p k : Nat) : Option Nat :=
  let l := s.sqReady p k
  let last := (s.arbOf p).last.getD k 0
  if l.contains last && s.inBurst p k then some last
  else
    let up := l.filter (last < ·)
    if up.isEmpty then l.min? else up.min?
/-- The class that is served: the admin queue, urgent, then those of high, medium and low with credit left, all of them where none has. -/
def State.sqServed (s : State) (p : Nat) : Option Nat :=
  let some' := fun k => !(s.sqReady p k).isEmpty
  let weighted := [2, 3, 4].filter some'
  match [0, 1].find? some' with
  | some k => some k
  | none =>
    match weighted.find? fun k => (s.arbOf p).credit.getD (k - 2) 0 != 0 with
    | some k => some k
    | none => weighted.head?
/-- A port may be fetched from: it is ready, has room in flight and an entry waits. -/
def State.mayFetch (s : State) (p : Nat) : Bool :=
  s.on && s.hst.rdy.getD p false && s.inFlight p < (s.queueCfg p).inFlight && (s.sqServed p).isSome
/-- The queue of the next fetch: the ports take turns. -/
def State.nextFetch (s : State) : Option (Nat × Nat) :=
  match [1 - s.hst.arbPort, s.hst.arbPort].find? s.mayFetch with
  | none => none
  | some p => (s.sqServed p).bind fun k => (s.sqNext p k).map fun q => (p, q)
/-- The arbiter after a fetch from a queue of a port. -/
def arbTake (p q : Nat) (s : State) : State :=
  match s.sqServed p with
  | none => s
  | some k =>
    let a := s.arbOf p
    let same := q == a.last.getD k 0 && s.inBurst p k
    let n := if same then a.run.getD k 0 + 1 else 1
    let c := if k < 2 || a.credit.getD (k - 2) 0 != 0 then a.credit else s.arbWeights p
    let c := if k < 2 then c else c.set (k - 2) (c.getD (k - 2) 0 - 1)
    { s with hst := { s.hst with arbPort := p, arb := s.hst.arb.set p { last := a.last.set k q, run := a.run.set k n, credit := c } } }

/-- The submission entry of a command is fetched (R379), where its queue is the next in the order of arbitration. Answers the state with
the command in flight. -/
def fetch (c : HCmd) (s : State) : Option State :=
  if s.nextFetch == some (c.port, c.qid) then
    let s := arbTake c.port c.qid s
    match s.hst.sqs.find? fun q => q.port == c.port && q.qid == c.qid with
    | none => none
    | some q =>
      if q.head == q.tail then none
      else
        let q' := { q with head := (q.head + 1) % q.size }
        let s := { s with hst := { s.hst with
          sqs := s.hst.sqs.map fun x => if x.port == q.port && x.qid == q.qid then q' else x
          cmds := s.hst.cmds ++ [{ c with seq := s.hst.fetchSeq }]
          fetchSeq := s.hst.fetchSeq + 1 } }
        some (syncInfl c.port s)
  else none

/-! ### The angle scheduler's store (R68) -/

/-- The one-shot events the store holds: those granted, those that wait for a grant, and the governor's next demand, whose place its
predecessor leaves it. -/
def State.stored (s : State) : Nat := s.ang.pend.length + s.ang.subm.length + s.ang.running.toNat
def storeMax : Nat := 1024

/-- Withdraw every event and request of a class. -/
def withdraw (cls : EvClass) (s : State) : State :=
  { s with ang := { s.ang with
    pend := s.ang.pend.filter fun e => e.cls != cls
    due := s.ang.due.filter fun e => e.cls != cls
    subm := s.ang.subm.filter fun r => r.ev.cls != cls } }

/-- Enter a one-shot event, if the store has room. -/
def storeEv (e : Ev) (s : State) : Option State :=
  if s.stored < storeMax then some { s with ang := { s.ang with pend := s.ang.pend ++ [e] } } else none

/-- Submit a request to the angle scheduler (R33); a full store refuses it at once (R68). -/
def submitReq (r : Req) (s : State) : State :=
  if s.stored < storeMax then { s with ang := { s.ang with subm := s.ang.subm ++ [r] } }
  else { s with ang := { s.ang with refused := s.ang.refused ++ [r] } }
def submit (cls : EvClass) (owner target len rank : Nat) (s : State) : State :=
  submitReq ⟨{ cls, owner, target := target % au48, len }, rank, 6⟩ s
/-- A verify reading or a read-back, which the lane duty does not hold (R488). -/
def submitVerify (owner target len rank : Nat) (s : State) : State :=
  submitReq ⟨{ cls := .readWin, owner, target := target % au48, len, exempt := true }, rank, 6⟩ s

/-- The measurement window in progress will be discarded (R8, R72). -/
def spoilWindow (s : State) : State := { s with ang := { s.ang with winBad := true } }
/-- A spindle ramp begins: RAMP sets, which spoils the measurement window (R69, R72). -/
def setRamp (s : State) : State := spoilWindow (s.put ANG_LOCK_RAMP 1)

/-! ### Varnish aborts (R116) -/

def skEMPTY := 0
def skSTAGED := 1
def skDISTRIBUTING := 2
def skWAITING := 3
def State.armed (s : State) : Bool :=
  s.get SKT_STATUS_PHASE == skDISTRIBUTING || s.get SKT_STATUS_PHASE == skWAITING

def vCOMMITTED := 1
def vRANGE := 2
def vLATE := 3
def vOFFLINE := 4
def vSCHEDFULL := 5
def vCANCELLED := 6
def vCUSTODY := 7
def vSTATE := 8

/-- The result of a Varnish: its stamp, code, entry and event record. -/
def varnishResult (code entry : Nat) (s : State) : State :=
  let s := (s.put SKT_COMMIT_LO_ANGLE (s.get ANG_NOW_LO_ANGLE)).put SKT_COMMIT_HI_REV (s.get ANG_NOW_HI_REV)
  let s := ((s.put SKT_RESULT_CODE code).put SKT_RESULT_ENTRY entry).put SKT_RESULT_DONE 1
  eventRec 0x03 (entry % 512 * 256 + code) [] false s

/-- The Mode command that armed this Varnish completes (R409). -/
def completeMode (code : Nat) (s : State) : State :=
  match s.hst.long with
  | some l =>
    if l.kind == 0xD4 then
      completeCmd l.port 0 l.cid (if code == vCOMMITTED then scSuccess else scVarnishAbort) code s
    else s
  | none => s

def clearSketch (s : State) : State :=
  { s.put SKT_STATUS_PHASE skEMPTY with skt := { (s.put SKT_STATUS_PHASE skEMPTY).skt with entries := [] } }

/-- An abort writes nothing and keeps the Sketch except after CUSTODY and STATE (Table 4.2). -/
def varnishAbort (code entry : Nat) (s : State) : State :=
  let s := withdraw .varnish s
  let s := varnishResult code entry s
  let s := s.inc SKT_CNT_ABORTS
  let s := if code == vCUSTODY || code == vSTATE then clearSketch s else s.put SKT_STATUS_PHASE skSTAGED
  completeMode code s

/-! ### Heads, loops, pairs -/

def State.headCfg (s : State) (h : Nat) : HeadCfg := s.cnv.cfg.heads.getD h {}
def State.declared (s : State) (h : Nat) : Bool := (s.headCfg h).declared
def eWAITING := 1
def ePRESENT := 2
def eABSENT := 3
def eBADROM := 4
def eMISMATCH := 5
def eFAILED := 6
def State.present (s : State) (h : Nat) : Bool := s.get (OPU_HSTAT_ENUM h) == ePRESENT
def State.inSvc (s : State) (h : Nat) : Bool := s.flag (OPU_HSTAT_INSVC h)
def State.opuHead (s : State) (h : Nat) : OpuHead := s.opu.getD h {}
def State.setOpu (s : State) (h : Nat) (k : OpuHead → OpuHead) : State := { s with opu := updAt s.opu h k }

/-- R168: LON of a head follows its conditions. -/
def syncLon (h : Nat) (s : State) : State :=
  let hi := s.sys.lsrEn && !s.sys.tripped && s.present h && s.inSvc h && !s.flag (OPU_CTRL_LOFF h)
  let fell := s.flag (OPU_HSTAT_LON h) && !hi
  (s.putB (OPU_HSTAT_LON h) hi).setOpu h fun o => { o with lonFell := o.lonFell || fell }
def syncLonAll (s : State) : State := forUpTo 4 syncLon s

/-- The 40-bit request of a transaction: SYNC, CMD, ADDR, DATA and the CRC-8 over the 28 bits between (R160). -/
def Xact.request (x : Xact) : Nat :=
  let body := x.cmd % 16 * 2 ^ 24 + x.addr % 256 * 2 ^ 16 + x.data % 65536
  0b1011 * 2 ^ 36 + body * 256 + crc8 (bitsMsb 28 body)
/-- A transaction is a LASER on (R161). -/
def Xact.isLaserOn (x : Xact) : Bool := x.cmd == 3 && x.data.testBit 15

/-- An idle link takes up the first of its pending transactions; a LASER on is not sent while LON is low (R168; DESIGN CHOICE, log entry
193). OPU_LVL holds the value last sent (R172). -/
def beginXact (h : Nat) (s : State) : State :=
  let lon := s.flag (OPU_HSTAT_LON h)
  match (s.opuHead h).queue.dropWhile fun x => x.isLaserOn && !lon with
  | [] => s.setOpu h fun o => { o with queue := [], busy := false }
  | x :: xs =>
    (s.setOpu h fun o => { o with queue := x :: xs, busy := true, req := x.request, lonFell := false }).when (x.cmd == 2)
      fun s => s.put (OPU_LVL_LEVEL h (x.addr - 0x10)) x.data

/-- Queue a control-link transaction by priority (R162); the one in progress always completes. -/
def insertXact (x : Xact) : List Xact → List Xact
  | [] => [x]
  | y :: ys => if x.cls < y.cls then x :: y :: ys else y :: insertXact x ys
def queueXact (h : Nat) (x : Xact) (s : State) : State :=
  match (s.opuHead h).busy, (s.opuHead h).queue with
  | true, y :: ys => s.setOpu h fun o => { o with queue := y :: insertXact x ys }
  | _, q => beginXact h (s.setOpu h fun o => { o with queue := insertXact x q })
/-- A transaction to be repeated comes before those of its own class (R161, R162). -/
def repeatXact (x : Xact) : List Xact → List Xact
  | [] => [x]
  | y :: ys => if x.cls ≤ y.cls then x :: y :: ys else y :: repeatXact x ys

/-- The head's LPMON check has passed (R171). -/
def State.lpPassed (s : State) (h : Nat) : Bool := 64 ≤ (s.opuHead h).lpGood

/-- LASER off for the named spots (R161). -/
def laserOff (h spots : Nat) (s : State) : State := queueXact h ⟨1, 3, 0, spots, 0⟩ s

def lOFF := 0
def lOPEN := 1
def lRUN := 2
def lHOLD := 3
def lFAIL := 4
def State.loopState (s : State) (l : Nat) : Nat := s.get (SRV_LSTAT_STATE l)
def State.loop (s : State) (l : Nat) : LoopSt := s.srv.loops.getD l {}
def State.setLoop (s : State) (l : Nat) (k : LoopSt → LoopSt) : State :=
  { s with srv := { s.srv with loops := updAt s.srv.loops l k } }
/-- The owner sets a loop's state, for the next tick (R174). -/
def setLoopNext (l st : Nat) (s : State) : State := s.setLoop l fun x => { x with setTo := st }
/-- A loop is OFF in this core cycle (stops and faults): the supervisor's counters clear (R175), SPN has zero torque (Table 7.1). -/
def loopOff (l : Nat) (s : State) : State :=
  let s := (s.puts [(SRV_LSTAT_STATE l, lOFF), (SRV_LSTAT_OOB l, 0)]).setLoop l fun x => { x with setTo := 5, heldN := 0, satPrev := false }
  s.when (l == 16) fun s => { s with spn := { s.spn with iq := 0 } }
def headLoopsOff (h : Nat) (s : State) : State := forUpTo 4 (fun k => loopOff (4 * h + k)) s
/-- The track sequencer sets the loops of its head OFF, for the next tick (R174). -/
def headLoopsNext (h : Nat) (s : State) : State := forUpTo 4 (fun k => setLoopNext (4 * h + k) lOFF) s

/-- A window is cut: it closes at the next tick, where it does not end before (R67, R208). -/
def Win.cutAt (now : Nat) (w : Win) : Win := { w with cut := true, stop := if passed (tickAfter now) w.stop then w.stop else tickAfter now }

/-- Write-timing pairs of a head go IDLE: nothing more of its write window is written; `cause` is 1 + the inhibit cause, or
0. What the window has written is settled at its WINDOW_CLOSE. -/
def pairsIdleFor (cause h : Nat) (s : State) : State :=
  { s.put (WRS_HSTAT_WRITING h) 0 with
    wrs := s.wrs.modify h fun w => { w with line := [0, 0] }
    wins := s.wins.map fun w =>
      if w.head == h && w.cls == .writeWin && !w.dead then { w.cutAt s.now with dead := true, deadAt := s.now, cause } else w }
def pairsIdle (h : Nat) (s : State) : State := pairsIdleFor 0 h s

/-- A write window of a head is open. -/
def State.writeOpen (s : State) (h : Nat) : Bool := s.wins.any fun w => w.cls == .writeWin && w.head == h
def State.writing (s : State) : Bool := s.wins.any fun w => w.cls == .writeWin && !w.dead
/-- Open write windows close at the next tick. -/
def cutWrites (sel : Win → Bool) (s : State) : State :=
  { s with wins := s.wins.map fun w => if w.cls == .writeWin && sel w then w.cutAt s.now else w }
def cutReads (sel : Win → Bool) (s : State) : State :=
  { s with wins := s.wins.map fun w => if w.cls == .readWin && sel w then w.cutAt s.now else w }

/-- A way of the Larder has power: one in service, one being cleaned, one under BIST (R47, R429, R431, R432). -/
def State.lrdPowered (s : State) : Bool :=
  s.get LRD_WAYS_INSVC != 0 || !s.lrd.cleaning.isEmpty || s.lrd.act.any (fun a => a.1 == 2) || s.get LRD_STAT_STATE == 2

/-! ### The effective set (R463) -/

def State.mode (s : State) : Nat := s.get SYS_MODE_CUR_MODE
def State.modeCfg (s : State) (m : Nat) : ModeCfg := s.cnv.cfg.modes.getD m {}
def State.usable (s : State) (h : Nat) : Bool := s.present h && s.inSvc h && !s.flag (OPU_CTRL_LOFF h)
def sideOf (h : Nat) : Nat := h / 2
def sideHeads (d : Nat) : List Nat := [2 * d, 2 * d + 1]

/-- The effective heads of one side for a HEADS mask, and whether one substitutes. -/
def effSide (s : State) (mask d : Nat) : List Nat × Bool :=
  let ok := (sideHeads d).filter fun h => s.usable h && mask.testBit h
  if ok.isEmpty then
    match (sideHeads d).find? fun h => s.usable h with
    | some h => ([h], true)
    | none => ([], false)
  else (ok, false)

def maskOf (l : List Nat) : Nat := l.foldl (fun m h => setBitNat m h true) 0
def State.effMask (s : State) (mode : Nat) : Nat :=
  maskOf ((effSide s (s.modeCfg mode).heads 0).1 ++ (effSide s (s.modeCfg mode).heads 1).1)
/-- Form the effective set again; in MOUNTED a head that R463 substitutes joins (R471). -/
def formEffective (s : State) : State :=
  let m := (s.modeCfg s.mode).heads
  let old := s.get SYS_MODE_ST_EFFH
  let new := s.effMask s.mode
  let s := (s.put SYS_MODE_ST_EFFH new).putB SYS_MODE_ST_SUBST ((effSide s m 0).2 || (effSide s m 1).2)
  if s.life == MOUNTED then
    let s := s.put SYS_MODE_ST_JOIN ((s.get SYS_MODE_ST_JOIN ||| (new - (new &&& old))) &&& new)
    s.when (new - (new &&& old) != 0) fun s => s.put SYS_MODE_ST_TRANS 1
  else s
def State.effective (s : State) (h : Nat) : Bool := s.bit SYS_MODE_ST_EFFH h

/-! ### The Cellar's array (R511 to R517) -/

def celSector (w : Nat) : Nat := w / 2048
/-- A code word's state and contents: 0 ERASED, 1 + data PROGRAMMED, or ERROR. -/
def Cel.word (c : Cel) (w : Nat) : Nat :=
  if c.cutSectors.contains (celSector w) then celERROR else Sparse.get c.words w
def Cel.setWord (c : Cel) (w v : Nat) : Cel := { c with words := Sparse.set c.words w v }
def Cel.eraseSector (c : Cel) (k : Nat) : Cel :=
  { c with
    words := c.words.filter fun p => celSector p.1 != k
    cutSectors := c.cutSectors.filter fun x => x != k }

/-- The order in which waiting operations are served (R513): STR and HLT, then SEC, then the host. -/
def celRank (client : Nat) : Nat := if client == 0 then 2 else if client == 1 || client == 2 then 0 else 1
def insertCelOp (o : CelOp) : List CelOp → List CelOp
  | [] => [o]
  | q :: qs => if celRank o.client < celRank q.client then o :: q :: qs else q :: insertCelOp o qs
/-- An operation is refused or its pulse has ended early (R517): a host operation has ended, an install of a KEK fails, and the
debug port stays closed with RESULT 5. -/
def celGone (o : CelOp) (s : State) : State :=
  if o.client == 0 then s.puts [(CEL_STATUS_BUSY, 0), (CEL_STATUS_DONE, 1)]
  else if o.client == 3 then
    match s.hst.long with
    | some l => if l.kind == 0x81 then completeCmd l.port 0 l.cid scInternal 0 s else s
    | none => s
  else if o.client == 4 then
    { s.puts [(DBG_STAT_RESULT, 5), (DBG_STAT_BUSY, 0)] with sec := { s.sec with dbgStep := 0 } }
  else s
/-- Queue an operation behind the one in progress. Below the hold-up threshold a program or an erase is refused with LOWV
(R517). -/
def celQueue (o : CelOp) (s : State) : State :=
  if s.flag CEL_STATUS_LOWV && o.kind != 1 then celGone o (s.put CEL_STATUS_ERR 6)
  else
    { s with cel := { s.cel with ops :=
        match s.cel.ops with
        | [] => [o]
        | q :: qs => q :: insertCelOp o qs } }
/-- The programs and erases that wait are refused (R517). -/
def celRefuse (s : State) : State :=
  let waiting := (s.cel.ops.drop 1).filter fun o => o.kind != 1
  let keep := s.cel.ops.take 1 ++ (s.cel.ops.drop 1).filter fun o => o.kind == 1
  waiting.foldl (fun s o => celGone o (s.put CEL_STATUS_ERR 6)) { s with cel := { s.cel with ops := keep } }

/-- First sector and number of sectors of the regions of Table 21.1. -/
def sectJOURNAL : Nat × Nat := (0, 96)
def sectLEDGER : Nat × Nat := (96, 16)
def sectIDENTITY : Nat × Nat := (112, 8)
def sectSEAL : Nat × Nat := (120, 2)
def sectCONTROL : Nat × Nat := (122, 6)
def inRegion (r : Nat × Nat) (sector : Nat) : Bool := r.1 ≤ sector && sector < r.1 + r.2

/-- The 16 bytes a word returns: all ones ERASED, zero in ERROR (R512). -/
def Cel.data (c : Cel) (w : Nat) : Nat :=
  let v := c.word w
  if v == 0 then 2 ^ 128 - 1 else if v == celERROR then 0 else v - 1
/-- CEL_STATUS.STATE of a word: 0 PROGRAMMED, 1 ERASED, 2 ERROR. -/
def Cel.stateCode (c : Cel) (w : Nat) : Nat :=
  let v := c.word w
  if v == 0 then 1 else if v == celERROR then 2 else 0
/-- Every word of a sector is ERASED. -/
def Cel.sectorErased (c : Cel) (k : Nat) : Bool :=
  !c.cutSectors.contains k && c.words.all fun p => celSector p.1 != k

/-- The write point of a circular log: the first ERASED word after the last word that is not ERASED (R514). A log whose
words are all ERASED writes at its start. -/
def Cel.writePoint (c : Cel) (r : Nat × Nat) : Option Nat :=
  let n := 2048 * r.2
  let at' := fun i => 2048 * r.1 + i % n
  if (List.range r.2).all fun k => c.sectorErased (r.1 + k) then some (2048 * r.1)
  else
    ((List.range n).find? fun i => c.stateCode (at' i) == 1 && c.stateCode (at' (i + n - 1)) != 1).map at'

/-- The region of a client's log. -/
def logRegion (client : Nat) : Nat × Nat := if client == 1 then sectJOURNAL else sectLEDGER
/-- The code word an operation acts on; none for an append that finds no ERASED word (R514). -/
def Cel.target (c : Cel) (o : CelOp) : Option Nat := if o.app then c.writePoint (logRegion o.client) else some o.word

/-- A pulse in progress ends early (R517): a word programmed reads ERROR, a sector erased reads ERROR throughout. -/
def Cel.cut (c : Cel) : Cel :=
  match c.ops with
  | [] => c
  | o :: os =>
    let w := c.target o
    let c := { c with ops := os }
    if o.kind == 2 then (match w with | some w => c.setWord w celERROR | none => c)
    else if o.kind == 3 then
      { c with
        words := c.words.filter fun p => celSector p.1 != celSector o.word
        cutSectors := celSector o.word :: c.cutSectors.filter fun x => x != celSector o.word }
    else c

/-- The Cellar starts no further pulse and ends the pulse in progress (R517). -/
def celEndPulse (s : State) : State :=
  let s := celRefuse s
  match s.cel.ops with
  | [] => s
  | o :: _ => if o.kind == 1 then s else celGone o { s with cel := s.cel.cut }

/-- A freeze ends the pulse in progress, unless it is the Seal erase of R527, which finishes on TCK (R531, R532). Nothing else
of the Cellar goes on. -/
def Cel.freeze (c : Cel) : Cel :=
  let busy := match c.ops with | o :: _ => o.client == 4 | [] => false
  let d := if busy then c else c.cut
  { d with ops := d.ops.filter fun o => o.client == 4 }

/-- A full reset keeps the operation in progress, because the Cellar lies in AON (R543); its owner, which the reset has reset, no
longer waits for it (client 5). -/
def Cel.afterFullReset (c : Cel) : Cel :=
  { c with ops := (c.ops.take 1).filterMap fun o => (c.target o).map fun w => { o with client := 5, word := w, app := false } }

end Sys2Proof.Machine
end

