-- ==== Sys2Proof/Machine/Motion.lean ====
section
/-! DEFINITION. Motion shared by many families: the sled planner and its seeks (R217 to R230) and the spindle's target,
phases and reference (R231 to R242). -/

namespace Sys2Proof.Machine

open R

/-! ### Fixed point (R221) -/

/-- The largest `r` with `r ^ k ≤ n`, by bits from the top. -/
def iroot (k n : Nat) : Nat :=
  (List.range (n.log2 / k + 1)).reverse.foldl (fun r i => if (r + 2 ^ i) ^ k ≤ n then r + 2 ^ i else r) 0

def one : Int := 2 ^ Config.planFrac
def fmul (a b : Int) : Int := a * b / one
def fdiv (a b : Int) : Int := a * one / b
def fsqrt (a : Int) : Int := iroot 2 (a.toNat * one.toNat)

/-- One micro-step, 4.6875 µm. -/
def stepD : Int := 75 * one / 16000000

/-- Limits of a seek class: VMAX in mm/s, AMAX in 0.1 m/s², JMAX in 10 m/s³ (Table 9.7). -/
def seekV (s : State) (classS : Bool) : Int := (s.get (if classS then SLD_PROF_S_VMAX else SLD_PROF_D_VMAX)) * one / 1000
def seekA (s : State) (classS : Bool) : Int := (s.get (if classS then SLD_PROF_S_AMAX else SLD_PROF_D_AMAX)) * one / 10
def seekJ (s : State) (classS : Bool) : Int := (s.get (if classS then SLD_PROF_S_JMAX else SLD_PROF_D_JMAX)) * 10 * one

/-- Distance of a symmetric S-curve from speed `u`, with no acceleration, to rest. -/
def stopDist (aa jj u : Int) : Int :=
  if fdiv (fmul aa aa) jj ≤ u then fmul u (fdiv u aa + fdiv aa jj) / 2
  else fmul u (fsqrt (fdiv u jj))

/-- The first step from rest: (6 d / J)^(1/3) (R222). -/
def firstStep (jj : Int) : Int := iroot 3 ((fdiv (6 * stepD) jj).toNat * one.toNat * one.toNat)

/-- Time of the S-curve between rest and speed `u`. -/
def accelTime (aa jj u : Int) : Int :=
  if fdiv (fmul aa aa) jj ≤ u then fdiv u aa + fdiv aa jj else 2 * fsqrt (fdiv u jj)

/-- Planned duration of a seek from rest over a distance (SLD_EST). -/
def seekTime (vv aa jj dist : Int) : Int :=
  if 2 * stopDist aa jj vv ≤ dist then fdiv (dist - 2 * stopDist aa jj vv) vv + 2 * accelTime aa jj vv
  else
    let ua := fdiv (fmul aa aa) jj
    let u := if 2 * stopDist aa jj ua ≤ dist then (fsqrt (fmul ua ua + 4 * fmul aa dist) - ua) / 2
      else iroot 3 ((fmul (fmul dist dist) jj / 4).toNat * one.toNat * one.toNat)
    2 * accelTime aa jj u

/-! ### Sleds -/

def sdNONE := 0
def sdCLASSD := 1
def sdSHOCK := 2
def sdPREEMPT := 3
def sdCAL := 4
def sdPARK := 5
def sdSTOP := 6
def sdHOST := 7
def sdFOLLOW := 8
def sdSEARCH := 9
def isClassS (kind : Nat) : Bool := (2 ≤ kind && kind ≤ 7) || kind == 9

def phIDLE := 0
def phACCEL := 1
def phCRUISE := 2
def phSLOW := 3
def phDECEL := 4
def phREVERSE := 5

def State.sl (s : State) (h : Nat) : Sled := s.sled.getD h {}
def State.setSl (s : State) (h : Nat) (k : Sled → Sled) : State := { s with sled := updAt s.sled h k }
def State.sledMoving (s : State) (h : Nat) : Bool := s.flag (SLD_STAT_MOVING h)

/-- `v·t + a·t²/2 + j·t³/6`, and its derivative. -/
def travel (v a j t : Int) : Int := fmul v t + fmul (fmul a t) t / 2 + fmul (fmul (fmul j t) t) t / 6
def slope (v a j t : Int) : Int := v + fmul a t + fmul (fmul j t) t / 2

/-- One Newton iteration on `travel = d`; where the slope is not positive the cap of R222 stands. -/
def newton (v a j t0 t : Int) : Int :=
  if slope v a j t ≤ 0 then t0 else t - fdiv (travel v a j t - stepD) (slope v a j t)

/-- The step interval (R222): t₀ for the first step, else three Newton iterations from the previous one, capped at t₀. -/
def stepTime (x : Sled) (first : Bool) (j : Int) : Int :=
  let t0 := firstStep x.jj
  if first then t0 else min t0 (newton x.v x.a j t0 (newton x.v x.a j t0 (newton x.v x.a j t0 x.t)))

/-- Speed at which the present acceleration ends, and the way until then (R221). -/
def Sled.vpk (x : Sled) : Int := x.v + fdiv (fmul (max x.a 0) (max x.a 0)) (2 * x.jj)
def Sled.dend (x : Sled) : Int :=
  let ap := max x.a 0
  let te := fdiv ap x.jj
  fmul x.v te + fmul (fmul ap te) te / 2 - fmul (fmul (fmul x.jj te) te) te / 6

/-- The procedure of R221 at a step edge with `rem` still to go, and SLOW of R224: planner state and phase. The acceleration is clamped to ±A
at each edge, but for one that R224 brings down at the rate J. -/
def planStep (x : Sled) (ph : Nat) (rem : Int) (first : Bool) : Sled × Nat :=
  let decel := (ph == phACCEL || ph == phCRUISE || ph == phSLOW) && rem ≤ x.dend + stopDist x.aa x.jj x.vpk + stepD
  let ad := if decel then min x.aa (fsqrt (fmul x.vpk x.jj)) else x.ad
  let ph := if decel then phDECEL else ph
  let j :=
    if ph == phACCEL then (if x.vv ≤ x.vpk || (x.lowered && x.aa < x.a) then -x.jj else if x.a < x.aa then x.jj else 0)
    else if ph == phCRUISE then 0
    else if ph == phSLOW then
      (if x.a ≤ 0 && x.v - x.vv ≤ fdiv (fmul x.a x.a) (2 * x.jj) then x.jj else if -ad < x.a then -x.jj else 0)
    else if x.v ≤ fdiv (fmul ad ad) (2 * x.jj) then x.jj
    else if -ad < x.a then -x.jj
    else 0
  let t := stepTime x first j
  let v := max (slope x.v x.a j t) 0
  let lim := if x.lowered then max x.aa (if x.a < 0 then -x.a else x.a) else x.aa
  let a := max (-lim) (min lim (x.a + fmul j t))
  let a := if x.lowered && ph == phACCEL && x.aa < x.a && x.vpk < x.vv then max x.aa a else a
  let flat := (ph == phACCEL && j < 0 && a ≤ 0) || (ph == phSLOW && 0 < j && 0 ≤ a)
  let a := if flat || (ph != phACCEL && ph != phSLOW && 0 < j && 0 ≤ a) then 0 else a
  let last := rem == stepD
  let ns := (t * 1000000000 * 65536 / one).toNat + x.carry
  ({ x with v := if last then 0 else v, a := if last then 0 else a, ad, t, ns := ns / 65536, carry := ns % 65536 },
    if flat then phCRUISE else ph)

/-- The interval to the next edge is computed and loaded. -/
def loadInterval (h : Nat) (first : Bool) (s : State) : State :=
  let x := s.sl h
  let rem : Int := (x.back.getD (s.getI (SLD_TGT_TGT h)) - s.getI (SLD_POS_P h)).natAbs * stepD
  let r := planStep x (s.get (SLD_STAT_PHASE h)) rem first
  (s.put (SLD_STAT_PHASE h) r.2).setSl h fun _ => r.1

/-- The sled is at rest: no seek runs; the one that ended waits for its capture (R227). -/
def sledAtRest (h : Nat) (s : State) : State :=
  let kind := s.get (SLD_STAT_KIND h)
  (s.puts [(SLD_STAT_MOVING h, 0), (SLD_STAT_PHASE h, phIDLE), (SLD_STAT_KIND h, sdNONE)]).setSl h fun x =>
    { x with v := 0, a := 0, back := none, req := none, late := false, ended := kind }

/-- Planned duration of a seek from rest, in whole µs (SLD_EST). -/
def seekUs (s : State) (h kind : Nat) (target : Int) : Nat :=
  let c := isClassS kind
  (seekTime (seekV s c) (seekA s c) (seekJ s c) ((target - s.getI (SLD_POS_P h)).natAbs * stepD) * 1000000 / one).toNat

/-- Length of a seek interval: the duration at 9,000 rpm in au, rounded up to whole ticks (R223). -/
def seekAu (us : Nat) : Nat := (us * 150 * au24 + (tickAu * 1000000 - 1)) / (tickAu * 1000000) * tickAu
/-- The interval of a jump of `k` tracks (R201). -/
def jumpAu (k : Nat) : Nat := seekAu (60 + 15 * (k - 1))
/-- The interval of a jump of `k` layers: the sweep and a correction, then focus settle, capture and a gap field (R204). -/
def State.layerJumpAu (s : State) (k : Nat) : Nat :=
  seekAu (250 + 120 * k + 225) + s.get SRV_JUMP_FSETN * tickAu + 8388608 + wedgeAu

/-- A seek from rest (R221): phase ACCEL, v and a zero, the first interval loaded; SLD_DIR is set at rest. A target at
the present position ends at once. -/
def seekFromRest (h kind : Nat) (target : Int) (s : State) : State :=
  let p := s.getI (SLD_POS_P h)
  let c := isClassS kind
  let s := ((spoilWindow s).putI (SLD_TGT_TGT h) target).put (SLD_EST_US h) (seekUs s h kind target)
  let s := s.put (SLD_STAT_KIND h) kind
  if target = p then sledAtRest h s
  else
    let s := s.puts [(SLD_STAT_MOVING h, 1), (SLD_STAT_PHASE h, phACCEL), (SLD_STAT_DIR h, if p < target then 1 else 0)]
    loadInterval h true (s.setSl h fun x => { x with
      v := 0, a := 0, ad := 0, vv := seekV s c, aa := seekA s c, jj := seekJ s c, carry := 0
      back := none, req := none, late := false, lowered := false, ended := 0 })

/-- Micro-steps from here to the nearest point at which the sled can come to rest, one step beyond `dend + stop_dist(vpk)`
so that a seek to it goes straight there (R225, Table 9.1). -/
def Sled.restSteps (x : Sled) : Int := (x.dend + stopDist x.aa x.jj x.vpk + stepD - 1) / stepD + 1

def State.sledDir (s : State) (h : Nat) : Int := if s.flag (SLD_STAT_DIR h) then 1 else -1

/-- A seek asked of a moving sled is taken at the next step edge (R225, R226); the later of two wins. -/
def askSeek (h kind : Nat) (target : Int) (s : State) : State :=
  if s.sledMoving h then s.setSl h fun x => { x with req := some (kind, target) }
  else seekFromRest h kind target s

/-- A STOP seek: its target is the nearest point at which the sled can come to rest, fixed when the sled takes it
(Table 9.1). A sled at rest has none. -/
def stopSeek (h : Nat) (s : State) : State :=
  if s.sledMoving h then askSeek h sdSTOP (s.getI (SLD_POS_P h)) s else s

/-- The level of SLD_DIR (R217): high is outward, with DIRINV inward. -/
def State.dirPin (s : State) (h : Nat) : Bool := s.flag (SLD_STAT_DIR h) != s.flag (SLD_CFG_DIRINV h)

/-- The park of one sled (R229). -/
def parkSeek (h : Nat) (s : State) : State :=
  if s.present h then askSeek h sdPARK (s.getI SLD_MISC_PARK) s else s

/-- A class S target is clamped to MIN and MAX while KNOWN is 1 (R219). -/
def clampTarget (h : Nat) (target : Int) (s : State) : Int :=
  if s.flag (SLD_POS_KNOWN h) then max (s.getI SLD_LIM_MIN) (min (s.getI SLD_LIM_MAX) target) else target

/-! ### Spindle -/

def pSTOPPED := 0
def pCATCH := 1
def pSHORTBRAKE := 2
def pALIGN := 3
def pOPENLOOP := 4
def pRUN := 5
def pBRAKING := 6
def pCOAST := 7
def pFAULT := 8
def State.spnPhase (s : State) : Nat := s.get SPN_STAT_PHASE

/-- The spindle coasts: every PWM line is off (R231). Loop 16 is set OFF with SPN. -/
def spindleCoast (s : State) : State :=
  let s := setLoopNext 16 lOFF { s with spn := { s.spn with iq := 0, tries := 0, ocRun := 0, sumRun := 0, obsRun := 0, agree := 0, duty := [0, 0, 0] } }
  if s.spnPhase == pSTOPPED || s.spnPhase == pFAULT then s else s.put SPN_STAT_PHASE pCOAST

/-- S as the rules of R242 give it: the adopted speed, or what FALLBACK names (`none`: no cap). -/
def State.srefS (s : State) : Option Nat :=
  if s.spn.srefFollow then
    match s.get SPN_SREF_FALLBACK with
    | 0 => some (s.spn.srefS.getD 5400)
    | 2 => none
    | _ => some 5400
  else s.spn.srefS

/-- The mode's RPM with the cap of SPEEDREF (R241). -/
def State.cappedRpm (s : State) : Nat :=
  let r := (s.modeCfg s.mode).rpm
  if s.get SPN_SREF_SEL == 0 then r
  else
    match s.srefS with
    | none => r
    | some v => min r (max 5400 v)

/-- The spindle target by state (Table 9.4, R241). -/
def State.spnTarget (s : State) : Nat :=
  if s.life == PRIMED then
    if s.flag SPN_TEST_EN then s.get SPN_TEST_RPM
    else if s.get SPN_SREF_SEL == 2 then
      match s.srefS with
      | some v => if v < 600 then 0 else v
      | none => 0
    else 0
  else if s.life == MOUNTING || s.life == MOUNTED then s.cappedRpm
  else 0

/-- The spindle brakes to 0 (R239). -/
def brake (s : State) : State :=
  let s := s.put SPN_TGT_TARGET 0
  if s.spnPhase == pRUN then
    { setRamp (s.put SPN_STAT_PHASE pBRAKING) with spn := { s.spn with shortBrake := false } }
  else if s.spnPhase == pSTOPPED || s.spnPhase == pBRAKING || s.spnPhase == pFAULT then s
  else setLoopNext 16 lOFF { s.put SPN_STAT_PHASE pBRAKING with spn := { s.spn with shortBrake := true, iq := 0 } }

/-- The target in force follows the state, the mode, SPN_TEST and SPEEDREF (R236, R241); a change between nonzero
targets in RUN is a ramp (R238), a change to 0 brakes. While RAMPWAIT holds a change back, nothing changes (R469). -/
def followTarget (s : State) : State :=
  if s.life == MOUNTED && s.flag SYS_MODE_ST_RAMPWAIT then s
  else
  let t := s.spnTarget
  let capped := (s.life == MOUNTING || s.life == MOUNTED) && t != (s.modeCfg s.mode).rpm
  let s := (s.put SPN_TGT_TARGET t).putB SPN_STAT_CAPPED capped
  if t == 0 then (if [pRUN, pCATCH, pSHORTBRAKE, pALIGN, pOPENLOOP].contains s.spnPhase then brake s else s)
  else if s.spnPhase == pRUN && s.get SPN_TGT_REF != t then setRamp s
  else if s.spnPhase == pBRAKING && !s.spn.shortBrake then setRamp (s.put SPN_STAT_PHASE pRUN)
  else s

/-- The park of R502 and R556: PARK seeks of every present sled, and the brake. -/
def parkAll (s : State) : State := brake (forUpTo 4 parkSeek s)

end Sys2Proof.Machine
end

