-- ==== Sys2Proof/Machine/Stops.lean ====
section
/-! DEFINITION. Lifecycle transitions, triggers and stops, and the faults that take a head out of service: R40 to R45,
R499, R500, R502, R503. -/

namespace Sys2Proof.Machine

open R

/-! ### Lifecycle transitions (R42) and domains (R40) -/

/-- A sequencer starts at its entry address with r1 its number (R437, R440). SEQ_STAT.STATE 1 is RUN. -/
def seqEntry (q : Nat) : Nat := if q == 0 then 0 else if q == 1 then 0x1000 else 0x2000
def startSeq (q : Nat) (s : State) : State :=
  let s := s.puts [(SEQ_STAT_PC q, seqEntry q), (SEQ_STAT_STATE q, 1)]
  { s with seqs := setAt s.seqs q { regs := [0, q] } }

/-- A track sequencer runs while its head's domain has power; it loses its state with it (R440). -/
def syncTrackSeqs (heads : Nat) (s : State) : State :=
  forUpTo 4 (fun h s =>
    if heads.testBit h then s.when (s.get (SEQ_STAT_STATE (2 + h)) == 0) (startSeq (2 + h))
    else { s.puts [(SEQ_STAT_STATE (2 + h), 0), (SEQ_STAT_PC (2 + h), 0)] with seqs := setAt s.seqs (2 + h) {} }) s

/-- The decoders without power hold nothing: what they decode, and what waits for them, is gone (R39, R40). -/
def gateDecoders (s : State) : State :=
  { s.puts [(SYS_DOMAIN_DEC, 0), (CWD_QUEUE_OCC, 0)] with cwd := { s.cwd with
    queue := [], groups := [], expect := [], busy := List.replicate 8 none } }

/-- The domains follow the state (Table 1.7). -/
def setDomains (s : State) : State :=
  let st := s.life
  let heads := maskOf ((List.range 4).filter fun h =>
    s.declared h && (st == PRIMED || st == HALTED || s.present h))
  let ap := st != BARE
  let en := fun p => !ap || (s.queueCfg p).enable
  let s := syncTrackSeqs (if ap then heads else 0) (s.put SYS_DOMAIN_HEAD (if ap then heads else 0))
  let s := s.putB SYS_DOMAIN_MOT ap
  let s := s.putB SYS_DOMAIN_MEM ap
  let s := s.putB SYS_DOMAIN_LRD (!ap || s.lrdPowered)
  let s := if st == MOUNTING || st == MOUNTED || st == PARKING then s.put SYS_DOMAIN_DEC 1 else gateDecoders s
  let s := s.putB SYS_DOMAIN_CORE ap
  let s := s.putB SYS_DOMAIN_HOSTA (en 0)
  s.putB SYS_DOMAIN_HOSTB (en 1)

/-- A transition of Table 1.8: SYS_STATE, the state-change record, the domains; an armed Varnish aborts with STATE. -/
def transition (next cause : Nat) (s : State) : State :=
  let s := s.when s.armed (varnishAbort vSTATE 0)
  let prev := if s.sys.off then 0 else s.life
  let s := ((s.put SYS_STATE_PREV prev).put SYS_STATE_STATE next).put SYS_STATE_CAUSE cause
  let s := eventRec 0x01 (cause * 256 + prev * 16 + next) [] true s
  setDomains (spoilWindow s)

/-! ### Triggers (R45) and stops (R502, R503) -/

/-- A stop trigger that is discarded writes SYS 0x01. -/
def discardStop (cause : Nat) (s : State) : State := logFlt 0 kDISCARD 0x01 cause [s.life] s

/-- A discarded trigger: a stop is logged, a Mount or Unmount completes with DISCARDED. -/
def discardTrigger (t : Trigger) (s : State) : State :=
  match t.kind with
  | .safeStop | .orderlyStop => discardStop t.cause s
  | .unmount | .mount => completeCmd t.port 0 t.cid scDiscarded 0 s

def discardHeld (s : State) : State :=
  let l := s.sys.held
  let s := { s with sys := { s.sys with held := [] } }
  l.foldl (fun s t => discardTrigger t s) s

def hold (t : Trigger) (s : State) : State := { s with sys := { s.sys with held := s.sys.held ++ [t] } }

/-- The safety block trips: LON falls and the spindle's PWM lines turn off (R157, R168, R231). -/
def tripSafety (s : State) : State :=
  let s := syncLonAll { s with sys := { s.sys with tripped := true } }
  spindleCoast s

/-- The actions a safe stop takes in the core cycle of its trigger (R503). -/
def safeStopActions (s : State) : State :=
  let s := tripSafety s
  let s := forUpTo 4 pairsIdle s
  let s := forUpTo 16 loopOff s
  forUpTo 4 stopSeek s

/-- A safe-stop trigger with the entry that raised it (0s for host and signal causes). -/
def safeStop (cause tag code unit : Nat) (s : State) : State :=
  if s.life == BARE then discardStop cause s
  else if s.life == HALTED then discardStop cause (if s.sys.tripped then s else tripSafety s)
  else if s.applied then hold { kind := .safeStop, cause, tag, code, unit } (safeStopActions s)
  else s

/-- An orderly-stop trigger; it acts in MOUNTING and MOUNTED, and in PARKING it is logged and ignored (R45). -/
def orderlyStop (cause tag code unit : Nat) (s : State) : State :=
  if s.life == MOUNTING || s.life == MOUNTED then hold { kind := .orderlyStop, cause, tag, code, unit } s
  else if s.life == PARKING then discardStop cause s
  else s

/-! ### Write inhibit (R208, R209) -/

def icPOS := 0
def icFOC := 1
def icSHOCK := 2
def icLOOP := 3
def icANGLE := 4
def icPICKUP := 5
def icLASER := 6
def icHOST := 7

/-- Causes become active: INH rises with the first, which is counted and logged with INHC, and the pairs of the head go IDLE: the block
being written is abandoned (R209, R211). A cause that is active has to be absent for INHCLR samples from now on (R210); one of the first four
spoils the head's measurement window (R215). -/
def raiseInhibits (h : Nat) (causes : List Nat) (s : State) : State :=
  match causes with
  | [] => s
  | c :: _ =>
    let rose := !s.flag (SRV_HSTAT_INH h)
    let s := (causes.foldl (fun s c => s.setBit (SRV_HSTAT_INHC h) c true) s).put (SRV_HSTAT_INH h) 1
    let s := { s with trk := s.trk.modify h fun t => { t with
      absent := (List.range 8).map fun k => if causes.contains k then 0 else t.absent.getD k 0
      winBad := t.winBad || causes.any fun k => k < 4 } }
    let s := { s with wrs := s.wrs.modify h fun w => { w with opcHurt := true } }
    if rose then pairsIdleFor (c + 1) h (logFlt 4 kINFO 0x07 h [s.get (SRV_HSTAT_INHC h)] (s.inc (SRV_HCNT_INHN h))) else s
def raiseInhibit (h cause : Nat) (s : State) : State := raiseInhibits h [cause] s

/-- A cause clears; INH is the OR of the causes (R208). -/
def clearInhibit (h cause : Nat) (s : State) : State :=
  let s := s.setBit (SRV_HSTAT_INHC h) cause false
  s.putB (SRV_HSTAT_INH h) (s.get (SRV_HSTAT_INHC h) != 0)

/-! ### Covered faults (R498 to R500) -/

/-- A covered fault is detected: KIND BYPASS, or DEGRADE with UNCOV counted when an earlier bypass is still open. Its own
bypass interval opens. -/
def State.coveredKind (s : State) : Nat := if s.flt.bypass.isEmpty then kBYPASS else kDEGRADE
def openBypass (src unit : Nat) (s : State) : State :=
  let s := s.when (!s.flt.bypass.isEmpty) fun s => s.inc FLT_STAT_UNCOV
  { s with flt := { s.flt with bypass := (src, unit) :: s.flt.bypass } }
def closeBypass (src unit : Nat) (s : State) : State :=
  { s with flt := { s.flt with bypass := s.flt.bypass.filter fun p => p != (src, unit) } }

/-! ### Head faults (R499) -/

/-- Lane states (Table 10.1). -/
def laneOFF := 0
def laneOff (l : Nat) (s : State) : State :=
  let s := s.puts [(CHN_LANEMAP_STATE l, laneOFF), (CHN_LSTAT_LOCK l, 0), (CHN_LSTAT_RX l, 0)]
  s.setBit FLT_ACTIVE0_LANES l false
def headLanesOff (h : Nat) (s : State) : State := forUpTo 7 (fun k => laneOff (7 * h + k)) s

/-- The spot of an active lane's bound input (R13, R246). -/
def State.boundSpot (s : State) (l : Nat) : Nat := s.cnv.cfg.bind.getD l 0xFF % 6
/-- Lanes of an effective head power up: the active lanes of its spots carry their bound inputs, the spare is IDLE
(R13, R245, R471). -/
def laneACTIVE := 1
def laneFAILED := 2
def laneTEST := 3
def laneCALIB := 4
def laneIDLE := 5
def laneCOVER := 6
def laneSHADOW := 7
def laneACQUIRING := 8
def headLanesOn (h : Nat) (s : State) : State :=
  forUpTo 7 (fun k s =>
    let l := 7 * h + k
    if s.get (CHN_LANEMAP_STATE l) != laneOFF then s
    else if k == 6 then s.puts [(CHN_LANEMAP_STATE l, laneIDLE), (CHN_LANEMAP_INPUT l, 0x1F), (CHN_LANEMAP_FOR l, 0x1F)]
    else if s.boundSpot l < (s.headCfg h).spots then
      s.puts [(CHN_LANEMAP_STATE l, laneACTIVE), (CHN_LANEMAP_INPUT l, s.cnv.cfg.bind.getD l 0x1F)]
    else s) s

/-- Head phases (Table 8.1). -/
def hpRETRACTED := 0
def hpFOCUSING := 1
def hpFOCUSED := 2
def hpCAPTURING := 3
def hpON_TRACK := 4
def hpTJUMP := 5
def hpLJUMP := 6
def hpSEEK := 7
def hpRECOVERING := 8
def hpOUT := 9
/-- A head leaves its phase: CONF clears whenever it leaves ON_TRACK (R195), and cause LOOP is active outside it
(Table 8.4). -/
def setPhase (h ph : Nat) (s : State) : State :=
  let s := s.put (SRV_HSTAT_PHASE h) ph
  if ph == hpON_TRACK then s
  else raiseInhibit h icLOOP ({ s with trk := s.trk.modify h fun t => { t with winBad := true } }.put (SRV_HSTAT_CONF h) 0)

/-- Abandon the windows and requests of a head (R499). A write window of it has closed, and is settled at its WINDOW_CLOSE. -/
def dropHeadEvents (h : Nat) (s : State) : State :=
  let mine := fun (e : Ev) => e.owner == h && (e.cls == .readWin || e.cls == .writeWin || e.cls == .calWin
    || e.cls == .seek || e.cls == .layerJump)
  { s with
    wins := s.wins.filter fun w => w.head != h || w.cls == .writeWin
    ang := { s.ang with
      pend := s.ang.pend.filter fun e => !mine e
      due := s.ang.due.filter fun e => !mine e
      subm := s.ang.subm.filter fun r => !mine r.ev } }

/-! ### Whose reads (R324, R470, R499) -/

/-- The effective heads of a side. -/
def State.effHeads (s : State) (side : Nat) : List Nat := (sideHeads side).filter s.effective
/-- The head that reads a member: the chunks of a side, by rank, in turn (R324). -/
def State.headFor (s : State) (j : Nat) : Option Nat :=
  let l := s.effHeads (j % 2)
  if l.isEmpty then none else l[j / 2 % l.length]?

def queueRead (h : Nat) (r : RdReq) (s : State) : State :=
  { s with trk := updAt s.trk h fun t => { t with reads := t.reads ++ [r] } }

/-- The stripes under assembly of which a head has a member still to read or under reading. -/
def State.stripesOn (s : State) (h : Nat) : List Nat :=
  let asked := (s.trk.getD h {}).reads.flatMap fun r => r.mems.map Prod.fst
  let under := s.cwd.expect.filterMap fun e => if e.head == h then e.mem.map Prod.fst else none
  ((s.str.asm.map Asm.stripe).filter fun n => asked.contains n || under.contains n).eraseDups

/-- The assembly of these stripes is abandoned, and their reads are planned again on the effective heads; head `h` reads nothing more. Its
spans pass to the effective head of its side. -/
def replanReads (h : Nat) (l : List Nat) (s : State) : State :=
  let act := fun n => (((s.trk.flatMap Trk.reads).find? fun r => r.mems.any fun m => m.1 == n).map RdReq.act).getD
    (((s.cwd.expect.find? fun e => (e.mem.map Prod.fst) == some n).map Expect.act).getD 0)
  let again := (s.str.asm.filter fun a => l.contains a.stripe).flatMap fun a => a.want.map fun p => (a, act a.stripe, p)
  let gone := fun (m : Option (Nat × Nat)) => m.any fun x => l.contains x.1
  let spans := (s.wrs.getD h {}).spans.map fun x => { x with sampled := true }
  let heir := (s.effHeads (sideOf h)).head?
  let s := { s with
    trk := (s.trk.map fun t => { t with
      reads := (t.reads.map fun r => { r with mems := r.mems.filter fun m => !l.contains m.1 }).filter fun r => !r.mems.isEmpty }).modify h
        fun t => { t with reads := [] }
    cwd := { s.cwd with
      expect := s.cwd.expect.filter fun e => e.head != h && !gone e.mem
      out := s.cwd.out.filter fun o => o.act == 7 || !gone o.mem }
    str := { s.str with asm := s.str.asm.map fun a => if l.contains a.stripe then { a with got := [], deadline := none } else a }
    wrs := match heir with
      | some k => (s.wrs.modify h fun w => { w with spans := [] }).modify k fun w => { w with spans := w.spans ++ spans }
      | none => s.wrs }
  again.foldl (fun s x =>
    match s.headFor x.2.2.1 with
    | some k => queueRead k { act := x.2.1, part := !x.1.whole, mems := [(x.1.stripe, x.2.2.1)], cws := x.2.2.2, at' := s.now } s
    | none => s) s

/-- The effective set is formed again (R463): heads that become effective in MOUNTING or MOUNTED power their lanes and
wait for their LASER on; in MOUNTED they join (R471). -/
def reform (s : State) : State :=
  let old := s.get SYS_MODE_ST_EFFH
  let s := formEffective s
  let new := s.get SYS_MODE_ST_EFFH
  if s.life == MOUNTED || (s.life == MOUNTING && 2 ≤ s.get SYS_MNTPROG_STEP) then
    forUpTo 4 (fun h s => s.when (new.testBit h && !old.testBit h) fun s =>
      let s := headLanesOn h s
      { s with sys := { s.sys with stagLeft := s.sys.stagLeft ++ [h] } }) s
  else s

/-! ### Leaving and the end of a mode transition (R468, R470) -/

/-- Step 4 of R470 begins once the head has no open write span and no block of its spans waits for a verify: its work goes back to its
planners, LASER off is sent. -/
def leaveProgress (h : Nat) (s : State) : State :=
  if s.bit SYS_MODE_ST_LEAVE h && !s.writeOpen h && (s.wrs.getD h {}).spans.isEmpty && (s.opuHead h).leaving == 0 then
    let l := s.stripesOn h
    laserOff h 0x3F ((replanReads h l (dropHeadEvents h s)).setOpu h fun o => { o with leaving := 1 })
  else s
/-- Its LASER off has ended: LON falls where LOFF was written (R169), focus retracts, loops and lanes go off, the PARK seek starts. -/
def leaveRest (h : Nat) (s : State) : State :=
  let s := s.when (s.opuHead h).lofLeave fun s =>
    raiseInhibit h icLASER (syncLon h ((s.put (OPU_CTRL_LOFF h) 1).setOpu h fun o => { o with lofLeave := false }))
  parkSeek h (setPhase h hpRETRACTED (headLanesOff h (headLoopsNext h (s.setOpu h fun o => { o with leaving := 2 }))))

/-- TRANS clears once every row of Table 18.4 has taken effect and the spindle has settled (R468). -/
def checkTrans (s : State) : State :=
  if s.get SYS_MODE_ST_JOIN == 0 && s.get SYS_MODE_ST_LEAVE == 0 && !s.flag SYS_MODE_ST_RAMPWAIT
      && !s.flag SYS_MODE_ST_READBACK && !s.flag ANG_LOCK_RAMP then s.put SYS_MODE_ST_TRANS 0
  else s

/-- The calibrations of a head are dropped (Table 14.8); a Calibrate command that waits on them completes. -/
def dropCal (h : Nat) (s : State) : State :=
  let had := s.cal.reqs.any fun r => r.head == h && !r.mount
  let s := { s with cal := { s.cal with
    reqs := s.cal.reqs.filter fun r => r.head != h
    step1 := s.cal.step1.filter fun x => x.1 / 48 != h
    bands := s.cal.bands.filter fun k => k / 1536 != h
    tilts := s.cal.tilts.filter fun k => k / 1536 != h
    rows := s.cal.rows.filter fun k => k / 12288 != h } }
  match s.hst.long with
  | some l => if had && l.kind == 0xC8 && l.arg / 16 % 4 == h then completeCmd l.port 0 l.cid scSuccess (s.get CAL_STAT_LASTERR) s else s
  | none => s

/-- A head leaves service without a fault entry (R508), or as part of one (R499): its loops, lanes and pairs go off, its
sled makes a STOP seek, PHASE is OUT and the effective set is formed again. -/
def headOut (h : Nat) (s : State) : State :=
  let s := syncLon h (s.put (OPU_HSTAT_INSVC h) 0)
  let s := stopSeek h (pairsIdle h (headLanesOff h (headLoopsOff h s)))
  let l := s.stripesOn h
  replanReads h l (reform (dropHeadEvents h (setPhase h hpOUT (dropCal h s))))

/-- A side holds a present head in service. -/
def State.sideHasHead (s : State) (d : Nat) : Bool := (sideHeads d).any fun h => s.present h && s.inSvc h

/-- A spindle fault (R235): every PWM line off, FAULT and FCAUSE, its entry, a safe stop with cause 0x34. -/
def spindleFault (cause : Nat) (s : State) : State :=
  let s := (spindleCoast s).puts [(SPN_STAT_PHASE, pFAULT), (SPN_STAT_FAULT, 1), (SPN_STAT_FCAUSE, cause)]
  safeStop 0x34 (0x40 + 7) 0x01 cause (logFlt 7 kSTOP 0x01 cause [s.get SPN_MEAS_RPM] (s.inc FLT_STAT_UNCOV))

/-- A head is taken out of service as a head fault (R499); `tag` and `code` name the cause entry, `more` follows them in
the entry FLT 0x01. -/
def headFaultWith (h tag code : Nat) (more : List Nat) (s : State) : State :=
  let s := headOut h (s.setBit FLT_ACTIVE1_HEADS h true)
  if s.sideHasHead (sideOf h) then
    let kind := s.coveredKind
    let s := logFlt 24 kind 0x01 h ((tag * 256 + code) :: more) s
    if kind == kBYPASS then s else s.inc FLT_STAT_UNCOV
  else
    let s := (logFlt 24 kSTOP 0x01 h ((tag * 256 + code) :: more) s).inc FLT_STAT_UNCOV
    safeStop 0x34 (0x40 + 24) 0x01 h (s.put FLT_ACTIVE2_NOSIDE 1)
def headFault (h tag code : Nat) (s : State) : State := headFaultWith h tag code [] s

end Sys2Proof.Machine
end

