-- ==== Sys2Proof/Machine/Access.lean ====
section
/-! DEFINITION. Custody of the vendor window (R24, R94, R95, R400, R402) and the path every write of a register takes. -/

namespace Sys2Proof.Machine

open R

/-- A write from the port without management custody (R402). -/
def custodyDiscard (p off : Nat) (s : State) : State :=
  ((s.inc HST_CUST_DISCARDS).put HST_DISCADDR_PORT p).put HST_DISCADDR_OFFSET off

/-- A write of a vendor register (R24, R94, R375): no effect in OFF, FROZEN and the hold of a reset, or from a port that
QUEUES disables; a custody discard from the other port; a stray in BARE where the register is not live; else `k`. -/
def vendorWrite (p : Nat) (off : Nat) (bareLive : Bool) (k : State → State) (s : State) : Res :=
  .next <|
    if !s.on || (s.life != BARE && !(s.queueCfg p).enable) then s
    else if s.mgmt != some p then custodyDiscard p off s
    else if s.life == BARE && !bareLive then s.put CNV_STATUS_STRAY 1
    else k s

/-- Report an asynchronous event to a controller (R384): the oldest outstanding request completes with it, or it waits. -/
def asyncEvent (p ty info page : Nat) (s : State) : State :=
  match s.hst.aer.find? fun r => r.1 == p with
  | some (_, cid) =>
    let s := { s with hst := { s.hst with aer := s.hst.aer.filter fun r => !(r.1 == p && r.2 == cid) } }
    completeCmd p 0 cid scSuccess (ty + 256 * info + 65536 * page) s
  | none =>
    if s.hst.rdy.getD p false then
      { s with hst := { s.hst with aen := s.hst.aen ++ [(p, ty + 256 * info + 65536 * page)] } }
    else s

/-- Management custody moves (R95, R400): an armed Varnish aborts with CUSTODY, a staged Sketch is discarded, the Cellar
locks (R516), and both controllers report the swap (R403). `who` is 1 for A, 2 for B, 0 for none. -/
def moveMgmt (who : Nat) (s : State) : State :=
  let s := if s.armed then varnishAbort vCUSTODY 0 s else clearSketch s
  let s := (s.put HST_CUST_MGMT who).put CEL_STATUS_UNLOCKED 0
  forUpTo 2 (fun p => asyncEvent p 7 1 0xC3) s

/-- R95: while no port holds custody it passes to the first port in L0 and, outside BARE, with CC.EN 1; A before B. -/
def passCustody (s : State) : State :=
  if s.on && s.get HST_CUST_MGMT == 0 then
    match [0, 1].find? fun p => s.flag (HST_PORT_UP p) && (s.life == BARE || s.hst.en.getD p false) with
    | some p => moveMgmt (p + 1) s
    | none => s
  else s

/-! ### The decision on a Mount (R80, R405, R548) -/

/-- The enumeration of some head is in progress. -/
def State.enumRunning (s : State) : Bool := s.opu.any fun o => o.enumStep != 0

/-- A declared head without ABSENT_OK is not present (R80). -/
def State.headMissing (s : State) : Bool :=
  (List.range 4).any fun h => s.declared h && !s.present h && !(s.headCfg h).absentOk

/-- A Mount is accepted, and held for the tick that ends its sample (R45), or refused; while an enumeration runs it
waits (R548). -/
def decideMount (p cid mode : Nat) (s : State) : State :=
  if s.life != PRIMED then completeCmd p 0 cid scState (s.get SYS_STATE_CAUSE) s
  else if s.enumRunning then
    { s with hst := { s.hst with mountWait := true, mountPort := p, mountCid := cid, mountMode := mode } }
  else
    let s := { s with hst := { s.hst with mountWait := false } }
    if !s.sys.cartSeated then completeCmd p 0 cid scNoCartridge (s.get SYS_STATE_CAUSE) s
    else if s.headMissing then completeCmd p 0 cid scHeadMissing (s.get SYS_STATE_CAUSE) s
    else hold { kind := .mount, cause := 0x10, port := p, cid, arg := mode } s

end Sys2Proof.Machine
end

