-- ==== Sys2Proof/Machine/AngBase.lean ====
section
/-! DEFINITION. The angle clock and scheduler as other blocks use them: steps, falls of the source, what a source permits,
what happens to a passed target (R54 to R70). -/

namespace Sys2Proof.Machine

open R

def srcFREE := 0
def srcCOARSE := 1
def srcMARK := 2
def srcWOBBLE := 3
def State.src (s : State) : Nat := s.get ANG_LOCK_SRC

def State.tr (s : State) (h : Nat) : Trk := s.trk.getD h {}
def State.setTr (s : State) (h : Nat) (k : Trk → Trk) : State := { s with trk := updAt s.trk h k }
def State.wh (s : State) (h : Nat) : WrsHead := s.wrs.getD h {}
def State.setWh (s : State) (h : Nat) (k : WrsHead → WrsHead) : State := { s with wrs := updAt s.wrs h k }

/-- A head is in focus: its focus loop runs in a phase from FOCUSED on (Table 8.1). -/
def State.inFocus (s : State) (h : Nat) : Bool :=
  s.present h && s.inSvc h && s.loopState (4 * h) == lRUN

/-- R56, but for the wobble amplitude: present, on track and not in fallback, not within a seek or layer jump. -/
def State.candOk (s : State) (h : Nat) : Bool :=
  s.present h && s.get (SRV_HSTAT_PHASE h) == hpON_TRACK && s.loopState (4 * h) == lRUN && s.loopState (4 * h + 1) == lRUN

/-- The wedge a head is in at an angle word, by its offset (R54). -/
def State.wedgeAt (s : State) (h word : Nat) : Nat :=
  (word + au24 - s.get (ANG_HOFF_OFFSET h)) % au24 / wedgeAu

/-- The tick of a head's gap field: the tick at the start of the wedge at its offset. -/
def State.gapTick (s : State) (h : Nat) : Bool :=
  (s.get ANG_NOW_LO_ANGLE + au24 - s.get (ANG_HOFF_OFFSET h)) % wedgeAu < tickAu

/-- A die sensor that is not suspect reads at or above THM_SOFT (R8). -/
def State.dieHot (s : State) : Bool :=
  (List.range 16).any fun k => !s.bit THM_SUSPECT_MASK k && s.getI THM_SOFT_SOFT ≤ s.getI (THM_DIE_TEMP k)

/-- The wedge ANG expects of a mark whose leading edge a head saw at an angle word. -/
def State.expectedWedge (s : State) (h word : Nat) : Nat := s.wedgeAt h (word + wedgeAu / 2)

/-- At MARK, a wedge index that a head reads is not the one it expects there (R59). -/
def State.misread (s : State) (h word wedge : Nat) : Bool :=
  s.src == 2 && s.flag ANG_LOCK_INDEXED && s.flag (ANG_HOFF_VALID h) && s.expectedWedge h word != wedge

/-- A mark whose index is not the expected one counts, once for its gap field (R59). -/
def countMisread (h : Nat) (s : State) : State :=
  if (s.tr h).gapMis then s
  else (s.inc ANG_LOCK_LOSSCNT).setTr h fun t => { t with gapMis := true, mismatched := t.mismatched + 1 }

/-! ### The host alarm (R70) -/

/-- The alarm fires; `late` sets LATE. -/
def fireAlarm (late : Bool) (s : State) : State :=
  let s := withdraw .alarm (s.puts [(ANG_ALARM_ST_ARMED, 0), (ANG_ALARM_ST_FIRED, 1)])
  let s := s.when late fun s => s.put ANG_ALARM_ST_LATE 1
  eventRec 0x04 late.toNat [] true s

def State.alarmTarget (s : State) : Option Nat :=
  (s.ang.pend.find? fun e => e.cls == .alarm).map Ev.target

/-- ANG_NOW starts (R52): an alarm armed in BARE whose target had passed fires late. -/
def startAngle (s : State) : State :=
  let s := { s.put ANG_SPEED_RATE (s.get ANG_FREE_RATE) with ang := { s.ang with running := true } }
  match s.alarmTarget with
  | some t => if passed 0 t then fireAlarm true s else s
  | none => s

/-- An arm of the alarm (R70): it withdraws an earlier one, is refused by a full store, and fires at once when its target
has passed. -/
def armAlarm (s : State) : State :=
  let t := s.get ANG_ALARM_HI_TGT * au24 + s.get ANG_ALARM_LO_TGT
  let s := withdraw .alarm (s.put ANG_ALARM_ST_ARMED 0)
  match storeEv { cls := .alarm, owner := 0, target := t, len := 0 } s with
  | none => s.put ANG_ALARM_ST_REFUSED 1
  | some s =>
    let s := s.put ANG_ALARM_ST_ARMED 1
    if s.ang.running && passed s.now t then fireAlarm true s else s

/-! ### What a source permits (R61, Table 2.2) -/

def State.readsOk (s : State) : Bool :=
  !s.flag ANG_LOCK_SLEW && (s.src == srcWOBBLE || (s.src == srcMARK && s.flag ANG_LOCK_INDEXED))
def State.writesOk (s : State) : Bool := s.src == srcWOBBLE && !s.flag ANG_LOCK_SLEW && !s.flag ANG_LOCK_RAMP

def isWindow (c : EvClass) : Bool := c == .readWin || c == .writeWin || c == .calWin
def isMove (c : EvClass) : Bool := c == .seek || c == .layerJump

def State.srcPermits (s : State) (c : EvClass) : Bool :=
  match c with
  | .readWin | .patrol => s.readsOk
  | .writeWin | .calWin => s.writesOk
  | .seek | .layerJump => s.src != srcFREE
  | _ => true

/-- The head is free: no window of it is open and it neither seeks nor jumps. -/
def State.headFree (s : State) (h : Nat) : Bool :=
  !(s.wins.any fun w => w.head == h) && !s.sledMoving h
    && !([hpTJUMP, hpLJUMP, hpSEEK].contains (s.get (SRV_HSTAT_PHASE h)))

/-- What an event needs beyond the source: the head's phase, CONF and INH for a write window (R195), no mode change that
waits for writes (R469), supply above the hold-up level (R480), a wobble candidate left for open writes (R62); in the drain of an orderly
stop only the verify reads of written spans (R502; DEDUCED, log entry 219). -/
def State.permits (s : State) (e : Ev) : Bool :=
  s.srcPermits e.cls && (s.sys.drainUntil.isNone || e.exempt || !(isWindow e.cls || e.cls == .patrol)) &&
  match e.cls with
  | .readWin | .patrol => s.headFree e.owner && s.get (SRV_HSTAT_PHASE e.owner) == hpON_TRACK
  | .writeWin => s.headFree e.owner && s.get (SRV_HSTAT_PHASE e.owner) == hpON_TRACK && s.flag (SRV_HSTAT_CONF e.owner)
      && !s.flag (SRV_HSTAT_INH e.owner) && !s.flag SYS_MODE_ST_RAMPWAIT && !s.sys.holdUp
      && !(s.opuHead e.owner).overtemp && s.flag (OPU_TEMP_VALID e.owner)
  | .calWin => e.lane.isSome || s.headFree e.owner
  | .seek | .layerJump => s.headFree e.owner
      && !(s.writing && s.get ANG_LOCK_CAND - (s.get ANG_LOCK_CAND &&& 2 ^ e.owner) == 0)
  | _ => true

/-! ### Passed targets (Table 2.3) -/

/-- Move a target by whole revolutions to the first that has not passed. -/
def nextRev (now t : Nat) : Nat :=
  let d := (now + au48 - t % au48) % au48
  (t + (d / au24 + 1) * au24) % au48

/-! ### Free intervals (R33) -/

/-- The classes of events that occupy a head. -/
def ofHead (c : EvClass) : Bool := isWindow c || isMove c || c == .patrol

/-- Two events share an angle-scheduled resource: the scrub slot; or a head, of which a calibration window of one lane takes that lane
only. Temperature demands, Varnish commits and alarms take nothing that another event uses. -/
def Ev.clash (a b : Ev) : Bool :=
  (a.cls == .scrub && b.cls == .scrub) || (ofHead a.cls && ofHead b.cls && a.owner == b.owner &&
    match a.lane, b.lane with
    | none, none => true
    | some x, some y => x == y
    | some _, none => b.cls == .calWin
    | none, some _ => a.cls == .calWin)

/-- An open window as the event that it was. -/
def Win.ev (w : Win) : Ev := { cls := w.cls, owner := w.head, target := w.start, len := (w.stop + au48 - w.start) % au48, lane := w.lane }

/-- The intervals already granted that an event would share a resource with: pending and due events, and open windows. -/
def State.taken (s : State) (e : Ev) : List (Nat × Nat) :=
  ((s.ang.pend ++ s.ang.due ++ s.wins.map Win.ev).filter e.clash).map fun x => (x.target, x.len)

/-- How far a stamp lies ahead of another; one that has passed lies at none. -/
def ahead (now t : Nat) : Nat := if passed now t then 0 else (t + au48 - now) % au48

/-- Two intervals, each a stamp and a length, share an angle; one of no length occupies its target. -/
def overlaps (now : Nat) (a b : Nat × Nat) : Bool :=
  let x := ahead now a.1
  let y := ahead now b.1
  x < y + max b.2 1 && y < x + max a.2 1

/-- Revolution `n` carries data at lane duty `d` (R488). -/
def dataRev (d n : Nat) : Bool := n * d / 256 < (n + 1) * d / 256

def isRw (c : EvClass) : Bool := c == .readWin || c == .writeWin

/-- A place at this stamp is free, and a read or write window lies in a data revolution unless it is exempt. -/
def State.slotFree (s : State) (e : Ev) (t : Nat) : Bool :=
  ((s.taken e).all fun b => !overlaps s.now (t, e.len) b)
    && (!isRw e.cls || e.exempt || dataRev s.thm.duty (t / au24))

/-- A seek or layer jump that would leave no wobble candidate while a head holds a write window waits for the last of them to end
(R62). -/
def State.afterWrites (s : State) (e : Ev) (t : Nat) : Nat :=
  if isMove e.cls && s.writing && s.get ANG_LOCK_CAND - (s.get ANG_LOCK_CAND &&& 2 ^ e.owner) == 0 then
    let ends := (s.wins.filter fun w => w.cls == .writeWin && !w.dead).map fun w => ahead s.now w.stop
    let d := ends.foldl max 0
    if ahead s.now t < d then tickAt ((s.now + d) % au48) else t
  else t

/-- The stamps at which an event may be placed from `t` on: a read or write window by whole revolutions, any other at `t` or where a
granted interval ends. -/
def State.places (s : State) (e : Ev) (t : Nat) : List Nat :=
  if isRw e.cls then (List.range (256 * ((s.taken e).length + 1))).map fun k => (t + k * au24) % au48
  else
    let ends := (s.taken e).map fun b => tickAt ((b.1 + b.2) % au48)
    t :: sortBy (fun a b => ahead s.now a ≤ ahead s.now b) (ends.filter fun x => ahead s.now t ≤ ahead s.now x)

/-- The first tick of a gap field of the head, at or after a stamp. -/
def State.gapFrom (s : State) (h t : Nat) : Nat :=
  let d := (t + au48 - s.get (ANG_HOFF_OFFSET h)) % wedgeAu
  if d < tickAu && t % tickAu == 0 then t else tickAt ((t + wedgeAu - d) % au48)
/-- A read window opens at the start of a gap field (R260); a patrol slot is one. -/
def State.align (s : State) (e : Ev) (t : Nat) : Nat := if e.cls == .readWin || e.cls == .patrol then s.gapFrom e.owner t else t

/-- The first free interval of an event's length from its target on; from `base` on where that has passed, a read or write window in a
later revolution (R33, R65). -/
def State.slotFor (s : State) (base : Nat) (e : Ev) : Option Nat :=
  let t := if !passed s.now e.target then e.target else if isRw e.cls then nextRev s.now e.target else base
  ((s.places e (s.afterWrites e t)).map (s.align e)).find? (s.slotFree e)

/-- While SRC is FREE these go back to their owner (R67). -/
def State.givesBack (s : State) (c : EvClass) : Bool := s.src == srcFREE && (isRw c || isMove c)

/-- An event whose target has passed, was skipped, or was not permitted or free at its tick is moved by its class rule, from `base` on,
or goes back to its owner (R65, Table 2.3). -/
def moveEv (base : Nat) (e : Ev) (s : State) : State :=
  match if s.givesBack e.cls then none else s.slotFor base e with
  | none => { s with ang := { s.ang with returned := s.ang.returned ++ [e] } }
  | some t => { s with ang := { s.ang with pend := s.ang.pend ++ [{ e with target := t }] } }

/-- A temperature demand runs at the next tick and counts in LATE, a Varnish aborts, and any other event moves (Table 2.3). -/
def missEv (base : Nat) (e : Ev) (s : State) : State :=
  if e.cls == .varnish then varnishAbort vLATE 0 s
  else if e.cls == .alarm then fireAlarm true s
  else if e.cls == .tempDemand then { s.inc ANG_EVT_LATE with ang := { (s.inc ANG_EVT_LATE).ang with due := s.ang.due ++ [e] } }
  else moveEv base e s

/-- A step of ANG_NOW by `d` au (R58, R59): the pending events in the skipped interval are handled by their class rule at the step
tick, and one servo sample runs there. -/
def stepForward (d : Nat) (s : State) : State :=
  let old := s.now
  let new := (old + d) % au48
  let inside := fun (e : Ev) => !passed old e.target && passed new e.target
  let skipped := s.ang.pend.filter inside
  let s := s.setNow new
  let s := { s with ang := { s.ang with pend := s.ang.pend.filter fun e => !inside e, sampleDue := true } }
  skipped.foldl (fun s e => missEv new e s) s

/-- The rank of an event at its tick (R66): a Varnish commit, the servo sample, window closings, window openings, temperature demands,
slots. -/
def dueRank (c : EvClass) : Nat :=
  match c with
  | .varnish => 0
  | .readWin | .writeWin | .calWin | .seek | .layerJump => 3
  | .tempDemand => 4
  | _ => 5
def rkSAMPLE := 1
def rkCLOSE := 2

/-- The turn of rank `r` in the present tick has come: what ranks before it has fired (R66). -/
def State.turn (s : State) (r : Nat) : Bool :=
  s.ang.due.all (fun e => r ≤ dueRank e.cls) && (r ≤ rkSAMPLE || !s.ang.sampleDue)
    && (r ≤ rkCLOSE || s.wins.all fun w => !passed s.now w.stop)

/-- At a tick, the pending events whose target has come: those permitted fall due, the others move or go back (R65). What the tick before
left undone is handled by its class rule. -/
def fireTick (s : State) : State :=
  let left := s.ang.due
  let come := s.ang.pend.filter fun e => e.cls != .alarm && passed s.now e.target
  let go := come.filter s.permits
  let no := come.filter fun e => !s.permits e
  let s := { s with ang := { s.ang with
    pend := s.ang.pend.filter fun e => e.cls == .alarm || !passed s.now e.target
    due := go, sampleDue := true } }
  (left ++ no).foldl (fun s e => missEv (tickAfter s.now) e s) s

/-- A due event of a class and owner is taken, when its turn has come. -/
def takeDue (c : EvClass) (owner : Nat) (s : State) : Option (Ev × State) :=
  if s.turn (dueRank c) then
    (s.ang.due.find? fun e => e.cls == c && e.owner == owner).map fun e =>
      (e, { s with ang := { s.ang with due := s.ang.due.erase e } })
  else none
def State.isDue (s : State) (c : EvClass) (owner : Nat) : Bool := s.ang.due.any fun e => e.cls == c && e.owner == owner

/-! ### Falls (R67) and the source's rate (R63) -/

/-- The increment with a correction toward an earlier angle in progress is 7/8 of the measured rate (R59). -/
def setRate (rate : Nat) (s : State) : State :=
  s.put ANG_SPEED_RATE (if s.flag ANG_LOCK_SLEW then rate * 7 / 8 else rate)

/-- In MARK and WOBBLE the increment is clamped to 7/8 to 9/8 of the rate over the last revolution (R63). -/
def clampRate (rate rev : Nat) : Nat := max (rev * 7 / 8) (min rate (rev * 9 / 8))

/-- The increment that a source gives, as last measured (R63). -/
def State.srcRate (s : State) (src : Nat) : Nat :=
  match src with
  | 0 => s.get ANG_FREE_RATE
  | 1 => s.ang.obsRate
  | 2 => clampRate s.ang.markRate s.ang.revRate
  | _ => clampRate s.ang.wobRate s.ang.revRate
/-- The increment follows its source (R63). -/
def syncRate (s : State) : State := setRate (s.srcRate s.src) s

/-- SRC falls to `new` (R67, R53, R59, R208): what the new source does not permit ends. -/
def srcFall (new : Nat) (s : State) : State :=
  let old := s.src
  let s := (logFlt 1 kDEGRADE 0x03 new [old] (s.inc ANG_LOCK_LOSSCNT)).put ANG_LOCK_SRC new
  let s := spoilWindow s
  let s := s.when (new < srcMARK) fun s => { s.put ANG_LOCK_SLEW 0 with ang := { s.ang with err := 0 } }
  let s := setRate (s.srcRate new) (s.when (new == srcFREE) fun s => s.put ANG_LOCK_INDEXED 0)
  let s := cutWrites (fun _ => true) s
  let s := { s with wins := s.wins.map fun (w : Win) => if w.cls == EvClass.calWin then w.cutAt s.now else w }
  let s := s.when (!s.readsOk) (cutReads fun _ => true)
  let s := forUpTo 4 (fun h s => s.when (s.present h && s.inSvc h) (raiseInhibit h icANGLE)) s
  if new == srcFREE then
    let back := fun (e : Ev) => isWindow e.cls || isMove e.cls
    { s with ang := { s.ang with
      pend := s.ang.pend.filter fun e => !back e
      due := s.ang.due.filter fun e => !back e
      returned := s.ang.returned ++ s.ang.pend.filter back ++ s.ang.due.filter back } }
  else s

/-- A head's offset is measured: its pending windows follow it (R54). -/
def setOffset (h off : Nat) (s : State) : State :=
  let d := (off + au24 - s.get (ANG_HOFF_OFFSET h)) % au24
  let d := if !s.flag (ANG_HOFF_VALID h) then 0 else if 2 ^ 23 ≤ d then d + au48 - au24 else d
  let s := s.puts [(ANG_HOFF_OFFSET h, off), (ANG_HOFF_VALID h, 1)]
  let move := fun (e : Ev) => if isWindow e.cls && e.owner == h then { e with target := (e.target + d) % au48 } else e
  { s with ang := { s.ang with pend := s.ang.pend.map move } }

/-- The lowest-numbered wobble candidate but `h`. -/
def State.lowestCand (s : State) (h : Nat) : Option Nat :=
  (List.range 4).find? fun k => k != h && s.bit ANG_LOCK_CAND k

/-- The reference stops being usable (R60): a switch to the lowest remaining candidate, or a fall to MARK. -/
def loseReference (s : State) : State :=
  let r := s.get ANG_LOCK_REF
  match s.lowestCand r with
  | some k =>
    let kind := s.coveredKind
    let s := openBypass 1 r s
    closeBypass 1 r (logFlt 1 kind 0x02 k [r] (spoilWindow (s.put ANG_LOCK_REF k)))
  | none => srcFall srcMARK s

end Sys2Proof.Machine
end

