-- ==== Sys2Proof/Machine/RegIndex.lean ====
section
/-! DEFINITION. The register index (Tables 24.4 to 24.32): every vendor register with its base offset, its number of
instances and their stride, a second count and stride, and its assigned fields. -/

namespace Sys2Proof.Machine

open R

def regRows01 : List Grp := [
  ⟨0x100000, 1, 0x4, 1, 0x4, [SYS_ID_PART, SYS_ID_STEP, SYS_ID_GRADE]⟩,
  ⟨0x100004, 1, 0x4, 1, 0x4, [SYS_STATE_RSMREJ, SYS_STATE_CAUSE, SYS_STATE_PREV, SYS_STATE_STATE]⟩,
  ⟨0x100008, 1, 0x4, 1, 0x4, [SYS_CTRL_SAFESTOP, SYS_CTRL_RESUME]⟩,
  ⟨0x10000c, 1, 0x4, 1, 0x4, [SYS_DOMAIN_HEAD, SYS_DOMAIN_MOT, SYS_DOMAIN_MEM, SYS_DOMAIN_LRD, SYS_DOMAIN_DEC, SYS_DOMAIN_CORE, SYS_DOMAIN_HOSTB, SYS_DOMAIN_HOSTA]⟩,
  ⟨0x100100, 1, 0x4, 1, 0x4, [SYS_MEDIUM_ATTOK, SYS_MEDIUM_ATTSTALE, SYS_MEDIUM_FMT, SYS_MEDIUM_FORMATTED, SYS_MEDIUM_MINFO_OK, SYS_MEDIUM_FOLEO, SYS_MEDIUM_VALID]⟩,
  ⟨0x100200, 64, 0x4, 1, 0x4, [SYS_MINFO_WORD 0]⟩,
  ⟨0x100010, 1, 0x4, 1, 0x4, [SYS_MODE_CUR_MODE]⟩,
  ⟨0x100014, 1, 0x4, 1, 0x4, [SYS_MODE_REQ_MODE]⟩,
  ⟨0x100018, 1, 0x4, 1, 0x4, [SYS_MODE_ST_CHANGES, SYS_MODE_ST_EFFH, SYS_MODE_ST_JOIN, SYS_MODE_ST_LEAVE, SYS_MODE_ST_SUBST, SYS_MODE_ST_READBACK, SYS_MODE_ST_RAMPWAIT, SYS_MODE_ST_TRANS]⟩,
  ⟨0x10001c, 1, 0x4, 1, 0x4, [SYS_RESET_KEY, SYS_RESET_FULL]⟩,
  ⟨0x100020, 1, 0x4, 1, 0x4, [SYS_RSTINFO_BADKEY, SYS_RSTINFO_FULLS, SYS_RSTINFO_LAST]⟩,
  ⟨0x100024, 1, 0x4, 1, 0x4, [SYS_MNTPROG_ATTPEND, SYS_MNTPROG_STEP]⟩]

def regRows02 : List Grp := [
  ⟨0x200000, 1, 0x4, 1, 0x4, [ANG_NOW_LO_ANGLE]⟩,
  ⟨0x200004, 1, 0x4, 1, 0x4, [ANG_NOW_HI_REV]⟩,
  ⟨0x200008, 1, 0x4, 1, 0x4, [ANG_SPEED_RATE]⟩,
  ⟨0x20000c, 1, 0x4, 1, 0x4, [ANG_LOCK_LOSSCNT, ANG_LOCK_MARKH, ANG_LOCK_CAND, ANG_LOCK_REF, ANG_LOCK_RAMP, ANG_LOCK_SLEW, ANG_LOCK_INDEXED, ANG_LOCK_SRC]⟩,
  ⟨0x200010, 1, 0x4, 1, 0x4, [ANG_FREE_RATE]⟩,
  ⟨0x200014, 1, 0x4, 1, 0x4, [ANG_PLL_AMPMIN, ANG_PLL_LOSSN, ANG_PLL_LOCKN, ANG_PLL_BW]⟩,
  ⟨0x200020, 4, 0x4, 1, 0x4, [ANG_HOFF_VALID 0, ANG_HOFF_OFFSET 0]⟩,
  ⟨0x200030, 1, 0x4, 1, 0x4, [ANG_ALARM_LO_TGT]⟩,
  ⟨0x200034, 1, 0x4, 1, 0x4, [ANG_ALARM_HI_TGT]⟩,
  ⟨0x200038, 1, 0x4, 1, 0x4, [ANG_ALARM_ST_REFUSED, ANG_ALARM_ST_LATE, ANG_ALARM_ST_FIRED, ANG_ALARM_ST_ARMED]⟩,
  ⟨0x20003c, 1, 0x4, 1, 0x4, [ANG_EVT_LATE, ANG_EVT_PEND]⟩,
  ⟨0x200040, 1, 0x4, 1, 0x4, [ANG_JIT_JIT]⟩,
  ⟨0x200044, 1, 0x4, 1, 0x4, [ANG_CRB_CRB]⟩,
  ⟨0x200048, 1, 0x4, 1, 0x4, [ANG_WSNR_SNR]⟩,
  ⟨0x20004c, 1, 0x4, 1, 0x4, [ANG_QWIN_DISCARD, ANG_QWIN_ACCEPT]⟩]

def regRows03 : List Grp := [
  ⟨0x300000, 1, 0x4, 1, 0x4, [CNV_CTRL_ABORT, CNV_CTRL_APPLY, CNV_CTRL_LOAD]⟩,
  ⟨0x300004, 1, 0x4, 1, 0x4, [CNV_STATUS_STRAY, CNV_STATUS_ERR, CNV_STATUS_PHASE]⟩,
  ⟨0x300008, 1, 0x4, 1, 0x4, [CNV_SRC_LO_ADDR]⟩,
  ⟨0x30000c, 1, 0x4, 1, 0x4, [CNV_SRC_HI_ADDR]⟩,
  ⟨0x300010, 1, 0x4, 1, 0x4, [CNV_LEN_LEN]⟩,
  ⟨0x300014, 1, 0x4, 1, 0x4, [CNV_ERRREC_REC]⟩,
  ⟨0x300018, 1, 0x4, 1, 0x4, [CNV_ERROFF_OFF]⟩,
  ⟨0x30001c, 1, 0x4, 1, 0x4, [CNV_ID_ID]⟩,
  ⟨0x300020, 1, 0x4, 1, 0x4, [CNV_IMGCRC_CRC]⟩,
  ⟨0x300024, 1, 0x4, 1, 0x4, [CNV_EDITS_COUNT]⟩,
  ⟨0x300028, 1, 0x4, 1, 0x4, [CNV_TIME_US]⟩]

def regRows04 : List Grp := [
  ⟨0x400000, 1, 0x4, 1, 0x4, [SKT_CTRL_AUTOINC, SKT_CTRL_CANCEL, SKT_CTRL_CLEAR]⟩,
  ⟨0x400004, 1, 0x4, 1, 0x4, [SKT_STAGE_ADDR_OFFSET]⟩,
  ⟨0x400008, 1, 0x4, 1, 0x4, [SKT_STAGE_MASK_MASK]⟩,
  ⟨0x40000c, 1, 0x4, 1, 0x4, [SKT_STAGE_VALUE]⟩,
  ⟨0x400010, 1, 0x4, 1, 0x4, [SKT_STATUS_STGERR, SKT_STATUS_COUNT, SKT_STATUS_PHASE]⟩,
  ⟨0x400014, 1, 0x4, 1, 0x4, [SKT_VARNISH_LO_TGT]⟩,
  ⟨0x400018, 1, 0x4, 1, 0x4, [SKT_VARNISH_HI_ASAP, SKT_VARNISH_HI_TGT]⟩,
  ⟨0x40001c, 1, 0x4, 1, 0x4, [SKT_RESULT_OVR, SKT_RESULT_ENTRY, SKT_RESULT_CODE, SKT_RESULT_DONE]⟩,
  ⟨0x400020, 1, 0x4, 1, 0x4, [SKT_COMMIT_LO_ANGLE]⟩,
  ⟨0x400024, 1, 0x4, 1, 0x4, [SKT_COMMIT_HI_REV]⟩,
  ⟨0x400028, 1, 0x4, 1, 0x4, [SKT_CNT_ABORTS, SKT_CNT_COMMITS]⟩]

def regRows05 : List Grp := [
  ⟨0x500000, 1, 0x4, 1, 0x4, [SRV_UNIT_REFUSED, SRV_UNIT_BISTFAIL, SRV_UNIT_SPAREOK, SRV_UNIT_OFFLINE, SRV_UNIT_FAULT, SRV_UNIT_INSVC]⟩,
  ⟨0x500004, 1, 0x4, 1, 0x4, [SRV_UNITCTL_RESTORE, SRV_UNITCTL_OFFLINE, SRV_UNITCTL_UNIT]⟩,
  ⟨0x500010, 4, 0x4, 1, 0x4, [SRV_LOAD_NOW 0, SRV_LOAD_HOME 0]⟩,
  ⟨0x500020, 1, 0x4, 1, 0x4, [SRV_SPB_BAND]⟩,
  ⟨0x500100, 17, 0x40, 1, 0x4, [SRV_LSTAT_HOLDS 0, SRV_LSTAT_OOB 0, SRV_LSTAT_UNIT 0, SRV_LSTAT_LOST 0, SRV_LSTAT_SAT 0, SRV_LSTAT_CLIP 0, SRV_LSTAT_STATE 0]⟩,
  ⟨0x500104, 17, 0x40, 1, 0x4, [SRV_ACT_SLOT2 0, SRV_ACT_SLOT1 0, SRV_ACT_SLOT0 0]⟩,
  ⟨0x500108, 17, 0x40, 1, 0x4, [SRV_ARITH_SATN 0, SRV_ARITH_LOSTN 0]⟩,
  ⟨0x500110, 17, 0x40, 4, 0x4, [SRV_REF_REF 0 0]⟩,
  ⟨0x500120, 17, 0x40, 4, 0x4, [SRV_INNOV_E 0 0]⟩,
  ⟨0x500130, 17, 0x40, 4, 0x4, [SRV_OUT_CODE 0 0]⟩,
  ⟨0x501000, 256, 0x4, 1, 0x4, [SRV_PALDIR_VALID 0, SRV_PALDIR_SPEED 0, SRV_PALDIR_LOOP 0, SRV_PALDIR_WORDS 0, SRV_PALDIR_BASE 0]⟩,
  ⟨0x510000, 16384, 0x4, 1, 0x4, [SRV_PAL_SIGN 0, SRV_PAL_COEF 0]⟩,
  ⟨0x520000, 4, 0x100, 1, 0x4, [SRV_HSTAT_INHC 0, SRV_HSTAT_CONF 0, SRV_HSTAT_INH 0, SRV_HSTAT_LAND 0, SRV_HSTAT_LAYER 0, SRV_HSTAT_PHASE 0]⟩,
  ⟨0x520004, 4, 0x100, 1, 0x4, [SRV_HTRK_GTRK 0]⟩,
  ⟨0x520008, 4, 0x100, 1, 0x4, [SRV_HCNT_FLOSS 0, SRV_HCNT_TLOSS 0, SRV_HCNT_INHN 0, SRV_HCNT_JFAIL 0]⟩,
  ⟨0x52000c, 4, 0x100, 1, 0x4, [SRV_HJUMP_US 0]⟩,
  ⟨0x520010, 4, 0x100, 1, 0x4, [SRV_HCTRL_WINH 0]⟩,
  ⟨0x520014, 4, 0x100, 1, 0x4, [SRV_TRES_RES 0]⟩,
  ⟨0x520018, 4, 0x100, 1, 0x4, [SRV_TFLR_FLR 0]⟩,
  ⟨0x52001c, 4, 0x100, 1, 0x4, [SRV_TQWIN_DISCARD 0, SRV_TQWIN_ACCEPT 0]⟩,
  ⟨0x520020, 4, 0x100, 1, 0x4, [SRV_TFG_SUMGAIN 0]⟩,
  ⟨0x520024, 4, 0x100, 1, 0x4, [SRV_TENB_ENB 0]⟩,
  ⟨0x520028, 4, 0x100, 1, 0x4, [SRV_TPP_APP 0]⟩,
  ⟨0x520040, 4, 0x100, 48, 0x4, [SRV_SAP_CODE 0 0]⟩,
  ⟨0x520800, 1, 0x4, 1, 0x4, [SRV_FACQ_SUMTHR, SRV_FACQ_FSPEED]⟩,
  ⟨0x520804, 1, 0x4, 1, 0x4, [SRV_FLIM_SUMLOSS, SRV_FLIM_FLOSSN, SRV_FLIM_TRIES]⟩,
  ⟨0x520808, 1, 0x4, 1, 0x4, [SRV_JUMP_JRATE, SRV_JUMP_FSETN]⟩,
  ⟨0x52080c, 1, 0x4, 1, 0x4, [SRV_TCAP_CAPT, SRV_TCAP_TEOMAX]⟩,
  ⟨0x520810, 1, 0x4, 1, 0x4, [SRV_WINH_PEMAX, SRV_WINH_FEMAX, SRV_WINH_INHCLR]⟩,
  ⟨0x520814, 1, 0x4, 1, 0x4, [SRV_SHK_EN, SRV_SHK_LIMIT, SRV_SHK_CMD]⟩,
  ⟨0x520818, 1, 0x4, 1, 0x4, [SRV_SHKST_EVENTS, SRV_SHKST_PEAK]⟩,
  ⟨0x52081c, 1, 0x4, 1, 0x4, [SRV_SAZC_ZC]⟩]

def regRows06 : List Grp := [
  ⟨0x600000, 4, 0x200, 1, 0x4, [OPU_HSTAT_LINKERR 0, OPU_HSTAT_LPERR 0, OPU_HSTAT_PSTAT 0, OPU_HSTAT_LASERON 0, OPU_HSTAT_LON 0, OPU_HSTAT_INSVC 0, OPU_HSTAT_LOFFREJ 0, OPU_HSTAT_ENUM 0]⟩,
  ⟨0x600004, 4, 0x200, 1, 0x4, [OPU_ID_HWREV 0, OPU_ID_MODEL 0]⟩,
  ⟨0x600008, 4, 0x200, 1, 0x4, [OPU_TEMP_VALID 0, OPU_TEMP_TEMP 0]⟩,
  ⟨0x60000c, 4, 0x200, 1, 0x4, [OPU_CTRL_LOFF 0]⟩,
  ⟨0x600010, 4, 0x200, 1, 0x4, [OPU_RDPWR_READ 0]⟩,
  ⟨0x600014, 4, 0x200, 1, 0x4, [OPU_LINKCMD_CMD 0, OPU_LINKCMD_ADDR 0, OPU_LINKCMD_DATA 0]⟩,
  ⟨0x600018, 4, 0x200, 1, 0x4, [OPU_LINKRSP_DONE 0, OPU_LINKRSP_ERR 0, OPU_LINKRSP_STATUS 0, OPU_LINKRSP_DATA 0]⟩,
  ⟨0x600040, 4, 0x200, 24, 0x4, [OPU_LVL_LEVEL 0 0]⟩,
  ⟨0x600100, 4, 0x200, 64, 0x4, [OPU_ROM_WORD 0 0]⟩,
  ⟨0x600800, 1, 0x4, 1, 0x4, [OPU_CFG_ENUMWAIT]⟩,
  ⟨0x600804, 1, 0x4, 1, 0x4, [OPU_GSTAT_LSREN, OPU_GSTAT_TRIPS]⟩]

def regRows07 : List Grp := [
  ⟨0x700000, 4, 0x100, 1, 0x4, [SLD_POS_KNOWN 0, SLD_POS_P 0]⟩,
  ⟨0x700004, 4, 0x100, 1, 0x4, [SLD_STAT_EN 0, SLD_STAT_DIR 0, SLD_STAT_LIMLATE 0, SLD_STAT_MOVING 0, SLD_STAT_KIND 0, SLD_STAT_PHASE 0]⟩,
  ⟨0x700008, 4, 0x100, 1, 0x4, [SLD_TGT_TGT 0]⟩,
  ⟨0x70000c, 4, 0x100, 1, 0x4, [SLD_EST_US 0]⟩,
  ⟨0x700010, 4, 0x100, 1, 0x4, [SLD_CNT_SLIPS 0, SLD_CNT_PREEMPT 0, SLD_CNT_RETGT 0, SLD_CNT_REFUSED 0]⟩,
  ⟨0x700014, 4, 0x100, 1, 0x4, [SLD_HSEEK_GO 0, SLD_HSEEK_TGT 0]⟩,
  ⟨0x700018, 4, 0x100, 1, 0x4, [SLD_CFG_DIRINV 0]⟩,
  ⟨0x700800, 1, 0x4, 1, 0x4, [SLD_PROF_D_JMAX, SLD_PROF_D_AMAX, SLD_PROF_D_VMAX]⟩,
  ⟨0x700804, 1, 0x4, 1, 0x4, [SLD_PROF_S_JMAX, SLD_PROF_S_AMAX, SLD_PROF_S_VMAX]⟩,
  ⟨0x700808, 1, 0x4, 1, 0x4, [SLD_LIM_MAX, SLD_LIM_MIN]⟩,
  ⟨0x70080c, 1, 0x4, 1, 0x4, [SLD_MISC_PARK, SLD_MISC_SLIP, SLD_MISC_RETRY]⟩,
  ⟨0x700810, 1, 0x4, 1, 0x4, [SLD_FOLLOW_THR]⟩]

def regRows08 : List Grp := [
  ⟨0x800000, 1, 0x4, 1, 0x4, [SPN_STAT_VINLIM, SPN_STAT_CAPPED, SPN_STAT_SREFVALID, SPN_STAT_FAULT, SPN_STAT_FCAUSE, SPN_STAT_PHASE]⟩,
  ⟨0x800004, 1, 0x4, 1, 0x4, [SPN_MEAS_FROMANG, SPN_MEAS_RPM]⟩,
  ⟨0x800008, 1, 0x4, 1, 0x4, [SPN_TGT_REF, SPN_TGT_TARGET]⟩,
  ⟨0x80000c, 1, 0x4, 1, 0x4, [SPN_TEST_EN, SPN_TEST_RPM]⟩,
  ⟨0x800010, 1, 0x4, 1, 0x4, [SPN_SREF_FALLBACK, SPN_SREF_ENC, SPN_SREF_SEL, SPN_SREF_STEP, SPN_SREF_HOLD]⟩,
  ⟨0x800014, 1, 0x4, 1, 0x4, [SPN_SREFIN_VALID, SPN_SREFIN_RPM]⟩,
  ⟨0x800018, 1, 0x4, 1, 0x4, [SPN_RAMP_RATE]⟩,
  ⟨0x80001c, 1, 0x4, 1, 0x4, [SPN_MOTOR_POLES, SPN_MOTOR_RS, SPN_MOTOR_LS]⟩,
  ⟨0x800020, 1, 0x4, 1, 0x4, [SPN_MOTOR2_KE, SPN_MOTOR2_RSH]⟩,
  ⟨0x800024, 1, 0x4, 1, 0x4, [SPN_PWM_FREQ, SPN_PWM_DEAD]⟩,
  ⟨0x800028, 1, 0x4, 1, 0x4, [SPN_ILIM_IMAX, SPN_ILIM_IQMAX]⟩,
  ⟨0x80002c, 1, 0x4, 1, 0x4, [SPN_CHECK_ISUMMAX, SPN_CHECK_BEMFMIN]⟩,
  ⟨0x800030, 1, 0x4, 1, 0x4, [SPN_CURLOOP_KP, SPN_CURLOOP_KI]⟩,
  ⟨0x800034, 1, 0x4, 1, 0x4, [SPN_START_ALIGNT, SPN_START_CATCHT, SPN_START_TRIES, SPN_START_IFRATE]⟩,
  ⟨0x800038, 1, 0x4, 1, 0x4, [SPN_BRAKE_VBUS]⟩,
  ⟨0x80003c, 1, 0x4, 1, 0x4, [SPN_DIST_OCN, SPN_DIST_NARROWW, SPN_DIST_NARROWV, SPN_DIST_NARROWU]⟩,
  ⟨0x800040, 1, 0x4, 1, 0x4, [SPN_CATCH_RESULT, SPN_CATCH_RPM]⟩]

def regRows09 : List Grp := [
  ⟨0x900000, 28, 0x40, 1, 0x4, [CHN_LANEMAP_FOR 0, CHN_LANEMAP_STATE 0, CHN_LANEMAP_INPUT 0]⟩,
  ⟨0x900004, 28, 0x40, 1, 0x4, [CHN_LSTAT_FAILCHK 0, CHN_LSTAT_CAUSE 0, CHN_LSTAT_PEND 0, CHN_LSTAT_LOCK 0, CHN_LSTAT_RX 0]⟩,
  ⟨0x900008, 28, 0x40, 1, 0x4, [CHN_FE_GAIN 0, CHN_FE_OFFS 0, CHN_FE_ASYM 0]⟩,
  ⟨0x90000c, 28, 0x40, 1, 0x4, [CHN_TR_ASSIST 0, CHN_TR_FOFF 0]⟩,
  ⟨0x900010, 28, 0x40, 1, 0x4, [CHN_SNR_SNR 0]⟩,
  ⟨0x900014, 28, 0x40, 1, 0x4, [CHN_EYE_VALID 0, CHN_EYE_EYEW 0]⟩,
  ⟨0x900800, 1, 0x4, 1, 0x4, [CHN_LANECTL_ACT, CHN_LANECTL_LANE]⟩,
  ⟨0x900804, 1, 0x4, 1, 0x4, [CHN_CTLST_RESULT, CHN_CTLST_BUSY]⟩,
  ⟨0x900810, 4, 0x4, 1, 0x4, [CHN_HSTAT_LOSTTRK 0]⟩,
  ⟨0x900820, 1, 0x4, 1, 0x4, [CHN_HLIM_SELFMAX, CHN_HLIM_CLIP]⟩,
  ⟨0x910000, 12288, 0x4, 1, 0x4, [CHN_BT_B3 0, CHN_BT_B2 0, CHN_BT_B1 0, CHN_BT_B0 0]⟩]

def regRows0A : List Grp := [
  ⟨0xa00000, 4, 0x100, 1, 0x4, [DET_HSTAT_ZEROC 0, DET_HSTAT_TRK 0, DET_HSTAT_ADAPT 0, DET_HSTAT_RUN 0]⟩,
  ⟨0xa00004, 4, 0x100, 1, 0x4, [DET_HCNT_EQRELOAD 0, DET_HCNT_REPROFULL 0]⟩,
  ⟨0xa00008, 4, 0x100, 1, 0x4, [DET_PASS_PASS3 0, DET_PASS_PASS2 0]⟩,
  ⟨0xa0000c, 4, 0x100, 1, 0x4, [DET_PBERR_ERR 0]⟩,
  ⟨0xa00010, 4, 0x100, 1, 0x4, [DET_PBBITS_BITS 0]⟩,
  ⟨0xa00014, 4, 0x100, 1, 0x4, [DET_ITER_MEAN 0]⟩,
  ⟨0xa00020, 4, 0x100, 6, 0x4, [DET_ALIGN_DELAY 0 0]⟩,
  ⟨0xa00800, 1, 0x4, 1, 0x4, [DET_CFG_NTAPS, DET_CFG_MU, DET_CFG_LLRCLIP, DET_CFG_M]⟩,
  ⟨0xa00804, 1, 0x4, 1, 0x4, [DET_TGT_D, DET_TGT_C, DET_TGT_B, DET_TGT_A]⟩,
  ⟨0xa01000, 48, 0x10, 1, 0x4, [DET_LQ_ACH 0]⟩,
  ⟨0xa01004, 48, 0x10, 1, 0x4, [DET_LQ_IRB 0]⟩,
  ⟨0xa01008, 48, 0x10, 1, 0x4, [DET_LQ_SNR 0]⟩,
  ⟨0xa0100c, 48, 0x10, 1, 0x4, [DET_LQ_COVER 0]⟩,
  ⟨0xa04000, 4096, 0x4, 1, 0x4, [DET_EQ_SIGN 0, DET_EQ_COEF 0]⟩]

def regRows0B : List Grp := [
  ⟨0xb00000, 1, 0x4, 1, 0x4, [CWD_DEC_BUSYQ, CWD_DEC_BUSYIT, CWD_DEC_MAXIT]⟩,
  ⟨0xb00004, 1, 0x4, 1, 0x4, [CWD_POOL_BISTFAIL, CWD_POOL_FAULT, CWD_POOL_OFFLINE, CWD_POOL_INSVC]⟩,
  ⟨0xb00008, 1, 0x4, 1, 0x4, [CWD_DECCTL_RESTORE, CWD_DECCTL_OFFLINE, CWD_DECCTL_DEC]⟩,
  ⟨0xb0000c, 1, 0x4, 1, 0x4, [CWD_QUEUE_REFUSED, CWD_QUEUE_PEAK, CWD_QUEUE_OCC]⟩,
  ⟨0xb00010, 1, 0x4, 1, 0x4, [CWD_TAGCNT_LOST, CWD_TAGCNT_ERASED, CWD_TAGCNT_CORR, CWD_TAGCNT_CLEAN]⟩,
  ⟨0xb00014, 1, 0x4, 1, 0x4, [CWD_CNT_OVF, CWD_CNT_BUSY]⟩]

def regRows0C : List Grp := [
  ⟨0xc00000, 4, 0x100, 1, 0x4, [WRS_HSTAT_CLAMP 0, WRS_HSTAT_TBAND 0, WRS_HSTAT_GROUP 0, WRS_HSTAT_LVLPEND 0, WRS_HSTAT_WRITING 0]⟩,
  ⟨0xc00004, 4, 0x100, 1, 0x4, [WRS_OPCST_RUNS 0, WRS_OPCST_FAILS 0, WRS_OPCST_LASTERR 0]⟩,
  ⟨0xc00008, 4, 0x100, 1, 0x4, [WRS_VCNT_VFAIL 0, WRS_VCNT_INCONCL 0, WRS_VCNT_REWRITE 0, WRS_VCNT_WFAIL 0]⟩,
  ⟨0xc00800, 1, 0x4, 1, 0x4, [WRS_RATIO_ERATIO, WRS_RATIO_BRATIO]⟩,
  ⟨0xc00804, 1, 0x4, 1, 0x4, [WRS_PDEF_PEAK]⟩,
  ⟨0xc00808, 1, 0x4, 1, 0x4, [WRS_OPCCFG_OPCM, WRS_OPCCFG_MAXBER]⟩,
  ⟨0xc0080c, 1, 0x4, 1, 0x4, [WRS_VFY_VFYIT, WRS_VFY_MARGINIT, WRS_VFY_REREAD]⟩,
  ⟨0xc00810, 1, 0x4, 1, 0x4, [WRS_OPCCTL_GO, WRS_OPCCTL_HEAD, WRS_OPCCTL_LAYER, WRS_OPCCTL_BAND]⟩,
  ⟨0xc01000, 128, 0x4, 1, 0x4, [WRS_STCNT_COUNT 0]⟩,
  ⟨0xc10000, 4, 0x4000, 1536, 0x8, [WRS_OPC_PEAK1 0 0, WRS_OPC_PEAK0 0 0]⟩,
  ⟨0xc10004, 4, 0x4000, 1536, 0x8, [WRS_OPC_VALID 0 0, WRS_OPC_TBAND 0 0]⟩,
  ⟨0xc20000, 32768, 0x4, 1, 0x4, [WRS_ST_B3 0, WRS_ST_B2 0, WRS_ST_B1 0, WRS_ST_B0 0]⟩]

def regRows0D : List Grp := [
  ⟨0xd00000, 1, 0x4, 1, 0x4, [STR_STAT_OPEN, STR_STAT_DEGRADED, STR_STAT_RESYNC, STR_STAT_FORMATTED]⟩,
  ⟨0xd00004, 1, 0x4, 1, 0x4, [STR_GEOM_SPARE, STR_GEOM_PARITY, STR_GEOM_WIDTH]⟩,
  ⟨0xd00008, 1, 0x4, 1, 0x4, [STR_CHUNKS_N, STR_CHUNKS_D]⟩,
  ⟨0xd0000c, 1, 0x4, 1, 0x4, [STR_ZONES_Z]⟩,
  ⟨0xd00010, 1, 0x4, 1, 0x4, [STR_SEED_LO_SEED]⟩,
  ⟨0xd00014, 1, 0x4, 1, 0x4, [STR_SEED_HI_SEED]⟩,
  ⟨0xd00018, 1, 0x4, 1, 0x4, [STR_WSEQ_LO_WSEQ]⟩,
  ⟨0xd0001c, 1, 0x4, 1, 0x4, [STR_WSEQ_HI_WSEQ]⟩,
  ⟨0xd00020, 1, 0x4, 1, 0x4, [STR_CNT_COMMITS, STR_CNT_VOIDS]⟩,
  ⟨0xd00024, 1, 0x4, 1, 0x4, [STR_RECON_RECON, STR_RECON_UNREC]⟩,
  ⟨0xd00028, 1, 0x4, 1, 0x4, [STR_SLOW_SLOW, STR_SLOW_DEGRD]⟩,
  ⟨0xd0002c, 1, 0x4, 1, 0x4, [STR_RB_PEND, STR_RB_DONE]⟩,
  ⟨0xd00030, 1, 0x4, 1, 0x4, [STR_RESYNC_FWD, STR_RESYNC_BACK]⟩,
  ⟨0xd00034, 1, 0x4, 1, 0x4, [STR_DIRTY_COUNT]⟩,
  ⟨0xd00800, 1, 0x4, 1, 0x4, [STR_CFG_MAXOPEN, STR_CFG_DRAIN, STR_CFG_EXT]⟩,
  ⟨0xd00804, 1, 0x4, 1, 0x4, [STR_JCFG_CKPTS, STR_JCFG_MAXDIRTY]⟩,
  ⟨0xd00808, 1, 0x4, 1, 0x4, [STR_RBCFG_SHARE]⟩]

def regRows0E : List Grp := [
  ⟨0xe00000, 1, 0x4, 1, 0x4, [MAP_STAT_NSID, MAP_STAT_PHASE]⟩,
  ⟨0xe00004, 1, 0x4, 1, 0x4, [MAP_PROG_LOADED]⟩,
  ⟨0xe00008, 1, 0x4, 1, 0x4, [MAP_TOTAL_PAGES]⟩,
  ⟨0xe0000c, 1, 0x4, 1, 0x4, [MAP_DF_COUNT]⟩,
  ⟨0xe00010, 1, 0x4, 1, 0x4, [MAP_DFMAX_US]⟩,
  ⟨0xe00014, 1, 0x4, 1, 0x4, [MAP_CKPT_MAPCK, MAP_CKPT_ZONECK]⟩,
  ⟨0xe00018, 1, 0x4, 1, 0x4, [MAP_CLEAN_UNITS]⟩]

def regRows0F : List Grp := [
  ⟨0xf00000, 1, 0x4, 1, 0x4, [HLT_STAT_FAILED, HLT_STAT_DEGR, HLT_STAT_SPARELOW, HLT_STAT_WARN, HLT_STAT_DUE, HLT_STAT_PATROL]⟩,
  ⟨0xf00004, 1, 0x4, 1, 0x4, [HLT_WEAR_LAYER, HLT_WEAR_MAXCNT]⟩,
  ⟨0xf00008, 1, 0x4, 1, 0x4, [HLT_RETIRED_BLOCKS]⟩,
  ⟨0xf0000c, 1, 0x4, 1, 0x4, [HLT_SPARE_THR, HLT_SPARE_AVAIL]⟩,
  ⟨0xf00010, 1, 0x4, 1, 0x4, [HLT_AGE_HOURS]⟩,
  ⟨0xf00014, 1, 0x4, 1, 0x4, [HLT_LAP_SEC]⟩,
  ⟨0xf00018, 1, 0x4, 1, 0x4, [HLT_PROG_FRAC, HLT_PROG_ZONE]⟩,
  ⟨0xf0001c, 1, 0x4, 1, 0x4, [HLT_REFQ_DROP, HLT_REFQ_LEN]⟩,
  ⟨0xf00020, 1, 0x4, 1, 0x4, [HLT_CNT_REFRESH, HLT_CNT_RETIRE]⟩,
  ⟨0xf00024, 1, 0x4, 1, 0x4, [HLT_LEDG_CASE, HLT_LEDG_DELTAS]⟩,
  ⟨0xf00028, 1, 0x4, 1, 0x4, [HLT_CTRL_PAUSE, HLT_CTRL_RESTART]⟩,
  ⟨0xf00800, 1, 0x4, 1, 0x4, [HLT_WCFG_STEP, HLT_WCFG_RETIRE]⟩,
  ⟨0xf00804, 1, 0x4, 1, 0x4, [HLT_WCFG2_FOREIGN, HLT_WCFG2_WARN]⟩,
  ⟨0xf00808, 1, 0x4, 1, 0x4, [HLT_LCFG_CONFIRM, HLT_LCFG_LEDGMIN]⟩,
  ⟨0xf0080c, 1, 0x4, 1, 0x4, [HLT_RCFG_REFRESH, HLT_RCFG_SWCAP]⟩,
  ⟨0xf00810, 1, 0x4, 1, 0x4, [HLT_PCFG_IDLEMS, HLT_PCFG_RSHARE, HLT_PCFG_SHARE]⟩,
  ⟨0xf00814, 1, 0x4, 1, 0x4, [HLT_LIM_LFAIL, HLT_LIM_LAPAGE]⟩,
  ⟨0xf01000, 48, 0x10, 1, 0x4, [HLT_LSTAT_FAILED 0, HLT_LSTAT_MAXCNT 0]⟩,
  ⟨0xf01004, 48, 0x10, 1, 0x4, [HLT_LSTAT_RETIRED 0]⟩,
  ⟨0xf01008, 48, 0x10, 1, 0x4, [HLT_LSTAT_FREE 0]⟩,
  ⟨0xf0100c, 48, 0x10, 1, 0x4, [HLT_LSTAT_MARGIN 0]⟩]

def regRows10 : List Grp := [
  ⟨0x1000000, 1, 0x4, 1, 0x4, [CAL_STAT_LASTERR, CAL_STAT_FULL, CAL_STAT_DUE, CAL_STAT_BUSY]⟩,
  ⟨0x1000004, 1, 0x4, 1, 0x4, [CAL_CTL_GO, CAL_CTL_KIND, CAL_CTL_HEAD, CAL_CTL_LAYER]⟩,
  ⟨0x1000008, 1, 0x4, 1, 0x4, [CAL_CNT_FAILS, CAL_CNT_RUNS]⟩,
  ⟨0x100000c, 1, 0x4, 1, 0x4, [CAL_PROG_DONE, CAL_PROG_TODO]⟩,
  ⟨0x1000800, 1, 0x4, 1, 0x4, [CAL_CFG_TRIES, CAL_CFG_WINREV, CAL_CFG_SHARE]⟩,
  ⟨0x1000804, 1, 0x4, 1, 0x4, [CAL_LIM_EYEMIN, CAL_LIM_SNRMIN]⟩,
  ⟨0x1000808, 1, 0x4, 1, 0x4, [CAL_LIM2_OFSMAX, CAL_LIM2_TILTMAX, CAL_LIM2_SAWIN]⟩,
  ⟨0x1001000, 4, 0x400, 64, 0x10, [CAL_HL_EYE 0 0, CAL_HL_SNR 0 0]⟩,
  ⟨0x1001004, 4, 0x400, 64, 0x10, [CAL_HL_EQMSE 0 0]⟩,
  ⟨0x1001008, 4, 0x400, 64, 0x10, [CAL_HL_TRES 0 0]⟩,
  ⟨0x100100c, 4, 0x400, 64, 0x10, [CAL_HL_MINUTES 0 0, CAL_HL_FAILMASK 0 0, CAL_HL_SRC 0 0]⟩]

def regRows11 : List Grp := [
  ⟨0x1100000, 2, 0x100, 1, 0x4, [HST_PORT_LINKDOWNS 0, HST_PORT_RDY 0, HST_PORT_EN 0, HST_PORT_UP 0, HST_PORT_WIDTH 0, HST_PORT_SPEED 0]⟩,
  ⟨0x1100004, 2, 0x100, 1, 0x4, [HST_INFL_PEAK 0, HST_INFL_NOW 0]⟩,
  ⟨0x1100800, 1, 0x4, 1, 0x4, [HST_CUST_DISCARDS, HST_CUST_SWAP, HST_CUST_LOSER, HST_CUST_MGMT]⟩,
  ⟨0x1100804, 1, 0x4, 1, 0x4, [HST_DISCADDR_PORT, HST_DISCADDR_OFFSET]⟩,
  ⟨0x1100808, 1, 0x4, 1, 0x4, [HST_RLOCK_STALLS, HST_RLOCK_ENTRIES]⟩,
  ⟨0x110080c, 1, 0x4, 1, 0x4, [HST_ERRCNT_UNREC, HST_ERRCNT_ERRLOG]⟩,
  ⟨0x1100810, 1, 0x4, 1, 0x4, [HST_CFG_GATHER, HST_CFG_LINKLOSS, HST_CFG_ANATT]⟩,
  ⟨0x1100820, 8, 4, 1, 4, (List.range 8).flatMap fun f => [HST_NSCUST_SWAP (f + 1), HST_NSCUST_LOSER (f + 1), HST_NSCUST_CUST (f + 1)]⟩]

def regRows12 : List Grp := [
  ⟨0x1200000, 1, 0x4, 1, 0x4, [MEM_INFO_DENS, MEM_INFO_TRAINED]⟩,
  ⟨0x1200004, 1, 0x4, 1, 0x4, [MEM_STAT_UE, MEM_STAT_ADDRERR, MEM_STAT_PHASE]⟩,
  ⟨0x1200008, 1, 0x4, 1, 0x4, [MEM_SWEEP_PULLS, MEM_SWEEP_DONE]⟩,
  ⟨0x120000c, 1, 0x4, 1, 0x4, [MEM_CE_BUCKET_OVFN, MEM_CE_BUCKET_LEVEL]⟩,
  ⟨0x1200010, 1, 0x4, 1, 0x4, [MEM_CECFG_LEAK, MEM_CECFG_LIMIT]⟩,
  ⟨0x1200014, 1, 0x4, 1, 0x4, [MEM_CECNT_CE]⟩,
  ⟨0x1200018, 1, 0x4, 1, 0x4, [MEM_CELAST_SRC, MEM_CELAST_BLOCK]⟩,
  ⟨0x120001c, 1, 0x4, 1, 0x4, [MEM_UECNT_ADDRN, MEM_UECNT_UEN]⟩,
  ⟨0x1200020, 1, 0x4, 1, 0x4, [MEM_UELAST_SRC, MEM_UELAST_BLOCK]⟩,
  ⟨0x1200024, 1, 0x4, 1, 0x4, [MEM_SCRUB_EN, MEM_SCRUB_SLOT, MEM_SCRUB_RATE]⟩,
  ⟨0x1200028, 1, 0x4, 1, 0x4, [MEM_SCRLAP_LAP]⟩,
  ⟨0x120002c, 1, 0x4, 1, 0x4, [MEM_SCRPROG_BLOCK]⟩,
  ⟨0x1200030, 1, 0x4, 1, 0x4, [MEM_BAR2_DISCARDS]⟩]

def regRows13 : List Grp := [
  ⟨0x1300000, 1, 0x4, 1, 0x4, [LRD_STAT_WAY, LRD_STAT_CLEANING, LRD_STAT_STATE]⟩,
  ⟨0x1300004, 1, 0x4, 1, 0x4, [LRD_WAYS_OFFLINE, LRD_WAYS_INSVC]⟩,
  ⟨0x1300008, 1, 0x4, 1, 0x4, [LRD_WAYST_BISTFAIL, LRD_WAYST_FAULT]⟩,
  ⟨0x130000c, 1, 0x4, 1, 0x4, [LRD_CTL_DISABLE]⟩,
  ⟨0x1300010, 1, 0x4, 1, 0x4, [LRD_WAYCTL_RESTORE, LRD_WAYCTL_OFFLINE, LRD_WAYCTL_WAY]⟩,
  ⟨0x1300014, 1, 0x4, 1, 0x4, [LRD_ACTST_RESULT, LRD_ACTST_BUSY]⟩,
  ⟨0x1300018, 1, 0x4, 1, 0x4, [LRD_DIRTY_LINES]⟩,
  ⟨0x130001c, 1, 0x4, 1, 0x4, [LRD_HITS_HITS]⟩,
  ⟨0x1300020, 1, 0x4, 1, 0x4, [LRD_MISSES_MISSES]⟩,
  ⟨0x1300024, 1, 0x4, 1, 0x4, [LRD_SEQ_RUN]⟩,
  ⟨0x1300028, 1, 0x4, 1, 0x4, [LRD_SEQCNT_BYPASS]⟩,
  ⟨0x130002c, 1, 0x4, 1, 0x4, [LRD_ERR_UE, LRD_ERR_CE]⟩,
  ⟨0x1300030, 1, 0x4, 1, 0x4, [LRD_WCFG_WAYCE]⟩,
  ⟨0x1300034, 1, 0x4, 1, 0x4, [LRD_LFSR_STATE]⟩]

def regRows14 : List Grp := [
  ⟨0x1400000, 6, 0x100, 1, 0x4, [SEQ_STAT_PC 0, SEQ_STAT_STATE 0]⟩,
  ⟨0x1400004, 6, 0x100, 1, 0x4, [SEQ_HITS_HITS 0]⟩,
  ⟨0x1400040, 6, 0x100, 16, 0x4, [SEQ_MATCH_VALID 0 0, SEQ_MATCH_ROMADDR 0 0, SEQ_MATCH_PATADDR 0 0]⟩,
  ⟨0x1400800, 1, 0x4, 1, 0x4, [SEQ_MCHK_CAUSE, SEQ_MCHK_SEQ, SEQ_MCHK_VALID, SEQ_MCHK_ADDR]⟩,
  ⟨0x1400804, 1, 0x4, 1, 0x4, [SEQ_ROMSCAN_LAPS]⟩,
  ⟨0x1410000, 6, 0x1000, 256, 0x10, [SEQ_PATCH_W0 0 0]⟩,
  ⟨0x1410004, 6, 0x1000, 256, 0x10, [SEQ_PATCH_W1 0 0]⟩,
  ⟨0x1410008, 6, 0x1000, 256, 0x10, [SEQ_PATCH_W2 0 0]⟩,
  ⟨0x141000c, 6, 0x1000, 256, 0x10, [SEQ_PATCH_PAR 0 0]⟩]

def regRows15 : List Grp := [
  ⟨0x1500000, 8, 0x40, 1, 0x4, [DMA_SRC_LO_ADDR 0]⟩,
  ⟨0x1500004, 8, 0x40, 1, 0x4, [DMA_SRC_HI_ADDR 0]⟩,
  ⟨0x1500008, 8, 0x40, 1, 0x4, [DMA_DST_LO_ADDR 0]⟩,
  ⟨0x150000c, 8, 0x40, 1, 0x4, [DMA_DST_HI_ADDR 0]⟩,
  ⟨0x1500010, 8, 0x40, 1, 0x4, [DMA_LEN_LEN 0]⟩,
  ⟨0x1500014, 8, 0x40, 1, 0x4, [DMA_TOTAL_TOTAL 0]⟩,
  ⟨0x1500018, 8, 0x40, 1, 0x4, [DMA_CTRL_DSPACE 0, DMA_CTRL_SSPACE 0, DMA_CTRL_CIRC 0, DMA_CTRL_DONEIE 0, DMA_CTRL_HALFIE 0, DMA_CTRL_PAUSE 0, DMA_CTRL_ABORT 0, DMA_CTRL_START 0]⟩,
  ⟨0x150001c, 8, 0x40, 1, 0x4, [DMA_STAT_PORT 0, DMA_STAT_ERR 0, DMA_STAT_DONE 0, DMA_STAT_HALF 0, DMA_STAT_PAUSED 0, DMA_STAT_BUSY 0]⟩]

def regRows16 : List Grp := [
  ⟨0x1600000, 3, 0x40, 1, 0x4, [FIF_DATA_WORD 0]⟩,
  ⟨0x1600004, 3, 0x40, 1, 0x4, [FIF_LEVEL_WORDS 0]⟩,
  ⟨0x1600008, 3, 0x40, 1, 0x4, [FIF_LOST_LOST 0]⟩,
  ⟨0x160000c, 3, 0x40, 1, 0x4, [FIF_STAT_TORN 0, FIF_STAT_FULL 0, FIF_STAT_EMPTY 0]⟩,
  ⟨0x1600010, 3, 0x40, 1, 0x4, [FIF_CAP_WORDS 0]⟩,
  ⟨0x1600014, 3, 0x40, 1, 0x4, [FIF_THR_THR 0]⟩,
  ⟨0x1600800, 1, 0x4, 1, 0x4, [FIF_DROP_FIFO]⟩,
  ⟨0x1600804, 1, 0x4, 1, 0x4, [FIF_IRQ_ST_DMA, FIF_IRQ_ST_FIFO]⟩,
  ⟨0x1600808, 1, 0x4, 1, 0x4, [FIF_IRQ_EN_EN]⟩,
  ⟨0x160080c, 1, 0x4, 1, 0x4, [FIF_IRQCFG_EN, FIF_IRQCFG_VEC]⟩,
  ⟨0x1600810, 1, 0x4, 1, 0x4, [FIF_TCFG_EN, FIF_TCFG_COUNT, FIF_TCFG_PERIOD]⟩,
  ⟨0x1600820, 16, 0x4, 1, 0x4, [FIF_TSEL_OFFSET 0]⟩]

def regRows17 : List Grp := [
  ⟨0x1700000, 1, 0x4, 1, 0x4, [THM_STAT_TG, THM_STAT_VALID, THM_STAT_THROT, THM_STAT_RISE, THM_STAT_SOFT, THM_STAT_HARD, THM_STAT_ATRIP, THM_STAT_DUTY]⟩,
  ⟨0x1700004, 1, 0x4, 1, 0x4, [THM_DEMAND_BUSY, THM_DEMAND_DONE, THM_DEMAND_GO, THM_DEMAND_PICK, THM_DEMAND_DIE]⟩,
  ⟨0x1700008, 1, 0x4, 1, 0x4, [THM_RATE_RATE, THM_RATE_DIEBAND]⟩,
  ⟨0x170000c, 1, 0x4, 1, 0x4, [THM_SUSPECT_MASK]⟩,
  ⟨0x1700010, 1, 0x4, 1, 0x4, [THM_CNT_SUSPN, THM_CNT_HOSTDEM, THM_CNT_THROTS]⟩,
  ⟨0x1700040, 16, 0x4, 1, 0x4, [THM_DIE_VALID 0, THM_DIE_SUSPECT 0, THM_DIE_TEMP 0]⟩,
  ⟨0x1700800, 1, 0x4, 1, 0x4, [THM_SOFT_SOFT]⟩,
  ⟨0x1700804, 1, 0x4, 1, 0x4, [THM_HARD_LIMIT, THM_HARD_HARD]⟩,
  ⟨0x1700808, 1, 0x4, 1, 0x4, [THM_RISE_RISE]⟩,
  ⟨0x170080c, 1, 0x4, 1, 0x4, [THM_DUTY_FLOOR, THM_DUTY_SLOPE]⟩,
  ⟨0x1700810, 1, 0x4, 1, 0x4, [THM_PERIOD_PERIOD]⟩,
  ⟨0x1700814, 4, 0x4, 1, 0x4, [THM_EDGE_EDGEHI 0, THM_EDGE_EDGELO 0]⟩,
  ⟨0x1700830, 1, 0x4, 1, 0x4, [THM_CFG_PKLIM, THM_CFG_STOPT, THM_CFG_PKDIV, THM_CFG_XDEV]⟩]

def regRows18 : List Grp := [
  ⟨0x1800000, 1, 0x4, 1, 0x4, [PWR_STAT_PG, PWR_STAT_VINLVL]⟩,
  ⟨0x1800004, 1, 0x4, 1, 0x4, [PWR_VIN_MIN, PWR_VIN_NOW]⟩,
  ⟨0x1800008, 1, 0x4, 1, 0x4, [PWR_EVT_REGFAULT, PWR_EVT_HOLDUP, PWR_EVT_BROWNOUT]⟩,
  ⟨0x180000c, 1, 0x4, 1, 0x4, [PWR_ICORE_PHASES, PWR_ICORE_MA]⟩]

def regRows19 : List Grp := [
  ⟨0x1900000, 1, 0x4, 1, 0x4, [FLT_STAT_UNCOV, FLT_STAT_BYPASSN, FLT_STAT_ENTRIES]⟩,
  ⟨0x1900004, 1, 0x4, 1, 0x4, [FLT_ACTIVE0_LANES]⟩,
  ⟨0x1900008, 1, 0x4, 1, 0x4, [FLT_ACTIVE1_HEADS, FLT_ACTIVE1_UNITS, FLT_ACTIVE1_DECS, FLT_ACTIVE1_WAYS]⟩,
  ⟨0x190000c, 1, 0x4, 1, 0x4, [FLT_ACTIVE2_NOSIDE, FLT_ACTIVE2_MEMLIM, FLT_ACTIVE2_MCHK, FLT_ACTIVE2_SPINDLE, FLT_ACTIVE2_PORTS]⟩,
  ⟨0x1900010, 1, 0x4, 1, 0x4, [FLT_HALT_TAG, FLT_HALT_CODE, FLT_HALT_UNIT, FLT_HALT_CAUSE]⟩,
  ⟨0x1900014, 1, 0x4, 1, 0x4, [FLT_HEADCTL_RESTORE, FLT_HEADCTL_OFFLINE, FLT_HEADCTL_HEAD]⟩,
  ⟨0x1900018, 1, 0x4, 1, 0x4, [FLT_ACTST_RESULT, FLT_ACTST_BUSY]⟩,
  ⟨0x1900800, 1, 0x4, 1, 0x4, [FLT_CFG_UELIM, FLT_CFG_ADDRLIM]⟩]

def regRows1A : List Grp := [
  ⟨0x1a00000, 1, 0x4, 1, 0x4, [CEL_STATUS_ERR, CEL_STATUS_PWFAIL, CEL_STATUS_LOWV, CEL_STATUS_UNLOCKED, CEL_STATUS_PROTSEAL, CEL_STATUS_PROTID, CEL_STATUS_STATE, CEL_STATUS_DONE, CEL_STATUS_BUSY]⟩,
  ⟨0x1a00004, 1, 0x4, 1, 0x4, [CEL_ADDR_WORD]⟩,
  ⟨0x1a00008, 4, 0x4, 1, 0x4, [CEL_DATA_DATA 0]⟩,
  ⟨0x1a00018, 1, 0x4, 1, 0x4, [CEL_CMD_OP]⟩,
  ⟨0x1a0001c, 1, 0x4, 1, 0x4, [CEL_UNLOCK_PROT, CEL_UNLOCK_OP]⟩,
  ⟨0x1a00020, 1, 0x4, 1, 0x4, [CEL_LOG_LREQ, CEL_LOG_JREQ, CEL_LOG_LFREE, CEL_LOG_JFREE]⟩,
  ⟨0x1a00024, 1, 0x4, 1, 0x4, [CEL_CNT_ERASES, CEL_CNT_ERRWORDS]⟩]

def regRows1B : List Grp := [
  ⟨0x1b00000, 1, 0x4, 1, 0x4, [SEC_STAT_ERR, SEC_STAT_KEKGEN, SEC_STAT_SANITIZING, SEC_STAT_DBGOPEN, SEC_STAT_KEK]⟩,
  ⟨0x1b00004, 2, 0x4, 1, 0x4, [SEC_KEYS_LOADED 0]⟩,
  ⟨0x1b0000c, 1, 0x4, 1, 0x4, [SEC_CNT_GENMIS, SEC_CNT_REFUSED, SEC_CNT_DELIVERED]⟩,
  ⟨0x1b00010, 1, 0x4, 1, 0x4, [SEC_SAN_SPROG, SEC_SAN_SSTAT]⟩]

def regRows1C : List Grp := [
  ⟨0x1c00000, 1, 0x4, 1, 0x4, [DBG_STAT_RESULT, DBG_STAT_BUSY, DBG_STAT_LOCK, DBG_STAT_OPEN]⟩,
  ⟨0x1c00004, 1, 0x4, 1, 0x4, [DBG_PWLO_PW]⟩,
  ⟨0x1c00008, 1, 0x4, 1, 0x4, [DBG_UNLOCK_PW]⟩]

/-- Every vendor register (R568). -/
def regRows (blk : Nat) : List Grp :=
  match blk with
  | 0x01 => regRows01
  | 0x02 => regRows02
  | 0x03 => regRows03
  | 0x04 => regRows04
  | 0x05 => regRows05
  | 0x06 => regRows06
  | 0x07 => regRows07
  | 0x08 => regRows08
  | 0x09 => regRows09
  | 0x0A => regRows0A
  | 0x0B => regRows0B
  | 0x0C => regRows0C
  | 0x0D => regRows0D
  | 0x0E => regRows0E
  | 0x0F => regRows0F
  | 0x10 => regRows10
  | 0x11 => regRows11
  | 0x12 => regRows12
  | 0x13 => regRows13
  | 0x14 => regRows14
  | 0x15 => regRows15
  | 0x16 => regRows16
  | 0x17 => regRows17
  | 0x18 => regRows18
  | 0x19 => regRows19
  | 0x1A => regRows1A
  | 0x1B => regRows1B
  | 0x1C => regRows1C
  | _ => []

end Sys2Proof.Machine
end

