-- ==== Sys2Proof/Machine/Ranges.lean ====
section
/-! DEFINITION. The range checks of the Canvas-set registers: each field's own range, and the conditions its table sets
between fields (R92, R103). The same checks serve APPLY and a Varnish. -/

namespace Sys2Proof.Machine

open R

/-- The registers of a block, and the one that an offset of the vendor window names. -/
def findGrp (off : Nat) : Option (Grp × Nat) :=
  (regRows (off / 0x100000)).findSome? fun g => (g.disp off).map fun d => (g, d)

/-- The assigned fields of the register at an offset; none where no register lies there. -/
def fieldsAt (off : Nat) : List Fld :=
  match findGrp off with
  | none => []
  | some (g, d) => g.flds.map fun f => f.shift d

/-- The value of a field inside a word. -/
def Fld.ofWord (f : Fld) (v : Nat) : Nat := v / 2 ^ f.lsb % 2 ^ f.width

/-! ### Band-table rows (Table 10.5) and write-strategy entries (Table 11.3) -/

/-- A byte as a signed number. -/
def s8 (v : Nat) : Int := toSigned 8 v

/-- Byte `i` of a band-table row holds an allowed value, but for TRKI's bound by TRKP. -/
def btByteOk (i v : Nat) : Bool :=
  if i < 0x0C then true
  else if i < 0x12 then -127 ≤ s8 v
  else match i with
    | 0x12 => 64 ≤ v && v ≤ 160
    | 0x13 => v ≤ 30
    | 0x14 => 16 ≤ v && v ≤ 64
    | 0x15 => 4 ≤ v && v ≤ 12
    | 0x16 => 8 ≤ v && v ≤ 20
    | 0x17 => v < 4
    | _ => v == 0

/-- Byte `i` of a row holds an allowed value, TRKI's bound by TRKP included. -/
def btOk (b : Nat → Nat) (i : Nat) : Bool := btByteOk i (b i) && (i != 0x16 || b 0x15 + 4 ≤ b 0x16)

/-- The first offending byte of a row. -/
def btRowBad (b : Nat → Nat) : Option Nat := (List.range 32).find? fun i => !btOk b i

/-- Byte `i` of a write-strategy entry holds an allowed value. -/
def wsByteOk (b : Nat → Nat) (i : Nat) : Bool :=
  match i with
  | 0 => 1 ≤ b 0 && b 0 ≤ 16
  | 1 => b 1 ≤ 3
  | 2 => -16 ≤ s8 (b 2) && s8 (b 2) ≤ 16
  | 3 => 8 ≤ b 3 && b 3 ≤ 64
  | 4 => b 4 ≤ 16
  | 5 => 8 ≤ b 5 && b 5 ≤ 24 && b 4 + b 5 ≤ 24
  | 6 => b 6 ≤ 16
  | 7 => 8 ≤ b 7 && b 7 ≤ 32
  | 8 => 8 ≤ b 8 && b 8 ≤ 64
  | _ => b i == 0

/-- The first offending byte of a write-strategy entry's own ranges. -/
def wsEntryBad (b : Nat → Nat) : Option Nat := (List.range 16).find? fun i => !wsByteOk b i

/-- Start and end, in steps from `t0`, of the PEAKs of a mark of length `len` (R294). -/
def peaks (b : Nat → Nat) (len : Nat) : List (Int × Int) :=
  let f := s8 (b 2)
  (f, f + b 3) ::
    ((List.range (len - 2)).map fun i =>
      (((32 * (i + 1) + b 4 : Nat) : Int), ((32 * (i + 1) + b 4 + b 5 : Nat) : Int))) ++
    if 2 ≤ len then [(((32 * (len - 1) + b 6 : Nat) : Int), ((32 * (len - 1) + b 6 + b 7 : Nat) : Int))] else []

/-- Every PEAK, and every BOTTOM between two PEAKs, lasts at least 8 steps (R293). -/
def spaced : List (Int × Int) → Bool
  | [] => true
  | [p] => p.1 + 8 ≤ p.2
  | p :: q :: ps => p.1 + 8 ≤ p.2 && p.2 + 8 ≤ q.1 && spaced (q :: ps)

/-- The mark lengths an entry serves, `next` being the MARK of the next entry with SPC 3 (R294). From a length of 4 on the
pulses are spaced alike, so five lengths stand for all. -/
def servedLengths (mark next : Nat) : List Nat :=
  (List.range 5).filterMap fun k => if k == 0 || mark + k < next then some (mark + k) else none

/-- The spacing rule of R293 for one entry. -/
def wsSpacingOk (b : Nat → Nat) (next : Nat) : Bool := (servedLengths (b 0) next).all fun len => spaced (peaks b len)

/-- The MARK of the first entry after `e` with SPC 3; 255 where there is none. An entry with another SPC serves its own
class alone. -/
def nextMark (n : Nat) (b : Nat → Nat → Nat) (e : Nat) : Nat :=
  if b e 1 != 3 then 0
  else match (List.range n).find? fun k => e < k && b k 1 == 3 with
    | some k => b k 0
    | none => 255

/-- The first entry of a table that breaks the order, repeats an earlier one, or breaks the spacing (R293). -/
def wsTableBad (n : Nat) (b : Nat → Nat → Nat) : Option Nat :=
  (List.range n).find? fun e =>
    (e != 0 && b e 0 * 4 + b e 1 ≤ b (e - 1) 0 * 4 + b (e - 1) 1) || !wsSpacingOk (b e) (nextMark n b e)

/-- The table holds the entry (1, 3). -/
def wsHasDefault (n : Nat) (b : Nat → Nat → Nat) : Bool :=
  (List.range n).any fun e => b e 0 == 1 && b e 1 == 3

/-- Byte `i` of row `b` of layer `l` in the CHN_BT window (Table 10.10). -/
def btByte (r : RegFile) (l b i : Nat) : Nat :=
  let w := 256 * l + 8 * b + i / 4
  r.read (match i % 4 with | 0 => CHN_BT_B0 w | 1 => CHN_BT_B1 w | 2 => CHN_BT_B2 w | _ => CHN_BT_B3 w)

/-- Byte `i` of entry `e` of table `x` in the WRS_ST window (Table 11.5). -/
def wsByte (r : RegFile) (x e i : Nat) : Nat :=
  let w := 256 * x + 4 * e + i / 4
  r.read (match i % 4 with | 0 => WRS_ST_B0 w | 1 => WRS_ST_B1 w | 2 => WRS_ST_B2 w | _ => WRS_ST_B3 w)

/-- A whole write-strategy table as the registers hold it. -/
def wsTableOk (r : RegFile) (x : Nat) : Bool :=
  let n := r.read (WRS_STCNT_COUNT x)
  let b := fun e i => wsByte r x e i
  ((List.range n).all fun e => (wsEntryBad (b e)).isNone) && (wsTableBad n b).isNone && wsHasDefault n b

/-! ### Registers -/

/-- SLOT `b` of SRV_ACT of loop `l` names a valid slot bound to that loop and band (R190). -/
def slotOk (r : RegFile) (l b slot : Nat) : Bool :=
  r.read (SRV_PALDIR_VALID slot) == 1 && r.read (SRV_PALDIR_LOOP slot) == l && r.read (SRV_PALDIR_SPEED slot) == b

/-- The bytes of a word that a mask covers. -/
def maskBytes (mask : Nat) : List Nat := (List.range 4).filter fun i => mask / 2 ^ (8 * i) % 256 != 0

/-- The conditions a register's table sets beyond the plain range of each field, read in the register file `r`, for the fields that
`mask` covers. -/
def crossOk (r : RegFile) (off mask : Nat) : Bool :=
  if off == SRV_SHK_EN.off then
    r.read SRV_SHK_EN == 0 || (1 ≤ r.read SRV_SHK_LIMIT && r.read SRV_SHK_LIMIT ≤ 32767)
  else if off == SLD_LIM_MIN.off || off == SLD_MISC_PARK.off then
    let p := SLD_MISC_PARK.num (r.read SLD_MISC_PARK)
    SLD_LIM_MIN.num (r.read SLD_LIM_MIN) ≤ p && p ≤ SLD_LIM_MAX.num (r.read SLD_LIM_MAX)
  else if off == STR_CFG_EXT.off then r.read STR_CFG_EXT % 8 == 0
  else if off == DET_CFG_M.off then
    let n := r.read DET_CFG_NTAPS
    5 ≤ n && n % 2 == 1 && 6 ≤ r.read DET_CFG_MU && [8, 16, 32, 64].contains (r.read DET_CFG_M)
      && 8 ≤ r.read DET_CFG_LLRCLIP && r.read DET_CFG_LLRCLIP ≤ 31
  else if off == DET_TGT_A.off then
    let a := s8 (r.read DET_TGT_A)
    let b := s8 (r.read DET_TGT_B)
    let c := s8 (r.read DET_TGT_C)
    let d := s8 (r.read DET_TGT_D)
    1 ≤ b && b ≤ 64 && 0 ≤ a && a ≤ b && 2 * c.natAbs ≤ b.natAbs && 2 * d.natAbs ≤ b.natAbs
  else if off == CWD_DEC_MAXIT.off then 1 ≤ r.read CWD_DEC_BUSYIT && r.read CWD_DEC_BUSYIT ≤ r.read CWD_DEC_MAXIT
  else if off == WRS_RATIO_BRATIO.off then 8 ≤ r.read WRS_RATIO_BRATIO && r.read WRS_RATIO_BRATIO ≤ r.read WRS_RATIO_ERATIO
  else if off == WRS_VFY_VFYIT.off then 1 ≤ r.read WRS_VFY_MARGINIT && r.read WRS_VFY_MARGINIT ≤ r.read WRS_VFY_VFYIT
  else if off == HLT_WCFG_RETIRE.off || off == HLT_WCFG2_WARN.off then
    500 ≤ r.read HLT_WCFG2_WARN && r.read HLT_WCFG2_WARN ≤ r.read HLT_WCFG_RETIRE
  else if (FIF_THR_THR 0).off ≤ off && off < FIF_IRQ_EN_EN.off then
    match (List.range 3).find? fun i => (FIF_THR_THR i).off == off with
    | none => true
    | some i => 1 ≤ r.read (FIF_THR_THR i) && r.read (FIF_THR_THR i) ≤ r.read (FIF_CAP_WORDS i)
  else if off == THM_SOFT_SOFT.off then
    let v := toSigned 16 (r.read THM_SOFT_SOFT)
    960 ≤ v && v ≤ 1600 && v + 80 ≤ toSigned 16 (r.read THM_HARD_HARD)
  else if off == THM_RISE_RISE.off then 8 ≤ r.read THM_RISE_RISE && r.read THM_RISE_RISE ≤ 160
  else if off == THM_DUTY_SLOPE.off then
    1 ≤ r.read THM_DUTY_SLOPE && r.read THM_DUTY_SLOPE ≤ 50 && 10 ≤ r.read THM_DUTY_FLOOR && r.read THM_DUTY_FLOOR ≤ 100
  else if off == THM_PERIOD_PERIOD.off then
    let p := r.read THM_PERIOD_PERIOD
    p % 4096 == 0 && 262144 ≤ p && p ≤ 16777216
  else if off / 0x100000 == 5 && (SRV_ACT_SLOT0 0).off ≤ off && off < (SRV_PALDIR_BASE 0).off then
    match (List.range 17).find? fun l => (SRV_ACT_SLOT0 l).off == off with
    | none => true
    | some l => [(0, SRV_ACT_SLOT0 l), (1, SRV_ACT_SLOT1 l), (2, SRV_ACT_SLOT2 l)].all fun p =>
        Nat.land mask p.2.mask == 0 || slotOk r l p.1 (r.read p.2)
  else if (SRV_PAL_COEF 0).off ≤ off && off < (SRV_PAL_COEF 16384).off then
    let i := (off - (SRV_PAL_COEF 0).off) / 4
    r.read (SRV_PAL_SIGN i) == if (r.read (SRV_PAL_COEF i)).testBit 23 then 0xFF else 0
  else if (CHN_BT_B0 0).off ≤ off && off < (CHN_BT_B0 12288).off then
    let w := (off - (CHN_BT_B0 0).off) / 4
    let b := fun i => btByte r (w / 256) (w % 256 / 8) i
    (maskBytes mask).all fun i =>
      btOk b (w % 8 * 4 + i) && (w % 8 * 4 + i != 0x15 || btOk b 0x16)
  else if (WRS_STCNT_COUNT 0).off ≤ off && off < (WRS_STCNT_COUNT 128).off then
    wsTableOk r ((off - (WRS_STCNT_COUNT 0).off) / 4)
  else if (WRS_ST_B0 0).off ≤ off && off < (WRS_ST_B0 32768).off then
    let w := (off - (WRS_ST_B0 0).off) / 4
    let b := fun i => wsByte r (w / 256) (w % 256 / 4) i
    wsTableOk r (w / 256) && (maskBytes mask).all fun i =>
      wsByteOk b (w % 4 * 4 + i) && (w % 4 * 4 + i != 4 || wsByteOk b 5)
  else true

/-- Every Canvas-set field of a register that `mask` covers is in range, in the register file `r`. -/
def regInRange (r : RegFile) (off mask : Nat) : Bool :=
  ((fieldsAt off).all fun f => f.setBy != .canvas || Nat.land mask f.mask == 0 || f.inRange (r.read f)) && crossOk r off mask

end Sys2Proof.Machine
end

