-- ==== Sys2Proof/Machine/CanvasFmt.lean ====
section
/-! DEFINITION. The Canvas image: its records and the checks of APPLY (R74 to R93, R98 steps 1 to 6; R176, R177, R178,
R185, R251, R293, R367). -/

namespace Sys2Proof.Machine

open R

/-! ### Bytes and records (R74, Table 3.1) -/

abbrev Image := List Byte
def rd8 (im : Image) (o : Nat) : Nat := (im.getD o 0).toNat
def rd16 (im : Image) (o : Nat) : Nat := rd8 im o + 256 * rd8 im (o + 1)
def rd32 (im : Image) (o : Nat) : Nat := rd16 im o + 65536 * rd16 im (o + 2)

/-- A record of the image: index, image offset, length, type, version and instance. -/
structure Rec where
  idx : Nat
  off : Nat
  len : Nat
  ty : Nat
  ver : Nat
  inst : Nat
  deriving DecidableEq, Repr

/-- A failed check: error code (Table 3.13), record index and image offset (R98). -/
structure CErr where
  code : Nat
  idx : Nat
  off : Nat
  deriving DecidableEq, Repr

def eLENGTH := 0x05
def eMAGIC := 0x06
def ePART := 0x07
def eREC_CRC := 0x08
def eIMG_CRC := 0x09
def eTYPE := 0x0A
def eORDER := 0x0B
def eMISSING := 0x0C
def eRANGE := 0x0D
def eRESERVED := 0x0E
def eLANE := 0x0F
def eLOOP_FIT := 0x10
def eMEM_LAYOUT := 0x11
def eQUEUES := 0x14
def eSELF_DISABLE := 0x15
def ePATCH := 0x16
def eREG_TARGET := 0x17
def eSECURITY := 0x18

def tHEADER := 0x01
def tHEADS := 0x02
def tLANES := 0x03
def tLOOPS := 0x04
def tPALETTE := 0x05
def tBANDS := 0x06
def tWSTRAT := 0x07
def tSTRIPE := 0x08
def tQUEUES := 0x09
def tMEMLAYOUT := 0x0A
def tPATCH := 0x0B
def tTHERMAL := 0x0C
def tSECURITY := 0x0D
def tMODE := 0x0E
def tREGS := 0x10
def tEND := 0x7F

/-- No record applies. -/
def noRec := 0xFFFF

def Rec.b (r : Rec) (im : Image) (o : Nat) : Nat := rd8 im (r.off + o)
def Rec.h (r : Rec) (im : Image) (o : Nat) : Nat := rd16 im (r.off + o)
def Rec.w (r : Rec) (im : Image) (o : Nat) : Nat := rd32 im (r.off + o)
/-- A signed 16-bit field. -/
def Rec.sh (r : Rec) (im : Image) (o : Nat) : Int := toSigned 16 (r.h im o)

/-- The length that a type implies, with the counts as stored (R98 step 2). -/
def impliedLen (im : Image) (r : Rec) : Nat :=
  match r.ty with
  | 0x01 => 36
  | 0x02 => 44
  | 0x03 => 44
  | 0x04 => 560
  | 0x05 => 16 + 4 * r.h im 0x0A
  | 0x06 => 1040
  | 0x07 => 16 + 16 * r.h im 0x08
  | 0x08 => 24
  | 0x09 => 44
  | 0x0A => 20 + 12 * r.h im 0x0C
  | 0x0B => 80 + 12 * r.h im 0x0A
  | 0x0C => 44
  | 0x0D => 20
  | 0x0E => 28
  | 0x10 => 16 + 8 * r.h im 0x08
  | _ => 16

def knownType (t : Nat) : Bool := (1 ≤ t && t ≤ 0x0E) || t == 0x10 || t == 0x7F

/-- INST lies in the range Table 3.2 gives for the type; a WSTRAT layer group beyond 15 counts as out of that range, so that step 2 and
not step 6 reports it (DESIGN CHOICE, log entry 175). -/
def instOk (t inst : Nat) : Bool :=
  if t == tPALETTE then inst < 256
  else if t == tBANDS then inst < 48 || inst == 0xFF
  else if t == tWSTRAT then inst / 256 < 8 && inst % 256 < 16
  else if t == tPATCH then inst < 6 || inst == 0xFF
  else if t == tMODE then inst < 6
  else inst == 0

/-- Step 2 for one record, `prev` being the type and instance before it (R98, R76). -/
def checkRec (im : Image) (r : Rec) (prev : Option (Nat × Nat)) : Option CErr :=
  if r.len < 12 || r.len % 4 != 0 || im.length < r.off + r.len then some ⟨eLENGTH, r.idx, r.off + 4⟩
  else if (crc32c (((im.drop r.off).take (r.len - 4)).map BitVec.toNat)) != rd32 im (r.off + r.len - 4) then
    some ⟨eREC_CRC, r.idx, r.off + r.len - 4⟩
  else if !knownType r.ty then some ⟨eTYPE, r.idx, r.off⟩
  else if r.ver != 1 then some ⟨eTYPE, r.idx, r.off + 1⟩
  else if r.len != impliedLen im r then some ⟨eLENGTH, r.idx, r.off + 4⟩
  else
    let bad := match prev with
      | none => if r.ty != tHEADER then some r.off else none
      | some (t, i) =>
        if r.ty < t then some r.off
        else if r.ty == t && r.inst ≤ i then some (r.off + 2)
        else none
    match bad with
    | some o => some ⟨eORDER, r.idx, o⟩
    | none => if instOk r.ty r.inst then none else some ⟨eORDER, r.idx, r.off + 2⟩

/-- Walk the image: its records, or the first check of step 2 that fails. `fuel` bounds the walk by the image length. -/
def walk (im : Image) : Nat → Nat → Nat → Option (Nat × Nat) → List Rec × Option CErr
  | 0, _, _, _ => ([], none)
  | fuel + 1, idx, off, prev =>
    if im.length ≤ off then ([], none)
    else
      let r : Rec := ⟨idx, off, rd32 im (off + 4), rd8 im off, rd8 im (off + 1), rd16 im (off + 2)⟩
      match checkRec im r prev with
      | some e => ([], some e)
      | none =>
        let k := walk im fuel (idx + 1) (off + r.len) (some (r.ty, r.inst))
        (r :: k.1, k.2)

/-! ### Helpers over the records -/

def Rec.err (r : Rec) (code off : Nat) : CErr := ⟨code, r.idx, r.off + off⟩

/-- The failing check at the lowest offset. -/
def lowest : List CErr → Option CErr
  | [] => none
  | e :: es =>
    match lowest es with
    | none => some e
    | some f => if f.off < e.off then some f else some e

def failIf (b : Bool) (e : CErr) : List CErr := if b then [e] else []

def ofType (rs : List Rec) (t : Nat) : List Rec := rs.filter fun r => r.ty == t
def recOf (rs : List Rec) (t : Nat) : Rec := ((ofType rs t).head?).getD ⟨noRec, 0, 0, 0, 0, 0⟩

/-- Reserved bytes of a record. -/
def reserved (im : Image) (r : Rec) (o n : Nat) : List CErr :=
  (List.range n).flatMap fun i => failIf (r.b im (o + i) != 0) (r.err eRESERVED (o + i))
def range8 (im : Image) (r : Rec) (o lo hi : Nat) : List CErr :=
  failIf (r.b im o < lo || hi < r.b im o) (r.err eRANGE o)
def range16 (im : Image) (r : Rec) (o lo hi : Nat) : List CErr :=
  failIf (r.h im o < lo || hi < r.h im o) (r.err eRANGE o)
def rangeS16 (im : Image) (r : Rec) (o : Nat) (lo hi : Int) : List CErr :=
  failIf (r.sh im o < lo || hi < r.sh im o) (r.err eRANGE o)
/-- Reserved bits of a byte, given as the mask of its assigned bits. -/
def resBits (im : Image) (r : Rec) (o mask : Nat) : List CErr :=
  failIf (r.b im o &&& (255 - mask) != 0) (r.err eRESERVED o)

def popcount (n w : Nat) : Nat := ((List.range w).filter fun i => n.testBit i).length

/-! ### Step 5 (R98): ranges and reserved bytes -/

def headsStep5 (im : Image) (r : Rec) : List CErr :=
  (List.range 4).flatMap fun n =>
    let o := 8 + 8 * n
    let decl := (r.b im o).testBit 0
    let spots := r.b im (o + 1)
    let ws := r.b im (o + 2)
    resBits im r o 3
      ++ failIf (if decl then spots < 1 || 6 < spots else spots != 0) (r.err eRANGE (o + 1))
      ++ failIf (2 ^ spots ≤ ws || 64 ≤ ws || 2 < popcount ws 8) (r.err eRANGE (o + 2))
      ++ reserved im r (o + 3) 1 ++ reserved im r (o + 6) 2

def lanesStep5 (im : Image) (r : Rec) : List CErr :=
  ((List.range 28).flatMap fun l => failIf (23 < r.b im (8 + l) && r.b im (8 + l) != 0xFF) (r.err eRANGE (8 + l)))
    ++ (List.range 4).flatMap fun h => resBits im r (0x24 + h) 3

/-- Code of input or output `i` in a 16-bit field of codes. -/
def nib (v i : Nat) : Nat := v / 16 ^ i % 16

/-- One loop descriptor at record offset `d` (Tables 7.2 and 7.3). -/
def descStep5 (im : Image) (r : Rec) (d : Nat) : List CErr :=
  let p := r.b im (d + 1)
  let m := r.b im (d + 2)
  range8 im r d 1 8 ++ range8 im r (d + 1) 1 4 ++ range8 im r (d + 2) 1 4
    ++ resBits im r (d + 3) 1 ++ resBits im r (d + 4) 0x33 ++ resBits im r (d + 5) 0x0F
    ++ failIf (2 ^ p ≤ r.b im (d + 5) % 16) (r.err eRANGE (d + 5))
    ++ ((List.range 4).flatMap fun i =>
      let c := nib (r.h im (d + 6)) i
      failIf (if i < p then 9 < c else c != 0) (r.err eRANGE (d + 6)))
    ++ ((List.range 4).flatMap fun k =>
      let c := nib (r.h im (d + 8)) k
      failIf (if k < m then !(c < 4 || c == 8 || c == 15) else c != 0) (r.err eRANGE (d + 8)))
    ++ ((List.range 5).flatMap fun k => range8 im r (d + 0x0A + k) 0 23)
    ++ range8 im r (d + 0x0F) 1 64 ++ range8 im r (d + 0x10) 1 255 ++ reserved im r (d + 0x11) 1
    ++ range16 im r (d + 0x12) 1 65535
    ++ ((List.range 4).flatMap fun i =>
      let v := r.h im (d + 0x14 + 2 * i)
      failIf (if i < p then v < 1 || 32767 < v else v != 0) (r.err eRANGE (d + 0x14 + 2 * i)))
    ++ reserved im r (d + 0x1C) 4

def loopsStep5 (im : Image) (r : Rec) : List CErr :=
  range8 im r 8 17 17 ++ reserved im r 9 3 ++ (List.range 17).flatMap fun l => descStep5 im r (0x0C + 32 * l)

def paletteStep5 (im : Image) (r : Rec) : List CErr :=
  range8 im r 8 0 16 ++ range8 im r 9 0 2 ++ range16 im r 0x0A 1 256
    ++ (List.range (r.h im 0x0A)).flatMap fun i =>
      failIf (r.b im (0x0C + 4 * i + 3) != if 128 ≤ r.b im (0x0C + 4 * i + 2) then 255 else 0)
        (r.err eRESERVED (0x0C + 4 * i))

def bandsStep5 (im : Image) (r : Rec) : List CErr :=
  range16 im r 8 32 32 ++ range16 im r 0x0A 32 32
    ++ (List.range 32).flatMap fun k =>
      match btRowBad fun i => r.b im (0x0C + 32 * k + i) with
      | none => []
      | some i =>
        [r.err (if 0x18 ≤ i || (i == 0x17 && 4 ≤ r.b im (0x0C + 32 * k + i)) then eRESERVED else eRANGE) (0x0C + 32 * k + i)]

def wstratStep5 (im : Image) (r : Rec) : List CErr :=
  range16 im r 8 1 64 ++ reserved im r 0x0A 2
    ++ (List.range (r.h im 8)).flatMap fun e =>
      match wsEntryBad fun i => r.b im (0x0C + 16 * e + i) with
      | none => []
      | some i => [r.err (if 9 ≤ i then eRESERVED else eRANGE) (0x0C + 16 * e + i)]

def stripeStep5 (im : Image) (r : Rec) : List CErr :=
  range8 im r 8 8 20 ++ range8 im r 9 1 2 ++ range8 im r 0x0A 5 25 ++ reserved im r 0x0B 1

def queuesStep5 (im : Image) (r : Rec) : List CErr :=
  (List.range 2).flatMap fun p =>
    let o := 8 + 16 * p
    resBits im r o 1 ++ range8 im r (o + 1) 1 64 ++ range8 im r (o + 2) 1 64 ++ range8 im r (o + 3) 0 7
      ++ range16 im r (o + 4) 1 4095 ++ range16 im r (o + 6) 64 4096 ++ reserved im r (o + 8) 8

def memStep5 (im : Image) (r : Rec) : List CErr :=
  failIf (r.b im 8 != 8 && r.b im 8 != 16) (r.err eRANGE 8) ++ reserved im r 9 1 ++ range16 im r 0x0C 1 16
    ++ reserved im r 0x0E 2
    ++ (List.range (r.h im 0x0C)).flatMap fun e =>
      range16 im r (0x10 + 12 * e) 1 9 ++ reserved im r (0x12 + 12 * e) 2

def patchStep5 (im : Image) (r : Rec) : List CErr :=
  range8 im r 8 0 16 ++ reserved im r 9 1 ++ range16 im r 0x0A 0 256
    ++ ((List.range 16).flatMap fun e => range16 im r (0x0C + 4 * e) 0 16383 ++ range16 im r (0x0E + 4 * e) 0 255)

def thermalStep5 (im : Image) (r : Rec) : List CErr :=
  let p := r.w im 0x14
  rangeS16 im r 8 960 1600 ++ rangeS16 im r 0x0A 1440 1760 ++ rangeS16 im r 0x0C 1792 1888
    ++ rangeS16 im r 0x0E 8 160 ++ range8 im r 0x10 1 50 ++ range8 im r 0x11 10 100 ++ reserved im r 0x12 2
    ++ failIf (p % 4096 != 0 || p < 262144 || 16777216 < p) (r.err eRANGE 0x14)
    ++ ((List.range 7).flatMap fun i => rangeS16 im r (0x18 + 2 * i) (-160) 1760) ++ reserved im r 0x26 2

def securityStep5 (im : Image) (r : Rec) : List CErr :=
  failIf (32 ≤ r.w im 8) (r.err eRESERVED 8) ++ range8 im r 0x0C 1 1 ++ reserved im r 0x0D 3

def modeStep5 (im : Image) (r : Rec) : List CErr :=
  failIf (!([5400, 7200, 9000].contains (r.h im 8))) (r.err eRANGE 8) ++ range8 im r 0x0A 0 15 ++ range8 im r 0x0B 0 2
    ++ range8 im r 0x0C 0 2 ++ range8 im r 0x0D 1 3 ++ range8 im r 0x0E 1 8 ++ range8 im r 0x0F 0 2
    ++ range8 im r 0x10 0 2 ++ range8 im r 0x11 0 1 ++ range16 im r 0x12 1 1440 ++ reserved im r 0x14 4

/-! ### REGS (R92) -/

/-- The register is written by a typed record (THERMAL, BANDS, WSTRAT, PALETTE, PATCH, QUEUES, SECURITY). -/
def typedReg (off : Nat) : Bool :=
  (THM_SOFT_SOFT.off ≤ off && off < THM_CFG_PKLIM.off)
    || ((CHN_BT_B0 0).off ≤ off && off < (CHN_BT_B0 12288).off)
    || ((WRS_STCNT_COUNT 0).off ≤ off && off < (WRS_STCNT_COUNT 128).off)
    || ((WRS_ST_B0 0).off ≤ off && off < (WRS_ST_B0 32768).off)
    || ((SRV_ACT_SLOT0 0).off ≤ off && off < (SRV_PAL_COEF 16384).off
      && (fieldsAt off).any fun f => f.setBy == .canvas)
    || off / 0x100000 == 0x14 || off == (HST_PORT_EN 0).off || off == (HST_PORT_EN 1).off || off == DBG_STAT_LOCK.off

/-- The register holds a Canvas-set field that REGS may set. -/
def regsTarget (off : Nat) : Bool :=
  off % 4 == 0 && !typedReg off && (fieldsAt off).any fun f => f.setBy == .canvas

def regsEntries (im : Image) (r : Rec) : List (Nat × Nat × Nat) :=
  (List.range (r.h im 8)).map fun e => (0x0C + 8 * e, r.w im (0x0C + 8 * e), r.w im (0x10 + 8 * e))

/-- Write the Canvas-set fields of one register from a word. -/
def writeCanvasWord (rf : RegFile) (off v : Nat) : RegFile :=
  (fieldsAt off).foldl (fun rf f => if f.setBy == .canvas then rf.write f (f.ofWord v) else rf) rf

/-- FIFO capacities of the MEMLAYOUT regions EVENT, TELEM and FLTLOG (R451). -/
def fifoWords (size : Nat) : Nat := 16384 * 2 ^ size.log2
def regionSize (im : Image) (r : Rec) (id : Nat) : Nat :=
  (((List.range (r.h im 0x0C)).find? fun e => r.h im (0x10 + 12 * e) == id).map
    fun e => r.w im (0x18 + 12 * e)).getD 1
def capacities (im : Image) (mem : Rec) (rf : RegFile) : RegFile :=
  ((rf.write (FIF_CAP_WORDS 0) (fifoWords (regionSize im mem 6))).write (FIF_CAP_WORDS 1)
    (fifoWords (regionSize im mem 5))).write (FIF_CAP_WORDS 2) (fifoWords (regionSize im mem 7))

/-- The registers as the capacities and all REGS entries leave them. -/
def regsFile (im : Image) (mem r : Rec) (rf : RegFile) : RegFile :=
  (regsEntries im r).foldl (fun rf e => if regsTarget e.2.1 then writeCanvasWord rf e.2.1 e.2.2 else rf)
    (capacities im mem rf)

/-- Step 5 for REGS: the fields that each entry sets. A condition between registers is judged with every entry applied. -/
def regsStep5 (im : Image) (mem r : Rec) : List CErr :=
  let rf := regsFile im mem r []
  range16 im r 8 1 4096 ++ reserved im r 0x0A 2
    ++ (regsEntries im r).flatMap fun e =>
      failIf (regsTarget e.2.1 && (((fieldsAt e.2.1).any fun f =>
        f.setBy == .canvas && !f.inRange (f.ofWord e.2.2)) || !crossOk (writeCanvasWord rf e.2.1 e.2.2) e.2.1 (2 ^ 32 - 1)))
        (r.err eRANGE (e.1 + 4))

def regsStep6 (im : Image) (r : Rec) : List CErr :=
  (regsEntries im r).flatMap fun e =>
    failIf (!regsTarget e.2.1 || e.2.2 !=
      (fieldsAt e.2.1).foldl (fun a f => if f.setBy == .canvas then a + f.ofWord e.2.2 * 2 ^ f.lsb else a) 0)
      (r.err eREG_TARGET e.1)

def step5 (im : Image) (mem r : Rec) : List CErr :=
  match r.ty with
  | 0x01 => range8 im r 0x11 0 5 ++ reserved im r 0x1C 4
  | 0x02 => headsStep5 im r
  | 0x03 => lanesStep5 im r
  | 0x04 => loopsStep5 im r
  | 0x05 => paletteStep5 im r
  | 0x06 => bandsStep5 im r
  | 0x07 => wstratStep5 im r
  | 0x08 => stripeStep5 im r
  | 0x09 => queuesStep5 im r
  | 0x0A => memStep5 im r
  | 0x0B => patchStep5 im r
  | 0x0C => thermalStep5 im r
  | 0x0D => securityStep5 im r
  | 0x0E => modeStep5 im r
  | 0x10 => regsStep5 im mem r
  | _ => []

/-! ### Contents of the records -/

def headCfgOf (im : Image) (r : Rec) (n : Nat) : HeadCfg :=
  let o := 8 + 8 * n
  { declared := (r.b im o).testBit 0, absentOk := (r.b im o).testBit 1, spots := r.b im (o + 1)
    wspots := r.b im (o + 2), expectId := r.h im (o + 4) }
def headsOf (im : Image) (rs : List Rec) : List HeadCfg := (List.range 4).map (headCfgOf im (recOf rs tHEADS))
def declaredIn (hs : List HeadCfg) (h : Nat) : Bool := (hs.getD h {}).declared

def descOf (im : Image) (r : Rec) (l : Nat) : LoopDesc :=
  let d := 0x0C + 32 * l
  { nst := r.b im d, nin := r.b im (d + 1), nout := r.b im (d + 2), negk := (r.b im (d + 3)).testBit 0
    home := r.b im (d + 4) % 4, alt := r.b im (d + 4) / 16 % 4, inpol := r.b im (d + 5)
    insrc := r.h im (d + 6), outdst := r.h im (d + 8), sha := r.b im (d + 0x0A), shb := r.b im (d + 0x0B)
    shc := r.b im (d + 0x0C), shl := r.b im (d + 0x0D), shk := r.b im (d + 0x0E), supn := r.b im (d + 0x0F)
    supm := r.b im (d + 0x10), holdmax := r.h im (d + 0x12)
    innov := (List.range 4).map fun i => r.h im (d + 0x14 + 2 * i) }
def loopsOf (im : Image) (rs : List Rec) : List LoopDesc := (List.range 17).map (descOf im (recOf rs tLOOPS))

/-- Coefficient words of a loop's Palette (R177). -/
def paletteWords (d : LoopDesc) : Nat := d.nst * d.nst + 2 * d.nst * (d.nout + d.nin)
/-- Loops that run: those of each declared head, and loop 16 (R85). -/
def runningLoops (hs : List HeadCfg) : List Nat := (List.range 17).filter fun l => l == 16 || declaredIn hs (l / 4)

/-- The binding in force of an active lane: its BIND, or its home input (R81, Table 0.4). -/
def boundInput (bind : Nat → Nat) (l : Nat) : Nat := if bind l == 0xFF then 6 * (l / 7) + l % 7 else bind l

/-! ### Step 6 (R98): checks across records, in its order -/

/-- R79: each side declares a head; a breach names the FLAGS of the side's first head (DESIGN CHOICE, log entry 174). -/
def checkR79 (im : Image) (rs : List Rec) : List CErr :=
  let r := recOf rs tHEADS
  let hs := headsOf im rs
  (List.range 2).flatMap fun d =>
    failIf (!declaredIn hs (2 * d) && !declaredIn hs (2 * d + 1)) (r.err eRANGE (8 + 16 * d))

def checkR81 (im : Image) (rs : List Rec) : List CErr :=
  let r := recOf rs tLANES
  let hs := headsOf im rs
  let bind := fun l => r.b im (8 + l)
  (List.range 28).flatMap fun l =>
    let h := l / 7
    if !declaredIn hs h then []
    else if l % 7 == 6 then failIf (bind l != 0xFF) (r.err eLANE (8 + l))
    else
      let v := boundInput bind l
      failIf (v / 6 != h || (List.range (l % 7)).any fun k => boundInput bind (7 * h + k) == v) (r.err eLANE (8 + l))

def checkR177 (im : Image) (rs : List Rec) : List CErr :=
  let r := recOf rs tLOOPS
  let ds := loopsOf im rs
  let hs := headsOf im rs
  (List.range 17).flatMap fun l =>
    let d := ds.getD l {}
    let srcs := (List.range d.nin).map fun i => nib d.insrc i
    let dsts := (List.range d.nout).map fun k => nib d.outdst k
    let acts := dsts.filter fun c => c < 4
    let earlier := (List.range (l % 4)).flatMap fun k =>
      let e := ds.getD (l / 4 * 4 + k) {}
      ((List.range e.nout).map fun j => nib e.outdst j).filter fun c => c < 4
    let o := 0x0C + 32 * l
    if l == 16 then
      failIf (srcs.any fun c => c != 8 && c != 9) (r.err eRANGE (o + 6))
        ++ failIf ((dsts.filter fun c => c == 8).length != 1 || dsts.any fun c => c != 8 && c != 15) (r.err eRANGE (o + 8))
    else
      failIf (srcs.any fun c => 7 < c) (r.err eRANGE (o + 6))
        ++ failIf ((dsts.any fun c => !(c < 4 || c == 15)) || (declaredIn hs (l / 4)
          && (acts.any fun c => earlier.contains c || 1 < (acts.filter fun x => x == c).length))) (r.err eRANGE (o + 8))

/-- R185: the load of every unit from the running loops on their HOME units. The failing field is the UNIT byte of the
first loop that does not fit. -/
def checkR185 (im : Image) (rs : List Rec) : List CErr :=
  let r := recOf rs tLOOPS
  let ds := loopsOf im rs
  let run := runningLoops (headsOf im rs)
  let cost := fun (d : LoopDesc) => 3 * d.nst + d.nin + d.nout + 24
  run.flatMap fun l =>
    let u := (ds.getD l {}).home
    let load := ((run.filter fun k => k ≤ l && (ds.getD k {}).home == u).map fun k => cost (ds.getD k {})).sum
    failIf (256 < load) (r.err eLOOP_FIT (0x0C + 32 * l + 4))

def checkR83 (im : Image) (rs : List Rec) : List CErr :=
  let ds := loopsOf im rs
  let ps := ofType rs tPALETTE
  ps.flatMap fun r =>
    let used := ((ps.filter fun q => q.inst ≤ r.inst).map fun q => q.h im 0x0A).sum
    failIf (r.h im 0x0A != paletteWords (ds.getD (r.b im 8) {}) || 16384 < used) (r.err eRANGE 0x0A)

def checkWstrat (im : Image) (r : Rec) : List CErr :=
  let n := r.h im 8
  let b := fun e i => r.b im (0x0C + 16 * e + i)
  match wsTableBad n b with
  | some e => [r.err eRANGE (0x0C + 16 * e)]
  | none => failIf (!wsHasDefault n b) (r.err eMISSING 8)

def checkPatch (im : Image) (rs : List Rec) (r : Rec) : List CErr :=
  let n := r.b im 8
  let rom := fun e => r.h im (0x0C + 4 * e)
  let pat := fun e => r.h im (0x0E + 4 * e)
  failIf (r.inst == 0xFF && (ofType rs tPATCH).any fun q => 2 ≤ q.inst && q.inst ≤ 5) (r.err ePATCH 2)
    ++ (List.range 16).flatMap fun e =>
      if e < n then
        failIf ((List.range e).any fun k => rom k == rom e) (r.err ePATCH (0x0C + 4 * e))
          ++ failIf (r.h im 0x0A ≤ pat e) (r.err ePATCH (0x0E + 4 * e))
      else failIf (rom e != 0) (r.err ePATCH (0x0C + 4 * e)) ++ failIf (pat e != 0) (r.err ePATCH (0x0E + 4 * e))

def checkR84 (im : Image) (rs : List Rec) : Option CErr :=
  rs.findSome? fun r =>
    if r.ty == tWSTRAT then (checkWstrat im r).head?
    else if r.ty == tPATCH then lowest (checkPatch im rs r)
    else none

def missing : CErr := ⟨eMISSING, noRec, 0⟩

def checkR85 (im : Image) (rs : List Rec) : List CErr :=
  let hs := headsOf im rs
  let ps := ofType rs tPALETTE
  failIf ((runningLoops hs).any fun l => (List.range 3).any fun sp =>
      !(ps.any fun p => p.b im 8 == l && p.b im 9 == sp)) missing
    ++ failIf ((hs.any fun h => h.declared && h.wspots != 0) && (ofType rs tWSTRAT).length < 128) missing

/-- Usable units of 64 KiB (R86). -/
def usableUnits (gib : Nat) : Nat := 15360 * gib

/-- Table 3.7: the sizes allowed for a region. -/
def regionLimits (id asm wr : Nat) : Nat × Nat :=
  match id with
  | 1 => ((asm + wr + 1023) / 1024, 2 ^ 32)
  | 2 => (512, 65536)
  | 3 => (256, 65536)
  | 4 => (64, 32768)
  | 5 => (1, 256)
  | 6 => (1, 256)
  | 7 => (1, 256)
  | 8 => (1, 4096)
  | _ => (1, 16384)

def regionsOf (im : Image) (r : Rec) : List Region :=
  (List.range (r.h im 0x0C)).map fun e =>
    ⟨r.h im (0x10 + 12 * e), r.w im (0x14 + 12 * e), r.w im (0x18 + 12 * e)⟩

/-- The gaps that regions leave among `units` units from unit `at'` on, in ascending order, as base and size (R86). -/
def gapsFrom (units : Nat) : Nat → List Region → List (Nat × Nat)
  | at', [] => if at' < units then [(at', units - at')] else []
  | at', g :: gs =>
    let rest := gapsFrom units (max at' (g.base + g.size)) gs
    if at' < min g.base units then (at', min g.base units - at') :: rest else rest
/-- The units that no region covers. -/
def uncovered (units : Nat) (gs : List Region) : List (Nat × Nat) := gapsFrom units 0 (sortBy (fun a b => a.base ≤ b.base) gs)
/-- The lowest `n` units of the gaps, which hold CAL's layer bodies (R86, R367), and the rest, which STR uses for layer-extent
buffering. -/
def takeUnits : Nat → List (Nat × Nat) → List (Nat × Nat) × List (Nat × Nat)
  | _, [] => ([], [])
  | n, g :: gs =>
    if n == 0 then ([], g :: gs)
    else if n < g.2 then ([(g.1, n)], (g.1 + n, g.2 - n) :: gs)
    else
      let r := takeUnits (n - g.2) gs
      (g :: r.1, r.2)

/-- R86, and the least number of uncovered units (R367). -/
def checkR86 (im : Image) (rs : List Rec) : List CErr :=
  let r := recOf rs tMEMLAYOUT
  let gs := regionsOf im r
  let units := usableUnits (r.b im 8)
  let size := fun id => ((gs.find? fun g => g.id == id).map Region.size).getD 0
  ((List.range gs.length).flatMap fun e =>
    let g := gs.getD e ⟨0, 0, 0⟩
    let before := gs.take e
    let lim := regionLimits g.id (size 2) (size 3)
    failIf (before.any fun x => x.id == g.id) (r.err eMEM_LAYOUT (0x10 + 12 * e))
      ++ failIf (units < g.base + g.size || before.any fun x => x.base < g.base + g.size && g.base < x.base + x.size)
        (r.err eMEM_LAYOUT (0x14 + 12 * e))
      ++ failIf (g.size < lim.1 || lim.2 < g.size) (r.err eMEM_LAYOUT (0x18 + 12 * e)))
  ++ failIf (((List.range 7).any fun i => !(gs.any fun g => g.id == i + 1))
      || ((uncovered units gs).map Prod.snd).sum < 144) (r.err eMEM_LAYOUT 0x0C)

def queueCfgOf (im : Image) (r : Rec) (p : Nat) : QueueCfg :=
  let o := 8 + 16 * p
  { enable := (r.b im o).testBit 0, ioqp := r.b im (o + 1), vectors := r.b im (o + 2), arb := r.b im (o + 3)
    mqes := r.h im (o + 4), inFlight := r.h im (o + 6) }

/-- R88: QUEUES before SELF_DISABLE. `mgmt` is the port with management custody. A breach names port A's FLAGS where no port is enabled,
port B's IN_FLIGHT where the sum is too large (DESIGN CHOICE, log entry 173). -/
def checkR88 (im : Image) (rs : List Rec) (mgmt : Option Nat) : Option CErr :=
  let r := recOf rs tQUEUES
  let a := queueCfgOf im r 0
  let b := queueCfgOf im r 1
  let sum := (if a.enable then a.inFlight else 0) + (if b.enable then b.inFlight else 0)
  if !a.enable && !b.enable then some (r.err eQUEUES 8)
  else if 4096 < sum then some (r.err eQUEUES 0x1E)
  else match mgmt with
    | none => none
    | some p => if (queueCfgOf im r p).enable then none else some (r.err eSELF_DISABLE (8 + 16 * p))

def checkR89 (im : Image) (rs : List Rec) : List CErr :=
  let r := recOf rs tTHERMAL
  failIf (r.sh im 0x0A < r.sh im 8 + 80) (r.err eRANGE 0x0A)
    ++ failIf (r.sh im 0x0C < r.sh im 0x0A + 32) (r.err eRANGE 0x0C)
    ++ (List.range 6).flatMap fun i => failIf (r.sh im (0x1A + 2 * i) ≤ r.sh im (0x18 + 2 * i)) (r.err eRANGE (0x1A + 2 * i))

def checkR90 (im : Image) (rs : List Rec) : List CErr :=
  let r := recOf rs tSECURITY
  let q := recOf rs tQUEUES
  failIf (!((List.range 2).any fun p => (r.w im 8).testBit (3 + p) && (queueCfgOf im q p).enable)) (r.err eSECURITY 8)

def checkR91 (im : Image) (rs : List Rec) : Option CErr :=
  let hs := headsOf im rs
  (ofType rs tMODE).findSome? fun r =>
    let m := r.b im 0x0A
    if (List.range 2).all fun d => (List.range 4).any fun h => h / 2 == d && m.testBit h && declaredIn hs h then none
    else some (r.err eRANGE 0x0A)

/-- Step 1: the HEADER fields. -/
def step1 (im : Image) (stepping : Nat) : Option CErr :=
  lowest (failIf (rd32 im 8 != 0x53564E43) ⟨eMAGIC, 0, 8⟩ ++ failIf (rd16 im 0x0C != 1) ⟨eMAGIC, 0, 0x0C⟩
    ++ failIf (rd16 im 0x0E != 0x9648) ⟨ePART, 0, 0x0E⟩ ++ failIf (stepping < rd8 im 0x10) ⟨ePART, 0, 0x10⟩)

/-- Step 3: RECCNT, IMGLEN and IMGCRC. -/
def step3 (im : Image) (rs : List Rec) (cnvLen : Nat) : Option CErr :=
  lowest (failIf (rd16 im 0x12 != rs.length) ⟨eIMG_CRC, 0, 0x12⟩
    ++ failIf (rd32 im 0x14 != cnvLen) ⟨eIMG_CRC, 0, 0x14⟩
    ++ (ofType rs tEND).flatMap fun r => failIf (crc32c ((im.take (r.off + 8)).map BitVec.toNat) != r.w im 8) (r.err eIMG_CRC 8))

/-- Step 4: the records and instances that Table 3.2 requires. -/
def step4 (rs : List Rec) : Option CErr :=
  let has := fun t i => rs.any fun r => r.ty == t && r.inst == i
  let need := [(0x01, 0), (0x02, 0), (0x03, 0), (0x04, 0), (0x06, 0xFF), (0x08, 0), (0x09, 0), (0x0A, 0), (0x0C, 0),
    (0x0D, 0), (0x0E, 0), (0x0E, 1), (0x0E, 2), (0x0E, 3), (0x0E, 4), (0x0E, 5), (0x7F, 0)]
  if need.all fun p => has p.1 p.2 then none else some missing

/-- Step 6. -/
def step6 (im : Image) (rs : List Rec) (mgmt : Option Nat) : Option CErr :=
  (lowest (checkR79 im rs)).orElse fun _ => (lowest (checkR81 im rs)).orElse fun _ =>
  (lowest (checkR177 im rs)).orElse fun _ => (lowest (checkR185 im rs)).orElse fun _ =>
  ((checkR83 im rs).head?).orElse fun _ => (checkR84 im rs).orElse fun _ =>
  ((checkR85 im rs).head?).orElse fun _ => (lowest (checkR86 im rs)).orElse fun _ =>
  (checkR88 im rs mgmt).orElse fun _ => (lowest (checkR89 im rs)).orElse fun _ =>
  ((checkR90 im rs).head?).orElse fun _ => (checkR91 im rs).orElse fun _ =>
  (ofType rs tREGS).findSome? fun r => lowest (regsStep6 im r)

/-- Steps 1 to 6 of R98: the records, and the first check that fails. -/
def validate (im : Image) (stepping cnvLen : Nat) (mgmt : Option Nat) : List Rec × Option CErr :=
  match step1 im stepping with
  | some e => ([], some e)
  | none =>
    match walk im (im.length + 1) 0 0 none with
    | (rs, some e) => (rs, some e)
    | (rs, none) =>
      (rs, (step3 im rs cnvLen).orElse fun _ => (step4 rs).orElse fun _ =>
        (rs.findSome? fun r => lowest (step5 im (recOf rs tMEMLAYOUT) r)).orElse fun _ => step6 im rs mgmt)

/-! ### What COMMITTING loads (R98, R442, R451) -/

def modeOf (im : Image) (r : Rec) : ModeCfg :=
  { rpm := r.h im 8, heads := r.b im 0x0A, wspots := r.b im 0x0B, verify := r.b im 0x0C, iter := r.b im 0x0D
    slowtmo := r.b im 0x0E, patrol := r.b im 0x0F, sched := r.b im 0x10, rahead := r.b im 0x11, calint := r.h im 0x12 }

def cfgOf (im : Image) (rs : List Rec) : CanvasCfg :=
  let st := recOf rs tSTRIPE
  let mem := recOf rs tMEMLAYOUT
  let lanes := recOf rs tLANES
  { defmode := rd8 im 0x11
    heads := headsOf im rs
    bind := (List.range 28).map fun l => if l % 7 == 6 then 0xFF else boundInput (fun l => lanes.b im (8 + l)) l
    policy := (List.range 4).map fun h => lanes.b im (0x24 + h)
    loops := loopsOf im rs
    width := st.b im 8, parity := st.b im 9, spare := st.b im 0x0A, seedLo := st.w im 0x0C, seedHi := st.w im 0x10
    queues := (List.range 2).map (queueCfgOf im (recOf rs tQUEUES))
    memSize := mem.b im 8, ways := mem.h im 0x0A, regions := regionsOf im mem
    secFlags := (recOf rs tSECURITY).w im 8
    modes := (ofType rs tMODE).map (modeOf im) }

/-- Put fields given in ascending order; the last first, so that each lands at the front of the register file. -/
def putAll (l : List (Fld × Nat)) (rf : RegFile) : RegFile := l.foldr (fun p rf => rf.write p.1 p.2) rf

def paletteWrites (im : Image) (rs : List Rec) : List (Fld × Nat) :=
  let ps := ofType rs tPALETTE
  let base := fun (r : Rec) => ((ps.filter fun q => q.inst < r.inst).map fun q => q.h im 0x0A).sum
  let slot := fun l sp => ((ps.find? fun p => p.b im 8 == l && p.b im 9 == sp).map Rec.inst).getD 0
  ((List.range 17).flatMap fun l => [(SRV_ACT_SLOT0 l, slot l 0), (SRV_ACT_SLOT1 l, slot l 1), (SRV_ACT_SLOT2 l, slot l 2)])
    ++ (ps.flatMap fun r => [(SRV_PALDIR_BASE r.inst, base r), (SRV_PALDIR_WORDS r.inst, r.h im 0x0A),
      (SRV_PALDIR_LOOP r.inst, r.b im 8), (SRV_PALDIR_SPEED r.inst, r.b im 9), (SRV_PALDIR_VALID r.inst, 1)])
    ++ ps.flatMap fun r => (List.range (r.h im 0x0A)).flatMap fun i =>
      [(SRV_PAL_COEF (base r + i), r.w im (0x0C + 4 * i)), (SRV_PAL_SIGN (base r + i), r.b im (0x0F + 4 * i))]

def bandWrites (im : Image) (rs : List Rec) : List (Fld × Nat) :=
  let bs := ofType rs tBANDS
  let pick := fun l => ((bs.find? fun r => r.inst == l).orElse fun _ => bs.find? fun r => r.inst == 0xFF).getD
    ⟨noRec, 0, 0, 0, 0, 0⟩
  (List.range 48).flatMap fun l =>
    let r := pick l
    (List.range 256).flatMap fun w =>
      [(CHN_BT_B0 (256 * l + w), r.b im (0x0C + 4 * w)), (CHN_BT_B1 (256 * l + w), r.b im (0x0D + 4 * w)),
        (CHN_BT_B2 (256 * l + w), r.b im (0x0E + 4 * w)), (CHN_BT_B3 (256 * l + w), r.b im (0x0F + 4 * w))]

def wstratWrites (im : Image) (rs : List Rec) : List (Fld × Nat) :=
  let ts := ofType rs tWSTRAT
  let x := fun (r : Rec) => 16 * (r.inst / 256) + r.inst % 256
  (ts.map fun r => (WRS_STCNT_COUNT (x r), r.h im 8))
    ++ ts.flatMap fun r => (List.range (4 * r.h im 8)).flatMap fun w =>
      [(WRS_ST_B0 (256 * x r + w), r.b im (0x0C + 4 * w)), (WRS_ST_B1 (256 * x r + w), r.b im (0x0D + 4 * w)),
        (WRS_ST_B2 (256 * x r + w), r.b im (0x0E + 4 * w)), (WRS_ST_B3 (256 * x r + w), r.b im (0x0F + 4 * w))]

/-- Even parity over the three words of a microword (R436). -/
def wordParity (a b c : Nat) : Nat := (popcount a 32 + popcount b 32 + popcount c 32) % 2

def patchWrites (im : Image) (rs : List Rec) : List (Fld × Nat) :=
  let ps := ofType rs tPATCH
  let pick := fun s => ps.find? fun r => r.inst == s || (r.inst == 0xFF && 2 ≤ s)
  ((List.range 6).flatMap fun s =>
    match pick s with
    | none => []
    | some r => (List.range (min (r.b im 8) 16)).flatMap fun e =>
      [(SEQ_MATCH_PATADDR s e, r.h im (0x0E + 4 * e)), (SEQ_MATCH_ROMADDR s e, r.h im (0x0C + 4 * e)),
        (SEQ_MATCH_VALID s e, 1)])
  ++ (List.range 6).flatMap fun s =>
    match pick s with
    | none => []
    | some r => (List.range (r.h im 0x0A)).flatMap fun k =>
      let w := fun j => r.w im (0x4C + 12 * k + 4 * j)
      [(SEQ_PATCH_W0 s k, w 0), (SEQ_PATCH_W1 s k, w 1), (SEQ_PATCH_W2 s k, w 2),
        (SEQ_PATCH_PAR s k, wordParity (w 0) (w 1) (w 2))]

def thermalWrites (im : Image) (rs : List Rec) : List (Fld × Nat) :=
  let r := recOf rs tTHERMAL
  [(THM_SOFT_SOFT, r.h im 8), (THM_HARD_HARD, r.h im 0x0A), (THM_HARD_LIMIT, r.h im 0x0C), (THM_RISE_RISE, r.h im 0x0E),
    (THM_DUTY_SLOPE, r.b im 0x10), (THM_DUTY_FLOOR, r.b im 0x11), (THM_PERIOD_PERIOD, r.w im 0x14)]
  ++ (List.range 4).flatMap fun i =>
    (THM_EDGE_EDGELO i, r.h im (0x18 + 4 * i)) :: if i < 3 then [(THM_EDGE_EDGEHI i, r.h im (0x1A + 4 * i))] else []

/-- Every Canvas-set field as the image sets it. -/
def canvasRegs (im : Image) (rs : List Rec) (rf : RegFile) : RegFile :=
  let q := recOf rs tQUEUES
  let sec := recOf rs tSECURITY
  let rf := putAll ([(HST_PORT_EN 0, (queueCfgOf im q 0).enable.toNat), (HST_PORT_EN 1, (queueCfgOf im q 1).enable.toNat)]
    ++ patchWrites im rs ++ thermalWrites im rs ++ [(DBG_STAT_LOCK, ((sec.w im 8).testBit 2).toNat)]) rf
  let rf := putAll (paletteWrites im rs ++ bandWrites im rs ++ wstratWrites im rs) rf
  let mem := recOf rs tMEMLAYOUT
  (ofType rs tREGS).foldl (fun rf r => regsFile im mem r rf) (capacities im mem rf)

/-- The units of 64 KiB that hold CAL's layer bodies, three for each layer in order: the lowest 144 that no region covers, as base and
size (R86, R367). -/
def State.calUnits (s : State) : List (Nat × Nat) := (takeUnits 144 (uncovered (s.cnv.cfg.memSize * 15360) s.cnv.cfg.regions)).1
/-- The units that STR uses for layer-extent buffering: the other uncovered ones (R86, R367). -/
def State.strUnits (s : State) : List (Nat × Nat) := (takeUnits 144 (uncovered (s.cnv.cfg.memSize * 15360) s.cnv.cfg.regions)).2

end Sys2Proof.Machine
end

