-- ==== Sys2Proof/Machine/Ecc.lean ====
section
/-! DEFINITION. GF(2⁸) modulo 0x11D, and the Reed–Solomon code of a 64-byte block of buffer memory with its outcomes (R418, R419). -/

namespace Sys2Proof.Machine

/-! ### The field (R310, R418) -/

/-- Multiplication by 0x02 in GF(2⁸) modulo 0x11D. -/
def gfDouble (a : Nat) : Nat := let d := 2 * a; if 256 ≤ d then Nat.xor d 0x11D else d
def gfMul (a b : Nat) : Nat :=
  ((List.range 8).foldl (fun (r : Nat × Nat) i => (if b.testBit i then Nat.xor r.1 r.2 else r.1, gfDouble r.2)) (0, a)).1
def gfPow (n : Nat) : Nat := (List.range n).foldl (fun a _ => gfDouble a) 1
/-- The inverse: the 254th power. -/
def gfInv (a : Nat) : Nat := (List.range 253).foldl (fun r _ => gfMul r a) a

/-! ### The code (R418) -/

/-- The generator (x − 1)(x − α)(x − α²)(x − α³) behind its leading 1, highest degree first. -/
def rsGen : List Nat :=
  let g := (List.range 4).foldl (fun (g : List Nat) i =>
    ((g ++ [0]).zip (0 :: g)).map fun (p : Nat × Nat) => Nat.xor p.1 (gfMul (gfPow i) p.2)) [1]
  g.drop 1
/-- The address symbols of a block: its number, most significant byte first. -/
def blockSymbols (block : Nat) : List Nat := (List.range 4).map fun i => block / 256 ^ (3 - i) % 256
/-- The four check bytes of a block and its 64 data bytes. -/
def checkBytes (block : Nat) (data : List Nat) : List Nat :=
  (blockSymbols block ++ data).foldl (fun r x =>
    let f := Nat.xor x (r.headD 0)
    ((r.drop 1 ++ [0]).zip rsGen).map fun (p : Nat × Nat) => Nat.xor p.1 (gfMul f p.2)) [0, 0, 0, 0]

/-- The locator of a symbol of the 72, the first of them of the highest degree. -/
def locator (p : Nat) : Nat := gfPow (71 - p)
/-- The syndrome of a pattern of symbols and what is added to each. -/
def syndrome (e : List (Nat × Nat)) : List Nat :=
  (List.range 4).map fun j => (e.map fun x => gfMul (gfPow (j * (71 - x.1))) x.2).foldl Nat.xor 0
/-- The symbol of a single-symbol error with this syndrome. -/
def singleAt (s : List Nat) : Option Nat :=
  let a := fun i => s.getD i 0
  if a 0 == 0 then none
  else (List.range 72).find? fun p =>
    gfMul (a 0) (locator p) == a 1 && gfMul (a 1) (locator p) == a 2 && gfMul (a 2) (locator p) == a 3
/-- The one pattern of the four address symbols that has this syndrome, as a 32-bit number. -/
def addressWith (s : List Nat) : Nat :=
  let t := fun i => s.getD i 0
  let x := locator
  let err := fun i =>
    let o := (List.range 4).filter (· != i)
    let a := x (o.getD 0 0)
    let b := x (o.getD 1 0)
    let c := x (o.getD 2 0)
    let e1 := Nat.xor a (Nat.xor b c)
    let e2 := Nat.xor (gfMul a b) (Nat.xor (gfMul a c) (gfMul b c))
    let e3 := gfMul a (gfMul b c)
    let num := Nat.xor (Nat.xor (t 3) (gfMul e1 (t 2))) (Nat.xor (gfMul e2 (t 1)) (gfMul e3 (t 0)))
    let den := gfMul (Nat.xor (x i) a) (gfMul (Nat.xor (x i) b) (Nat.xor (x i) c))
    gfMul num (gfInv den)
  (List.range 4).foldl (fun v i => 256 * v + err i) 0

/-- The syndrome of a poisoned block: every check byte XORed with 0xFF (R419). -/
def poisonSyndrome : List Nat := syndrome [(68, 0xFF), (69, 0xFF), (70, 0xFF), (71, 0xFF)]

/-- The outcomes of Table 16.1. -/
def oCLEAN := 0
def oADDR := 1
def oUE := 2
def oPOISON := 3
def oCE := 4

/-- The outcome of a syndrome at a block, of `blocks` that exist. "Another block number" is that of another block that exists (DEDUCED, log
entry 216). -/
def outcomeOf (blocks block : Nat) (s : List Nat) : Nat :=
  if s.all (· == 0) then oCLEAN
  else
    match singleAt s with
    | some p => if p < 4 then oADDR else oCE
    | none =>
      if s == poisonSyndrome then oPOISON
      else
        let other := Nat.xor block (addressWith ((s.zip poisonSyndrome).map fun p => Nat.xor p.1 p.2))
        if other != block && other < blocks then oADDR else oUE

/-- What a read of a block finds: the code is linear, so the pattern of what came back wrong decides (R418). -/
def readOutcome (blocks block : Nat) (o : BlockRead) (poisoned : Nat → Bool) : Nat :=
  let seen := match o.seen with
    | some b => b.toNat
    | none => block
  let cells := o.cells.map fun c => (c.1.val + 4, c.2.toNat)
  let addr := ((blockSymbols block).zip (blockSymbols seen)).zipIdx.map fun p => (p.2, Nat.xor p.1.1 p.1.2)
  let poison := if poisoned seen then [(68, 0xFF), (69, 0xFF), (70, 0xFF), (71, 0xFF)] else []
  outcomeOf blocks block (syndrome (addr ++ cells ++ poison))

end Sys2Proof.Machine
end

