-- ==== Sys2Proof/Machine/Memory.lean ====
section
/-! DEFINITION. Buffer memory and the Larder: block decodes, poison, the CE bucket, the sweep, scrubbing, BAR2, and the ways
(R414 to R435, R501). -/

namespace Sys2Proof.Machine

open R

def State.setMem (s : State) (k : MemSt → MemSt) : State := { s with mem := k s.mem }
def State.setLrd (s : State) (k : LrdSt → LrdSt) : State := { s with lrd := k s.lrd }

/-! ### Layout (R416, R417) -/

/-- Usable bytes of buffer memory: 15/16 of what is installed. -/
def State.usableBytes (s : State) : Nat := s.cnv.cfg.memSize * 2 ^ 30 / 16 * 15
/-- Steps of the sweep: 1 MiB each of physical memory (R422). -/
def State.sweepSteps (s : State) : Nat := s.cnv.cfg.memSize * 1024
/-- The physical address of a buffer address: each 4 KiB page holds 3,840 of its bytes. -/
def physAddr (ba : Nat) : Nat := 4096 * (ba / 3840) + ba % 3840
/-- The physical address of a block's four check bytes. -/
def checkAddr (block : Nat) : Nat := 4096 * (block / 60) + 3840 + 4 * (block % 60)
/-- The sweep step of a buffer address: 1 MiB of physical memory. -/
def stepOf (ba : Nat) : Nat := physAddr ba / 2 ^ 20
/-- Blocks of buffer memory that exist. -/
def State.blocks (s : State) : Nat := s.usableBytes / 64
def State.region (s : State) (id : Nat) : Option Region := s.cnv.cfg.regions.find? fun r => r.id == id
def rDIAG := 0x09

/-- The buffer address of a BAR2 offset (R417). -/
def State.diagAddr (s : State) (off : Nat) : Option Nat :=
  match s.region rDIAG with
  | some r => if s.applied && off < r.size * 65536 then some (r.base * 65536 + off) else none
  | none => none

/-! ### Correctable errors (R420) -/

/-- LEVEL has reached LIMIT: it clears, and a MEMCE record is written. -/
def bucketCheck (s : State) : State :=
  if s.get MEM_CECFG_LIMIT ≤ s.get MEM_CE_BUCKET_LEVEL then
    let s := (s.put MEM_CE_BUCKET_LEVEL 0).inc MEM_CE_BUCKET_OVFN
    eventRec 0x08 (s.get MEM_CE_BUCKET_OVFN) [] true s
  else s

/-- One CE outcome. -/
def noteCe (src block : Nat) (s : State) : State :=
  let s := (s.inc MEM_CECNT_CE).puts [(MEM_CELAST_SRC, src), (MEM_CELAST_BLOCK, block)]
  bucketCheck (s.inc MEM_CE_BUCKET_LEVEL)

/-! ### Uncorrectable errors (R421) -/

/-- An ADDR (1), UE (2) or POISON (3) outcome, which also counts in the window of R501. -/
def noteUe (src block k : Nat) (s : State) : State :=
  let s := s.setMem fun m => { m with errs := ((k, block) :: m.errs).take 65536 }
  let s := ((s.inc MEM_UECNT_UEN).inc FLT_STAT_UNCOV).puts [(MEM_UELAST_SRC, src), (MEM_UELAST_BLOCK, block), (MEM_STAT_UE, 1)]
  let s := s.when (k == 1) fun s => (s.inc MEM_UECNT_ADDRN).put MEM_STAT_ADDRERR 1
  logFlt 17 kDEGRADE 0x01 src [block % au24, block / au24 + 16 * k] s

/-- The outcome of a read of a block (Table 16.1). -/
def State.blockFault (s : State) (block : Nat) (o : BlockRead) : Nat :=
  readOutcome s.blocks block o fun b => Sparse.get s.mem.poison b != 0

/-- MEM reads a block for a requester: whether its data is good, and the state (R418, R420, R421). -/
def readBlock (src block : Nat) (o : BlockRead) (s : State) : Bool × State :=
  let k := s.blockFault block o
  if k == oCLEAN then (true, s)
  else if k == oCE then (true, noteCe src block s)
  else (false, noteUe src block k s)

def poisonBlock (block : Nat) (s : State) : State := s.setMem fun m => { m with poison := Sparse.set m.poison block 1 }

/-! ### The sweep (R422) -/

/-- The sweep has come as far as `n` steps in its own order; DONE counts those and the steps pulled ahead. -/
def sweepTo (n : Nat) (s : State) : State :=
  if s.get MEM_STAT_PHASE == 2 then
    let r := min (max n s.mem.reach) s.sweepSteps
    let a := s.mem.ahead.filter fun p => r ≤ p.1
    (s.setMem fun m => { m with reach := r, ahead := a }).put MEM_SWEEP_DONE (r + a.length)
  else s

/-- SWEEP_PULL_AHEAD: an access to a step not yet swept sweeps it first. -/
def pullAhead (ba : Nat) (s : State) : State :=
  let k := stepOf ba
  if s.get MEM_STAT_PHASE == 2 && s.mem.reach ≤ k && Sparse.get s.mem.ahead k == 0 then
    sweepTo 0 ((s.setMem fun m => { m with ahead := Sparse.set m.ahead k 1 }).inc MEM_SWEEP_PULLS)
  else s

/-! ### The Larder's lines (R425, R426) -/

def lOFFst := 0
def lENABLED := 1
def lDISABLING := 2
def lDISABLED := 3
def State.lrdState (s : State) : Nat := s.get LRD_STAT_STATE

def lineSet (line : Nat) : Nat := line % 8192
def lineTag (line : Nat) : Nat := line / 8192
/-- A line's entry in a way: 0 where the way holds none in that set. -/
def State.lineAt (s : State) (set way : Nat) : Nat := Sparse.get s.lrd.lines (16 * set + way)
/-- The way that holds a line. -/
def State.hitWay (s : State) (line : Nat) : Option Nat :=
  (List.range 16).find? fun w =>
    let e := s.lineAt (lineSet line) w
    e != 0 && (e - 1) / 2 == lineTag line
def State.dirtyIn (s : State) (line way : Nat) : Bool := (s.lineAt (lineSet line) way - 1) % 2 == 1

/-- LRD_DIRTY follows the tags. -/
def syncLrdDirty (s : State) : State :=
  s.put LRD_DIRTY_LINES (s.lrd.lines.filter fun e => (e.2 - 1) % 2 == 1).length
def setLine (line way v : Nat) (s : State) : State :=
  syncLrdDirty (s.setLrd fun l => { l with lines := Sparse.set l.lines (16 * lineSet line + way) v })
def dropLine (line way : Nat) (s : State) : State := setLine line way 0 s

/-- CLEANING and the domain follow what the Larder does. -/
def syncLrd (s : State) : State :=
  let s := s.putB LRD_STAT_CLEANING (!s.lrd.cleaning.isEmpty || s.lrdState == lDISABLING)
  s.putB SYS_DOMAIN_LRD s.lrdPowered

/-! ### Faulty ways (R428, R429) -/

/-- A way is declared faulty: 1 for a clean line, 2 for a dirty one, 3 for its error rate. A fault of a clean line or of the
rate is covered; its bypass is complete in the same step, when the fill is served (Table 20.3). -/
def wayFault (w why : Nat) (s : State) : State :=
  let kind := if why == 2 then kDEGRADE else s.coveredKind
  let s := s.when (kind != kBYPASS) fun s => s.inc FLT_STAT_UNCOV
  let s := logFlt 18 kind 0x01 w [why] ((s.setBit LRD_WAYST_FAULT w true).setBit LRD_WAYS_INSVC w false)
  syncLrd (s.setLrd fun l => { l with cleaning := if l.cleaning.contains w then l.cleaning else l.cleaning ++ [w] })

/-- The four blocks of a line are poisoned. -/
def poisonLine (line : Nat) (s : State) : State := forUpTo 4 (fun i => poisonBlock (4 * line + i)) s

/-- An access hits a line: whether the line can serve it (none where the access goes on to buffer memory, false for a bus error),
and the state (Table 16.3). An uncorrectable tag stops the device and serves nothing. -/
def hitLine (line block way : Nat) (o : LineOutcome) (s : State) : Option Bool × State :=
  let s := s.inc LRD_HITS_HITS
  match o with
  | .clean => (some true, s)
  | .ce => (some true, noteCe 0xC block ((s.inc LRD_ERR_CE).setLrd fun l => { l with ces := addTo l.ces way 1 }))
  | .ue =>
    let dirty := s.dirtyIn line way
    let s := dropLine line way (s.inc LRD_ERR_UE)
    if dirty then (some false, wayFault way 2 (poisonLine line s)) else (none, wayFault way 1 s)
  | .tag => (some false, safeStop 0x34 0 0 0 ((s.inc LRD_ERR_UE).inc FLT_STAT_UNCOV))

/-- A lookup: the way that holds the line, where the Larder is looked up at all; a miss counts. -/
def lookup (line : Nat) (s : State) : Option Nat × State :=
  if s.lrdState == lENABLED || s.lrdState == lDISABLING then
    match s.hitWay line with
    | some w => (some w, s)
    | none => (none, s.inc LRD_MISSES_MISSES)
  else (none, s)

/-! ### Allocation (R426) -/

/-- The replacement register steps: taps 16, 14, 13 and 11, shifting right. -/
def lfsrNext (v : Nat) : Nat :=
  let b := (v + v / 4 + v / 8 + v / 32) % 2
  v / 2 + 32768 * b

/-- The way that takes a new line of a set: the lowest invalid one in service, else LFSR[3:0] or the next in service above. -/
def victimWay (set : Nat) (s : State) : Option Nat :=
  let live := fun w => s.bit LRD_WAYS_INSVC w
  match (List.range 16).find? fun w => live w && s.lineAt set w == 0 with
  | some w => some w
  | none => ((List.range 16).map fun i => (s.get LRD_LFSR_STATE + i) % 16).find? live

/-- A dirty line is written back: its four blocks are written whole, which clears poison (R419). -/
def writeBack (line way : Nat) (s : State) : State :=
  if s.lineAt (lineSet line) way != 0 && s.dirtyIn line way then
    forUpTo 4 (fun i s => s.setMem fun m => { m with poison := Sparse.set m.poison (4 * line + i) 0 }) s
  else s
/-- The line that a way holds in a set. -/
def State.lineIn (s : State) (set way : Nat) : Nat := (s.lineAt set way - 1) / 2 * 8192 + set

/-- A line takes a way of its set; a dirty victim is written back first. -/
def allocate (line way : Nat) (dirty : Bool) (s : State) : State :=
  let set := lineSet line
  let s := if s.lineAt set way == 0 then s else writeBack (s.lineIn set way) way s
  setLine line way (1 + dirty.toNat + 2 * lineTag line) (s.put LRD_LFSR_STATE (lfsrNext (s.get LRD_LFSR_STATE)))

/-- A line fill reads the line's four blocks; `o` is what the one asked for returns. A bus error goes to the requester (Table 16.2). -/
def fillLine (line block : Nat) (o : BlockRead) (s : State) : Bool × State :=
  (List.range 4).foldl (fun (r : Bool × State) i =>
    let y := readBlock 0xB (4 * line + i) (if 4 * line + i == block then o else {}) r.2
    (r.1 && y.1, y.2)) (true, s)

/-! ### Accesses of the device's own requesters (R422, R426, R427, R432) -/

/-- A block is read past the Larder's hits: a fill where the Larder allocates, else straight from buffer memory. -/
def missLoad (src block : Nat) (o : BlockRead) (s : State) : Bool × State :=
  let line := block / 4
  match if s.lrdState == lENABLED then victimWay (lineSet line) s else none with
  | none => readBlock src block o s
  | some w =>
    let f := fillLine line block o s
    (f.1, if f.1 then allocate line w false f.2 else f.2)

/-- A requester reads a block: whether it gets its data, and the state. `o` is what buffer memory returns for it, `l` what a line that
it hits holds. -/
def memLoad (src block : Nat) (o : BlockRead) (l : LineOutcome) (s : State) : Bool × State :=
  let s := pullAhead (64 * block) s
  match lookup (block / 4) s with
  | (none, s) => missLoad src block o s
  | (some w, s) =>
    match hitLine (block / 4) block w l s with
    | (some ok, s) => (ok, s)
    | (none, s) => missLoad src block o s

/-- Buffer memory takes the bytes of a store to one block: a part of a poisoned block, or of one that reads bad, is refused with a
bus error; a whole block clears poison (R419). -/
def storeBlock (src ba : Nat) (data : List Byte) (o : BlockRead) (s : State) : Bool × State :=
  if data.length == 64 then
    (true, s.setMem fun m => { m with bytes := m.bytes.writes ba data, poison := Sparse.set m.poison (ba / 64) 0 })
  else
    let r := readBlock src (ba / 64) o s
    (r.1, if r.1 then r.2.setMem fun m => { m with bytes := m.bytes.writes ba data } else r.2)

/-- The blocks of a store within one line, each with its first address and its bytes. -/
def blockParts (ba : Nat) (data : List Byte) : List (Nat × List Byte) :=
  ((List.range ((ba % 64 + data.length + 63) / 64)).map fun i =>
    let lo := max ba (64 * (ba / 64 + i))
    (lo, (data.drop (lo - ba)).take (64 * (ba / 64 + i + 1) - lo))).filter fun p => !p.2.isEmpty
/-- A store goes straight to buffer memory, block by block. -/
def storeDirect (src ba : Nat) (data : List Byte) (s : State) : Bool × State :=
  (blockParts ba data).foldl (fun (r : Bool × State) p =>
    let y := storeBlock src p.1 p.2 {} r.2
    (r.1 && y.1, y.2)) (true, s)

/-- The detector of sequential stores sees a store: its stream's run before it (0 where none expected it), and the streams. -/
def seeStore (src line : Nat) (whole : Bool) (l : List (Nat × Nat × Nat)) : Nat × List (Nat × Nat × Nat) :=
  if !whole then (0, l.filter fun x => x.1 != src)
  else
    match l.findIdx? fun x => x.1 == src && x.2.1 == line with
    | some i =>
      let run := ((l.getD i (0, 0, 0)).2).2
      (run, setAt l i (src, line + 1, run + 1))
    | none => (0, (if l.length < 8 then l else l.drop 1) ++ [(src, line + 1, 1)])

/-- The Larder's line takes the bytes of a store and is dirty. -/
def storeLine (ba way : Nat) (data : List Byte) (s : State) : State :=
  setLine (ba / 256) way (2 + 2 * lineTag (ba / 256)) (s.setMem fun m => { m with bytes := m.bytes.writes ba data })

/-- A store that finds no line: past the Larder where it does not allocate or the stream's run has come to RUN, else into a new line,
filled first unless the store covers it whole. -/
def missStore (src ba run : Nat) (data : List Byte) (s : State) : Bool × State :=
  let line := ba / 256
  match if s.lrdState == lENABLED then victimWay (lineSet line) s else none with
  | none => storeDirect src ba data s
  | some w =>
    if data.length == 256 then
      if s.get LRD_SEQ_RUN ≤ run then storeDirect src ba data (s.inc LRD_SEQCNT_BYPASS)
      else (true, storeLine ba w data (allocate line w true s))
    else
      let f := fillLine line (ba / 64) {} s
      (f.1, if f.1 then storeLine ba w data (allocate line w true f.2) else f.2)

/-- A requester stores bytes within one line: whether it goes without a bus error, and the state. -/
def lineStore (src ba : Nat) (data : List Byte) (l : LineOutcome) (s : State) : Bool × State :=
  let line := ba / 256
  let r := seeStore src line (data.length == 256) s.lrd.streams
  let s := pullAhead ba (s.setLrd fun l => { l with streams := r.2 })
  match lookup line s with
  | (none, s) => missStore src ba r.1 data s
  | (some w, s) =>
    match hitLine line (ba / 64) w l s with
    | (none, s) => missStore src ba r.1 data s
    | (some false, s) => (false, s)
    | (some true, s) =>
      if s.lrdState == lDISABLING && !s.dirtyIn line w then storeDirect src ba data (dropLine line w s)
      else (true, storeLine ba w data s)

/-- A requester stores bytes from an address upward, line by line; `ls` is what the lines that it hits hold. -/
def memStore (src ba : Nat) (data : List Byte) (ls : List LineOutcome) (s : State) : Bool × State :=
  (List.range ((ba % 256 + data.length + 255) / 256)).foldl (fun (r : Bool × State) i =>
    let lo := max ba (256 * (ba / 256 + i))
    let part := (data.drop (lo - ba)).take (256 * (ba / 256 + i + 1) - lo)
    if part.isEmpty then r
    else
      let y := lineStore src lo part (ls.getD i .clean) r.2
      (r.1 && y.1, y.2)) (true, s)

/-! ### BAR2 (R417, R426) -/

def srcBAR2 := 0x9

/-- A BAR2 read of one dword: its value, all ones with poison on a bus error. -/
def bar2Fetch (ba : Nat) (o : BlockRead) (l : LineOutcome) (s : State) : Bool × State :=
  let s := pullAhead ba s
  match lookup (ba / 256) s with
  | (some w, s) =>
    match hitLine (ba / 256) (ba / 64) w l s with
    | (some ok, s) => (ok, s)
    | (none, s) => readBlock srcBAR2 (ba / 64) o s
  | (none, s) => readBlock srcBAR2 (ba / 64) o s

/-- What the read answers: the dword, or all ones where its bytes cannot be read. -/
def bar2Read (ba : Nat) (o : BlockRead) (l : LineOutcome) (s : State) : State :=
  let r := bar2Fetch ba o l s
  let w := BitVec.ofNat 32 (((List.range 4).map fun i => (r.2.mem.bytes.read (ba + i)).toNat * 256 ^ i).sum)
  { r.2 with rdata := if r.1 then w else BitVec.allOnes 32 }

/-- The port may reach the device at all: it answers no request in FROZEN, and a port that QUEUES disables has no power. -/
def State.portOn (s : State) (p : Nat) : Bool := s.on && (s.life == BARE || (s.queueCfg p).enable)

/-- BAR2_READ: a read of the dword at a BAR2 offset; the sweep has come as far as `reach`; `o` and `l` are what the block and the
line that it reads decode to. -/
def execBar2Read (p : Port) (off : BitVec 32) (reach : Fin 16385) (o : BlockRead) (l : LineOutcome) (s : State) : Res :=
  s.doIf (s.portOn p) fun s =>
    let s := sweepTo reach s
    match s.diagAddr (off.toNat / 4 * 4) with
    | none => { s with rdata := 0 }
    | some ba => bar2Read ba o l s

/-- A BAR2 write within one block: to its line on a hit, else past the Larder. -/
def bar2Store (ba : Nat) (data : List Byte) (o : BlockRead) (l : LineOutcome) (s : State) : State :=
  let s := pullAhead ba s
  let line := ba / 256
  match lookup line s with
  | (none, s) => (storeBlock srcBAR2 ba data o s).2
  | (some w, s) =>
    match hitLine line (ba / 64) w l s with
    | (none, s) => (storeBlock srcBAR2 ba data o s).2
    | (some false, s) => s
    | (some true, s) =>
      if s.lrdState == lDISABLING && !s.dirtyIn line w then (storeBlock srcBAR2 ba data o (dropLine line w s)).2
      else storeLine ba w data s

/-- A BAR2 write is split at block boundaries. -/
def bar2Write (off : Nat) (data : List Byte) (os : List BlockRead) (ls : List LineOutcome) (s : State) : State :=
  let first := off / 64
  forUpTo ((off % 64 + data.length + 63) / 64) (fun i s =>
    let from' := max off (64 * (first + i))
    let part := (data.drop (from' - off)).take (64 * (first + i + 1) - from')
    match s.diagAddr from' with
    | some ba => if part.isEmpty then s else bar2Store ba part (os.getD i {}) (ls.getD i .clean) s
    | none => s) s

/-- BAR2_WRITE: a port writes bytes from a BAR2 offset upward; the other port than the custodian is discarded and counted. -/
def execBar2Write (p : Port) (off : BitVec 32) (data : List Byte) (reach : Fin 16385) (os : List BlockRead)
    (ls : List LineOutcome) (s : State) : Res :=
  s.doIf (s.portOn p && s.applied) fun s =>
    if s.mgmt != some p.val then s.inc MEM_BAR2_DISCARDS
    else bar2Write off.toNat data os ls (sweepTo reach s)

/-! ### Events of MEM -/

/-! ### Scrubbing (R424) -/

/-- Scrubbing goes on: EN is 1, the sweep is over, and the state is one of its own. -/
def State.scrubs (s : State) : Bool :=
  s.applied && s.flag MEM_SCRUB_EN && s.get MEM_STAT_PHASE == 3 && s.inLife [PRIMED, MOUNTING, MOUNTED, PARKING, HALTED]
/-- A scrub slot is asked for from a stamp on, where none is asked for, granted or due. -/
def askScrub (from' : Nat) (s : State) : State :=
  let held := (s.ang.pend ++ s.ang.due).any (fun e => e.cls == .scrub) || s.ang.subm.any fun r => r.ev.cls == .scrub
  if s.scrubs && !held then submit .scrub 0 from' (s.get MEM_SCRUB_SLOT * tickAu) 6 s else s

/-- SWEEP_COMPLETE: every step is swept; `pulls` accesses of the device's own requesters were pulled ahead meanwhile (R422). The scrub
begins. -/
def execSweepComplete (pulls : Nat) (s : State) : Res :=
  s.doIf (s.applied && s.get MEM_STAT_PHASE == 2) fun s =>
    let s := (s.setMem fun m => { m with reach := s.sweepSteps, ahead := [] }).addSat MEM_SWEEP_PULLS pulls
    askScrub (tickAfter s.now) (eventRec 0x09 0 [] false (s.puts [(MEM_STAT_PHASE, 3), (MEM_SWEEP_DONE, s.sweepSteps)]))

/-- The scrub reads one block, unless it is a dirty line in the Larder (R424). -/
def scrubBlock (o : BlockRead) (s : State) : State :=
  let b := s.get MEM_SCRPROG_BLOCK
  if s.blocks ≤ b then s
  else
    let skip := match s.hitWay (b / 4) with
      | some w => s.dirtyIn (b / 4) w
      | none => false
    ((if skip then s else (readBlock 0xA b o s).2)).put MEM_SCRPROG_BLOCK (b + 1)

/-- SCRUB_SLOT: within its granted slot MEM reads the next blocks, for which buffer memory returns `os`; the next slot is asked for back to
back (R424, R64). -/
def execScrubSlot (os : List BlockRead) (s : State) : Res :=
  s.doIf s.scrubs fun s =>
    if !s.turn (dueRank .scrub) then s
    else
      match s.ang.due.find? fun e => e.cls == .scrub with
      | none => s
      | some e =>
        let s := os.foldl (fun s o => scrubBlock o s) { s with ang := { s.ang with due := s.ang.due.erase e } }
        askScrub ((e.target + e.len) % au48) s

/-- SCRUB_LAP_END: the last block has been read; `lap` is the lap's duration in tenths of a second of REF time (R424). -/
def execScrubLapEnd (lap : Nat) (s : State) : Res :=
  s.doIf (s.applied && s.get MEM_STAT_PHASE == 3 && s.get MEM_SCRPROG_BLOCK == s.blocks) fun s =>
    let s := s.puts [(MEM_SCRLAP_LAP, min lap MEM_SCRLAP_LAP.max), (MEM_SCRPROG_BLOCK, 0)]
    eventRec 0x0A 0 [s.get MEM_SCRLAP_LAP] false s

/-- CE_BUCKET_LEAK: LEAK seconds have passed (R420). -/
def execCeBucketLeak (s : State) : Res :=
  s.doIf s.applied fun s => bucketCheck (s.put MEM_CE_BUCKET_LEVEL (s.get MEM_CE_BUCKET_LEVEL - 1))

/-- MEMORY_ERROR_WINDOW: the `n` latest uncorrectable outcomes lie in one one-second window of REF time, which reaches UELIM of them or
ADDRLIM distinct ADDR blocks (R501). -/
def execMemoryErrorWindow (n : Nat) (s : State) : Res :=
  let l := s.mem.errs.take n
  let addrs := ((l.filter fun e => e.1 == oADDR).map Prod.snd).eraseDups.length
  s.doIf (s.applied && (s.get FLT_CFG_UELIM ≤ l.length || s.get FLT_CFG_ADDRLIM ≤ addrs)) fun s =>
    let s := logFlt 24 kSTOP 0x03 0 [l.length, addrs] (s.setMem fun m => { m with errs := [] })
    safeStop 0x34 (0x40 + 24) 0x03 0 ((s.put FLT_ACTIVE2_MEMLIM 1).inc FLT_STAT_UNCOV)

/-- REFRESH_RATE_POLL: MEM reads the refresh-rate fields of MR4 and takes its refresh interval from them (R414). -/
def execRefreshRatePoll (rates : List (BitVec 8)) (s : State) : Res :=
  s.doIf (s.applied && rates.length == 4) fun s => s.setMem fun m => { m with refresh := rates.map BitVec.toNat }

/-! ### Events of the Larder (R428, R429) -/

/-- LARDER_WAY_FAULT: an internal access finds an uncorrectable word in a line of a way in service (R428, R429). -/
def execLarderWayFault (w : Way) (line : BitVec 26) (dirty : Bool) (s : State) : Res :=
  s.doIf (s.applied && s.bit LRD_WAYS_INSVC w) fun s =>
    let s := dropLine line.toNat w (s.inc LRD_ERR_UE)
    if dirty then wayFault w 2 (poisonLine line.toNat s) else wayFault w 1 s

/-- LARDER_WAY_CE_WINDOW: in one fixed second of REF time fall `k` correctable errors of a way that accesses have shown, and `n` more of
accesses that no command shows, the last of them in `block` (R428). -/
def execLarderWayCeWindow (w : Way) (k n : Nat) (block : BitVec 28) (s : State) : Res :=
  s.doIf (s.applied && s.bit LRD_WAYS_INSVC w && k ≤ Sparse.get s.lrd.ces w && s.get LRD_WCFG_WAYCE ≤ k + n) fun s =>
    let s := s.setLrd fun l => { l with ces := Sparse.set l.ces w 0 }
    wayFault w 3 (forUpTo n (fun _ s => noteCe 0xC block.toNat (s.inc LRD_ERR_CE)) s)

/-! ### Way actions, disabling and enabling (R430 to R433) -/

/-- The dirty lines begin to be written back; nothing is allocated any more. -/
def startDisable (s : State) : State := syncLrd ((s.setLrd fun l => { l with offWait := false }).put LRD_STAT_STATE lDISABLING)

/-- The Larder is enabled again: the ways that WAYS names and that are neither faulty nor offline serve. -/
def larderOn (s : State) : State :=
  let ok := fun w => s.cnv.cfg.ways.testBit w && !s.bit LRD_WAYST_FAULT w && !s.bit LRD_WAYS_OFFLINE w
  let s := s.puts [(LRD_STAT_STATE, lENABLED), (LRD_WAYS_INSVC, maskOf ((List.range 16).filter ok))]
  syncLrd (s.setLrd fun l => { l with onWait := false, lines := [] })

/-- A write of LRD_CTL (R432, R433). -/
def lrdCtl (v : Nat) (s : State) : State :=
  let d := v.testBit 0
  let s := s.putB LRD_CTL_DISABLE d
  if d then
    if s.lrdState == lENABLED then
      if s.lrd.act.isSome then s.setLrd fun l => { l with offWait := true } else startDisable s
    else s.setLrd fun l => { l with onWait := false }
  else if s.lrdState == lDISABLED then larderOn s
  else s.setLrd fun l => { l with offWait := false, onWait := s.lrdState == lDISABLING }

/-- LRD_DISABLE: a write of LRD_CTL with DISABLE 1. -/
def execLrdDisable (p : Port) (v : Word) (s : State) : Res :=
  vendorWrite p LRD_CTL_DISABLE.off false (lrdCtl (v.toNat ||| 1)) s

/-- LRD_ENABLE: a write of LRD_CTL with DISABLE 0. -/
def execLrdEnable (p : Port) (v : Word) (s : State) : Res :=
  vendorWrite p LRD_CTL_DISABLE.off false (lrdCtl (v.toNat / 2 * 2)) s

/-- A way action ends: BUSY clears and its result and entry are written. -/
def actEnds (result kind arg w : Nat) (s : State) : State :=
  let s := s.puts [(LRD_ACTST_BUSY, 0), (LRD_ACTST_RESULT, result), (LRD_STAT_WAY, 0)]
  let s := logFlt 18 kind 0x02 w [arg] (s.setLrd fun l => { l with act := none })
  if s.lrd.offWait then startDisable s else syncLrd s

/-- A write of LRD_WAYCTL (R431). -/
def lrdWayCtl (v : Nat) (s : State) : State :=
  let w := v % 16
  let off := v.testBit 4
  let res := v.testBit 5
  let refuse := fun c => s.put LRD_ACTST_RESULT c
  if !off && !res then s
  else if off && res then refuse 3
  else if s.lrdState != lENABLED then refuse 2
  else if s.lrd.act.isSome then refuse 3
  else if (off && !s.bit LRD_WAYS_INSVC w) || (res && !s.bit LRD_WAYS_OFFLINE w) then refuse 3
  else
    let s := s.puts [(LRD_ACTST_BUSY, 1), (LRD_ACTST_RESULT, 0), (LRD_STAT_WAY, w)]
    if off then
      let s := s.setBit LRD_WAYS_INSVC w false
      syncLrd (s.setLrd fun l => { l with act := some (1, w), cleaning := l.cleaning ++ [w] })
    else syncLrd (s.setLrd fun l => { l with act := some (2, w) })

/-- LRD_WAY_OFFLINE: a write of LRD_WAYCTL with OFFLINE 1. -/
def execLrdWayOffline (p : Port) (v : Word) (s : State) : Res :=
  vendorWrite p LRD_WAYCTL_WAY.off false (lrdWayCtl (v.toNat ||| 16)) s

/-- LRD_WAY_RESTORE: a write of LRD_WAYCTL with RESTORE 1. -/
def execLrdWayRestore (p : Port) (v : Word) (s : State) : Res :=
  vendorWrite p LRD_WAYCTL_WAY.off false (lrdWayCtl (v.toNat ||| 32)) s

/-- The lines of a way leave it: the clean ones are invalid, the dirty ones written back. -/
def emptyWay (w : Nat) (s : State) : State :=
  let s := (s.lrd.lines.filter fun e => e.1 % 16 == w).foldl (fun s e => writeBack (s.lineIn (e.1 / 16) w) w s) s
  syncLrdDirty (s.setLrd fun l => { l with
    lines := l.lines.filter fun e => e.1 % 16 != w
    cleaning := l.cleaning.filter fun x => x != w })

/-- LARDER_WAY_CLEANED: the cleaning of a way has ended and it is powered down (R429, R431). -/
def execLarderWayCleaned (w : Way) (s : State) : Res :=
  s.doIf (s.applied && s.lrd.cleaning.contains w.val) fun s =>
    let s := (emptyWay w s).setBit LRD_WAYS_OFFLINE w true
    if s.lrd.act == some (1, w.val) then actEnds 1 kINFO 1 w s else syncLrd s

/-- LRD_WAY_BIST_DONE: the March test of a way under RESTORE has ended (R431). With a DISABLE waiting the way stays offline. -/
def execLrdWayBistDone (pass : Bool) (s : State) : Res :=
  match s.lrd.act with
  | some (2, w) => s.doIf s.applied fun s =>
      let s := s.setBit LRD_WAYST_BISTFAIL w (!pass)
      if !pass then actEnds 4 kINFO 3 w s
      else
        let s := s.when (!s.lrd.offWait) fun s =>
          (s.setBit LRD_WAYS_OFFLINE w false).setBit LRD_WAYS_INSVC w (s.cnv.cfg.ways.testBit w)
        actEnds 1 kCLEAR 2 w s
  | _ => .next s

/-- LARDER_DISABLED: every dirty line is written back; the ways power down (R432). A write of 0 held meanwhile acts. -/
def execLarderDisabled (s : State) : Res :=
  s.doIf (s.applied && s.lrdState == lDISABLING) fun s =>
    let s := s.lrd.lines.foldl (fun s e => writeBack (s.lineIn (e.1 / 16) (e.1 % 16)) (e.1 % 16) s) s
    let s := s.lrd.cleaning.foldl (fun s w => s.setBit LRD_WAYS_OFFLINE w true) s
    let s := s.puts [(LRD_STAT_STATE, lDISABLED), (LRD_WAYS_INSVC, 0), (LRD_DIRTY_LINES, 0)]
    let s := syncLrd (s.setLrd fun l => { l with lines := [], cleaning := [] })
    let s := eventRec 0x0B 0 [] false s
    if s.lrd.onWait then larderOn s else s

end Sys2Proof.Machine
end

