-- ==== Sys2Proof/Machine/Channel.lean ====
section
/-! DEFINITION. Read channel lanes and joint detection: bindings, row loads, health verdicts, take-over, host actions,
timing, equalizer loads, quality figures (R245 to R275). -/

namespace Sys2Proof.Machine

open R

/-! ### Where a head reads -/

/-- π as a ratio of whole numbers. -/
def piNum : Nat := 3141592653589793
def piDen : Nat := 1000000000000000

/-- k_b, the channel bits of a band per revolution over 2,048 (R128, Table 5.4). -/
def kBand (b : Nat) : Nat :=
  [1314, 1373, 1431, 1489, 1547, 1605, 1663, 1721, 1780, 1838, 1896, 1954, 2012, 2070, 2129, 2187,
   2245, 2303, 2361, 2419, 2478, 2536, 2594, 2652, 2710, 2768, 2827, 2885, 2943, 3001, 3059, 3117].getD b 0

/-- The band of a ring (R128); a ring before band 0 is read with the settings of band 0 (DESIGN CHOICE, log entry 13). -/
def ringBand (ring : Nat) : Nat := min 31 ((ring - 1389) / 983)
def State.headRing (s : State) (h : Nat) : Nat := s.get (SRV_HTRK_GTRK h) / 6
def State.headBand (s : State) (h : Nat) : Nat := ringBand (s.headRing h)
def State.headLayer (s : State) (h : Nat) : Nat := s.get (SRV_HSTAT_LAYER h)

/-- The fields of a gap field and the data field behind it (Table 5.5). -/
inductive GapField
  | runin | tmark | wlid | trid | refpat | burst | minfo | reentry | data
  deriving DecidableEq, Repr

/-- The field at an angle inside a wedge. -/
def gapField (a : Nat) : GapField :=
  if a < 512 then .runin else if a < 1024 then .tmark else if a < 2048 then .wlid else if a < 3072 then .trid
  else if a < 5120 then .refpat else if a < 6144 then .burst else if a < 7168 then .minfo else if a < 8192 then .reentry else .data

/-! ### Lanes (R245 to R249) -/

def laneHead (l : Nat) : Nat := l / 7
def isSpare (l : Nat) : Bool := l % 7 == 6
def spareOf (h : Nat) : Nat := 7 * h + 6
def State.lane (s : State) (l : Nat) : Nat := s.get (CHN_LANEMAP_STATE l)
def State.laneInput (s : State) (l : Nat) : Nat := s.get (CHN_LANEMAP_INPUT l)
def State.laneSpot (s : State) (l : Nat) : Nat := s.laneInput l % 6
def State.laneAuto (s : State) (h : Nat) : Bool := (s.cnv.cfg.policy.getD h 0).testBit 0
def State.calSpare (s : State) (h : Nat) : Bool := (s.cnv.cfg.policy.getD h 0).testBit 1
def State.setChn (s : State) (k : Chn → Chn) : State := { s with chn := k s.chn }
def State.reading (s : State) (h : Nat) : Bool := s.wins.any fun w => w.head == h && w.cls == .readWin

/-- A lane loads the row of its layer, band and spot; its adaptive stages start from it (R252). -/
def rowLoad (l : Nat) (s : State) : State :=
  let b := fun i => btByte s.rf (s.headLayer (laneHead l)) (s.headBand (laneHead l)) i
  let sp := s.laneSpot l
  (s.puts [(CHN_FE_GAIN l, b sp), (CHN_FE_OFFS l, b (6 + sp)), (CHN_FE_ASYM l, b (12 + sp))]).setChn fun c =>
    { c with stale := c.stale.filter fun x => x != l }

/-- k under a head: 1,024 in the rings of the Attic (R128, R141). -/
def State.headK (s : State) (h : Nat) : Nat := if s.headRing h < 1380 then 1024 else kBand (s.headBand h)

/-- The alignment delay of a track: (o_s − o_min) / ℓ, rounded (R262). -/
def alignDelay (s : State) (h t : Nat) : Nat :=
  let o := fun i => toSigned 16 (s.get (OPU_ROM_WORD h (10 + i)))
  let m := ((List.range (s.headCfg h).spots).map o).foldl min (o 0)
  let x := (o t - m).toNat * 204800 * s.headK h * piDen
  let y := 2 * piNum * (22499880 + 1080 * s.headRing h)
  (2 * x + y) / (2 * y)

/-- The equalizer set of a layer and band, or the default set: (A, B, A) about the centre tap of the direct paths, zero
elsewhere (R263; DEDUCED, log entry 14). -/
def eqDefault (s : State) (i : Nat) : Nat :=
  let o := i / 90
  let c := (s.get DET_CFG_NTAPS - 1) / 2
  let k := i % 15
  let tap := fun (f : Fld) => ofSigned 24 (toSigned 8 (s.get f) * 1024)
  if i % 90 / 15 != o then 0
  else if k == c then tap DET_TGT_B
  else if k + 1 == c || k == c + 1 then tap DET_TGT_A
  else 0
/-- Where the copy of the CALIB record of a layer lies in buffer memory (R367). -/
def State.calBody (s : State) (layer : Nat) : Nat :=
  65536 * ((s.calUnits.flatMap fun u => (List.range u.2).map (u.1 + ·)).getD (3 * layer) 0)
def srcDET := 0x4
/-- DET loads the set of the head's layer and band from CAL's copy, whose first block reads as `o`; without one, or on a bus error, the
default set (R263, Table 16.2). The entry of the head in use is the first of the record (Table 14.5). -/
def eqLoadAs (h : Nat) (o : BlockRead) (s : State) : State :=
  let at' := s.calBody (s.headLayer h) + 80 + 0x620 + 1080 * s.headBand h
  let r := match s.cal.eq.find? fun p => p.1 == (h * 48 + s.headLayer h) * 32 + s.headBand h with
    | none => (none, s)
    | some p =>
      let y := memLoad srcDET (at' / 64) o .clean s
      (if y.1 then some p.2 else none, y.2)
  forUpTo 540 (fun i s =>
    let v := match r.1 with
      | some p => p.getD i 0
      | none => eqDefault s i
    s.puts [(DET_EQ_COEF (1024 * h + i), v), (DET_EQ_SIGN (1024 * h + i), if v.testBit 23 then 0xFF else 0)]) r.2
def eqLoad (h : Nat) (s : State) : State := eqLoadAs h {} s

/-- DET's part of a row load: the delays and the equalizer set (R262, R263). -/
def detLoad (h : Nat) (s : State) : State :=
  eqLoad h (forUpTo (s.headCfg h).spots (fun t s => s.put (DET_ALIGN_DELAY h t) (alignDelay s h t)) s)

/-- The lanes of a head that carry an input. -/
def State.carries (s : State) (l : Nat) : Bool :=
  [laneACTIVE, laneCOVER, laneCALIB, laneSHADOW, laneACQUIRING, laneTEST].contains (s.lane l) && s.laneInput l != 0x1F
/-- The row load of every lane of a head (R252): a read window opens, or a track enters a new band. -/
def headRowLoad (h : Nat) (s : State) : State :=
  detLoad h (forUpTo 7 (fun k s => s.when (s.carries (7 * h + k)) (rowLoad (7 * h + k))) s)
/-- Rows that changed are loaded at the start of the head's next gap field (R252). -/
def reloadStale (h : Nat) (s : State) : State :=
  let l := s.chn.stale.filter fun l => laneHead l == h
  if l.isEmpty then s else detLoad h (l.foldl (fun s x => rowLoad x s) s)
/-- The rows of a layer and band have changed. -/
def rowChanged (layer band : Nat) (s : State) : State :=
  let l := (List.range 28).filter fun x =>
    s.carries x && s.headLayer (laneHead x) == layer && s.headBand (laneHead x) == band
  s.setChn fun c => { c with stale := c.stale.filter (fun x => !l.contains x) ++ l }

/-- The lane that carries a spot of a head. -/
def State.carrier (s : State) (h spot : Nat) : Option Nat :=
  ((List.range 7).map (7 * h + ·)).find? fun l =>
    [laneACTIVE, laneCOVER, laneSHADOW].contains (s.lane l) && s.laneInput l != 0x1F && s.laneSpot l == spot
/-- The channel bits of a track are missing now: it is at zero confidence, has no lane, or its lane's timing is unlocked (R255, R265). -/
def State.trackGone (s : State) (h spot : Nat) : Bool :=
  s.bit (DET_HSTAT_ZEROC h) spot || match s.carrier h spot with
    | some l => !s.flag (CHN_LSTAT_LOCK l)
    | none => true
/-- The list of missing spans follows a track's state; those that ended more than two revolutions ago are of no further use. -/
def syncGap (h spot : Nat) (s : State) : State :=
  let key := 8 * h + spot
  let isOpen := fun (g : Gap) => g.trk == key && g.stop.isNone
  let gone := s.reading h && s.trackGone h spot
  let live := fun (g : Gap) => match g.stop with
    | some t => (s.now + au48 - t) % au48 < 2 * au24
    | none => true
  s.setChn fun c =>
    let l := c.gaps.filter live
    let on := l.any isOpen
    { c with gaps :=
        if (gone && !on) = true then l ++ [⟨key, s.now, none⟩]
        else if gone then l
        else l.map fun g => if isOpen g then { g with stop := some s.now } else g }
def syncGaps (h : Nat) (s : State) : State := forUpTo 6 (syncGap h) s

/-- A track at zero confidence (R265). -/
def zeroConf (h spot : Nat) (b : Bool) (s : State) : State := syncGap h spot (s.setBit (DET_HSTAT_ZEROC h) spot b)

/-- Another lane delivers a track from a stamp on. -/
def noteCarrier (h spot old stamp : Nat) (s : State) : State :=
  s.setChn fun c => { c with since := (c.since.filter fun x => x.1 != 8 * h + spot) ++ [(8 * h + spot, stamp, old)] }

/-- R256: the spans of a lane's two last checks are missing. -/
def spanMissing (l : Nat) (s : State) : State :=
  let t := s.now / tickAu * tickAu
  s.setChn fun c => { c with gaps := c.gaps ++ [⟨8 * laneHead l + s.laneSpot l, (t + au48 - 2 * tickAu) % au48, some t⟩] }
/-- Verdicts of a lane are given up to a stamp (R256). -/
def judgedTo (l t : Nat) (s : State) : State := s.setChn fun c => { c with judged := setAt c.judged l t }

/-- A change of binding not caused by a failure writes a LANE record (R246). -/
def laneRec (l : Nat) (s : State) : State := eventRec 0x06 (s.lane l * 65536 + l * 256 + s.laneInput l) [] false s

/-- The timing of a lane is unlocked from now on (R259). -/
def unlock (l : Nat) (s : State) : State := (s.put (CHN_LSTAT_LOCK l) 0).setChn fun c => { c with unlockAt := setAt c.unlockAt l s.now }

/-- A lane is bound to an input and acquires (R248). -/
def laneAcquire (l input for' : Nat) (s : State) : State :=
  let s := s.puts [(CHN_LANEMAP_STATE l, laneACQUIRING), (CHN_LANEMAP_INPUT l, input), (CHN_LANEMAP_FOR l, for'),
    (CHN_LSTAT_PEND l, 0)]
  rowLoad l (unlock l (s.setChn fun c => { c with ok := setAt c.ok l 0 }))

/-- A spare carries nothing. -/
def spareIdle (l : Nat) (s : State) : State :=
  s.puts [(CHN_LANEMAP_STATE l, laneIDLE), (CHN_LANEMAP_INPUT l, 0x1F), (CHN_LANEMAP_FOR l, 0x1F), (CHN_LSTAT_RX l, 0),
    (CHN_LSTAT_LOCK l, 0), (CHN_LSTAT_PEND l, 0)]

/-- The CHN_LANECTL action ends. -/
def endLaneAct (result : Nat) (s : State) : State :=
  (s.puts [(CHN_CTLST_BUSY, 0), (CHN_CTLST_RESULT, result)]).setChn fun c => { c with act := none }

/-- The close of the read window breaks an eye sweep, which restarts at the next one (R269). -/
def eyeBroken (h : Nat) (s : State) : State :=
  match s.chn.act with
  | some (3, l, _) => s.when (laneHead l == h) fun s => s.setChn fun c => { c with act := some (3, l, 0) }
  | _ => s

/-- The action concerns this lane or its head's spare. -/
def State.actOn (s : State) (l : Nat) : Bool :=
  match s.chn.act with
  | some a => a.2.1 == l || (isSpare l && a.1 == 1 && laneHead a.2.1 == laneHead l)
  | none => false
/-- An action that a failure breaks is abandoned; an eye sweep then has no result (R256, R269). -/
def abandonAct (s : State) : State :=
  match s.chn.act with
  | some (3, l, _) => endLaneAct 5 (s.put (CHN_EYE_VALID l) 0)
  | some _ => endLaneAct 5 s
  | none => s

/-- A lane leaves service: FAILED, its bit in the active set. -/
def laneFail (l : Nat) (s : State) : State :=
  (s.puts [(CHN_LANEMAP_STATE l, laneFAILED), (CHN_LSTAT_PEND l, 0), (CHN_LSTAT_LOCK l, 0), (CHN_LSTAT_RX l, 0)]).setBit
    FLT_ACTIVE0_LANES l true

/-- A spot has no lane (R247). -/
def loseTrack (h spot : Nat) (s : State) : State := zeroConf h spot true (s.setBit (CHN_HSTAT_LOSTTRK h) spot true)

/-- A calibration of lane `c` is abandoned: it is ACTIVE again, reloads its row and reacquires (Table 10.3). -/
def abandonCal (c : Nat) (s : State) : State :=
  let s := s.setChn fun x => { x with shadows := x.shadows.filter (· != c), back := x.back.filter (· != c) }
  let s := unlock c (s.put (CHN_LANEMAP_STATE c) laneACTIVE)
  rowLoad c (zeroConf (laneHead c) (s.laneSpot c) true s)

/-- The spare takes over a failed lane's input (R247): its row is loaded, its track is at zero confidence until the spare
has locked; FLT_LOG holds the spare and the cause. -/
def takeOver (l : Nat) (s : State) : State :=
  let h := laneHead l
  let sp := spareOf h
  let kind := s.coveredKind
  let s := openBypass 8 l (laneFail l s)
  let s := s.puts [(CHN_LANEMAP_STATE sp, laneCOVER), (CHN_LANEMAP_INPUT sp, s.laneInput l), (CHN_LANEMAP_FOR sp, l),
    (CHN_LSTAT_PEND sp, 0), (CHN_LSTAT_RX sp, if s.reading h then 1 else 0)]
  let s := rowLoad sp (unlock sp <| noteCarrier h (s.laneSpot l) l s.now (zeroConf h (s.laneSpot l) true s))
  logFlt 8 kind 0x01 l [sp, s.get (CHN_LSTAT_CAUSE l)] s

/-- A lane fails and its track is lost. -/
def failLost (l : Nat) (s : State) : State :=
  let s := loseTrack (laneHead l) (s.laneSpot l) (laneFail l s)
  logFlt 8 kDEGRADE 0x02 l [s.get (CHN_LSTAT_CAUSE l)] s

/-- An ACTIVE lane fails (R247, Table 10.3); `first` that no lower lane of its head fails at the same check. -/
def activeFails (l : Nat) (first : Bool) (s : State) : State :=
  let h := laneHead l
  let sp := spareOf h
  let s := s.when (s.actOn l && s.lane sp != laneACQUIRING) abandonAct
  if !s.laneAuto h || !first then failLost l s
  else if s.lane sp == laneIDLE then takeOver l s
  else if s.lane sp == laneSHADOW then takeOver l (abandonCal (s.get (CHN_LANEMAP_FOR sp)) s)
  else if s.lane sp == laneACQUIRING then
    let c := s.get (CHN_LANEMAP_FOR sp)
    takeOver l (if s.chn.shadows.contains c then s.setChn fun x => { x with shadows := x.shadows.filter (· != c) }
      else abandonAct s)
  else failLost l s

/-- The spare of a head fails (Table 10.3). -/
def spareFails (sp : Nat) (s : State) : State :=
  let f := s.get (CHN_LANEMAP_FOR sp)
  let st := s.lane sp
  let spot := s.laneSpot sp
  let s := s.when (s.actOn sp) abandonAct
  let s := laneFail sp s
  let s := logFlt 8 kDEGRADE 0x02 sp [s.get (CHN_LSTAT_CAUSE sp)] (s.puts [(CHN_LANEMAP_INPUT sp, 0x1F), (CHN_LANEMAP_FOR sp, 0x1F)])
  if st == laneSHADOW then abandonCal f s
  else if st == laneCOVER then loseTrack (laneHead sp) spot s
  else s.setChn fun x => { x with shadows := x.shadows.filter (· != f) }

/-- LANE_FAILURE: the second failing check of a lane declares it failed (R256); what follows is R247 and Table 10.3. A lane whose track
is not on it (ACQUIRING, TEST) is FAILED with an entry (R34) whose CODE Table 20.2 does not name: a free value (DESIGN CHOICE,
log entry 207). -/
def execLaneFailure (l : Lane) (s : State) : Res :=
  s.doIf (s.applied && s.chn.fail2.contains l.val) fun s =>
    let first := !(s.chn.fail2.any fun x => laneHead x == laneHead l && x < l.val && s.lane x == laneACTIVE)
    let s := s.setChn fun c => { c with fail2 := c.fail2.filter (· != l.val) }
    if isSpare l then spareFails l s
    else if s.lane l == laneACTIVE then activeFails l first s
    else
      let s := s.when (s.lane l == laneACQUIRING && s.actOn l) abandonAct
      (logFlt 8 kDEGRADE (s.freeVal 8) l [s.get (CHN_LSTAT_CAUSE l)] (laneFail l s)).drawn

/-! ### Host actions (R248) -/

/-- A write of CHN_LANECTL. -/
def laneCtl (v : Nat) (s : State) : State :=
  let l := v % 32
  let act := v / 256 % 4
  let refuse := fun (c : Nat) => s.put CHN_CTLST_RESULT c
  let begin' := (s.puts [(CHN_CTLST_BUSY, 1), (CHN_CTLST_RESULT, 0)]).setChn fun c => { c with act := some (act, l, 0) }
  let sp := spareOf (laneHead l)
  if act == 0 then s
  else if s.life != MOUNTED then refuse 2
  else if s.flag CHN_CTLST_BUSY || 28 ≤ l then refuse 3
  else if act == 1 then
    if s.lane l == laneACTIVE && !isSpare l && s.lane sp == laneIDLE then laneAcquire sp (s.laneInput l) l begin' else refuse 3
  else if act == 2 then
    if s.lane l == laneFAILED || s.lane l == laneTEST then begin' else refuse 3
  else if s.lane l == laneACTIVE || s.lane l == laneCOVER then begin'
  else refuse 3

/-- A write of CHN_LANECTL whose ACT the row names. -/
def laneCtlAct (act : Nat) (p : Port) (v : Word) (s : State) : Res :=
  vendorWrite p CHN_LANECTL_LANE.off false (laneCtl (v.toNat % 256 + 256 * act)) s
/-- LANE_SPARE: CHN_LANECTL with ACT SPARE (R248). -/
def execLaneSpare (p : Port) (v : Word) (s : State) : Res := laneCtlAct 1 p v s
/-- LANE_RESTORE: CHN_LANECTL with ACT RESTORE (R248). -/
def execLaneRestore (p : Port) (v : Word) (s : State) : Res := laneCtlAct 2 p v s
/-- LANE_EYE: CHN_LANECTL with ACT EYE (R269). -/
def execLaneEye (p : Port) (v : Word) (s : State) : Res := laneCtlAct 3 p v s

/-- A restored lane: its fault clears and FLT_LOG says so. -/
def laneRestored (l : Nat) (s : State) : State := endLaneAct 1 (logFlt 8 kCLEAR 0x03 l [] (s.setBit FLT_ACTIVE0_LANES l false))

/-- LANE_SELFTEST_DONE: the self-test of the lane under RESTORE has ended (R248). -/
def execLaneSelftestDone (pass : Bool) (s : State) : Res :=
  match s.chn.act with
  | some (2, l, 0) => s.doIf s.applied fun s =>
      if !pass then endLaneAct 4 (laneFail l s)
      else if isSpare l then laneRec l (laneRestored l (spareIdle l s))
      else
        let b := s.cnv.cfg.bind.getD l 0xFF
        laneAcquire l (if b < 24 then b else 0x1F) 0x1F (s.setChn fun c => { c with act := some (2, l, 1) })
  | _ => .next s

/-- CAL_SHADOW: CAL requests a shadow of the lane of a spot whose row is due where its head works; it is granted where CALSPARE is 1 and
the spare IDLE (R249, R368). -/
def execCalShadow (l : Lane) (s : State) : Res :=
  let h := laneHead l
  let due := s.cal.rows.contains (8 * ((48 * h + s.headLayer h) * 32 + s.headBand h) + s.laneSpot l)
  s.doIf (s.inLife [MOUNTING, MOUNTED] && due && !isSpare l && s.lane l == laneACTIVE && s.calSpare (laneHead l)
      && s.lane (spareOf (laneHead l)) == laneIDLE) fun s =>
    laneAcquire (spareOf (laneHead l)) (s.laneInput l) l (s.setChn fun c => { c with shadows := c.shadows ++ [l.val] })

/-- CAL ends with a lane: it reloads its row, acquires and takes its track back (R249). -/
def endShadow (l : Nat) (s : State) : State :=
  if s.lane l == laneCALIB then
    laneAcquire l (s.laneInput l) 0x1F (s.setChn fun c =>
      { c with shadows := c.shadows.filter (· != l), back := c.back ++ [l] })
  else s

/-! ### Timing (R257 to R259) -/

/-- The assist frequency in channel bits per core cycle, as a ratio (R257). -/
def State.assistRate (s : State) (h : Nat) : Nat × Nat := (s.get ANG_SPEED_RATE * s.headK h, 65536 * 8192)

/-- What the phase detector of a lane compares its samples with (R258): the known bits of the field, DET's decisions, or nothing, where
the loop coasts on the assist. -/
inductive PhaseRef
  | known | decisions | coast
  deriving DecidableEq, Repr

/-- The reference of a lane's phase detector at an angle inside a wedge (R258, Table 5.5). TRID is not at the channel rate either, and
the loop coasts across it (DEDUCED, log entry 177). An eye sweep takes REFPAT from the loop (R269). -/
def State.phaseRef (s : State) (l a : Nat) : PhaseRef :=
  let sweep := match s.chn.act with
    | some (3, x, _) => x == l
    | _ => false
  match gapField a with
  | .refpat => if sweep then .coast else .known
  | .reentry => .known
  | .data =>
    if s.flag (CHN_LSTAT_RX l) && s.flag (DET_HSTAT_RUN (laneHead l)) && !s.bit (DET_HSTAT_ZEROC (laneHead l)) (s.laneSpot l)
    then .decisions else .coast
  | _ => .coast
/-- The lane's phase detector delivers errors here. -/
def State.phaseSeen (s : State) (l : Nat) : Bool :=
  s.phaseRef l ((s.get ANG_NOW_LO_ANGLE + au24 - s.get (ANG_HOFF_OFFSET (laneHead l))) % wedgeAu) != .coast

/-- The sum of the squares of phase errors. -/
def sumSq (l : List Int) : Nat := (l.map fun e => e.natAbs * e.natAbs).sum

/-- TIMING_LOCK: the RMS of the phase errors of 256 consecutive channel bits, `err` in 2⁻⁸ of a bit, is at most 1/8 (R258, R259). The
spare of a take-over then delivers and the bypass is complete (Table 20.3); a lane whose calibration was abandoned delivers again. -/
def execTimingLock (l : Lane) (err : List Int) (s : State) : Res :=
  s.doIf (s.applied && s.carries l && s.phaseSeen l && err.length == 256 && sumSq err ≤ 256 * 32 * 32) fun s =>
    let s := s.put (CHN_LSTAT_LOCK l) 1
    if s.lane l == laneCOVER then
      closeBypass 8 (s.get (CHN_LANEMAP_FOR l)) (zeroConf (laneHead l) (s.laneSpot l) false s)
    else if s.lane l == laneACTIVE then zeroConf (laneHead l) (s.laneSpot l) false s
    else syncGaps (laneHead l) s

/-- TIMING_LOCK_LOSS: the RMS of the phase errors of 1,024 consecutive channel bits exceeds 1/4, or the residual frequency 0.2%: the
lane loses lock and reacquires; its binding stays (R259). -/
def execTimingLockLoss (l : Lane) (err : List Int) (s : State) : Res :=
  s.doIf (s.applied && s.carries l && ((s.phaseSeen l && err.length == 1024 && 1024 * 64 * 64 < sumSq err)
      || 2000 < (s.getI (CHN_TR_FOFF l)).natAbs)) fun s => syncGaps (laneHead l) (unlock l s)

end Sys2Proof.Machine
end

