-- ==== Sys2Proof/Machine/FocusBase.lean ====
section
/-! DEFINITION. What the track sequencer does with the loops of its head: rows of Table 8.1, overrides, presets, losses
(R193 to R207). -/

namespace Sys2Proof.Machine

open R

/-- The part of Table 8.1 a head is in: its phase, or the part of its recovery (R206). -/
def State.part (s : State) (h : Nat) : Nat :=
  if s.get (SRV_HSTAT_PHASE h) == hpRECOVERING then (s.tr h).part else s.get (SRV_HSTAT_PHASE h)

/-- The owner sets a loop's state for the next tick; a loop that the supervisor holds counts as in RUN (R174, R193). -/
def ownerSet (l st : Nat) (s : State) : State :=
  let now := s.loopState l
  if now == st || (st == lRUN && now == lHOLD) then s.setLoop l fun x => { x with setTo := 5 } else setLoopNext l st s

/-- A loop in OPEN with the owner's first output at a DAC code. -/
def setOverride (l : Nat) (code : Int) (s : State) : State :=
  s.setLoop l fun x => { x with override := [code * 256], ovr := 0 }
def setOvr (l kind : Nat) (s : State) : State := s.setLoop l fun x => { x with ovr := kind }

/-- The loop states of a row of Table 8.1, for focus, tracking, tilt and spherical aberration. -/
def phaseRow (ph : Nat) : List Nat :=
  if ph == hpFOCUSING then [lOPEN, lOFF, lOPEN, lOPEN]
  else if ph == hpFOCUSED || ph == hpCAPTURING || ph == hpSEEK then [lRUN, lOPEN, lOPEN, lRUN]
  else if ph == hpON_TRACK then [lRUN, lRUN, lRUN, lRUN]
  else if ph == hpTJUMP then [lRUN, lOPEN, lRUN, lRUN]
  else if ph == hpLJUMP then [lOPEN, lOPEN, lOPEN, lOPEN]
  else [lOFF, lOFF, lOFF, lOFF]

/-- A head goes to a part: its phase, unless it recovers, and the loops of the row. -/
def setPart (h ph : Nat) (s : State) : State :=
  let s := s.setTr h fun t => { t with wlidOk := false, tridOk := false }
  let s := if s.get (SRV_HSTAT_PHASE h) == hpRECOVERING && ph != hpON_TRACK then s.setTr h fun t => { t with part := ph }
    else setPhase h ph (s.setTr h fun t => { t with part := 0 })
  let row := phaseRow ph
  forUpTo 4 (fun k s => ownerSet (4 * h + k) (row.getD k lOFF) s) s

/-! ### Presets (R196, R361) -/

/-- The nominal depth of a layer below its cover in 0.1 µm (Table 5.2). -/
def layerDepth (l : Nat) : Nat :=
  [450, 560, 695, 815, 965, 1080, 1220, 1345, 1490, 1600, 1735, 1855, 2005, 2120, 2260, 2385, 2530, 2640, 2775, 2895,
   3045, 3160, 3300, 3425].getD (l % 24) 0

/-- SA presets from depths in 0.01 µm (R196). A pickup whose ROM word 19 is 0 leaves the code open: a free value. -/
def setPresets (z : Nat → Nat) (s : State) : State :=
  forUpTo 192 (fun i s =>
    let h := i / 48
    let l := i % 48
    let d := s.get (OPU_ROM_WORD h 19)
    if d == 0 then (s.put (SRV_SAP_CODE h l) (s.freeVal 16)).drawn
    else s.putI (SRV_SAP_CODE h l) (satTo (-32768) 32767 (rneDiv ((z l : Int) - s.get SRV_SAZC_ZC) d)).1) s

/-- The band under a sled's position (R127, R128, R217). -/
def State.sledBand (s : State) (h : Nat) : Nat :=
  let nm := 22500000 + s.getI (SLD_POS_P h) * 9375 / 2
  ringBand ((nm - 22499880) / 1080).toNat
def calKey (h l b : Nat) : Nat := (h * 48 + l) * 32 + b
/-- The tilt preset of a layer and band; 0 where none has been calibrated. -/
def State.tiltPreset (s : State) (h l b : Nat) : Int := toSigned 16 (Sparse.get s.cal.tilt (calKey h l b))
/-- Tilt OPEN at its preset (R197, R202). -/
def tiltToPreset (h l b : Nat) (s : State) : State := setOverride (4 * h + 2) (s.tiltPreset h l b) s
/-- SA OPEN at its preset. -/
def saToPreset (h l : Nat) (s : State) : State := setOverride (4 * h + 3) (s.getI (SRV_SAP_CODE h l)) s

/-- The reference layer of a head's side (R199). -/
def refLayer (h : Nat) : Nat := 24 * sideOf h

/-- One sample of the focus sweep at FSPEED, in s24 output units, rounded down (R197; DESIGN CHOICE, log entry 16). The result is open at
speed 0 or with a ROM word 16 of 0. -/
def State.sweepStep (s : State) (h : Nat) : Nat :=
  let d := s.get SPN_MEAS_RPM * 4096 * s.get (OPU_ROM_WORD h 16)
  if d == 0 then s.freeVal 16 else s.get SRV_FACQ_FSPEED * 1000 * 960 * 100 * 256 / d

/-- A time in µs as the angle of the measured speed, rounded down (DEDUCED, log entry 12). -/
def State.usAu (s : State) (us : Nat) : Nat := us * s.get SPN_MEAS_RPM * au24 / 960000000

/-- Focus acquisition on the reference layer starts: the presets are set, and 200 µs later the sweep begins (R197 steps 1 and 2). -/
def startFocus (h : Nat) (s : State) : State :=
  let l := refLayer h
  let s := ownerSet (4 * h + 3) lOPEN (ownerSet (4 * h + 2) lOPEN s)
  let s := tiltToPreset h l (s.sledBand h) (saToPreset h l s)
  s.setTr h fun t => { t with
    sweepAt := some ((s.now + s.usAu 200) % au48), ramp := false, peaks := 0, settle := 0, saOk := 0, out := 0, marks := 0, lastMark := none }

/-- The sweep of a focus acquisition begins (R197 step 2). -/
def beginSweep (h : Nat) (s : State) : State :=
  setOverride (4 * h) (-32768) (setPart h hpFOCUSING (s.setTr h fun t => { t with sweepAt := none }))

/-- The capture of track begins: tilt at its preset, the tracking override follows the observer's prediction, SRV times the crossings of TEPP
(R200, R213). -/
def toCapture (h : Nat) (s : State) : State :=
  let s := setOvr (4 * h + 1) 1 (tiltToPreset h (s.headLayer h) (s.headBand h) (setPart h hpCAPTURING s))
  s.setTr h fun t => { t with capt := true, crossAt := none, crossGap := none, crossNow := false, appMax := none, appMin := none }

/-- The tracking loop runs, or has been set to. -/
def State.tracking (s : State) (h : Nat) : Bool := s.loopState (4 * h + 1) == lRUN || (s.loop (4 * h + 1)).setTo == lRUN

/-! ### Losses and recovery (R205, R206) -/

/-- Stamps of one kind within the last 16 revolutions. -/
def recent (now : Nat) (kind : Nat) (l : List (Nat × Nat)) : List (Nat × Nat) :=
  l.filter fun p => p.1 == kind && (now + au48 - p.2) % au48 < 16 * au24

/-- A focus recovery begins: focus OPEN from its present code, outward by up to 40 µm of lens travel, then inward (R206). -/
def focusRecovery (h : Nat) (s : State) : State :=
  let code := s.getI (SRV_OUT_CODE (4 * h) 0)
  let w := s.get (OPU_ROM_WORD h 16)
  let out := if w == 0 then s.freeVal 24 else 4000000 * 256 / w
  let s := setOverride (4 * h) code (setPart h hpFOCUSING s)
  let l := (s.tr h).planLayer
  let s := tiltToPreset h l (s.headBand h) (saToPreset h l s)
  (s.setTr h fun t => { t with
    sweepAt := none, ramp := false, peaks := 0, settle := 0, saOk := 0, out, marks := 0, lastMark := none }).drawn

/-- A loss of focus (1) or track (2): read windows close at the next tick, the entry, the count, RECOVERING, and the first
part of the recovery; the third of a kind within 16 revolutions takes the head out of service (R206). -/
def lose (h kind : Nat) (s : State) : State :=
  let s := cutReads (fun w => w.head == h) s
  let s := logFlt 4 kDEGRADE 0x06 h [kind] s
  let s := s.inc (if kind == 1 then SRV_HCNT_FLOSS h else SRV_HCNT_TLOSS h)
  let l := recent s.now kind (s.tr h).losses
  if 2 ≤ l.length then headFault h (0x40 + 4) 0x06 s
  else
    let s := setPhase h hpRECOVERING s
    let s := s.setTr h fun t => { t with
      losses := (t.losses.filter fun p => p.1 != kind) ++ l ++ [(kind, s.now)]
      wlidOk := false, tridOk := false, sumLow := 0, teHigh := 0, jumping := false, jumpMis := 0, back := false, corrections := 0 }
    if kind == 1 then focusRecovery h s else toCapture h s

/-- The references of a head's loops follow the layer and band it works in (Table 14.1). -/
def loadRefs (h : Nat) (s : State) : State :=
  forUpTo 4 (fun k s =>
    s.put (SRV_REF_REF (4 * h + k) 0) (Sparse.get s.cal.refs (4 * calKey h (s.headLayer h) (if k == 2 then s.headBand h else 0) + k))) s

/-- The head has reached its planned layer and track (R192, R195, R202, R206). -/
def reachTrack (h : Nat) (s : State) : State :=
  let t := s.tr h
  let s := loadRefs h (s.puts [(SRV_HSTAT_LAYER h, t.planLayer), (SRV_HTRK_GTRK h, t.planG)])
  let ok := t.wlidOk && t.tridOk
  let s := setPart h hpON_TRACK s
  let s := s.setTr h fun u => { u with
    wlidOk := t.wlidOk, tridOk := t.tridOk, corrections := 0, jumpMis := 0, jumping := false, capt := false }
  s.putB (SRV_HSTAT_CONF h) ok

/-- The head runs on its planned track, after a capture of its planned layer as well (R195, R200, R202). -/
def State.landed (s : State) (h : Nat) : Bool :=
  let t := s.tr h
  (s.part h == hpCAPTURING || s.part h == hpTJUMP) && s.tracking h && t.tridOk && (t.wlidOk || !t.capt)

/-- Where it has landed it is ON_TRACK; the end of a layer jump and that of a recovery are events of their own. -/
def endCapture (h : Nat) (s : State) : State :=
  s.when (s.landed h && !(s.tr h).jumping && s.get (SRV_HSTAT_PHASE h) != hpRECOVERING) (reachTrack h)

/-- CONF sets in ON_TRACK once a counted WLID and a TRID set have agreed (R195). -/
def checkConf (h : Nat) (s : State) : State :=
  let t := s.tr h
  if s.get (SRV_HSTAT_PHASE h) == hpON_TRACK && t.wlidOk && t.tridOk then s.put (SRV_HSTAT_CONF h) 1 else s

/-! ### Supervisor reports (Table 7.5, R182, R207) -/

/-- A loop enters HOLD. -/
def enterHold (l : Nat) (s : State) : State :=
  let s := (s.puts [(SRV_LSTAT_STATE l, lHOLD), (SRV_LSTAT_OOB l, 0)]).inc (SRV_LSTAT_HOLDS l)
  let s := s.setLoop l fun x => { x with heldN := 1 }
  let args := (List.range (s.cnv.cfg.loops.getD l {}).nin).map fun i => s.get (SRV_INNOV_E l i)
  spoilWindow (logFlt 4 kDEGRADE 0x01 l args s)

/-- A loop returns from HOLD to RUN. -/
def leaveHold (l : Nat) (s : State) : State :=
  let held := (s.loop l).heldN
  let s := (s.puts [(SRV_LSTAT_STATE l, lRUN), (SRV_LSTAT_OOB l, 0)]).setLoop l fun x => { x with heldN := 0 }
  logFlt 4 kCLEAR 0x02 l [held] s

/-- The track sequencer holds a failed tilt or SA loop OPEN at its preset for one revolution; the third FAIL of the loop
within 16 revolutions takes the head out of service (R207). -/
def holdAtPreset (h k : Nat) (s : State) : State :=
  let l := recent s.now k (s.tr h).fails
  if 2 ≤ l.length then headFault h (0x40 + 4) 0x03 s
  else
    let s := s.setTr h fun t => { t with
      fails := (t.fails.filter fun p => p.1 != k) ++ l ++ [(k, s.now)], failHeld := t.failHeld.filter (· != k) ++ [k] }
    let s := if k == 2 then tiltToPreset h (s.headLayer h) (s.headBand h) s else saToPreset h (s.headLayer h) s
    ownerSet (4 * h + k) lOPEN s

/-- A loop enters FAIL: loop 16 is a spindle fault (R182, R235), a tilt or SA loop acts by R207; FAIL of focus or tracking
is a loss (Table 8.3). -/
def enterFail (l : Nat) (s : State) : State :=
  let held := (s.loop l).heldN
  let s := (s.puts [(SRV_LSTAT_STATE l, lFAIL), (SRV_LSTAT_OOB l, 0)]).setLoop l fun x => { x with heldN := 0 }
  let s := logFlt 4 kDEGRADE 0x03 l [held] s
  if l == 16 then spindleFault 5 s
  else if l % 4 == 2 || l % 4 == 3 then holdAtPreset (l / 4) (l % 4) s
  else s

end Sys2Proof.Machine
end

