-- ==== Sys2Proof/Machine/CalBase.lean ====
section
/-! DEFINITION. Accepted and failed calibration results and when they take effect (R115, R360 to R362). -/

namespace Sys2Proof.Machine

open R

def State.setCal (s : State) (k : Cal → Cal) : State := { s with cal := k s.cal }

/-- One accepted value takes effect. -/
def applyUpd (u : CalUpd) (s : State) : State :=
  match u.field with
  | none => s.setCal fun c => { c with tilt := Sparse.set c.tilt u.key (u.val % 65536) }
  | some f =>
    let s := s.put f u.val
    if (CHN_BT_B0 0).off ≤ f.off && f.off < (CHN_BT_B0 12288).off then
      let w := (f.off - (CHN_BT_B0 0).off) / 4
      rowChanged (w / 256) (w % 256 / 8) s
    else s

/-- The pending values that a condition selects take effect, in order. -/
def calApply (sel : CalUpd → Bool) (s : State) : State :=
  let l := s.cal.pend.filter sel
  l.foldl (fun s u => applyUpd u s) (s.setCal fun c => { c with pend := c.pend.filter fun u => !sel u })

/-- The values of the heads whose gap field begins at this tick take effect (R360). -/
def calTick (s : State) : State := calApply (fun u => !u.late && s.gapTick u.head) s

/-- R115: a field that a Varnish and CAL write at one tick takes the Varnish's value, CAL's value at the next tick, and OVR is
set. -/
def calYield (es : List SkEntry) (s : State) : State :=
  let hit := fun (u : CalUpd) => s.gapTick u.head && es.any fun e =>
    match u.field with
    | some f => f.off == e.off && Nat.land f.mask e.mask != 0
    | none => false
  if s.cal.pend.any hit then
    (s.put SKT_RESULT_OVR 1).setCal fun c => { c with pend := c.pend.map fun u => if hit u then { u with late := true } else u }
  else s

def layerKey (h l : Nat) : Nat := h * 48 + l

/-- A result fails (R362): LASTERR, the count, the event record; after TRIES failures in succession the item's bit of
FAILMASK. -/
def calFail (item h l b err : Nat) (s : State) : State :=
  let k := 8 * layerKey h l + item
  let n := Sparse.get s.cal.fails k + 1
  let s := ((s.put CAL_STAT_LASTERR err).inc CAL_CNT_FAILS).setCal fun c => { c with fails := Sparse.set c.fails k n }
  let s := eventRec 0x0C (item * 65536 + h * 16384 + l * 256 + b) [] false s
  s.when (s.get CAL_CFG_TRIES ≤ n) fun s => s.setBit (CAL_HL_FAILMASK h l) item true

/-- A result is accepted; what it changes is in the layer's body. -/
def calAccept (item h l : Nat) (s : State) : State :=
  (s.inc CAL_CNT_RUNS).setCal fun c => { c with
    fails := Sparse.set c.fails (8 * layerKey h l + item) 0
    gained := if c.gained.contains (layerKey h l) then c.gained else c.gained ++ [layerKey h l]
    dirty := if c.dirty.contains l then c.dirty else c.dirty ++ [l] }

/-- Calibration work of a head is left. -/
def State.calWaits (s : State) (h : Nat) : Bool :=
  s.cal.reqs.any (fun r => r.head == h) || (s.cal.step1.any fun x => x.1 / 48 == h) || s.cal.tilts.any fun k => k / 1536 == h

/-- CAL asks for a calibration window of WINREV revolutions (R368). -/
def calWindow (h : Nat) (s : State) : State := submit .calWin h (tickAfter s.now) (s.get CAL_CFG_WINREV * au24) 2 s

/-! ### Full calibration (R369) -/

/-- The items of a full calibration: item, band and spot, with 8 for SUM and wobble amplitude of a band (Table 14.1). -/
def State.fullItems (s : State) (h : Nat) : List (Nat × Nat × Nat) :=
  [(0, 0, 0), (1, 0, 0), (7, 0, 0), (2, 0, 0)] ++ (List.range 32).flatMap fun b =>
    [(3, b, 0), (8, b, 0), (5, b, 0)] ++ (List.range (s.headCfg h).spots).map (fun t => (4, b, t))
      ++ if (s.headCfg h).wspots == 0 then [] else [(6, b, 0)]
/-- Those of a layer that have neither ended nor are masked. -/
def State.fullLeft (s : State) (h l : Nat) : List (Nat × Nat × Nat) :=
  let ended := ((s.cal.reqs.find? fun r => r.head == h && r.kind != 0).map CalReq.ended).getD []
  (s.fullItems h).filter fun i => !ended.contains i && !(s.get (CAL_HL_FAILMASK h l)).testBit (min i.1 7)
/-- An item of a full calibration has ended. -/
def fullEnd (h l item b spot : Nat) (s : State) : State :=
  s.setCal fun c => { c with reqs := c.reqs.map fun r =>
    if r.head == h && r.kind != 0 && r.layers.head? == some l && !r.ended.contains (item, b, spot) then
      { r with ended := r.ended ++ [(item, b, spot)] } else r }
/-- The band a full calibration works in: from B00 on even calls, from B31 on odd calls; what is not of a band at the first one. -/
def State.fullBand (s : State) (h l : Nat) : Nat :=
  let order := if Sparse.get s.cal.fullN h % 2 == 0 then List.range 32 else (List.range 32).reverse
  let left := s.fullLeft h l
  if left.any fun i => [0, 1, 2, 7].contains i.1 then order.headD 0
  else (order.find? fun b => left.any fun i => i.2.1 == b).getD (order.headD 0)

/-- The layer, and where it matters the band, that a head's next calibration window is on. -/
def State.calTarget (s : State) (h : Nat) : Option (Nat × Option Nat) :=
  match s.cal.reqs.find? fun r => r.head == h && r.kind != 0 with
  | some r => r.layers.head?.map fun l => (l, some (s.fullBand h l))
  | none =>
    match s.cal.step1.find? fun x => x.1 / 48 == h with
    | some x => some (x.1 % 48, none)
    | none => (s.cal.tilts.find? fun k => k / 1536 == h).map fun k => (k / 32 % 48, some (k % 32))

/-- The first base track of a band. -/
def bandTrack (b : Nat) : Nat := 6 * (1389 + 983 * b)

/-- What becomes due with a layer beside step 1: its bands, and the rows of its bands where lanes may be shadowed (R368). -/
def dueBands (h l : Nat) (s : State) : State :=
  let keys := (List.range 32).map (calKey h l)
  let rows := if s.calSpare h then keys.flatMap fun k => (List.range (s.headCfg h).spots).map (8 * k + ·) else []
  s.setCal fun c => { c with
    bands := c.bands.filter (fun k => !keys.contains k) ++ keys
    rows := c.rows.filter (fun k => !keys.contains (k / 8)) ++ rows }

end Sys2Proof.Machine
end

