-- ==== Sys2Proof/Machine/Geometry.lean ====
section
/-! DEFINITION. Where blocks lie: slots, blocks and PBAs of a band (R138, R139), chunks, sectors and zones of the volume
(R303, R304), the declustered placement (R306, R308), and wear regions (R336). -/

namespace Sys2Proof.Machine

open R

/-! ### Bands -/

/-- Slots of a track in a band (R138). -/
def slots (b : Nat) : Nat := 983 * 1984 * kBand b / 40188
/-- Data blocks of a track (R303); the block of that index is the track's OPC block (R296). -/
def dataBlocks (b : Nat) : Nat := slots b / 16 - 1
/-- Chunks of a band. -/
def bandChunks (b : Nat) : Nat := 6 * dataBlocks b / 1024
/-- Spare blocks of a band beyond its chunks. -/
def bandSpares (b : Nat) : Nat := 6 * dataBlocks b - 1024 * bandChunks b
/-- Chunks of a layer. -/
def chunksN : Nat := ((List.range 32).map bandChunks).sum
/-- Data blocks of a layer. -/
def layerBlocks : Nat := ((List.range 32).map fun b => 6 * dataBlocks b).sum

/-- A physical block address (R139). -/
def pba (layer band track block : Nat) (attic : Bool) : Nat :=
  layer * 2 ^ 26 + band * 2 ^ 21 + track * 2 ^ 18 + block * 16 + attic.toNat
def pbaLayer (p : Nat) : Nat := p / 2 ^ 26 % 64
def pbaBand (p : Nat) : Nat := p / 2 ^ 21 % 32
def pbaTrack (p : Nat) : Nat := p / 2 ^ 18 % 8
def pbaBlock (p : Nat) : Nat := p / 16 % 2 ^ 14
def pbaAttic (p : Nat) : Bool := p % 2 == 1
/-- The block at an ordinal of a band (R303). -/
def ordinalPba (layer band a : Nat) : Nat := pba layer band (a % 6) (a / 6) false
def pbaOrdinal (p : Nat) : Nat := 6 * pbaBlock p + pbaTrack p

/-- Band of a layer's chunk and its number inside the band. -/
def chunkAt (c : Nat) : Nat × Nat :=
  (List.range 32).foldl (fun (r : (Nat × Nat) × Bool) b =>
    if r.2 then r
    else if r.1.2 < bandChunks b then ((b, r.1.2), true)
    else ((b, r.1.2 - bandChunks b), false)) ((0, c), false) |>.1

/-! ### The volume (R304) -/

/-- Chunk `c` is a spare chunk under a reserve of `sp` percent. -/
def isSpareChunk (sp c : Nat) : Bool := c * sp / 100 < (c + 1) * sp / 100
/-- The data chunks of a layer, in order. -/
def dataChunks (sp : Nat) : List Nat := (List.range chunksN).filter fun c => !isSpareChunk sp c
def sideMembers (w side : Nat) : Nat := (w + 1 - side) / 2
def zonesZ (w d : Nat) : Nat := 24 * (d / sideMembers w 0)

/-! ### Placement (R306) -/

def mix (v : Nat) : Nat :=
  let a := Nat.xor v (v / 2 ^ 30) * 0xBF58476D1CE4E5B9 % 2 ^ 64
  let b := Nat.xor a (a / 2 ^ 27) * 0x94D049BB133111EB % 2 ^ 64
  Nat.xor b (b / 2 ^ 31)

/-- Layer and data chunk of member `j` in zone `z`. -/
def place (seed w d z j : Nat) : Nat × Nat :=
  let side := j % 2
  let k := j / 2
  let q := d / sideMembers w side
  let g := z / 24
  let i := z % 24
  let v := mix (Nat.xor seed (2 * g + side))
  let a := [1, 7, 11, 13, 17, 23].getD (v % 6) 1
  let b := v / 256 % 24
  (24 * side + (a * ((i + 5 * k) % 24) + b) % 24, k * q + g)

def State.volWidth (s : State) : Nat := s.get STR_GEOM_WIDTH
def State.volParity (s : State) : Nat := s.get STR_GEOM_PARITY
def State.volSeed (s : State) : Nat := s.get STR_SEED_HI_SEED * 2 ^ 32 + s.get STR_SEED_LO_SEED
/-- Data members of a stripe. -/
def State.dataMembers (s : State) : Nat := s.volWidth - s.volParity
/-- The sector of a layer that a chunk of data chunks lies in (R304). -/
def sectorOf (w d side chunk : Nat) : Nat := chunk / (d / sideMembers w side)

/-- The member's home block (R308), before any remap. -/
def State.homePba (s : State) (stripe j : Nat) : Nat :=
  let p := place s.volSeed s.volWidth (s.get STR_CHUNKS_D) (stripe / 1024) j
  let c := (dataChunks (s.get STR_GEOM_SPARE)).getD p.2 0
  let u := chunkAt c
  ordinalPba p.1 u.1 (1024 * u.2 + stripe % 1024)

/-! ### Wear regions (R336) -/

/-- Data regions of a track in a band. -/
def dataRegions (b : Nat) : Nat := (dataBlocks b + 255) / 256
/-- Regions of a layer before a band. -/
def regionsBefore (b : Nat) : Nat := ((List.range b).map fun k => 6 * (dataRegions k + 1)).sum
/-- Regions of a layer; an Attic layer holds 108 more. -/
def atticLayers : List Nat := [0, 11, 23, 24, 35, 47]
def layerRegions (layer : Nat) : Nat := regionsBefore 32 + if atticLayers.contains layer then 108 else 0
/-- Region of a block within its layer and the block's offset inside it; the OPC block's offset is 0. -/
def regionOf (p : Nat) : Nat × Nat :=
  let b := pbaBand p
  let n := pbaBlock p
  if pbaAttic p then (regionsBefore 32 + 18 * pbaTrack p + n / 256, n % 256)
  else if dataBlocks b ≤ n then (regionsBefore b + pbaTrack p * (dataRegions b + 1) + dataRegions b, 0)
  else (regionsBefore b + pbaTrack p * (dataRegions b + 1) + n / 256, n % 256)
/-- The last offset of the region a block lies in. -/
def lastOffset (p : Nat) : Nat :=
  let b := pbaBand p
  let n := pbaBlock p
  if pbaAttic p then min 255 (4359 - n / 256 * 256)
  else if dataBlocks b ≤ n then 0
  else min 255 (dataBlocks b - 1 - n / 256 * 256)
/-- The region is an OPC region. -/
def isOpcBlock (p : Nat) : Bool := !pbaAttic p && dataBlocks (pbaBand p) ≤ pbaBlock p
/-- The key of a region in the wear table. -/
def regionKey (p : Nat) : Nat := pbaLayer p * 8192 + (regionOf p).1
/-- The blocks of a data region. -/
def regionBlocks (p : Nat) : List Nat :=
  let base := pbaBlock p / 256 * 256
  (List.range (lastOffset p + 1)).map fun i =>
    pba (pbaLayer p) (pbaBand p) (pbaTrack p) (base + i) (pbaAttic p)

end Sys2Proof.Machine
end

