-- ==== Sys2Proof/Machine/Bound.lean ====
section
/-! DEFINITION. The information-rate bound of a measurement window (R272): the capacity of the linear Gaussian channel with the fitted
response, on a grid of 64 radial by 256 tangential frequencies. Fixed point throughout; its precision is DEDUCED, log entry 12. -/

namespace Sys2Proof.Machine

/-- The keys of `Det.lq` and `Det.wlq`. -/
def lqAll (l : Nat) : Nat := 4096 + l
def lqGood (l b : Nat) : Nat := 64 * l + 2 * b
def lqBits (l b : Nat) : Nat := 64 * l + 2 * b + 1

/-- 10 log₁₀ of a ratio in 2⁻⁸ dB, rounded to nearest: the largest n below 2¹⁶ with 10²ⁿ⁻¹ den⁵¹²⁰ ≤ num⁵¹²⁰, else 0
(DEDUCED, log entry 12). -/
def dbFigure (num den : Nat) : Nat :=
  (List.range 16).reverse.foldl
    (fun n i => if 10 ^ (2 * (n + 2 ^ i) - 1) * den ^ 5120 ≤ num ^ 5120 then n + 2 ^ i else n) 0

/-- cos(2πn/256) for n up to 32 and sin(2πn/256), in 2⁻⁴⁰, by their series. -/
def cosSeries (x : Int) : Int :=
  ((List.range 8).foldl (fun (r : Int × Int) (i : Nat) =>
    let t := -(r.1 * x / 2 ^ 40 * x / 2 ^ 40) / ((2 * (i : Int) + 1) * (2 * (i : Int) + 2))
    (t, r.2 + t)) ((2 ^ 40 : Int), (2 ^ 40 : Int))).2
def sinSeries (x : Int) : Int :=
  ((List.range 8).foldl (fun (r : Int × Int) (i : Nat) =>
    let t := -(r.1 * x / 2 ^ 40 * x / 2 ^ 40) / ((2 * (i : Int) + 2) * (2 * (i : Int) + 3))
    (t, r.2 + t)) (x, x)).2

/-- 2π/256 in 2⁻⁴⁰. -/
def stepAngle : Int := 26986075409

/-- cos(2πn/256) in 2⁻⁴⁰, any n. -/
def cosGrid (n : Int) : Int :=
  let m := (n % 256).toNat
  let m := if 128 < m then 256 - m else m
  let neg := decide (64 < m)
  let m := if neg then 128 - m else m
  let v := if m ≤ 32 then cosSeries (stepAngle * m) else sinSeries (stepAngle * (64 - m))
  if neg then -v else v
def sinGrid (n : Int) : Int := cosGrid (n - 64)

/-- h(j, k) from the list of its 55 coefficients, j the slower index from −2 and k from −5, in 2⁻¹⁶. -/
def coefAt (h : List Int) (j k : Nat) : Int := h.getD (11 * j + k) 0

/-- |H(θ, φ)|² of radial frequency a of 64 and tangential frequency b of 256, in 2⁻⁴⁰. -/
def responseSq (h : List Int) (cs : List Int) (a b : Nat) : Nat :=
  let at' := fun (n : Int) => cs.getD (n % 256).toNat 0
  let sum := fun (f : Int → Int) => ((List.range 5).map fun j => ((List.range 11).map fun k =>
    coefAt h j k * f ((4 * (a : Int) * ((j : Int) - 2) + (b : Int) * ((k : Int) - 5)))).sum).sum / 2 ^ 36
  let re := sum at'
  let im := sum fun n => at' (n - 64)
  (re * re + im * im).toNat

/-- ν of R272 in 2⁻³², by bisection: the largest value whose mean excess over the list of σ² / |H|² is at most 1. -/
def waterLevel (ns : List Nat) : Nat :=
  let fits := fun (v : Nat) => (ns.map fun n => v - n).sum ≤ 2 ^ 32 * 16384
  (List.range 128).reverse.foldl (fun v i => if fits (v + 2 ^ i) then v + 2 ^ i else v) 0

/-- log₂ of a ratio of at least 1, in 2⁻²⁴. -/
def log2Ratio (num den : Nat) : Nat :=
  let n := (num / den).log2
  let x := num * 2 ^ 48 / (den * 2 ^ n)
  let r := (List.range 24).foldl (fun (r : Nat × Nat) _ =>
    let y := r.1 * r.1 / 2 ^ 48
    if 2 ^ 49 ≤ y then (y / 2, 2 * r.2 + 1) else (y, 2 * r.2)) (x, 0)
  n * 2 ^ 24 + r.2

/-- IRB in 2⁻¹⁶ from the response and σ² in 2⁻³² (R272); none where no frequency passes or σ² is 0, for which R272 gives no value. -/
def rateBound (h : List Int) (sigma : Nat) : Option Nat :=
  let cs := (List.range 256).map fun n => cosGrid (n : Nat)
  let hs := (List.range 64).flatMap fun a => (List.range 256).map fun b => responseSq h cs a b
  let hs := hs.filter (0 < ·)
  if sigma == 0 || hs.isEmpty then none
  else
    let v := waterLevel ((hs.map fun x => sigma * 2 ^ 40 / x) ++ List.replicate (16384 - hs.length) (2 ^ 200))
    let sum := (hs.map fun x => if sigma * 2 ^ 40 < v * x then log2Ratio (v * x) (sigma * 2 ^ 40) else 0).sum
    some ((sum + 2 ^ 22) / 2 ^ 23)

end Sys2Proof.Machine
end

