-- ==== Sys2Proof/Machine/Frame.lean ====
section
/-! DEFINITION. Frames and codewords as numbers: the scrambler, the 16/17 modulation, the frame header, the metadata and the
LDPC code (R133 to R140, R276 to R282), and the pulse train of a mark (R294, R295). Bit `m` of a codeword is bit `m` of
its number. -/

namespace Sys2Proof.Machine

/-! ### PRBS-15 (R134, R278) -/

/-- One step of the generator with feedback polynomial x¹⁵ + x¹⁴ + 1: its state holds the last 15 bits, the newest in bit 0;
the output is the bit that leaves (DEDUCED, log entry 17). -/
def prbsStep (st : Nat) : Nat := st * 2 % 2 ^ 15 + (st.testBit 14 != st.testBit 13).toNat

/-- The first `n` output bits from an initial state. -/
def prbs : Nat → Nat → List Bool
  | 0, _ => []
  | n + 1, st => st.testBit 14 :: prbs n (prbsStep st)

/-- A list of bits as a number, the first in bit 0. -/
def bitsNat : List Bool → Nat
  | [] => 0
  | b :: bs => b.toNat + 2 * bitsNat bs

/-- The scrambler of a frame at address `addr`, as a mask over the codeword (R278). -/
def scrambler (addr : Nat) : Nat := bitsNat (prbs 37632 (addr % 32767 + 1))

/-- REFPAT of wedge `w`, ring `j`, track `t` (R134): its first `n` bits. -/
def refpat (n w j t : Nat) : List Bool := prbs n (((6 * j + t) * 64 + w) % 32767 + 1)

/-! ### Modulation (R277) and SYNC (R276) -/

/-- A data word's 17 channel bits in recording order. -/
def modulate (d : Nat) : List Bool := bitsMsb 8 (d / 256) ++ [!d.testBit 8] ++ bitsMsb 8 d

/-- Decoding drops c8. -/
def demodulate (c : List Bool) : Nat := (c.take 8 ++ c.drop 9).foldl (fun v b => 2 * v + b.toNat) 0

def sync : List Bool := List.replicate 48 false ++ [true, true, false]

/-- The value of c7 that CWD uses: the negated soft value of c8 is added and the sum clipped to ±31 (R283). -/
def softC7 (c7 c8 : Int) : Int := max (-31) (min 31 (c7 - c8))

/-! ### Codewords (R279 to R282) -/

/-- The eight bits of a byte reversed. -/
def rev8 (b : Nat) : Nat := bitsNat (bitsMsb 8 b)

/-- The codeword's first bits hold these bytes, each most significant bit first. -/
def packBytes (l : List Nat) : Nat := leNat (l.map rev8)
/-- Byte `i` of a codeword. -/
def cwByte (x i : Nat) : Nat := rev8 (x / 256 ^ i % 256)
def cwBytes (x from' n : Nat) : List Nat := (List.range n).map fun i => cwByte x (from' + i)
/-- A multi-byte field, most significant byte first. -/
def beNat (l : List Nat) : Nat := leNat l.reverse

/-- The metadata of Table 11.1. -/
structure Meta where
  pba : Nat
  cwix : Nat
  kind : Nat
  member : Nat
  enc : Bool
  nsid : Nat
  keygen : Nat
  wseq : Nat
  lba : Nat
  stripe : Nat
  deriving DecidableEq, Repr

/-- Metadata bytes 0 to 27. -/
def Meta.bytes (m : Meta) : List Nat :=
  beBytes 4 m.pba ++ [m.cwix * 16 + m.kind % 16, m.member, m.enc.toNat * 128 + m.nsid % 128, m.keygen] ++ beBytes 8 m.wseq
    ++ beBytes 8 m.lba ++ beBytes 4 m.stripe

/-- MCRC over the user bytes and metadata bytes 0 to 27. -/
def mcrc (user : List Nat) (m : List Nat) : Nat := crc32c (user ++ m)

/-- The metadata a codeword holds. -/
def metaOf (x : Nat) : Meta :=
  let b := fun i n => beNat (cwBytes x (4096 + i) n)
  { pba := b 0 4, cwix := b 4 1 / 16, kind := b 4 1 % 16, member := b 5 1, enc := 128 ≤ b 6 1, nsid := b 6 1 % 128,
    keygen := b 7 1, wseq := b 8 8, lba := b 16 8, stripe := b 24 4 }
def mcrcOk (x : Nat) : Bool := mcrc (cwBytes x 0 4096) (cwBytes x 4096 28) == beNat (cwBytes x 4124 4)

/-- The address check of R282. -/
def addressOk (x pba cwix kind : Nat) : Bool :=
  (metaOf x).pba == pba && (metaOf x).cwix == cwix && (metaOf x).kind == kind % 16 && mcrcOk x

/-! ### The LDPC code (R281) -/

/-- The shift of block (r, j); none means an all-zero block. -/
def shift (r j : Nat) : Option Nat :=
  if j ≤ 85 then
    if r == j % 12 || r == (j + 4) % 12 || r == (j + 8) % 12 then
      some ((37 * (r + 1) * (j + 1) + 11 * (j + 1) * (j + 1)) % 384)
    else none
  else if j == 86 then
    if r == 0 || r == 11 then some 1 else if r == 6 then some 0 else none
  else if r + 87 == j || r + 86 == j then some 0
  else none

/-- Block column `j` of a codeword. -/
def blockCol (x j : Nat) : Nat := x / 2 ^ (384 * j) % 2 ^ 384
/-- Row t takes bit t + s mod 384. -/
def circ (v s : Nat) : Nat := v / 2 ^ s + v % 2 ^ s * 2 ^ (384 - s)
/-- Block row `r` of H × x over the first `cols` block columns. -/
def synRow (x r cols : Nat) : Nat :=
  (List.range cols).foldl (fun acc j =>
    match shift r j with
    | some s => Nat.xor acc (circ (blockCol x j) s)
    | none => acc) 0

/-- H × x = 0. -/
def syndromeZero (x : Nat) : Bool := (List.range 12).all fun r => synRow x r 98 == 0

/-- The bits set in the low `n` bits. -/
def popCount (n v : Nat) : Nat := ((List.range n).filter v.testBit).length

/-- The number of unsatisfied checks (R345). -/
def syndromeWeight (x : Nat) : Nat := ((List.range 12).map fun r => popCount 384 (synRow x r 98)).sum

/-- The parity of a word of 33,024 bits: block columns 86 to 97, from the dual-diagonal part. -/
def parityCols (u : Nat) : List Nat :=
  let lam := (List.range 12).map fun r => synRow u r 86
  let p0 := lam.foldl Nat.xor 0
  let h := fun r => match shift r 86 with
    | some s => circ p0 s
    | none => 0
  p0 :: ((List.range 11).foldl (fun (acc : List Nat × Nat) r =>
    let p := Nat.xor (Nat.xor (lam.getD r 0) (h r)) acc.2
    (acc.1 ++ [p], p)) ([], 0)).1

/-- The codeword of user bytes and metadata. -/
def encodeCw (user : List Nat) (m : Meta) : Nat :=
  let u := packBytes (user ++ m.bytes ++ beBytes 4 (mcrc user m.bytes))
  (parityCols u).foldr (fun p acc => p + 2 ^ 384 * acc) 0 * 2 ^ 33024 + u

/-! ### The frame (R137, R278) -/

/-- Bytes of a frame header (Table 5.7). -/
def headerBytes (addr kind area wseq : Nat) : List Nat :=
  let b := beBytes 4 addr ++ [kind, area] ++ beBytes 8 wseq ++ [0, 0]
  b ++ beBytes 2 (crc16 (b.flatMap (bitsMsb 8)))

/-- The channel bits of a header: nine words, unscrambled. -/
def headerBits (addr kind area wseq : Nat) : List Bool :=
  let b := headerBytes addr kind area wseq
  (List.range 9).flatMap fun i => modulate (b.getD (2 * i) 0 * 256 + b.getD (2 * i + 1) 0)

/-- The channel bits of a codeword, scrambled and modulated. -/
def codewordBits (addr x : Nat) : List Bool :=
  let y := Nat.xor x (scrambler addr)
  (List.range 2352).flatMap fun w => modulate (bitsNat (bitsMsb 16 (y / 2 ^ (16 * w))))

/-- The 40,188 channel bits of a frame. -/
def frameBits (addr kind area wseq x : Nat) : List Bool := sync ++ headerBits addr kind area wseq ++ codewordBits addr x

/-- What a frame header must satisfy for its slot: HCRC and ADDR (R140). -/
def headerOk (bytes : List Nat) (addr : Nat) : Bool :=
  crc16 ((bytes.take 16).flatMap (bitsMsb 8)) == beNat ((bytes.drop 16).take 2) && beNat (bytes.take 4) == addr

end Sys2Proof.Machine
end

