-- ==== Sys2Proof/Machine/Layout.lean ====
section
/-! DEFINITION. Where the bits of a layer lie: streams, frames and their parts (R125, R127, R130, R134, R138, R139, R141), and when a head
meets them (R54, R260). -/

namespace Sys2Proof.Machine

open R

/-- The channel bits of a frame (R137). -/
def frameLen : Nat := 40188
/-- k of the track a block lies on: 1,024 in the Attic (R128, R141). -/
def kOf (p : Nat) : Nat := if pbaAttic p then 1024 else kBand (pbaBand p)
/-- The first ring of the block's band, or of the Attic (R128, R141). -/
def firstRing (p : Nat) : Nat := if pbaAttic p then 0 else 1389 + 983 * pbaBand p
/-- The slot a codeword of a block lies in (R139). -/
def slotOfCw (p cwix : Nat) : Nat := 16 * pbaBlock p + cwix

/-- A place on a track: ring, wedge and bit of its data field. -/
structure BitPos where
  ring : Nat
  wedge : Nat
  bit : Nat
  deriving DecidableEq, Repr

/-- Where stream bit `d` lies (R138). -/
def bitPos (k ring0 d : Nat) : BitPos :=
  let m := d % (1984 * k)
  ⟨ring0 + d / (1984 * k), m / (31 * k), m % (31 * k)⟩
/-- The angle of a data-field bit from the head's wedge 0, in whole au (R138). -/
def BitPos.angle (b : BitPos) (k : Nat) : Nat := b.wedge * wedgeAu + 8192 + b.bit * 8192 / k

/-- The parts of a run of `n` stream bits, each inside one data field: where it begins and its length (R130). -/
def runParts (k ring0 : Nat) : Nat → Nat → Nat → List (BitPos × Nat)
  | 0, _, _ => []
  | fuel + 1, d, n =>
    let b := bitPos k ring0 d
    let room := 31 * k - b.bit
    if n ≤ room then [(b, n)] else (b, room) :: runParts k ring0 fuel (d + room) (n - room)
/-- The parts of a codeword's frame: it spans at most three data fields. -/
def frameParts (p cwix : Nat) : List (BitPos × Nat) := runParts (kOf p) (firstRing p) 3 (frameLen * slotOfCw p cwix) frameLen

/-- The first bit of a frame, and the place just behind its last. -/
def frameStart (p cwix : Nat) : BitPos := bitPos (kOf p) (firstRing p) (frameLen * slotOfCw p cwix)
def frameLast (p cwix : Nat) : BitPos := bitPos (kOf p) (firstRing p) (frameLen * slotOfCw p cwix + frameLen - 1)

/-- The length of `n` channel bits in au, rounded up. -/
def bitsAu (k n : Nat) : Nat := (n * 8192 + k - 1) / k

/-- The blocks of a track in a copy of the Attic, and a copy's blocks (R141). -/
def atticTrackBlocks : Nat := 4360
def atticBlocks : Nat := 26160
/-- Block `a` of an Attic copy as a PBA (R139, R141). -/
def atticPba (copy a : Nat) : Nat := pba (atticLayers.getD copy 0) 0 (a % 6) (a / 6) true
/-- The copy that a layer holds, and the block of that copy at a PBA. -/
def atticCopy (p : Nat) : Option Nat := atticLayers.findIdx? (· == pbaLayer p)
def atticIndex (p : Nat) : Nat := 6 * pbaBlock p + pbaTrack p
/-- The first block of the record area; the factory area before it is never written (R141). -/
def atticFirst : Nat := 192

/-- A block exists and may be written: a data or OPC block of a band, or a block of the record area of a copy (R127, R139, R141). -/
def writableBlock (p : Nat) : Bool :=
  pbaLayer p < 48 && pbaTrack p < 6 &&
    if pbaAttic p then
      (atticCopy p).isSome && pbaBand p == 0 && atticFirst ≤ atticIndex p && atticIndex p < atticBlocks
    else pbaBlock p ≤ dataBlocks (pbaBand p)

/-! ### The gap field (R130, R134) -/

/-- The channel bits of a gap field that REFPAT holds: the first and the number N_R. The part of a bit at either end is a space. -/
def refFirst (k : Nat) : Nat := (3 * k + 7) / 8
def refLen (k : Nat) : Nat := 5 * k / 8 - refFirst k
/-- REFPAT of wedge `w`, ring `j`, track `t`. -/
def refBits (k w j t : Nat) : List Bool := refpat (refLen k) w j t

/-! ### When a head meets a place (R54, R125) -/

/-- The angle from the head's wedge 0 at a stamp. -/
def State.headAngle (s : State) (h t : Nat) : Nat := (t + au24 - s.get (ANG_HOFF_OFFSET h)) % au24

/-- The spot that will run on a track number, as the spiral carries the head outward. -/
def State.spotFor (s : State) (h g : Nat) : Nat := (g + 6 - s.get (SRV_HTRK_GTRK h) % 6) % 6
/-- How far ahead of the present the spot of a track number meets an angle of that ring; negative where it has gone by. -/
def State.auAhead (s : State) (h g a : Nat) : Int :=
  ((g : Int) - s.spotFor h g - s.get (SRV_HTRK_GTRK h)) / 6 * au24 + a - s.headAngle h s.now
/-- The track number of a place on a block's track. -/
def trackNo (p : Nat) (b : BitPos) : Nat := 6 * b.ring + pbaTrack p

/-- From where to where a block's frames lie ahead of the present. -/
def State.blockAhead (s : State) (h p : Nat) : Int × Int :=
  let k := kOf p
  let a := frameStart p 0
  let z := frameLast p 15
  (s.auAhead h (trackNo p a) (a.angle k), s.auAhead h (trackNo p z) (z.angle k) + bitsAu k 1)

/-- The stamp at which a head last met an angle from its wedge 0. -/
def State.lastMet (s : State) (h a : Nat) : Nat :=
  (s.now + au48 - (s.headAngle h s.now + au24 - a % au24) % au24) % au48

/-! ### Spans read back (R299, R472) -/

/-- A read of written blocks is asked for. -/
def askReread (h : Nat) (l : List Nat) (s : State) : State :=
  l.foldl (fun s p =>
    let a := s.blockAhead h p
    submitVerify h (tickAfter s.now) ((a.2 - a.1).toNat + 2 * wedgeAu) 0 s) s

/-- The unsampled spans of a head are to be read back before any of their blocks is reported. -/
def readBack (h : Nat) (sel : Span → Bool) (s : State) : State :=
  let l := (s.wh h).spans.filter fun x => !x.sampled && sel x
  askReread h (l.flatMap Span.blks) (s.setWh h fun w => { w with
    spans := w.spans.map fun x => if sel x then { x with sampled := true } else x })

end Sys2Proof.Machine
end

