-- ==== Sys2Proof/Machine/Detector.lean ====
section
/-! DEFINITION. What the lanes and the joint detectors do with what they read: health checks, switches at frame starts, the equalizer
and its adaptation, the eye sweep, the quality figures (R248 to R250, R254 to R256, R261 to R263, R267 to R270). -/

namespace Sys2Proof.Machine

open R

/-! ### Checks (R250, R254 to R256) -/

/-- A byte of the band-table row that a lane uses (R251). -/
def State.rowByte (s : State) (l i : Nat) : Nat := btByte s.rf (s.headLayer (laneHead l)) (s.headBand (laneHead l)) i

/-- The servo sample that just ended holds neither REENTRY nor a part of a data field: the adaptive stages hold (R250). -/
def State.stagesHold (s : State) (h : Nat) : Bool :=
  let a := s.headAngle h s.now % wedgeAu
  tickAu ≤ a && a ≤ 7168

/-- The codes that an adaptive stage went through in a servo sample, each within `reach` of the row value (Table 10.4); the present one
where the stage does not adapt. -/
def adapted (adapts : Bool) (row reach lo hi now : Int) (l : List Int) : List Int :=
  if !adapts || l.isEmpty then [now] else l.map fun v => max (max lo (row - reach)) (min (min hi (row + reach)) v)
/-- A stage stood at its adaptation limit throughout. -/
def railed (row reach lo hi : Int) (l : List Int) : Bool :=
  (l.all fun v => v == min hi (row + reach)) || l.all fun v => v == max lo (row - reach)

/-- The stages of a lane: the codes each went through, with the row value, the reach and the ends of its range. -/
structure Stage where
  on : Bool
  row : Int
  reach : Int
  lo : Int
  hi : Int
  codes : List Int
  deriving DecidableEq, Repr
def State.stages (s : State) (i : LaneIn) : List Stage :=
  let l := i.lane.val
  let sp := s.laneSpot l
  let moves := !s.stagesHold (laneHead l)
  let stage := fun (on : Bool) (row reach lo hi now : Int) (c : List Int) => (⟨on, row, reach, lo, hi, adapted (on && moves) row reach lo hi now c⟩ : Stage)
  [stage true (s.rowByte l sp) 48 0 255 (s.get (CHN_FE_GAIN l)) i.gain,
   stage ((s.rowByte l 0x17).testBit 0) (toSigned 8 (s.rowByte l (6 + sp))) 32 (-128) 127 (toSigned 8 (s.get (CHN_FE_OFFS l))) i.offs,
   stage ((s.rowByte l 0x17).testBit 1) (toSigned 8 (s.rowByte l (12 + sp))) 25 (-127) 127 (toSigned 8 (s.get (CHN_FE_ASYM l))) i.asym]
def Stage.last (x : Stage) : Int := x.codes.getLast?.getD x.row
def Stage.rail (x : Stage) : Bool := x.on && railed x.row x.reach x.lo x.hi x.codes

/-- The bound of Table 10.6 within which a lane has to lock, in au. -/
def State.lockBound (s : State) (h : Nat) : Nat := bitsAu (s.headK h) (if s.src == srcMARK then 16384 else 4096)

/-- The conditions of Table 10.7 that a lane's servo sample fails, CLIP in bit 0 to SELF in bit 4. -/
def laneCauses (i : LaneIn) (rx : Bool) (s : State) : Nat :=
  let l := i.lane.val
  let st := s.stages i
  let gains := (st.headD ⟨true, 0, 0, 0, 0, []⟩).codes
  let clip := rx && s.get CHN_HLIM_CLIP * (s.headK (laneHead l) / 2) < 256 * i.clipped
  let low := rx && (gains.all fun v => v == 255) && 4 * i.rms < 256 * s.rowByte l 0x14
  let open' := rx && !s.flag (CHN_LSTAT_LOCK l) && s.lockBound (laneHead l) < (s.now + au48 - s.chn.unlockAt.getD l 0) % au48
  let rail := rx && st.any Stage.rail
  maskOf ([clip, low, open', rail, decide (s.get CHN_HLIM_SELFMAX < i.self)].zipIdx.filterMap fun p => if p.1 then some p.2 else none)

/-- What one powered lane shows at the end of a servo sample (R253, R254, R256). One that receives no read window, and one of a head that
writes, checks SELF only. -/
def laneCheck (i : LaneIn) (s : State) : State :=
  let l := i.lane.val
  let st := s.lane l
  if st == laneOFF || st == laneFAILED || st == laneCALIB then s
  else
    let rx := s.flag (CHN_LSTAT_RX l) && !s.flag (WRS_HSTAT_WRITING (laneHead l))
    let causes := laneCauses i rx s
    let code := fun (k : Nat) => (s.stages i)[k]?.elim 0 fun x => ofSigned 8 x.last
    let s := s.when rx fun s => s.puts [(CHN_FE_GAIN l, code 0), (CHN_FE_OFFS l, code 1), (CHN_FE_ASYM l, code 2),
      (CHN_TR_FOFF l, i.foff.toNat)]
    let t := s.now / tickAu * tickAu
    if causes == 0 then judgedTo l t ((s.put (CHN_LSTAT_PEND l) 0).setChn fun c => { c with ok := updAt c.ok l (· + 1) })
    else
      let s := (s.inc (CHN_LSTAT_FAILCHK l)).put (CHN_LSTAT_CAUSE l) causes
      let second := s.flag (CHN_LSTAT_PEND l)
      let s := if second then judgedTo l t (spanMissing l s) else judgedTo l ((t + au48 - tickAu) % au48) s
      (s.put (CHN_LSTAT_PEND l) 1).setChn fun c => { c with
        ok := setAt c.ok l 0
        fail2 := if second then c.fail2.filter (· != l) ++ [l] else c.fail2 }

/-- Every powered lane checks the servo sample that ended (R254); one of which the sample shows nothing measured nothing amiss. -/
def checkLanes (l : List LaneIn) (s : State) : State :=
  (List.range 28).foldl (fun s k =>
    let quiet : LaneIn := { lane := Fin.ofNat 28 k, clipped := 0, rms := 256 * s.rowByte k 0x14, self := 0, gain := [], offs := [], asym := []
                            foff := BitVec.ofNat 16 (s.get (CHN_TR_FOFF k)) }
    laneCheck ((l.find? fun i => i.lane.val == k).getD quiet) s) s

/-! ### Switches of a track (R248, R249) -/

/-- The track number under a spot. -/
def State.trackUnder (s : State) (h spot : Nat) : Nat := s.get (SRV_HTRK_GTRK h) + spot
/-- The spots of a head straddle a band boundary or that of the Attic (R261). -/
def State.straddles (s : State) (h : Nat) : Bool :=
  let zone := fun (g : Nat) => if g / 6 < 1380 then 32 else ringBand (g / 6)
  zone (s.trackUnder h 0) != zone (s.trackUnder h ((s.headCfg h).spots - 1))

/-- The stamp of the next frame start of the track under a spot (R138). -/
def State.nextFrameAt (s : State) (h spot : Nat) : Nat :=
  let ring := s.trackUnder h spot / 6
  let k := if ring < 1380 then 1024 else kBand (ringBand ring)
  let first := if ring < 1380 then 0 else 1389 + 983 * ringBand ring
  let a := s.headAngle h s.now
  let d := (ring - first) * (1984 * k) + a / wedgeAu * (31 * k) + ((a % wedgeAu - 8192) * k + 8191) / 8192
  let b := bitPos k first ((d + frameLen - 1) / frameLen * frameLen)
  (s.now + (b.ring - ring) * au24 + b.angle k - a) % au48
/-- When a track's delivery switches: at its next frame start, or at once while no read window of the head is open. -/
def State.switchAt (s : State) (h spot : Nat) : Nat := if s.reading h then s.nextFrameAt h spot else s.now

/-- DET switches a track to a lane that has acquired (R248, R249). -/
def switchLane (l : Nat) (s : State) : State :=
  let h := laneHead l
  let sp := spareOf h
  let rx := if s.reading h then 1 else 0
  let spot := s.laneSpot l
  let old := (s.carrier h spot).getD l
  let at' := s.switchAt h spot
  let s := noteCarrier h spot old at' (s.put (CHN_LSTAT_RX l) rx)
  if isSpare l then
    let f := s.get (CHN_LANEMAP_FOR l)
    if s.chn.shadows.contains f then
      let s := s.puts [(CHN_LANEMAP_STATE l, laneSHADOW), (CHN_LANEMAP_STATE f, laneCALIB), (CHN_LSTAT_RX f, 0)]
      laneRec l (laneRec f s)
    else
      let s := s.puts [(CHN_LANEMAP_STATE l, laneCOVER), (CHN_LANEMAP_STATE f, laneTEST), (CHN_LSTAT_RX f, 0)]
      endLaneAct 1 (laneRec l (laneRec f s))
  else
    let carried := s.get (CHN_LANEMAP_FOR sp) == l && (s.lane sp == laneCOVER || s.lane sp == laneSHADOW)
    let s := s.put (CHN_LANEMAP_STATE l) laneACTIVE
    let s := s.when carried fun s => laneRec sp (spareIdle sp s)
    let s := zeroConf h spot false (s.setBit (CHN_HSTAT_LOSTTRK h) spot false)
    let s := s.setChn fun c => { c with gaps := c.gaps.map fun g =>
      if g.trk == 8 * h + spot && g.stop == some s.now then { g with stop := some at' } else g }
    let s := laneRec l s
    if s.chn.back.contains l then s.setChn fun c => { c with back := c.back.filter (· != l) } else laneRestored l s

/-- LANE_ACQUIRED: an acquiring lane has passed two consecutive checks; a spare whose head has no open read window takes its track as
soon as the crossbar has settled (R248). -/
def execLaneAcquired (l : Lane) (s : State) : Res :=
  s.doIf (s.applied && s.lane l == laneACQUIRING && (2 ≤ s.chn.ok.getD l 0 || (isSpare l && !s.reading (laneHead l)))) (switchLane l)

/-! ### The equalizer (R250, R261 to R263) -/

/-- The asymmetry stage (R250): z = x (1 − α) for x ≥ 0 and x (1 + α) below, α = ASYM × 0.002, in quarter LSB of ten bits (its rounding:
DEDUCED, log entry 12). -/
def asymStage (code x : Int) : Int :=
  (satTo (-512) 511 (rneDiv (4 * x * (if 0 ≤ x then 500 - code else 500 + code)) 500)).1

/-- The ten-bit sample of a track that the equalizer takes; 0 for a track at zero confidence (R265). -/
def State.eqIn (s : State) (x : EqIn) (t k : Nat) : Int :=
  let h := x.head.val
  match s.carrier h t with
  | some l =>
    if s.bit (DET_HSTAT_ZEROC h) t then 0
    else asymStage (toSigned 8 (s.get (CHN_FE_ASYM l))) (max (-128) (min 127 ((x.adc.getD t []).getD k 0)))
  | none => 0

def State.detSpots (s : State) (h : Nat) : List Nat := List.range (s.headCfg h).spots
def State.eqCoef (s : State) (h o t k : Nat) : Int := toSigned 24 (s.get (DET_EQ_COEF (1024 * h + 90 * o + 15 * t + k)))

/-- The equalizer's output of a track, in 2⁻¹⁸ ADC LSB (R263). -/
def State.eqOut (s : State) (x : EqIn) (o : Nat) : Int :=
  ((s.detSpots x.head).map fun t => ((List.range (s.get DET_CFG_NTAPS)).map fun k => s.eqCoef x.head o t k * s.eqIn x t k).sum).sum

/-- The bit lies in REFPAT (R134). -/
def State.inRef (s : State) (x : EqIn) : Bool :=
  let k := s.headK x.head
  refFirst k ≤ x.bit && x.bit < refFirst k + refLen k
/-- A bit of REFPAT of the track under a spot; a space outside it. -/
def State.refBit (s : State) (h spot : Nat) (i : Int) : Bool :=
  let k := s.headK h
  let g := s.trackUnder h spot
  let j := i - refFirst k
  if j < 0 then false else (refBits k (s.headAngle h s.now / wedgeAu) (g / 6) (g % 6)).getD j.toNat false
/-- The bit before (0), the bit (1) and the bit behind (2) of a track, as ±1: known in REFPAT, else DET's decisions. -/
def State.eqBit (s : State) (x : EqIn) (t d : Nat) : Int :=
  if (if s.inRef x then s.refBit x.head t ((x.bit : Int) + d - 1) else (x.dec.getD t []).getD d false) then 1 else -1

/-- The target's response of a track: (A, B, A) on the track, (C, D, C) on each neighbour, in 1/64 (R263). -/
def State.targetOut (s : State) (x : EqIn) (o : Nat) : Int :=
  let tap := fun (f : Fld) => toSigned 8 (s.get f)
  let part := fun (t : Nat) (a b : Int) => a * s.eqBit x t 0 + b * s.eqBit x t 1 + a * s.eqBit x t 2
  part o (tap DET_TGT_A) (tap DET_TGT_B)
    + (((s.detSpots x.head).filter fun t => t + 1 == o || t == o + 1).map fun t => part t (tap DET_TGT_C) (tap DET_TGT_D)).sum
/-- The energy of the target, in 1/64². -/
def State.targetEnergy (s : State) : Nat :=
  let q := fun (f : Fld) => (toSigned 8 (s.get f)).natAbs ^ 2
  2 * q DET_TGT_A + q DET_TGT_B + 2 * (2 * q DET_TGT_C + q DET_TGT_D)

/-- AGCTGT of a head, the sample level at which the target stands (DESIGN CHOICE, log entry 211). -/
def State.eqLevel (s : State) (h : Nat) : Int := max 1 (btByte s.rf (s.headLayer h) (s.headBand h) 0x14 : Nat)

/-- The target's response and the equalizer's error of a track, both in 2⁻¹⁸ ADC LSB. -/
def State.eqTarget (s : State) (x : EqIn) (o : Nat) : Int := 4096 * s.eqLevel x.head * s.targetOut x o
def State.eqError (s : State) (x : EqIn) (o : Nat) : Int := s.eqOut x o - s.eqTarget x o

/-- One step of least mean squares on the paths into a track, none of a track at zero confidence (R263): each coefficient moves by
2^−MU × error × sample, both as parts of the level (DESIGN CHOICE, log entry 211). -/
def adaptTrack (x : EqIn) (o : Nat) (s : State) : State :=
  let h := x.head.val
  let e := s.eqError x o
  let live := (s.detSpots h).filter fun t => !s.bit (DET_HSTAT_ZEROC h) t
  if s.bit (DET_HSTAT_ZEROC h) o then s
  else
    let at' := live.flatMap fun t => (List.range (s.get DET_CFG_NTAPS)).map fun k => (t, k)
    at'.foldl (fun r p =>
      let d := rneDiv (e * s.eqIn x p.1 p.2) (16 * 2 ^ s.get DET_CFG_MU * s.eqLevel h * s.eqLevel h)
      let c := ofSigned 24 (sat24 (s.eqCoef h o p.1 p.2 - d)).1
      let i := 1024 * h + 90 * o + 15 * p.1 + p.2
      r.puts [(DET_EQ_COEF i, c), (DET_EQ_SIGN i, if c.testBit 23 then 0xFF else 0)]) s

/-- What REFPAT shows of a track: the error of the gap field, and the energies of the lane SNR (R263, R268). -/
def noteRef (x : EqIn) (o : Nat) (s : State) : State :=
  let k := 8 * x.head.val + o
  let e := (s.eqError x o).natAbs ^ 2
  let t := (s.eqTarget x o).natAbs ^ 2
  { s with det := { s.det with
    refE := addTo s.det.refE k e, refN := addTo s.det.refN k 1, snrT := addTo s.det.snrT k t, snrE := addTo s.det.snrE k e } }

/-- One channel bit of a head under reading: the equalizer adapts on REFPAT and in data fields. -/
def eqStep (x : EqIn) (s : State) : State :=
  let h := x.head.val
  if !s.flag (DET_HSTAT_RUN h) || (!s.inRef x && x.bit < s.headK h) then s
  else
    let s1 := if s.inRef x then (s.detSpots h).foldl (fun r o => if s.bit (DET_HSTAT_ZEROC h) o then r else noteRef x o r) s else s
    (s.detSpots h).foldl (fun r o => adaptTrack x o r) s1

/-- The error that CAL recorded with the equalizer set in force, in 2⁻¹⁶ of the target energy; none for the default set. -/
def State.recordedErr (s : State) (h : Nat) : Option Nat :=
  let k := (h * 48 + s.headLayer h) * 32 + s.headBand h
  if (s.cal.eq.any fun p => p.1 == k) && Sparse.get s.cal.mse k != 0 then some (Sparse.get s.cal.mse k - 1) else none

/-- A gap field has gone by: the tracks whose mean square error on REFPAT was above four times the recorded one (R263). -/
def judgeRef (h : Nat) (s : State) : State :=
  let unit := s.targetEnergy * (4096 * (s.eqLevel h).toNat) ^ 2
  (List.range 6).foldl (fun s o =>
    let k := 8 * h + o
    let n := Sparse.get s.det.refN k
    let bad := match s.recordedErr h with
      | some r => decide (4 * r * unit * n < Sparse.get s.det.refE k * 65536)
      | none => false
    if n == 0 then s
    else { s with det := { s.det with
      refOver := Sparse.set s.det.refOver k (if bad then Sparse.get s.det.refOver k + 1 else 0)
      refE := Sparse.set s.det.refE k 0, refN := Sparse.set s.det.refN k 0 } }) s

/-- EQ_RELOAD: the error of a track on REFPAT has been above four times the recorded one at two consecutive gap fields (R263). Buffer memory
returns `o` for the first block of the set. -/
def execEqReload (h : Head) (track : Fin 6) (o : BlockRead) (s : State) : Res :=
  s.doIf (s.applied && s.present h && s.flag (DET_HSTAT_RUN h) && 2 ≤ Sparse.get s.det.refOver (8 * h.val + track.val)) fun s =>
    let s := { s with det := { s.det with refOver := (List.range 6).foldl (fun m o => Sparse.set m (8 * h.val + o) 0) s.det.refOver } }
    logFlt 9 kINFO 0x01 h [track.val] ((eqLoadAs h o s).inc (DET_HCNT_EQRELOAD h))

/-! ### The eye sweep (R269) -/

/-- A gap field of a head begins: an eye sweep of one of its lanes counts it while the lane reads. -/
def eyeGap (h : Nat) (s : State) : State :=
  match s.chn.act with
  | some (3, l, n) => s.when (laneHead l == h && s.reading h) fun s => s.setChn fun c => { c with act := some (3, l, n + 1) }
  | _ => s
/-- A head's wedge begins: the gap field before it is judged, the eye sweep goes on. -/
def detWedge (h : Nat) (s : State) : State := eyeGap h (judgeRef h s)

/-- EYEW from the errors at δ = −32 to +31: the consecutive values without an error, 0 among them. -/
def eyeWidth (errs : List Nat) : Nat :=
  let right := ((errs.drop 32).takeWhile (· == 0)).length
  if right == 0 then 0 else right + ((errs.take 32).reverse.takeWhile (· == 0)).length

/-- EYE_SWEEP_DONE: the sweep over 512 gap fields has ended, with so many errors at each of the 64 phases (R269). -/
def execEyeSweepDone (errs : List Nat) (s : State) : Res :=
  match s.chn.act with
  | some (3, l, n) => s.doIf (s.applied && 512 < n && errs.length == 64) fun s =>
      endLaneAct 1 (s.puts [(CHN_EYE_EYEW l, eyeWidth errs), (CHN_EYE_VALID l, 1)])
  | _ => .next s

/-! ### Quality figures (R267, R268, R270) -/

/-- A tick of reading (R267). -/
def noteReading (s : State) : State :=
  (List.range 4).foldl (fun s h => s.when (s.reading h) fun s => { s with det := { s.det with readAu := addTo s.det.readAu h tickAu } }) s

/-- The lane SNR of a track's lane (R268); below 0 dB and without bound it has no stated figure: a free value. -/
def laneSnr (h o : Nat) (s : State) : State :=
  let t := Sparse.get s.det.snrT (8 * h + o)
  let e := Sparse.get s.det.snrE (8 * h + o)
  match s.carrier h o with
  | none => s
  | some l =>
    if t == 0 then s
    else if e == 0 || t < e then (s.put (CHN_SNR_SNR l) (s.freeVal 16)).drawn
    else s.put (CHN_SNR_SNR l) (dbFigure t e)

/-- QUALITY_UPDATE: 16 revolutions of reading of a head have gone by: lane SNRs, the pre-decoder error rate and the mean of ITER over the
codewords decoded, a free value where none was (R267, R268, R270). -/
def execQualityUpdate (h : Head) (s : State) : Res :=
  s.doIf (s.applied && s.present h && 16 * au24 ≤ Sparse.get s.det.readAu h) fun s =>
    let s := forUpTo 6 (laneSnr h) s
    let d := s.det
    let n := Sparse.get d.itN h
    let s := s.puts [(DET_PBERR_ERR h, min (Sparse.get d.pbErr h) (DET_PBERR_ERR h).max),
      (DET_PBBITS_BITS h, min (Sparse.get d.pbBits h / 1024) (DET_PBBITS_BITS h).max)]
    let s := if n == 0 then (s.put (DET_ITER_MEAN h) (s.freeVal 16)).drawn
      else s.put (DET_ITER_MEAN h) (min ((2 * 256 * Sparse.get d.itSum h + n) / (2 * n)) (DET_ITER_MEAN h).max)
    let clear := fun (m : Sparse) => Sparse.set m h 0
    let clears := fun (m : Sparse) => (List.range 6).foldl (fun m o => Sparse.set m (8 * h.val + o) 0) m
    { s with det := { s.det with
      readAu := clear d.readAu, pbErr := clear d.pbErr, pbBits := clear d.pbBits, itSum := clear d.itSum, itN := clear d.itN
      snrT := clears d.snrT, snrE := clears d.snrE } }

end Sys2Proof.Machine
end

