-- ==== Sys2Proof/Machine/Codeword.lean ====
section
/-! DEFINITION. Decoding: release of codewords, the decoder pool, tags, margins, frame groups, decoder faults and decoder
actions (R28 to R30, R140, R265, R266, R282 to R287, R345, R346). -/

namespace Sys2Proof.Machine

open R

def State.setCwd (s : State) (k : Cwd → Cwd) : State := { s with cwd := k s.cwd }
def State.setHlt (s : State) (k : Hlt → Hlt) : State := { s with hlt := k s.hlt }
def State.setStr (s : State) (k : Str → Str) : State := { s with str := k s.str }

/-! ### Conditions and tags (R28, R29) -/

def cCLEAN := 0
def cCORR := 1
def cERASED := 2
def cLOST := 3

/-- The tag of Table 1.2. -/
def tagOf (cond : Nat) (recon : Bool) (i : CwItem) : Nat :=
  cond * 2 ^ 30 + recon.toNat * 2 ^ 29 + i.spare.toNat * 2 ^ 28 + i.lane * 2 ^ 23 + pbaLayer i.pba * 2 ^ 17
    + pbaBand i.pba * 2 ^ 12 + i.cwix * 256 + (if cond == cERASED || recon then 0 else min i.iters 255)
def tagCond (t : Nat) : Nat := t / 2 ^ 30
def tagIter (t : Nat) : Nat := t % 256
def tagRecon (t : Nat) : Bool := t.testBit 29

def cntTag (cond : Nat) (s : State) : State :=
  match cond with
  | 0 => s.inc CWD_TAGCNT_CLEAN
  | 1 => s.inc CWD_TAGCNT_CORR
  | 2 => s.inc CWD_TAGCNT_ERASED
  | _ => s.inc CWD_TAGCNT_LOST

/-! ### Margins, refresh and rereads (R345, R346, R355) -/

/-- The margin of a codeword in 1/256. -/
def cwMargin (s : State) (cond sw iter : Nat) : Nat :=
  if cond == cERASED || cond == cLOST then 0
  else
    let cap := s.get HLT_RCFG_SWCAP
    let mx := s.get CWD_DEC_MAXIT
    min ((256 * cap - 256 * sw) / cap) (256 * (mx - iter) / mx)

def syncRefq (s : State) : State := s.put HLT_REFQ_LEN s.hlt.refresh.length

/-- Insert by ascending margin. -/
def insertRefresh (e : Nat × Nat × Bool) : List (Nat × Nat × Bool) → List (Nat × Nat × Bool)
  | [] => [e]
  | x :: xs => if e.1 < x.1 then e :: x :: xs else x :: insertRefresh e xs

/-- A stripe enters the refresh queue of 1,024 (R355). -/
def queueRefresh (key stripe : Nat) (again : Bool) (s : State) : State :=
  match s.hlt.refresh.find? fun e => e.2.1 == stripe with
  | some e =>
    if key < e.1 then
      s.setHlt fun h => { h with refresh := insertRefresh (key, stripe, e.2.2) (h.refresh.filter fun x => x.2.1 != stripe) }
    else s
  | none =>
    if s.hlt.refresh.length < 1024 then
      syncRefq (s.setHlt fun h => { h with refresh := insertRefresh (key, stripe, again) h.refresh })
    else
      match s.hlt.refresh.getLast? with
      | some e =>
        if key < e.1 then
          (s.inc HLT_REFQ_DROP).setHlt fun h => { h with refresh := insertRefresh (key, stripe, again) h.refresh.dropLast }
        else s
      | none => s

/-- A stripe leaves the refresh queue. -/
def dropRefresh (stripe : Nat) (s : State) : State :=
  syncRefq (s.setHlt fun h => { h with
    refresh := h.refresh.filter fun x => x.2.1 != stripe
    refWant := h.refWant.filter (· != stripe), refData := h.refData.filter fun x => x.1 != stripe })

def syncRebuild (s : State) : State :=
  (s.put STR_RB_PEND (min s.str.rebuild.length 65535)).putB STR_STAT_DEGRADED (!s.str.rebuild.isEmpty)
/-- A member is queued for rebuild (R326). -/
def queueRebuild (stripe member : Nat) (s : State) : State :=
  if s.str.rebuild.any fun r => r.stripe == stripe && r.member == member then s
  else syncRebuild (s.setStr fun x => { x with rebuild := x.rebuild ++ [{ stripe, member }] })

/-- The layers that hold members of a stripe. -/
def State.stripeLayers (s : State) (stripe : Nat) : List Nat :=
  (List.range s.volWidth).map fun j => (place s.volSeed s.volWidth (s.get STR_CHUNKS_D) (stripe / 1024) j).1

/-- A codeword's block lies in a record of a copy of the Attic. -/
def State.recordAt (s : State) (p : Nat) : Option AttRec :=
  if !pbaAttic p then none
  else s.att.recs.find? fun r => atticCopy p == some r.copy && r.blks.contains (atticIndex p)
/-- A patrol read finds a record that fails in one copy, which makes the copy stale (R353). -/
def copyFails (p : Nat) (s : State) : State :=
  match s.recordAt p with
  | none => s
  | some r =>
    { s.setBit SYS_MEDIUM_ATTSTALE r.copy true with att := { s.att with
      recs := s.att.recs.map fun x => if x == r then { x with ok := false } else x } }

/-- A codeword has failed: it is read again at once; where that fails too it is suspect, a member goes to rebuild, and a second read that
fails within CONFIRM revolutions confirms it (R326, R346, R351). -/
def failedRead (i : CwItem) (s : State) : State :=
  let me := (i.pba, i.cwix)
  if !i.reread then s.setHlt fun h => { h with rereads := (h.rereads.filter (· != me)) ++ [me] }
  else
    let old := s.hlt.suspects.find? fun r => (r.1, r.2.1) == me
    let second := old.any fun r => (s.now + au48 - r.2.2) % au48 ≤ s.get HLT_LCFG_CONFIRM * au24
    let s := s.setHlt fun h =>
      if second then { h with rereads := h.rereads.filter (· != me), confirmed := (h.confirmed.filter (· != me)) ++ [me] }
      else { h with suspects := (h.suspects.filter fun r => (r.1, r.2.1) != me) ++ [(i.pba, i.cwix, s.now)] }
    let s := s.when (i.act == 5) (copyFails i.pba)
    match i.mem with
    | some p => queueRebuild p.1 p.2 s
    | none => s
/-- A codeword could be read: what was to be read of it again has been. -/
def goodRead (i : CwItem) (s : State) : State :=
  s.setHlt fun h => { h with
    rereads := h.rereads.filter (· != (i.pba, i.cwix)), suspects := h.suspects.filter fun r => (r.1, r.2.1) != (i.pba, i.cwix) }

/-- HLT takes a codeword's tag and syndrome weight (R345, R346). A read at zero confidence gives no margin. -/
def healthOf (i : CwItem) (cond : Nat) (s : State) : State :=
  if i.zero then s
  else
    let m := cwMargin s cond (syndromeWeight i.hard) (min i.iters 255)
    let s := match i.mem with
      | some p =>
        let s := s.when (m < s.get HLT_RCFG_REFRESH) (queueRefresh m p.1 false)
        s.when (i.act == 5) fun s => s.setHlt fun h => { h with
          lapSeen := (s.stripeLayers p.1).foldl (fun l x => if l.contains x then l else l ++ [x]) h.lapSeen
          lapMin := (s.stripeLayers p.1).foldl
            (fun t x => Sparse.set t x (max (Sparse.get t x) (256 - m))) h.lapMin }
      | none => s
    if cond == cERASED || cond == cLOST then failedRead i s else goodRead i s

/-- Requesters of Table 16.2. -/
def srcSTR := 0x2
def srcCWD := 0x3
def rTAGS := 1

/-- The address of the next tag: the TAGS region holds one word of four bytes for each codeword that ASSEMBLY and WRITE have room for,
and the words are used in turn (DESIGN CHOICE, log entry 179). -/
def State.tagAddr (s : State) : Nat :=
  match s.region rTAGS with
  | some r => 65536 * r.base + 4 * (s.cwd.tags % max 1 (16384 * r.size))
  | none => 4 * s.cwd.tags
/-- The tag is kept in the TAGS region (R28). -/
def keepTag (t : Nat) (s : State) : State :=
  (memStore srcCWD s.tagAddr ((leBytes 4 t).map fun b => BitVec.ofNat 8 b) [] s).2.setCwd fun c =>
    { c with tags := c.tags + 1 }

/-! ### Bits delivered and read (R270, R273) -/

/-- ADDR of the frame's slot. -/
def slotAddr (p cwix : Nat) : Nat := p / 2 ^ 18 * 2 ^ 18 + 16 * pbaBlock p + cwix

/-- The member at a slot is verified or committed. -/
def State.slotHolds (s : State) (mem : Option (Nat × Nat)) : Bool :=
  match mem with
  | none => false
  | some (n, j) =>
    (s.str.stripes.any fun t => t.num == n && t.mems.any fun m => m.idx == j && m.st == 2)
      || s.str.zones.any fun v => v.z == n / 1024 && v.st != 0
        && (v.st == 2 || n % 1024 < v.fill || (n % 1024 == v.fill && (j < v.part || (s.dataMembers ≤ j && v.part != 0))))

/-- A frame read counts its channel bits; D_b counts those of slots that hold a verified or committed block (R273). -/
def frameRead (pba : Nat) (mem : Option (Nat × Nat)) (s : State) : State :=
  if pbaAttic pba then s
  else
    let m := addTo s.det.wlq (lqAll (pbaLayer pba)) 40188
    { s with det := { s.det with
      wlq := if s.slotHolds mem then addTo m (lqBits (pbaLayer pba) (pbaBand pba)) 40188 else m } }

/-- A codeword that ends CLEAN or CORR with RECON 0 counts for G_b (R273). -/
def goodBits (pba cond : Nat) (s : State) : State :=
  if pbaAttic pba || (cond != cCLEAN && cond != cCORR) then s
  else { s with det := { s.det with wlq := addTo s.det.wlq (lqGood (pbaLayer pba) (pbaBand pba)) 32768 } }

/-- What the quality figures take from a codeword (R270): the first-pass decisions against the channel bits of the decoded word where it
ends CLEAN or CORR, and its iterations. Bits that were missing are no decisions and are not compared (DEDUCED, log entry 212). -/
def noteQuality (i : CwItem) (cond x : Nat) (s : State) : State :=
  let d := s.det
  let good := cond == cCLEAN || cond == cCORR
  let diff := if good then Nat.land (Nat.xor (bitsNat (codewordBits (slotAddr i.pba i.cwix) x)) i.chan) i.made else 0
  if i.iters == 0 then s
  else { s with det := { d with
    pbErr := addTo d.pbErr i.head (popCount 39984 diff)
    pbBits := if good then addTo d.pbBits i.head (popCount 39984 i.made) else d.pbBits
    itSum := addTo d.itSum i.head (min i.iters 255), itN := addTo d.itN i.head 1 } }

/-- A codeword leaves CWD with its final condition and its tag (R25, R28, R285). Those of calibration and patrol go no further than to
HLT. -/
def tagCodeword (i : CwItem) (cond x : Nat) (s : State) : State :=
  let s := cntTag cond s
  let s := match i.retry with
    | some d => closeBypass 10 d s
    | none => s
  let s := healthOf i cond (noteQuality i cond x (goodBits i.pba cond s))
  if i.act == 2 || i.act == 5 then s
  else
    let t := tagOf cond false i
    (keepTag t s).setCwd fun c => { c with
      out := c.out ++ [⟨t, x, i.mem, i.kind, i.wseq, i.zero, i.act, i.pba, i.cwix, s.tagAddr, i.sync⟩] }

/-! ### The pool (R284) -/

def decInSvc (s : State) (d : Nat) : Bool := s.bit CWD_POOL_INSVC d
def syncOcc (s : State) : State :=
  let n := s.cwd.queue.length
  (s.put CWD_QUEUE_OCC (min n 64)).put CWD_QUEUE_PEAK (max (s.get CWD_QUEUE_PEAK) (min n 64))

/-- An idle decoder in service takes the oldest entry; its limit follows the occupancy it leaves (R284; DEDUCED, log entry 18). -/
def dispatchOne (d : Nat) (s : State) : State :=
  match s.cwd.queue, s.cwd.busy.getD d none with
  | i :: q, none =>
    if s.flag SYS_DOMAIN_DEC && decInSvc s d && !s.cwd.leaving.contains d then
      let busy := s.get CWD_DEC_BUSYQ < q.length && i.retry.isNone
      let lim := if busy then s.get CWD_DEC_BUSYIT else s.get CWD_DEC_MAXIT
      let s := s.when busy fun s => s.inc CWD_CNT_BUSY
      syncOcc (s.setCwd fun c => { c with queue := q, busy := setAt c.busy d (some (i, lim)) })
    else s
  | _, _ => s
def dispatch (s : State) : State := forUpTo 8 dispatchOne s

/-! ### Frame groups (R266) -/

def sameGroup (h k : Nat) (g : FGroup) : Bool := g.head == h && g.key == k

/-- The last codeword of a group's pass has ended: another pass from the stored samples, or the tags stand. A codeword that the queue has no room for ends LOST (R284). -/
def groupPassEnds (g : FGroup) (s : State) : State :=
  let others := s.cwd.groups.filter fun x => !sameGroup g.head g.key x
  if g.left.isEmpty then s.setCwd fun c => { c with groups := others }
  else if g.pass < g.passMax && (g.stored || (others.filter fun x => x.head == g.head && x.stored).length < 2) then
    let s := if g.pass == 1 then s.inc (DET_PASS_PASS2 g.head) else s.inc (DET_PASS_PASS3 g.head)
    let again := g.left.map fun i => { i with pass := g.pass + 1 }
    let room := 64 - s.cwd.queue.length
    let fit := again.take room
    let s := (again.drop room).foldl (fun s i => tagCodeword i cLOST i.hard (s.inc CWD_CNT_OVF)) s
    syncOcc (s.setCwd fun c => { c with
      groups := if fit.isEmpty then others else others ++ [{ g with pass := g.pass + 1, todo := fit.length, left := [], stored := true }]
      queue := c.queue ++ fit })
  else
    let s := s.when (g.pass < g.passMax) fun s => s.inc (DET_HCNT_REPROFULL g.head)
    let s := s.setCwd fun c => { c with groups := others }
    g.left.foldl (fun s i => tagCodeword i cLOST i.hard s) s

/-- A codeword of a group has ended its pass, unconverged where `left`. -/
def groupStep (i : CwItem) (left : Bool) (s : State) : State :=
  match i.group with
  | none => s
  | some k =>
    match s.cwd.groups.find? (sameGroup i.head k) with
    | none => s
    | some g =>
      let g := { g with todo := g.todo - 1, left := if left then g.left ++ [i] else g.left }
      let s := s.setCwd fun c => { c with groups := c.groups.map fun x => if sameGroup i.head k x then g else x }
      if g.todo == 0 then groupPassEnds g s else s

/-- A decode has ended unconverged: the codeword waits for its group's next pass, or is LOST. -/
def unconverged (i : CwItem) (s : State) : State :=
  match i.group with
  | some k => if (s.cwd.groups.any (sameGroup i.head k)) then groupStep i true s else tagCodeword i cLOST i.hard s
  | none => tagCodeword i cLOST i.hard s

/-! ### Release (R30, R140, R255, R265, R283) -/

/-- Where a place of a block's track lies behind the block's first channel bit, in au: the spiral takes one revolution a ring. -/
def behindStart (p : Nat) (b : BitPos) : Nat :=
  let a := frameStart p 0
  b.ring * au24 + b.angle (kOf p) - (a.ring * au24 + a.angle (kOf p))
/-- The stamp at which the last channel bit of a codeword has gone by. -/
def Expect.endOf (e : Expect) (cwix : Nat) : Nat :=
  (e.start + behindStart e.pba (frameLast e.pba cwix) + bitsAu (kOf e.pba) 1) % au48

/-- Channel bits of `n` from stamp `at'` on that have begun before a stamp. -/
def bitsBefore (k n at' stamp : Nat) : Nat :=
  let d := (stamp + au48 - at') % au48
  if 2 ^ 47 ≤ d then 0 else min n ((d * k + 8191) / 8192)

/-- The parts of a frame as the head meets them: the first bit's place in the frame, its stamp, and the number of bits. -/
def Expect.parts (e : Expect) (cwix : Nat) : List (Nat × Nat × Nat) :=
  ((frameParts e.pba cwix).foldl (fun (r : List (Nat × Nat × Nat) × Nat) p =>
    (r.1 ++ [(r.2, (e.start + behindStart e.pba p.1) % au48, p.2)], r.2 + p.2)) ([], 0)).1

/-- The spans of a track that count as missing (R255, R256, R265), and what lies behind the close of its window (R206). -/
def State.lostSpans (s : State) (e : Expect) : List (Nat × Option Nat) :=
  ((s.chn.gaps.filter fun g => g.trk == 8 * e.head + e.spot).map fun g => (g.start, g.stop))
    ++ (e.cut.map fun t => (t, none)).toList

/-- The bits of a frame that are missing, as ranges. -/
def State.lostBits (s : State) (e : Expect) (cwix : Nat) : List (Nat × Nat) :=
  let k := kOf e.pba
  ((e.parts cwix).flatMap fun p => (s.lostSpans e).map fun g =>
    (p.1 + bitsBefore k p.2.2 p.2.1 g.1, match g.2 with
      | some t => p.1 + bitsBefore k p.2.2 p.2.1 t
      | none => p.1 + p.2.2)).filter fun r => r.1 < r.2

def inRanges (l : List (Nat × Nat)) (i : Nat) : Bool := l.any fun r => r.1 ≤ i && i < r.2

/-- The soft values as CWD takes them: from sixteen bits before the place of R138 on, within ±LLRCLIP (R264), 0 where a bit is missing
(R265). -/
def maskSoft (clip : Nat) (lost : List (Nat × Nat)) (soft : List Int) : List Int :=
  soft.zipIdx.map fun p => if 16 ≤ p.2 && inRanges lost (p.2 - 16) then 0 else max (-(clip : Int)) (min clip p.1)

/-- A soft value that decides for 1. -/
def isMark (v : Int) : Bool := decide (v < 0)
/-- SYNC begins here: a run of at least 40 zeros followed by 1, 1, 0 (R276). A value of 0 decides for no 1 (DEDUCED, log entry 178). -/
def syncAt (l : List Int) : Bool := (l.take 51).drop 8 |>.map isMark |> (· == List.replicate 40 false ++ [true, true, false])
/-- Where SYNC lies within ±16 channel bits of the place of R138 (R140). -/
def findSync (soft : List Int) : Option Nat := (List.range 33).find? fun f => syncAt (soft.drop f)
/-- The frame is placed from SYNC alone where all 51 bits of it are read as they were written (DEDUCED, log entry 178). -/
def syncExact (l : List Int) : Bool := (l.take 51).map isMark == sync

/-- The words of 17 channel bits. -/
def softWords : Nat → List Int → List (List Int)
  | 0, _ => []
  | n + 1, l => l.take 17 :: softWords n (l.drop 17)

/-- The eighteen bytes of a frame's header as they are read. -/
def headerRead (l : List Int) : List Nat :=
  (softWords 9 (l.drop 51)).flatMap fun w =>
    let d := demodulate (w.map isMark)
    [d / 256, d % 256]

/-- First-pass hard decisions from the soft values (R264, R283): negative favours 1; where the value is 0 no bit is favoured
and the decision is a free value. -/
def hardBits (addr : Nat) (soft : List Int) (free : Nat) : Nat :=
  let words := (softWords 2352 soft).flatMap fun w =>
    let c := fun k => w.getD k 0
    (List.range 7).map c ++ [softC7 (c 7) (c 8)] ++ (List.range 8).map fun k => c (9 + k)
  Nat.xor (scrambler addr) (bitsNat (words.zipIdx.map fun p => p.1 < 0 || (p.1 == 0 && free.testBit p.2)))

/-- The lane that delivered a track at a stamp, and the one before it (R28). A track without a lane names its bound lane
(DESIGN CHOICE, log entry 180). -/
def State.laneOf (s : State) (h spot stamp : Nat) : Nat × Nat :=
  let bound := ((List.range 6).map (7 * h + ·)).find? fun l => s.boundSpot l == spot
  let now := (s.carrier h spot).getD (bound.getD (7 * h + spot))
  match s.chn.since.find? fun x => x.1 == 8 * h + spot with
  | some x => if passed stamp x.2.1 then (now, x.2.2) else (x.2.2, x.2.2)
  | none => (now, now)
/-- A spare delivered a part of the span between two stamps. -/
def State.spareIn (s : State) (h spot a b : Nat) : Bool :=
  let l := s.laneOf h spot b
  let begun := match s.chn.since.find? fun x => x.1 == 8 * h + spot with
    | some x => passed a x.2.1
    | none => true
  isSpare l.1 || (!begun && isSpare l.2)

/-- The verdicts of the head's lanes cover a stamp (R30): those of every lane that carries one of its tracks. -/
def State.verdictsTo (s : State) (h stamp : Nat) : Bool :=
  (List.range 6).all fun i => match s.carrier h i with
    | some l => passed (s.chn.judged.getD l 0) stamp
    | none => true

/-- A codeword's frame group (R266): the slot; its codewords are those of the blocks under reading that share it. -/
def State.groupSize (s : State) (e : Expect) (cwix : Nat) : Nat :=
  (s.cwd.expect.filter fun x => x.head == e.head && x.group && slotOfCw x.pba cwix == slotOfCw e.pba cwix && x.left.contains cwix).length

/-- The passes of a frame group whose first pass starts at a stamp: MODE.ITER of the mode in force then (R266). -/
def State.passesAt (s : State) (stamp : Nat) : Nat :=
  (s.modeCfg (if passed stamp s.sys.modeAt then s.mode else s.sys.modeWas)).iter


/-- A crossing FIFO could not hold the rest of a codeword's bits (R38): its FLT_LOG entry. Table 20.2 names none, so its CODE is a free
value (DESIGN CHOICE, log entry 207). -/
def crossingLost (h : Nat) (s : State) : State := (logFlt 9 kDEGRADE (s.freeVal 8) h [] s).drawn

/-- A codeword whose frame has gone by enters the decoder queue. Soft values that are not there at the end of the list are bits that a
crossing FIFO could not hold; they are missing (R38). One with more than 3,072 missing channel bits, or whose frame cannot be
read, ends ERASED without a decode (R29, R140). One that meets a full queue ends LOST (R284). -/
def releaseCodeword (e : Expect) (cwix : Nat) (soft : List Int) (s : State) : State :=
  let key := slotOfCw e.pba cwix
  let addr := slotAddr e.pba cwix
  let held := min soft.length (frameLen + 32)
  let short := decide (held < frameLen + 32)
  let lost := s.lostBits e cwix ++ (if short then [(held - 16, frameLen + 16)] else [])
  let s := s.when short (crossingLost e.head)
  let soft := maskSoft (s.get DET_CFG_LLRCLIP) lost (soft.take (frameLen + 32) ++ List.replicate (frameLen + 32 - held) 0)
  let f := (findSync soft).getD 16
  let frame := soft.drop f
  let b := headerRead frame
  let hcrc := crc16 ((b.take 16).flatMap (bitsMsb 8)) == beNat (b.drop 16)
  let readable := (findSync soft).isSome && if hcrc then headerOk b addr else syncExact frame
  let missing := ((List.range 39984).filter fun j => inRanges lost (j + 204 + f - 16)).length
  let stop := e.endOf cwix
  let begin' := (e.start + behindStart e.pba (frameStart e.pba cwix)) % au48
  let i : CwItem := {
    head := e.head, lane := (s.laneOf e.head e.spot stop).1, spare := s.spareIn e.head e.spot begin' stop, pba := e.pba, cwix
    kind := b.getD 4 0, wseq := beNat ((b.drop 6).take 8)
    hard := hardBits addr (frame.drop 204) (s.freeVal 37632), chan := bitsNat ((frame.drop 204).map isMark |>.take 39984)
    made := bitsNat ((frame.drop 204).map (fun v => v != 0) |>.take 39984), sync := (findSync soft).isSome, missing, zero := !lost.isEmpty
    group := if e.group then some key else none, passMax := if e.group then s.passesAt begin' else 1, act := e.act, mem := e.mem
    reread := s.hlt.rereads.contains (e.pba, cwix) }
  let s := frameRead e.pba e.mem s
  let s := if e.group && !s.cwd.groups.any (sameGroup e.head key) then
      s.setCwd fun w => { w with groups := w.groups ++ [{ head := e.head, key, passMax := s.passesAt begin', todo := s.groupSize e cwix }] }
    else s
  let s := s.drawn.setCwd fun w => { w with
    expect := (w.expect.map fun x => if x == e then { x with left := x.left.filter (· != cwix) } else x).filter fun x => !x.left.isEmpty }
  if !readable || 3072 < missing then groupStep i false (tagCodeword i cERASED i.hard s)
  else if 64 ≤ s.cwd.queue.length then groupStep i false (tagCodeword { i with iters := 0 } cLOST i.hard (s.inc CWD_CNT_OVF))
  else dispatch (syncOcc (s.setCwd fun w => { w with queue := w.queue ++ [i] }))

/-- The read of a codeword under reading is over: its frame has gone by, or its window has closed before that, and the verdicts of the
head's lanes cover it. -/
def State.readOver (s : State) (e : Expect) (cwix : Nat) : Bool :=
  let stop := match e.cut with
    | some t => if passed t (e.endOf cwix) then e.endOf cwix else t
    | none => e.endOf cwix
  passed s.now stop && s.verdictsTo e.head stop

/-- CODEWORD_RELEASE: the verdicts of the head's lanes cover a codeword that a read window reads, and it enters the decoder queue (R30);
`soft` are DET's soft values of its frame, from sixteen channel bits before the place of R138 to sixteen behind its end. -/
def execCodewordRelease (pba : BitVec 32) (cwix : Fin 16) (soft : List Int) (s : State) : Res :=
  match s.cwd.expect.find? fun e => e.pba == pba.toNat && e.left.contains cwix.val with
  | none => .next s
  | some e => s.doIf (s.inLife [MOUNTING, MOUNTED, PARKING] && s.readOver e cwix) (releaseCodeword e cwix soft)

/-! ### Ends of a decode (R284 to R286) -/

/-- A decoder goes out of service. -/
def decOut (d : Nat) (s : State) : State :=
  (s.setBit CWD_POOL_INSVC d false).setBit CWD_POOL_OFFLINE d true

/-- An OFFLINE or RESTORE has completed: its entry (R287). -/
def decAction (d result : Nat) (s : State) : State :=
  logFlt 10 (if result == 2 then kCLEAR else kINFO) 0x02 d [result] s

/-- The decoder is idle again; one that an accepted OFFLINE waits for powers down. -/
def decIdle (d : Nat) (s : State) : State :=
  let s := s.setCwd fun c => { c with busy := setAt c.busy d none }
  if s.cwd.leaving.contains d then
    decAction d 1 (decOut d (s.setCwd fun c => { c with leaving := c.leaving.filter (· != d) }))
  else s

/-- A decoder fault (R286): out of service, FAULT, its entry; the codeword is decoded again first in the queue, with limit
MAXIT. -/
def decoderFault (d cause : Nat) (s : State) : State :=
  match s.cwd.busy.getD d none with
  | none => s
  | some (i, _) =>
    let kind := s.coveredKind
    let s := decOut d (s.setBit CWD_POOL_FAULT d true)
    let s := s.setCwd fun c => { c with busy := setAt c.busy d none, leaving := c.leaving.filter (· != d) }
    let s := logFlt 10 kind 0x01 d [cause] (openBypass 10 d s)
    let s := match i.retry with
      | some e => closeBypass 10 e s
      | none => s
    dispatch (syncOcc (s.setCwd fun c => { c with queue := { i with retry := some d } :: c.queue }))

/-- DECODE_COMPLETE: decoder `d` ends with the word `x` after `iters` iterations, converged, or at its limit (R284). The syndrome checker
judges a converged word (R286); then the tag follows R29 and R282, or the codeword waits for a further pass (R266). -/
def execDecodeComplete (d : Dec) (x : Nat) (conv : Bool) (iters : Nat) (s : State) : Res :=
  match s.cwd.busy.getD d none with
  | none => .next s
  | some (i, lim) => s.doIf s.applied fun s =>
      let x := x % 2 ^ 37632
      if conv && !syndromeZero x then decoderFault d 1 s
      else
        let i := { i with iters := i.iters + if conv then min iters lim else lim }
        let s := decIdle d s
        let s :=
          if !conv then unconverged i s
          else
            let cond :=
              if !addressOk x i.pba i.cwix i.kind then cLOST
              else if x == i.hard && i.missing == 0 then cCLEAN else cCORR
            groupStep i false (tagCodeword i cond x s)
        dispatch s

/-- DECODER_TIMEOUT: a decode has not ended by MAXIT × 320 ns + 1 µs (R286). -/
def execDecoderTimeout (d : Dec) (s : State) : Res := s.doIf s.applied (decoderFault d 2)

/-! ### Decoder actions (R287) -/

def decsInSvc (s : State) : Nat := popCount 8 (s.get CWD_POOL_INSVC)

/-- A write of CWD_DECCTL. -/
def decCtl (v : Nat) (s : State) : State :=
  let d := v % 8
  let off := v.testBit 3
  let res := v.testBit 4
  let refuse := s.put CWD_QUEUE_REFUSED 1
  if off && res then refuse
  else if off then
    if (s.life == MOUNTING || s.life == MOUNTED) && 6 ≤ decsInSvc s && decInSvc s d && !s.cwd.leaving.contains d then
      if (s.cwd.busy.getD d none).isSome then s.setCwd fun c => { c with leaving := c.leaving ++ [d] }
      else decAction d 1 (decOut d s)
    else refuse
  else if res then
    if s.bit CWD_POOL_OFFLINE d && !s.cwd.bist.contains d then s.setCwd fun c => { c with bist := c.bist ++ [d] }
    else refuse
  else s

/-- DECODER_OFFLINE: a write of CWD_DECCTL with OFFLINE 1. -/
def execDecoderOffline (p : Port) (v : Word) (s : State) : Res :=
  vendorWrite p CWD_DECCTL_DEC.off false (decCtl (v.toNat ||| 8)) s

/-- DECODER_RESTORE: a write of CWD_DECCTL with RESTORE 1. -/
def execDecoderRestore (p : Port) (v : Word) (s : State) : Res :=
  vendorWrite p CWD_DECCTL_DEC.off false (decCtl (v.toNat ||| 16)) s

/-- DECODER_BIST_DONE: the BIST of a decoder under RESTORE ends (R287). A failed one leaves it offline with BISTFAIL. -/
def execDecoderBistDone (d : Dec) (pass : Bool) (s : State) : Res :=
  s.doIf (s.applied && s.cwd.bist.contains d.val) fun s =>
    let s := s.setCwd fun c => { c with bist := c.bist.filter (· != d.val) }
    let s := s.setBit CWD_POOL_BISTFAIL d (!pass)
    if pass then
      let s := (s.setBit CWD_POOL_INSVC d true).setBit CWD_POOL_OFFLINE d false
      dispatch (decAction d 2 s)
    else decAction d 3 s

end Sys2Proof.Machine
end

