-- ==== Sys2Proof/Machine/Attic.lean ====
section
/-! DEFINITION. The Attic: its records as bytes and frames, the places they are appended at, and the order in which the copies are
written (R141 to R145). -/

namespace Sys2Proof.Machine

open R

def State.setAtt (s : State) (k : Att → Att) : State := { s with att := k s.att }

/-! ### Records (R142, R143) -/

def atVOLUME := 0x0001
def atNAMESPACES := 0x0002
def atCALIB := 0x0003
def atGDEFECT := 0x0004
def atLEDGER := 0x0005
def atMAPCKPT := 0x0006
def atZONECKPT := 0x0007
def atMEDIUM := 0x0100
def atPDEFECT := 0x0101

/-- The instances a rewritable record type has (Table 5.9); a record of any other TYPE is ignored. -/
def atticInst (type inst : Nat) : Bool :=
  if type == atVOLUME || type == atNAMESPACES || type == atMEDIUM then inst == 0
  else if type == atCALIB || type == atGDEFECT || type == atLEDGER || type == atPDEFECT then inst < 48
  else (type == atMAPCKPT || type == atZONECKPT) && 1 ≤ inst && inst ≤ 64

def atticMagic : Nat := 0x41545443

/-- The first 32 bytes of a record (Table 5.8). -/
def atticHead (type seq len copy inst : Nat) : List Nat :=
  let h := leBytes 4 atticMagic ++ leBytes 2 type ++ leBytes 2 1 ++ leBytes 8 seq ++ leBytes 4 len ++ [copy, 0] ++ leBytes 2 inst
  h ++ leBytes 4 (crc32c h) ++ leBytes 4 0
/-- A record with its check words. -/
def atticRecord (type seq copy inst : Nat) (body : List Nat) : List Nat :=
  let b := atticHead type seq body.length copy inst ++ body
  b ++ leBytes 4 (crc32c b)
/-- The blocks a record fills. -/
def atticCount (len : Nat) : Nat := (0x24 + len + 65535) / 65536
/-- A record's bytes up to the end of its last block, zero behind its end. -/
def atticFill (rec' : List Nat) : List Nat := rec' ++ List.replicate (65536 * atticCount (rec'.length - 0x24) - rec'.length) 0

/-- The head of a record in a block's bytes: TYPE, SEQ, LEN, COPY and INST, where MAGIC and HCRC pass. -/
def atticRead (b : List Nat) : Option (Nat × Nat × Nat × Nat × Nat) :=
  let f := fun i n => leNat ((b.drop i).take n)
  if f 0 4 == atticMagic && f 6 2 == 1 && crc32c (b.take 0x18) == f 0x18 4 then some (f 4 2, f 8 8, f 0x10 4, b.getD 0x14 0, f 0x16 2)
  else none
/-- RCRC of a record passes, its bytes given whole. -/
def atticCheck (b : List Nat) (len : Nat) : Bool :=
  crc32c (b.take (0x20 + len)) == leNat ((b.drop (0x20 + len)).take 4) && 0x24 + len ≤ b.length

/-- The metadata of a codeword of an Attic record (Table 11.1). -/
def atticMeta (p cwix seq : Nat) : Meta :=
  { pba := p, cwix, kind := 4, member := 0xFF, enc := false, nsid := 0, keygen := 0, wseq := seq, lba := 2 ^ 64 - 1, stripe := 2 ^ 32 - 1 }

/-! ### Appending (R144, R145) -/

def attSide (copy : Nat) : Nat := copy / 3
def State.attCur (s : State) (side : Nat) : Option AttWr := s.att.cur.getD side none
def setAttCur (side : Nat) (c : Option AttWr) (s : State) : State := s.setAtt fun a => { a with cur := setAt a.cur side c }

/-- The `n` blocks of a copy from block `a` on that are not retired; block 192 follows block 26,159. -/
def State.attBlocks (s : State) (copy : Nat) : Nat → Nat → Nat → List Nat
  | 0, _, _ => []
  | _, 0, _ => []
  | fuel + 1, n + 1, a =>
    let next := if a + 1 < atticBlocks then a + 1 else atticFirst
    if s.hlt.retired.contains (regionKey (atticPba copy a)) || s.hlt.gdef.any (fun d => d.pba == atticPba copy a && d.kind == 1) then
      s.attBlocks copy fuel (n + 1) next
    else a :: s.attBlocks copy fuel n next

/-- The SEQ of the newest record of a type and instance. -/
def State.newestSeq (s : State) (type inst : Nat) : Nat :=
  ((s.att.newest.find? fun r => r.1 == type && r.2.1 == inst).map fun r => r.2.2.1).getD 0

/-- A record that some of these blocks hold and that is the only valid instance, in its copy, of the newest of its type and instance. -/
def State.attOnly (s : State) (copy : Nat) (blks : List Nat) : Option AttRec :=
  s.att.recs.find? fun r => r.copy == copy && r.ok && r.blks.any blks.contains && r.seq == s.newestSeq r.type r.inst
    && (s.att.recs.filter fun q => q.copy == copy && q.type == r.type && q.inst == r.inst && q.seq == r.seq && q.ok).length ≤ 1

/-- The writer takes the next SEQ for a record. -/
def newJob (type inst : Nat) (body : List Nat) (cont : AttCont) (s : State) : AttJob × State :=
  let seq := s.str.atSeq + 1
  let s := { s with str := { s.str with atSeq := seq } }
  ({ seq, type, inst, body, cont }, s.setAtt fun a => { a with
    newest := (a.newest.filter fun r => !(r.1 == type && r.2.1 == inst)) ++ [(type, inst, seq, body)] })

/-- A copy of a job is begun: its blocks follow the copy's last record. What they held is gone. -/
def beginCopy (side copy : Nat) (j : AttJob) (s : State) : State :=
  let blks := s.attBlocks copy atticBlocks (atticCount j.body.length) (s.att.wp.getD copy atticFirst)
  let last := blks.getLastD (s.att.wp.getD copy atticFirst)
  setAttCur side (some { seq := j.seq, copy, blks, left := blks }) (s.setAtt fun a => { a with
    wp := setAt a.wp copy (if last + 1 < atticBlocks then last + 1 else atticFirst)
    recs := a.recs.filter fun r => r.copy != copy || !r.blks.any blks.contains })

/-- The copy a side writes next: the primary copy of the oldest record that lacks it, else, as a refresh write, the lowest copy that the
oldest record lacks. A copy that part 2 has not read is not written (R552; DESIGN CHOICE, log entry 191). -/
def State.nextCopy (s : State) (side : Nat) : Option (AttJob × Nat) :=
  let mine := fun (j : AttJob) => j.todo.filter fun c => attSide c == side && s.att.read.contains c
  match s.att.jobs.find? fun j => (mine j).contains (3 * side) with
  | some j => some (j, 3 * side)
  | none => (s.att.jobs.find? fun j => !(mine j).isEmpty).map fun j => (j, (mine j).headD 0)

/-- A side that writes nothing begins its next copy; a record that this would overwrite in its only place is first appended again with a
new SEQ (R145). That record is then begun whatever it overwrites (DESIGN CHOICE, log entry 181). -/
def atticNext (side : Nat) (s : State) : State :=
  if (s.attCur side).isSome then s
  else
    match s.nextCopy side with
    | none => s
    | some (j, copy) =>
      let blks := s.attBlocks copy atticBlocks (atticCount j.body.length) (s.att.wp.getD copy atticFirst)
      match s.attOnly copy blks with
      | none => beginCopy side copy j s
      | some r =>
        let body := ((s.att.newest.find? fun n => n.1 == r.type && n.2.1 == r.inst).map fun n => n.2.2.2).getD []
        let n := newJob r.type r.inst body .nothing s
        beginCopy side copy n.1 (n.2.setAtt fun a => { a with jobs := n.1 :: a.jobs })

/-- A rewritable record is written anew: to copies 0 and 3 first, then to the others (R144). -/
def atticWrite (type inst : Nat) (body : List Nat) (cont : AttCont) (s : State) : State :=
  let n := newJob type inst body cont s
  atticNext 1 (atticNext 0 (n.2.setAtt fun a => { a with jobs := a.jobs ++ [n.1] }))

/-- A copy lacks the newest instance of a record, or holds a failing one of it. -/
def State.attLacks (s : State) (copy : Nat) (n : Nat × Nat × Nat × List Nat) : Bool :=
  let mine := s.att.recs.filter fun r => r.copy == copy && r.type == n.1 && r.inst == n.2.1 && r.seq == n.2.2.1
  let waits := s.att.jobs.any fun j => j.type == n.1 && j.inst == n.2.1 && j.seq == n.2.2.1 && j.todo.contains copy
  !waits && (!(mine.any AttRec.ok) || mine.any fun r => !r.ok)
def State.attStale (s : State) (copy : Nat) : Bool := s.att.newest.any (s.attLacks copy)

/-- The repair of copies: each newest record is written again where it is lacking, with its SEQ (R146). -/
def repairCopies (copies : List Nat) (s : State) : State :=
  let new := s.att.newest.filterMap fun n =>
    let todo := copies.filter fun c => s.attLacks c n
    if todo.isEmpty then none
    else some ({ seq := n.2.2.1, type := n.1, inst := n.2.1, body := n.2.2.2, todo } : AttJob)
  atticNext 1 (atticNext 0 (s.setAtt fun a => { a with jobs := a.jobs ++ new }))

/-- Records of which copy 0 or copy 3 has not verified. -/
def State.atticPending (s : State) : Bool := s.att.jobs.any fun j => j.todo.contains 0 || j.todo.contains 3

/-! ### What a side writes -/

/-- The copy under writing whose block this is, by side. -/
def State.attAt (s : State) (p : Nat) : Option (Nat × AttWr) :=
  if !pbaAttic p then none
  else (List.range 2).findSome? fun side => (s.attCur side).bind fun c =>
    if atticCopy p == some c.copy && c.blks.contains (atticIndex p) then some (side, c) else none
/-- A block is asked for by the copy under writing. -/
def State.attAsked (s : State) (p : Nat) : Bool := (s.attAt p).any fun c => c.2.left.contains (atticIndex p)

/-- The codewords of a block under writing. -/
def State.attWords (s : State) (p : Nat) : Option (List (Nat × Nat × Nat)) :=
  (s.attAt p).bind fun c => (s.att.jobs.find? fun j => j.seq == c.2.seq).map fun j =>
    let b := atticFill (atticRecord j.type j.seq c.2.copy j.inst j.body)
    let i := (c.2.blks.findIdx? (· == atticIndex p)).getD 0
    (List.range 16).map fun w => (4, j.seq, encodeCw ((b.drop (65536 * i + 4096 * w)).take 4096) (atticMeta p w j.seq))

/-- A copy has verified whole: it holds the record. The copies of a record are settled in order; what follows copies 0 and 3 is
answered. -/
def attVerified (side : Nat) (c : AttWr) (s : State) : Option AttCont × State :=
  match s.att.jobs.find? fun j => j.seq == c.seq with
  | none => (none, setAttCur side none s)
  | some j =>
    let todo := j.todo.filter (· != c.copy)
    let jobs := if todo.isEmpty then s.att.jobs.filter (· != j) else s.att.jobs.map fun x => if x == j then { j with todo } else x
    let s := s.setAtt fun a => { a with
      jobs, recs := a.recs ++ [{ copy := c.copy, type := j.type, inst := j.inst, seq := j.seq, blks := c.blks }] }
    let s := s.when (!(jobs.any fun x => x.todo.contains c.copy)) fun s => s.setBit SYS_MEDIUM_ATTSTALE c.copy false
    let both := (c.copy == 0 || c.copy == 3) && !todo.contains 0 && !todo.contains 3
    (if both then some j.cont else none, atticNext side (setAttCur side none s))

/-- A block of a copy cannot be written: the copy is begun anew behind it. -/
def attFails (side : Nat) (c : AttWr) (s : State) : State :=
  match s.att.jobs.find? fun j => j.seq == c.seq with
  | none => setAttCur side none s
  | some j => beginCopy side c.copy j (setAttCur side none s)

/-! ### The bodies of VOLUME (Table 12.1) -/

/-- SYSZONES of Table 12.1. -/
def sysZones : Nat := 4

/-- The VOLUME record's body, CLEAN as it stands. -/
def State.volumeBody (s : State) : List Nat :=
  let w := s.volWidth
  let d := s.get STR_CHUNKS_D
  [w, s.volParity, s.get STR_GEOM_SPARE, sysZones, s.str.clean.toNat, 0, 0, 0] ++ leBytes 8 s.volSeed ++ leBytes 4 (s.get STR_CHUNKS_N)
    ++ leBytes 4 d ++ leBytes 4 (s.get STR_ZONES_Z) ++ leBytes 4 0 ++ leBytes 8 s.str.wseq0
def writeVolume (cont : AttCont) (s : State) : State := atticWrite atVOLUME 0 s.volumeBody cont s

end Sys2Proof.Machine
end

