-- ==== Sys2Proof/Machine/CelBase.lean ====
section
/-! DEFINITION. The Cellar's regions, its circular logs and the Seal (R511, R512, R514, R519). -/

namespace Sys2Proof.Machine

open R

/-- The KEK record that begins at a word: its KEK and KEKGEN, where its CRC passes (R519). -/
def Cel.kekRecord (c : Cel) (w : Nat) : Option (Nat × Nat) :=
  if (List.range 3).all fun i => c.stateCode (w + i) == 0 then
    let bytes := (List.range 3).flatMap fun i => leBytes 16 (c.data (w + i))
    if crc32c (bytes.take 44) == leNat (bytes.drop 44) then
      some (leNat (bytes.take 32), leNat ((bytes.drop 32).take 2))
    else none
  else none

/-- The record positions of a Seal sector: three words each. -/
def sealSlots (k : Nat) : List Nat := (List.range 682).map fun i => 2048 * k + 3 * i

/-- The KEK in force: the last record whose CRC passes, the one with the highest KEKGEN (R519, R520: each install counts
KEKGEN up by one). -/
def Cel.kek (c : Cel) : Option (Nat × Nat) :=
  ((sealSlots 120 ++ sealSlots 121).filterMap c.kekRecord).foldl (fun best r =>
    match best with
    | none => some r
    | some b => if b.2 ≤ r.2 then some r else some b) none

/-- Sectors fully erased ahead of the write point, in circular order. -/
def Cel.freeAhead (c : Cel) (r : Nat × Nat) : Nat :=
  match c.writePoint r with
  | none => 0
  | some w =>
    let k := celSector w - r.1
    ((List.range (r.2 - 1)).map fun i => r.1 + (k + 1 + i) % r.2).takeWhile c.sectorErased |>.length

/-- CEL_LOG follows the array (R514). -/
def syncCelLog (s : State) : State :=
  s.puts [(CEL_LOG_JFREE, s.cel.freeAhead sectJOURNAL), (CEL_LOG_LFREE, s.cel.freeAhead sectLEDGER)]

end Sys2Proof.Machine
end

