-- ==== Sys2Proof/Machine/HealthBase.lean ====
section
/-! DEFINITION. What STR and HLT share: Journal and Ledger records, remaps and spare blocks, wear counting, retirement, and
the reports of medium health (R309, R320, R328, R336 to R345, R349, R350, R352). -/

namespace Sys2Proof.Machine

open R

/-- Serial number of the mounted cartridge (Table 5.6). -/
def State.serial (s : State) : Nat := s.get (SYS_MINFO_WORD 2) * 2 ^ 32 + s.get (SYS_MINFO_WORD 3)

/-! ### Records in the Cellar (R320, R343) -/

/-- A 16-byte record: TYPE, N, CHK, then twelve bytes. -/
def logWord (type n : Nat) (body : List Nat) : Nat :=
  let b := [type, n] ++ (body ++ List.replicate 12 0).take 12
  leNat ([type, n] ++ leBytes 2 (crc16 (b.flatMap (bitsMsb 8))) ++ b.drop 2)
/-- TYPE, N and body of a word whose CHK passes. -/
def logRead (v : Nat) : Option (Nat × Nat × List Nat) :=
  let b := leBytes 16 v
  if crc16 ((b.take 2 ++ b.drop 4).flatMap (bitsMsb 8)) == leNat ((b.drop 2).take 2) then
    some (b.getD 0 0, b.getD 1 0, b.drop 4)
  else none

/-- STR appends a Journal record (Table 12.5). -/
def appendJournal (type arg val : Nat) (s : State) : State :=
  celQueue { client := 1, kind := 2, word := 0, data := logWord type 0 (leBytes 4 arg ++ leBytes 8 val), app := true } s
/-- HLT appends a Ledger word (Table 13.2). -/
def appendLedger (type n : Nat) (body : List Nat) (s : State) : State :=
  celQueue { client := 2, kind := 2, word := 0, data := logWord type n body, app := true } s

/-- The entries of a layer's GDEFECT record (Table 13.5). -/
def Defect.bytes (d : Defect) : List Nat :=
  leBytes 4 d.pba ++ leBytes 4 d.repl ++ [d.kind, d.cause] ++ leBytes 2 d.lost ++ leBytes 2 d.nblk ++ [0, 0]
def State.defectsOn (s : State) (layer : Nat) : List Defect := s.hlt.gdef.filter fun d => pbaLayer d.pba == layer
/-- A GDEFECT record (R349). -/
def State.gdefectBody (s : State) (layer : Nat) : List Nat :=
  leBytes 4 (s.defectsOn layer).length ++ leBytes 4 0 ++ (s.defectsOn layer).flatMap Defect.bytes
/-- The LEDGER record of a layer (Table 13.1). -/
def State.ledgerBody (s : State) (layer : Nat) (closed : Bool) : List Nat :=
  let n := layerRegions layer
  leBytes 8 s.hlt.age ++ leBytes 4 n ++ [s.get HLT_WCFG_STEP, closed.toNat, 0, 0]
    ++ (List.range n).flatMap fun r =>
      let k := 8192 * layer + r
      leBytes 2 (Sparse.get s.hlt.count k % 16384 + (s.hlt.retired.contains k).toNat * 16384)

/-! ### Spare blocks (R304, R309) -/

/-- The data chunk that a chunk of a layer is, or, for a spare chunk, the next data chunk. -/
def dataNumber (sp c : Nat) : Nat := c - c * sp / 100
def chunksBefore (b : Nat) : Nat := ((List.range b).map bandChunks).sum
def State.sectorQ (s : State) (side : Nat) : Nat := s.get STR_CHUNKS_D / sideMembers s.volWidth side

/-- An ordinal of a band is a spare block: beyond its chunks, in a spare chunk, or in a data chunk that no zone uses. -/
def State.isSpareOrd (s : State) (side b a : Nat) : Bool :=
  let sp := s.get STR_GEOM_SPARE
  let c := chunksBefore b + a / 1024
  let d := dataNumber sp c
  1024 * bandChunks b ≤ a || isSpareChunk sp c || sideMembers s.volWidth side ≤ d / s.sectorQ side
    || s.sectorQ 0 ≤ d % s.sectorQ side

/-- The sector a block lies in; blocks between two sectors' data chunks belong to the inner one (DEDUCED, log entry 23). -/
def State.blockSector (s : State) (p : Nat) : Nat :=
  let side := pbaLayer p / 24
  let b := pbaBand p
  let c := chunksBefore b + min (pbaOrdinal p / 1024) (bandChunks b - 1)
  let sp := s.get STR_GEOM_SPARE
  let d := if isSpareChunk sp c then dataNumber sp c - 1 else dataNumber sp c
  min (d / s.sectorQ side) (sideMembers s.volWidth side - 1)

/-- The defect entry in force for a block (R350). -/
def State.defectOf (s : State) (p : Nat) : Option Defect := s.hlt.gdef.reverse.find? fun d => d.pba == p && d.kind != 2
/-- A data block is retired (R340, R341). -/
def State.blockRetired (s : State) (p : Nat) : Bool :=
  s.hlt.pdef.contains p || s.hlt.retired.contains (regionKey p) || s.hlt.gdef.any fun d => d.pba == p && d.kind == 1

/-- The free spare blocks of a layer, in ascending radius. -/
def State.freeSpares (s : State) (layer : Nat) : List Nat :=
  (List.range 32).flatMap fun b =>
    (((List.range (6 * dataBlocks b)).filter fun a => s.isSpareOrd (layer / 24) b a).map fun a => ordinalPba layer b a).filter
      fun p => !s.blockRetired p && s.hlt.gdef.all fun d => d.repl != p
def State.spareCount (s : State) (layer : Nat) : Nat :=
  ((List.range 32).map fun b => ((List.range (6 * dataBlocks b)).filter fun a => s.isSpareOrd (layer / 24) b a).length).sum

/-- A block's place along the radius of its layer. -/
def linear (p : Nat) : Nat := ((List.range (pbaBand p)).map fun b => 6 * dataBlocks b).sum + pbaOrdinal p
def nearer (p a b : Nat) : Bool :=
  ((linear a : Int) - linear p).natAbs < ((linear b : Int) - linear p).natAbs

/-- The block where a member is: its home, or where the entries in force send it (R308, R309). -/
def State.follow (s : State) : Nat → Nat → Nat
  | 0, p => p
  | n + 1, p =>
    match s.hlt.gdef.reverse.find? fun d => d.pba == p && d.kind == 1 && d.live && d.repl != 0xFFFFFFFF with
    | some d => s.follow n d.repl
    | none => p
def State.locate (s : State) (stripe j : Nat) : Nat := s.follow (s.hlt.gdef.length) (s.homePba stripe j)

/-- The member at a block has a replacement whose GDEFECT record is not yet durable (R309). -/
def State.remapWaits (s : State) (p : Nat) : Bool :=
  s.hlt.gdef.any fun d => d.pba == p && d.kind == 1 && !d.live && d.repl != 0xFFFFFFFF

/-- The replacement on the block's own layer (R309): the lowest spare block of its sector, else the nearest of a
neighbouring sector. -/
def State.spareOnLayer (s : State) (p : Nat) : Option Nat :=
  let k := s.blockSector p
  let free := s.freeSpares (pbaLayer p)
  match free.find? fun q => s.blockSector q == k with
  | some q => some q
  | none =>
    (free.filter fun q => s.blockSector q + 1 == k || s.blockSector q == k + 1).foldl (fun (best : Option Nat) q =>
      match best with
      | none => some q
      | some b => if nearer p q b then some q else some b) none

/-- The replacement of a member whose layer has failed (R328): a spare block of the same sector on another layer of the
side that holds no member of the stripe and neighbours no member in a neighbouring sector; the layer with the most free
spares there, the lowest on a tie. -/
def State.spareOffLayer (s : State) (stripe p : Nat) : Option Nat :=
  let k := s.blockSector p
  let side := pbaLayer p / 24
  let homes := (List.range s.volWidth).map fun j => s.locate stripe j
  let inK := fun l => (s.freeSpares l).filter fun q => s.blockSector q == k
  let ok := fun l => !s.hlt.failedLayers.contains l && homes.all fun q =>
    pbaLayer q != l && !((pbaLayer q + 1 == l || l + 1 == pbaLayer q)
      && (s.blockSector q + 1 == k || s.blockSector q == k + 1))
  let best := (((List.range 24).map fun i => 24 * side + i).filter ok).foldl (fun (b : Option (Nat × Nat)) l =>
    let n := (inK l).length
    match b with
    | none => if 0 < n then some (l, n) else none
    | some x => if x.2 < n then some (l, n) else some x) none
  best.bind fun x => (inK x.1).head?

/-- The replacement of a member's block. -/
def State.replacement (s : State) (stripe p : Nat) : Option Nat :=
  if s.hlt.failedLayers.contains (pbaLayer p) then s.spareOffLayer stripe p else s.spareOnLayer p

/-! ### Whose block (R306) -/

/-- The stripe and member whose home a block is. -/
def State.homeOf (s : State) (p : Nat) : Option (Nat × Nat) :=
  let layer := pbaLayer p
  let side := layer / 24
  let b := pbaBand p
  let a := pbaOrdinal p
  if pbaAttic p || isOpcBlock p || s.volWidth == 0 || s.isSpareOrd side b a then none
  else
    let d := dataNumber (s.get STR_GEOM_SPARE) (chunksBefore b + a / 1024)
    let j := 2 * (d / s.sectorQ side) + side
    let g := d % s.sectorQ side
    ((List.range 24).find? fun i => (place s.volSeed s.volWidth (s.get STR_CHUNKS_D) (24 * g + i) j).1 == layer).map fun i =>
      (1024 * (24 * g + i) + a % 1024, j)

/-- The stripe and member that a block holds, remaps included. -/
def State.memberAt (s : State) (p : Nat) : Option (Nat × Nat) :=
  let back := (List.range s.hlt.gdef.length).foldl (fun q _ =>
    match s.hlt.gdef.reverse.find? fun d => d.repl == q && d.kind == 1 && d.live with
    | some d => d.pba
    | none => q) p
  match s.homeOf back with
  | some m => if s.locate m.1 m.2 == p then some m else none
  | none => none

/-- A stripe holds committed data: its zone's fill covers it. -/
def State.committed (s : State) (stripe : Nat) : Bool :=
  s.str.zones.any fun z => z.z == stripe / 1024 && (stripe % 1024 < z.fill || (stripe % 1024 == z.fill && 0 < z.part))

/-! ### Reports (R357, R359) -/

/-- A region of a layer is an OPC region or an Attic region. -/
def isDataRegion (r : Nat) : Bool :=
  (List.range 32).any fun b =>
    regionsBefore b ≤ r && r < regionsBefore (b + 1) && (r - regionsBefore b) % (dataRegions b + 1) != dataRegions b
def State.retiredOn (s : State) (layer : Nat) : Nat :=
  (s.hlt.pdef.filter fun p => pbaLayer p == layer).length
    + ((s.hlt.gdef.filter fun d => pbaLayer d.pba == layer && d.kind == 1 && !s.hlt.pdef.contains d.pba).map Defect.pba
        |>.eraseDups).length
    + ((s.hlt.gdef.filter fun d => pbaLayer d.pba == layer && d.kind == 2).map Defect.nblk).sum

/-- KIND 0x03 entries in force. -/
def State.lostEntries (s : State) : List Defect :=
  s.hlt.gdef.filter fun d => d.kind == 3 && s.defectOf d.pba == some d

/-- The HLT registers follow the tables (R340, R352, R357, R359). -/
def syncHealth (s : State) : State :=
  let cnt := s.hlt.count
  let top := cnt.foldl (fun (b : Nat × Nat) e =>
    if isDataRegion (e.1 % 8192) && !s.hlt.retired.contains e.1 && b.2 < e.2 then (e.1 / 8192, e.2) else b) (0, 0)
  let free := (List.range 48).map fun l => (s.freeSpares l).length
  let total := ((List.range 48).map s.spareCount).sum
  let avail := 100 * free.sum / total
  let s := s.puts [(HLT_WEAR_LAYER, top.1), (HLT_WEAR_MAXCNT, top.2), (HLT_STAT_FAILED, s.hlt.failedLayers.length),
    (HLT_RETIRED_BLOCKS, ((List.range 48).map s.retiredOn).sum), (HLT_SPARE_AVAIL, avail)]
  let s := s.putB HLT_STAT_SPARELOW (avail < s.get HLT_SPARE_THR)
  let s := s.putB HLT_STAT_DEGR (!s.hlt.failedLayers.isEmpty || !s.lostEntries.isEmpty)
  forUpTo 48 (fun l s => s.puts [
    (HLT_LSTAT_MAXCNT l, cnt.foldl (fun m e => if e.1 / 8192 == l then max m e.2 else m) 0),
    (HLT_LSTAT_FAILED l, (s.hlt.failedLayers.contains l).toNat),
    (HLT_LSTAT_RETIRED l, s.retiredOn l), (HLT_LSTAT_FREE l, free.getD l 0)]) s

/-- HLT appends a defect entry and writes the layer's GDEFECT record; a remap it names takes force once that is durable (R309, R350). -/
def addDefect (d : Defect) (s : State) : State :=
  let layer := pbaLayer d.pba
  let s := s.setHlt fun h => { h with gdef := h.gdef ++ [{ d with live := false }] }
  atticWrite atGDEFECT layer (s.gdefectBody layer) (.defects layer (s.defectsOn layer).length) s

/-- The first `n` entries of a layer are durable. -/
def defectsLive (layer n : Nat) (s : State) : State :=
  s.setHlt fun h => { h with gdef := (h.gdef.foldl (fun (r : List Defect × Nat) d =>
    if pbaLayer d.pba == layer && r.2 < n then (r.1 ++ [{ d with live := true }], r.2 + 1) else (r.1 ++ [d], r.2)) ([], 0)).1 }

/-- A block is retired alone (R341). Its member, if it holds one, goes to `repl`. -/
def retireBlock (p cause : Nat) (repl : Option Nat) (s : State) : State :=
  let s := (addDefect ⟨p, repl.getD 0xFFFFFFFF, 1, cause, 0, 0, false⟩ s).inc HLT_CNT_RETIRE
  syncHealth s

/-! ### Wear (R337, R340, R342, R343) -/

def State.count (s : State) (k : Nat) : Nat := Sparse.get s.hlt.count k
/-- HIGH of a region: its last offset before its first write after a mount (R337). -/
def State.high (s : State) (p : Nat) : Nat :=
  match Sparse.get s.hlt.high (regionKey p) with
  | 0 => lastOffset p
  | n + 1 => n
/-- The update raises COUNT. -/
def State.raises (s : State) (p : Nat) : Bool := (regionOf p).2 ≤ s.high p
/-- The DELTA value that must be durable before the write, if one must (R343). -/
def State.deltaFor (s : State) (p : Nat) : Option Nat :=
  let k := regionKey p
  let c := s.count k
  let step := s.get HLT_WCFG_STEP
  if s.raises p && c % step == 0 && Sparse.get s.hlt.durable k != c + step then some (c + step) else none

/-- The regions of blocks about to be written whose DELTA is not durable, without repeats, with their values. -/
def State.deltas (s : State) (l : List Nat) : List (Nat × Nat) :=
  (l.filterMap fun p => (s.deltaFor p).map fun v => (regionKey p, v)).eraseDups

def deltaEntry (e : Nat × Nat) : List Nat := [e.1 / 8192] ++ leBytes 2 (e.1 % 8192) ++ leBytes 2 e.2 ++ [0]

/-- DELTA words of up to two entries each. -/
def appendDeltas : List (Nat × Nat) → State → State
  | [], s => s
  | [a], s => appendLedger 2 1 (deltaEntry a) (s.addSat HLT_LEDG_DELTAS 1)
  | a :: b :: l, s => appendDeltas l (appendLedger 2 2 (deltaEntry a ++ deltaEntry b) (s.addSat HLT_LEDG_DELTAS 2))

/-- HLT programs the DELTA entries not yet asked for, after the MOUNT word of this mount. -/
def askDeltas (l : List (Nat × Nat)) (s : State) : State :=
  let new := l.filter fun e => !s.hlt.deltaWait.contains e.1
  if new.isEmpty then s
  else
    let s := s.when (!s.hlt.mountWord) fun s =>
      appendLedger 1 0 (List.replicate 4 0 ++ leBytes 8 s.serial) (s.setHlt fun h => { h with mountWord := true })
    appendDeltas new (s.setHlt fun h => { h with deltaWait := h.deltaWait ++ new.map Prod.fst })

/-- HLT writes the LEDGER record of a layer (R342). -/
def writeLedger (layer : Nat) (s : State) : State :=
  let s := s.setHlt fun h => { h with changed := h.changed.filter (· != layer) }
  atticWrite atLEDGER layer (s.ledgerBody layer false) (.ledger layer) s
/-- A LEDGER record is durable: BASE once every layer changed since the last one has its record (R343). -/
def ledgerDurable (s : State) : State :=
  if s.hlt.changed.isEmpty && !(s.att.jobs.any fun j => j.type == atLEDGER && (j.todo.contains 0 || j.todo.contains 3)) then
    appendLedger 3 0 [] s
  else s

/-- A region becomes worn (R340). -/
def regionWorn (k : Nat) (s : State) : State :=
  writeLedger (k / 8192) (eventRec 0x0D 0 [k / 8192 * 65536 + k % 8192] false (s.put HLT_STAT_WARN 1))

/-- A region is retired (R340): RETIRED, its GDEFECT entry, its committed blocks queued for rebuild, its LEDGER record. -/
def retireRegion (p : Nat) (s : State) : State :=
  let k := regionKey p
  let blocks := if isOpcBlock p then [p] else regionBlocks p
  let s := s.setHlt fun h => { h with retired := h.retired ++ [k] }
  let s := addDefect ⟨blocks.headD p, 0xFFFFFFFF, 2, 3, 0, blocks.length, false⟩ s
  let s := s.addSat HLT_CNT_RETIRE blocks.length
  let s := blocks.foldl (fun s q =>
    match s.memberAt q with
    | some m => if s.committed m.1 then queueRebuild m.1 m.2 s else s
    | none => s) s
  writeLedger (k / 8192) s

/-- One block's update before its window opens (R337), and what its new COUNT brings (R340). -/
def wearOne (p : Nat) (s : State) : State :=
  let k := regionKey p
  let up := s.raises p
  let off := (regionOf p).2
  let c := s.count k
  let s := s.setHlt fun h => { h with high := Sparse.set h.high k (off + 1) }
  if !up then s
  else
    let c' := min (c + 1) 16383
    let s := s.setHlt fun h => { h with
      count := Sparse.set h.count k c'
      changed := if h.changed.contains (k / 8192) then h.changed else h.changed ++ [k / 8192] }
    let s := s.when (c < s.get HLT_WCFG2_WARN && s.get HLT_WCFG2_WARN ≤ c') (regionWorn k)
    s.when (!s.hlt.retired.contains k && s.get HLT_WCFG_RETIRE ≤ c') (retireRegion p)

/-- A window on this block is refused (R340, R352). -/
def State.writeRefused (s : State) (p : Nat) : Bool :=
  s.hlt.retired.contains (regionKey p) || s.hlt.failedLayers.contains (pbaLayer p)

/-- Blocks of the neighbouring tracks that overlap a block in angle (R211): on the five inner boundaries the block of the
same index, across a ring boundary the blocks one ring away. -/
def neighbours (p : Nat) : List Nat :=
  let b := pbaBand p
  let t := pbaTrack p
  let n := pbaBlock p
  let attic := pbaAttic p
  let blk := 16 * frameLen
  let ring := 1984 * kOf p
  let last := if attic then atticTrackBlocks - 1 else dataBlocks b
  let span := fun (lo hi : Nat) => (List.range (hi / blk + 1 - lo / blk)).map fun i => lo / blk + i
  let same := fun (t : Nat) => [pba (pbaLayer p) b t n attic]
  let inner := if 0 < t then same (t - 1)
    else if ring ≤ n * blk then (span (n * blk - ring) ((n + 1) * blk - 1 - ring)).map fun m => pba (pbaLayer p) b 5 m attic
    else []
  let outer := if t < 5 then same (t + 1)
    else ((span (n * blk + ring) ((n + 1) * blk - 1 + ring)).filter fun m => m ≤ last).map fun m =>
      pba (pbaLayer p) b 0 m attic
  inner ++ outer

end Sys2Proof.Machine
end

