-- ==== Sys2Proof/Machine/Pickup.lean ====
section
/-! DEFINITION. The pickup interface: control links, enumeration, laser enables (R160 to R172). -/

namespace Sys2Proof.Machine

open R

def cNOP := 0
def cRD := 1
def cWR := 2
def cLASER := 3
def cTCONV := 4

/-- Priority classes of R162. -/
def xNOP : Xact := ⟨5, cNOP, 0, 0, 0⟩
def xRom (i : Nat) : Xact := ⟨5, cRD, 0x40 + i, 0, 0⟩
def xLevel (i v : Nat) : Xact := ⟨2, cWR, 0x10 + i, v, 0⟩
def xLaserOn (spots : Nat) : Xact := ⟨3, cLASER, 0, 0x8000 + spots, 0⟩
def xLaserOff : Xact := ⟨1, cLASER, 0, 0x3F, 0⟩
def xTconv : Xact := ⟨4, cTCONV, 0, 0, 0⟩
def xTemp : Xact := ⟨4, cRD, 0x08, 0, 0⟩
def xPoll : Xact := ⟨6, cRD, 0x00, 0, 0⟩

/-- The spots of a head (HEADS.SPOTS). -/
def State.spotMask (s : State) (h : Nat) : Nat := 2 ^ (s.headCfg h).spots - 1
def State.enumerating (s : State) (h : Nat) : Bool := (s.opuHead h).enumStep != 0

/-! ### Enumeration (R166) -/

/-! ### Temperature readings (R165, R347, R485, R489, R491) -/
/-- EDGE[i] of THERMAL (Table 3.9). -/
def State.edge (s : State) (i : Nat) : Int :=
  if i % 2 == 0 then toSigned 16 (s.get (THM_EDGE_EDGELO (i / 2))) else toSigned 16 (s.get (THM_EDGE_EDGEHI (i / 2)))
/-- The temperature band of a reading, with 1 °C of hysteresis on falling edges (R491). -/
def State.tempBand (s : State) (prev : Nat) (t : Int) : Nat :=
  let up := ((List.range 7).filter fun i => s.edge i < t).length
  let down := ((List.range 7).filter fun i => s.edge i - 16 < t).length
  if prev < up then up else if down < prev then down else prev

/-- The valid readings of the present heads, in 1/16 °C. -/
def State.tempReadings (s : State) : List Int :=
  ((List.range 4).filter fun h => s.present h && s.flag (OPU_TEMP_VALID h)).map fun h => s.getI (OPU_TEMP_TEMP h)

/-- The equivalent age goes on with a cartridge reading in MOUNTING or MOUNTED: the time since the one before, times the factor of the
mean temperature (R347). REF-clock time is not in the model: the time, in µs, is a free value (DESIGN CHOICE, log entry 1). DUE follows
(R348). -/
def ageOn (s : State) : State :=
  let l := s.tempReadings
  if s.inLife [MOUNTING, MOUNTED] && !l.isEmpty then
    let gain := s.hlt.ageRem + s.freeVal 32 * Config.agingFactor (Int.fdiv l.sum (16 * l.length))
    let age := s.hlt.age + gain / (1000000 * 65536)
    let s := { s.drawn.put HLT_AGE_HOURS (min (age / 3600) HLT_AGE_HOURS.max) with hlt := { s.hlt with age, ageRem := gain % (1000000 * 65536) } }
    s.when (s.get HLT_LIM_LAPAGE * 86400 < age - s.hlt.lapAge) fun s => s.put HLT_STAT_DUE 1
  else s

/-- The reading of a temperature demand (R165): 0x8000 is missing. The last result of a host demand sets DONE (R485). A
reading of a governor demand at the pickup limit makes an orderly stop (R489). -/
def tempReading (h data : Nat) (s : State) : State :=
  let ok := data != 0x8000
  let gov := s.thm.govPick.contains h
  let s := (s.putB (OPU_TEMP_VALID h) ok).when ok fun s =>
    let s := s.put (OPU_TEMP_TEMP h) data
    ageOn { s with thm := { s.thm with pkBand := updAt s.thm.pkBand h fun b => s.tempBand b (toSigned 16 data) } }
  let s := { s with thm := { s.thm with
    pickWait := s.thm.pickWait.filter fun x => x != h
    govPick := s.thm.govPick.filter fun x => x != h } }
  let s := s.when (s.thm.hostDemand && s.thm.pickWait.isEmpty && !s.thm.dieWait) fun s =>
    { (s.puts [(THM_DEMAND_BUSY, 0), (THM_DEMAND_DONE, 1)]).inc THM_CNT_HOSTDEM with
      thm := { s.thm with hostDemand := false } }
  if gov && ok && ((s.get THM_CFG_PKLIM * 16 : Nat) : Int) ≤ toSigned 16 data then orderlyStop 0x21 0 0 0 s else s
/-- A demand whose TCONV or RD goes with the head's queue has no reading (R165). -/
def tempLost (h : Nat) (s : State) : State :=
  let s := s.setOpu h fun o => { o with tempWait := false, tempErr := false }
  if s.thm.pickWait.contains h || s.thm.govPick.contains h then tempReading h 0x8000 s else s
/-- An enumeration of one head starts: step 1, with its first NOP. -/
def startEnum (h : Nat) (restore : Bool) (s : State) : State :=
  let s := tempLost h (syncLon h (s.put (OPU_HSTAT_ENUM h) eWAITING))
  let s := s.setOpu h fun o => { o with queue := [], busy := false, enumStep := 1, enumIdx := 0, restore, direct := false }
  queueXact h xNOP s

/-- On each entry to PRIMED every declared head is enumerated (R166). -/
def enumerateAll (s : State) : State := forUpTo 4 (fun h s => s.when (s.declared h) (startEnum h false)) s

/-- The FLT_HEADCTL action of a head ends. -/
def endHeadAction (result : Nat) (s : State) : State := (s.put FLT_ACTST_BUSY 0).put FLT_ACTST_RESULT result

/-- Cycles a loop occupies its unit (R184). -/
def loopCost (d : LoopDesc) : Nat := 3 * d.nst + d.nin + d.nout + 24
def State.loopDesc (s : State) (l : Nat) : LoopDesc := s.cnv.cfg.loops.getD l {}
/-- The loops R185 counts after enumeration: those of the heads PRESENT, and loop 16. -/
def State.countedLoops (s : State) : List Nat := (List.range 17).filter fun l => l == 16 || s.present (l / 4)
/-- Load of unit `v` when the loops of HOME `u` move to their ALT units. -/
def loadWithout (s : State) (u v : Nat) : Nat :=
  ((s.countedLoops.filter fun l =>
    let d := s.loopDesc l
    (if d.home == u then d.alt else d.home) == v).map fun l => loopCost (s.loopDesc l)).sum
def homeLoad (s : State) (u : Nat) : Nat :=
  ((s.countedLoops.filter fun l => (s.loopDesc l).home == u).map fun l => loopCost (s.loopDesc l)).sum
def spareOk (s : State) (u : Nat) : Bool :=
  (s.countedLoops.all fun l => (s.loopDesc l).home != u || (s.loopDesc l).alt != u)
    && (List.range 4).all fun v => v == u || loadWithout s u v ≤ 256
/-- SRV_LOAD.HOME and SPAREOK after an enumeration (R185). -/
def computeLoads (s : State) : State :=
  forUpTo 4 (fun u s => (s.put (SRV_LOAD_HOME u) (homeLoad s u)).setBit SRV_UNIT_SPAREOK u (spareOk s u)) s

/-- Once no enumeration runs, the loads are computed and a Mount held for it is decided (R185, R548); the loads also after the
enumeration of a RESTORE (DESIGN CHOICE, log entry 221). -/
def afterEnum (s : State) : State :=
  if s.enumRunning then s
  else
    let s := computeLoads s
    if s.hst.mountWait then decideMount s.hst.mountPort s.hst.mountCid s.hst.mountMode s else s

/-- An enumeration ends with a result other than PRESENT: its entry OPU 0x05, SLD_EN low with KNOWN 0 (R218, R230), an
idle link; a head that RESTORE enumerates stays out of service (R508). -/
def enumFails (h code : Nat) (s : State) : State :=
  let restore := (s.opuHead h).restore
  let s := s.puts [(OPU_HSTAT_ENUM h, code), (OPU_HSTAT_INSVC h, 0), (SLD_STAT_EN h, 0), (SLD_POS_KNOWN h, 0)]
  let s := tempLost h (s.setOpu h fun o => { o with queue := [], busy := false, enumStep := 0, restore := false })
  let s := syncLon h (logFlt 5 kDEGRADE 0x05 h [code] s)
  let s := s.when restore (endHeadAction 5)
  afterEnum (setDomains s)

/-- Step 5: the head is PRESENT and in service; its fault clears (Table 20.8). A head that RESTORE enumerated clears its
HEADS bit, writes FLT 0x02 and joins when R463 makes it effective (R508). -/
def enumPresent (h : Nat) (s : State) : State :=
  let restore := (s.opuHead h).restore
  let s := s.puts [(OPU_HSTAT_ENUM h, ePRESENT), (OPU_HSTAT_INSVC h, 1), (SLD_STAT_EN h, 1)]
  let s := s.setBit FLT_ACTIVE1_HEADS h false
  let s := s.setOpu h fun o => { o with enumStep := 0, restore := false }
  let s := setDomains (syncLon h (s.put (SRV_HSTAT_PHASE h) 0))
  let s := if restore then reform (endHeadAction 1 (logFlt 24 kCLEAR 0x02 h [] s)) else s
  afterEnum s

def State.romWord (s : State) (h i : Nat) : Nat := s.get (OPU_ROM_WORD h i)

/-- Step 2: MAGIC, the check word and the fields' ranges (Table 6.7). -/
def romOk (s : State) (h : Nat) : Bool :=
  let w := fun i => s.romWord h i
  let spots := w 5 % 16
  w 0 == 0x4F50 && w 63 == crc16 ((List.range 63).flatMap fun i => bitsMsb 16 (w i))
    && w 2 % 256 == 1 && 1 ≤ spots && spots ≤ 6 && w 6 ≤ 4000
    && 1000 ≤ w 7 && w 7 ≤ 5000 && 1000 ≤ w 8 && w 8 ≤ 5000 && 4030 ≤ w 9 && w 9 ≤ 4070
    && (List.range 6).all fun i => -500 ≤ toSigned 16 (w (10 + i)) && toSigned 16 (w (10 + i)) ≤ 500

/-- Step 3: the ROM against the Canvas. -/
def romMatches (s : State) (h : Nat) : Bool :=
  let c := s.headCfg h
  (c.expectId == 0 || c.expectId == s.romWord h 1) && c.spots ≤ s.romWord h 5 % 16
    && (c.wspots &&& (s.romWord h 5 / 256 % 64)) == c.wspots

/-- The level step 4 writes to register 0x10 + i: READ from OPU_RDPWR, the others 0. -/
def enumLevel (s : State) (h i : Nat) : Nat := if i % 4 == 0 then s.get (OPU_RDPWR_READ h) else 0

/-- An enumeration goes on with the response to its transaction. -/
def enumNext (h : Nat) (data : Nat) (s : State) : State :=
  let o := s.opuHead h
  if o.enumStep == 1 then
    queueXact h (xRom 0) (s.setOpu h fun o => { o with enumStep := 2, enumIdx := 0 })
  else if o.enumStep == 2 then
    let s := s.put (OPU_ROM_WORD h o.enumIdx) data
    if o.enumIdx < 63 then queueXact h (xRom (o.enumIdx + 1)) (s.setOpu h fun o => { o with enumIdx := o.enumIdx + 1 })
    else
      let s := (s.put (OPU_ID_MODEL h) (s.romWord h 1)).put (OPU_ID_HWREV h) (s.romWord h 2 / 256)
      if !romOk s h then enumFails h eBADROM s
      else if !romMatches s h then enumFails h eMISMATCH s
      else queueXact h xLaserOff (s.setOpu h fun o => { o with enumStep := 4, enumIdx := 0 })
  else
    let i := o.enumIdx
    if i < 24 then queueXact h (xLevel i (enumLevel s h i)) (s.setOpu h fun o => { o with enumIdx := i + 1 })
    else enumPresent h s

/-! ### Transactions -/

/-- The transaction in progress has ended; the next one begins. -/
def popXact (h : Nat) (s : State) : State := beginXact h (s.setOpu h fun o => { o with queue := o.queue.tail, busy := false })

/-- A level register as it will stand once what is queued and held has been sent. -/
def State.wantLevel (s : State) (h i : Nat) : Nat :=
  let o := s.opuHead h
  let queued := (o.queue.filter fun x => x.cmd == cWR && x.addr == 0x10 + i).map Xact.data
  let held := (o.heldLevels.filter fun p => p.1 == i).map Prod.snd
  (queued ++ held).getLast?.getD (s.get (OPU_LVL_LEVEL h i))

/-- Levels that may be sent (R152, Table 6.7): READ within 40 to 160, PEAK at most PEAKMAX, and for each spot BOTTOM ≤ ERASE ≤ PEAK once
all of them are sent. -/
def levelsOk (s : State) (h : Nat) (l : List (Nat × Nat)) : Bool :=
  let at' := fun i => ((l.filter fun p => p.1 == i).map Prod.snd).getLast?.getD (s.wantLevel h i)
  l.all fun p =>
    let b := p.1 / 4 * 4
    if p.1 % 4 == 0 then 40 ≤ p.2 && p.2 ≤ 160
    else at' (b + 1) ≤ s.romWord h 6 && at' (b + 3) ≤ at' (b + 2) && at' (b + 2) ≤ at' (b + 1)

/-- Level changes; ones that may not be sent are refused whole (R152; DESIGN CHOICE, log entry 194), and during a write window of the head
they are held (R163). -/
def sendLevels (h : Nat) (l : List (Nat × Nat)) (s : State) : State :=
  if !levelsOk s h l then s
  else if s.writeOpen h then s.setOpu h fun o => { o with heldLevels := o.heldLevels ++ l }
  else l.foldl (fun s p => queueXact h (xLevel p.1 p.2) s) s

/-- LASER on for a head, sent only while its LON is high (R168). -/
def laserOn (h spots : Nat) (s : State) : State :=
  if s.flag (OPU_HSTAT_LON h) then queueXact h (xLaserOn spots) s else s

/-- All 24 level registers are rewritten, and LASER on follows for the spots that were on (R163). -/
def rewriteLevels (h on : Nat) (s : State) : State :=
  let s := forUpTo 24 (fun i s => queueXact h (xLevel i (s.get (OPU_LVL_LEVEL h i))) s) s
  if on == 0 then s else laserOn h on s

/-- What was held during a write window is sent once none is open (R163). -/
def releaseLevels (h : Nat) (s : State) : State :=
  if s.writeOpen h then s
  else
    let o := s.opuHead h
    let s := s.setOpu h fun o => { o with heldLevels := [], resetHeld := none }
    let s := match o.resetHeld with | some on => rewriteLevels h on s | none => s
    o.heldLevels.foldl (fun s p => queueXact h (xLevel p.1 p.2) s) s

/-- STATUS.RST outside an enumeration: the pickup has lost its levels (R163). -/
def pickupReset (h : Nat) (s : State) : State :=
  let on := s.get (OPU_HSTAT_LASERON h)
  let s := raiseInhibit h icPICKUP (cutWrites (fun w => w.head == h) s)
  logFlt 5 kINFO 0x02 h [] (releaseLevels h (s.setOpu h fun o => { o with resetHeld := some on }))

/-- OVERTEMP closes the head's write windows at the next tick and holds new ones until it clears (R163). -/
def overtemp (h : Nat) (b : Bool) (s : State) : State :=
  let s := s.setOpu h fun o => { o with overtemp := b }
  s.when b fun s => raiseInhibit h icPICKUP (cutWrites (fun w => w.head == h) s)

/-- The STATUS of a response, an ACK or a NAK (R163): it is copied to PSTAT, and RST, OVERTEMP and LDFAULT act, within an enumeration in
their own way: RST makes step 4 start again from its LASER off. Answers also whether the transaction goes on from here. -/
def takeStatus (h status : Nat) (s : State) : State × Bool :=
  let s := overtemp h (status.testBit 2) (s.put (OPU_HSTAT_PSTAT h) status)
  if s.enumerating h then
    if status.testBit 3 then (enumFails h eFAILED s, false)
    else if (s.opuHead h).enumStep == 4 && status.testBit 0 then
      (queueXact h xLaserOff (s.setOpu h fun o => { o with enumIdx := 0, queue := [], busy := false }), false)
    else (s, true)
  else
    let s := s.when (status.testBit 0) (pickupReset h)
    if status.testBit 3 then (headFault h (0x40 + 5) 0x04 (logFlt 5 kDEGRADE 0x04 h [status] s), true) else (s, true)

/-- The third attempt has failed (R161). The head's queue is emptied; a direct host transaction that waited in it leaves DONE and ERR
as they are (DESIGN CHOICE, log entry 195), and a temperature demand has no reading (R165). -/
def linkFails (h : Nat) (x : Xact) (s : State) : State :=
  if s.enumerating h then enumFails h eFAILED s
  else
    let s := s.when (x.cls == 5) fun s => s.puts [(OPU_LINKRSP_ERR h, 1), (OPU_LINKRSP_DONE h, 1)]
    let s := logFlt 5 kDEGRADE 0x01 h [x.cmd, x.addr] s
    let s := headFault h (0x40 + 5) 0x01 s
    let s := syncLon h (s.put (OPU_HSTAT_ENUM h) eFAILED)
    tempLost h (s.setOpu h fun o => { o with queue := [], busy := false, direct := false, resetHeld := none, heldLevels := [] })

/-- A failed attempt (R161): a link error; the transaction is repeated in its turn, up to three attempts in all, so a LASER off
waits for one transaction at most (R162). A temperature demand that meets one has no reading (R165). -/
def linkError (h : Nat) (s : State) : State :=
  match (s.opuHead h).queue with
  | [] => s
  | x :: xs =>
    let s := s.inc (OPU_HSTAT_LINKERR h)
    if x.tries < 2 then
      beginXact h (s.setOpu h fun o => { o with
        queue := repeatXact { x with tries := x.tries + 1 } xs, busy := false, tempErr := o.tempErr || x.cls == 4 })
    else linkFails h x s

/-- The end of a LASER off or on: the spots on; the LPMON check of spots switched on begins (R171), and the LASER off of a leaving head
lets it go on (R169, R470). -/
def laserEnds (h : Nat) (x : Xact) (data : Nat) (s : State) : State :=
  let s := s.put (OPU_HSTAT_LASERON h) data
  let s := s.when x.isLaserOn fun s => s.setOpu h fun o => { o with lpGood := 0, lpBad := 0 }
  if !x.isLaserOn && (s.opuHead h).leaving == 1 then
    if s.bit SYS_MODE_ST_LEAVE h then leaveRest h s else s.setOpu h fun o => { o with leaving := 0 }
  else s

/-- What the response to a transaction outside an enumeration does. -/
def actOnResponse (h : Nat) (x : Xact) (status data : Nat) (s : State) : State :=
  let s := s.when (x.cmd == cLASER) (laserEnds h x data)
  let s := s.when (x.cls == 4 && x.cmd == cTCONV) fun s => s.setOpu h fun o => { o with tempWait := true }
  let s := s.when (x.cls == 4 && x.cmd == cRD) fun s =>
    tempReading h (if (s.opuHead h).tempErr then 0x8000 else data) (s.setOpu h fun o => { o with tempErr := false })
  s.when (x.cls == 5) fun s =>
    (s.puts [(OPU_LINKRSP_DONE h, 1), (OPU_LINKRSP_ERR h, 0), (OPU_LINKRSP_STATUS h, status),
      (OPU_LINKRSP_DATA h, data)]).setOpu h fun o => { o with direct := false }

/-- PICKUP_RESPONSE: a response of 32 bits has arrived for the transaction in progress (R160, R161, R163). One that fails its CRC-8, one
that is neither ACK nor NAK (DESIGN CHOICE, log entry 196), and a NAK are link errors, except a NAK to a LASER on that met a fall of LON
(R168). -/
def execPickupResponse (h : Head) (resp : Word) (s : State) : Res :=
  s.doIf (s.on && (s.opuHead h).busy) fun s =>
    match (s.opuHead h).queue with
    | [] => s
    | x :: _ =>
      let r := resp.toNat
      let status := r / 2 ^ 24 % 16
      let data := r / 256 % 65536
      let code := r / 2 ^ 28
      let fell := (s.opuHead h).lonFell
      if crc8 (bitsMsb 20 (r / 256)) != r % 256 || (code != 0b0110 && code != 0b1001) then linkError h s
      else if code == 0b0110 then
        let s := s.when (s.enumerating h && x.cmd == cLASER) fun s => s.put (OPU_HSTAT_LASERON h) data
        if s.enumerating h then
          let t := takeStatus h status (popXact h s)
          if t.2 then enumNext h data t.1 else t.1
        else (takeStatus h status (actOnResponse h x status data (popXact h s))).1
      else if x.isLaserOn && fell then (takeStatus h status (popXact h s)).1
      else
        let t := takeStatus h status s
        if t.2 && t.1.present h == s.present h then linkError h t.1 else t.1

/-- PICKUP_RESPONSE_TIMEOUT: no response begins within 8 clocks (R161). A NOP of step 1 that nothing answers is followed
by the next NOP, 1 ms later, and does not fail the head (R166; DEDUCED, log entry 10). -/
def execPickupResponseTimeout (h : Head) (s : State) : Res :=
  s.doIf (s.on && (s.opuHead h).busy) fun s =>
    if (s.opuHead h).enumStep == 1 then popXact h (s.inc (OPU_HSTAT_LINKERR h)) else linkError h s

/-- PICKUP_LINK_ERROR: the third attempt of the transaction in progress fails (R161). -/
def execPickupLinkError (h : Head) (s : State) : Res :=
  s.doIf (s.on && (s.opuHead h).busy && (s.opuHead h).queue.any fun x => x.tries == 2) fun s =>
    match (s.opuHead h).queue with
    | [] => s
    | x :: _ => linkFails h x (s.inc (OPU_HSTAT_LINKERR h))

/-- ENUM_NOP_RETRY: every 1 ms without an ACK another NOP is sent (R166). -/
def execEnumNopRetry (h : Head) (s : State) : Res :=
  s.doIf (s.on && (s.opuHead h).enumStep == 1 && !(s.opuHead h).busy) (queueXact h xNOP)

/-- ENUM_WAIT_EXPIRED: no ACK within ENUMWAIT ms: the head is ABSENT (R166). -/
def execEnumWaitExpired (h : Head) (s : State) : Res :=
  s.doIf (s.on && (s.opuHead h).enumStep == 1) (enumFails h eABSENT)

/-- STATUS_POLL: once per wedge with nothing pending (R162). -/
def execStatusPoll (h : Head) (s : State) : Res :=
  s.doIf (s.applied && s.present h && !s.enumerating h && (s.opuHead h).queue == []) (queueXact h xPoll)

/-- PICKUP_TEMP_READ: 200 µs after the TCONV the RD of TEMP is issued (R165). -/
def execPickupTempRead (h : Head) (s : State) : Res :=
  s.doIf (s.applied && (s.opuHead h).tempWait) fun s =>
    queueXact h xTemp (s.setOpu h fun o => { o with tempWait := false })

/-- Addresses Table 6.7 assigns to RD. -/
def rdAssigned (a : Nat) : Bool := a == 0 || a == 8 || (0x10 ≤ a && a < 0x28) || (0x40 ≤ a && a < 0x80)

/-- A write of OPU_LINKCMD. -/
def linkCmd (h v : Nat) (s : State) : State :=
  let cmd := v / 2 ^ 24 % 16
  let addr := v / 2 ^ 16 % 256
  if (cmd == cNOP || cmd == cTCONV || (cmd == cRD && rdAssigned addr)) && !(s.opuHead h).direct
      && s.present h && !s.enumerating h then
    queueXact h ⟨5, cmd, addr, 0, 0⟩ (s.setOpu h fun o => { o with direct := true })
  else s.put (OPU_LINKRSP_ERR h) 1

/-- OPU_LINKCMD: a direct host transaction (R172). -/
def execOpuLinkcmd (p : Port) (h : Head) (v : Word) (s : State) : Res :=
  vendorWrite p (OPU_LINKCMD_CMD h).off false (linkCmd h v.toNat) s

/-- The offline of a head would be accepted (R508): MOUNTED, another head of its side effective and in service, no head
action in progress. Answers the refusal code of FLT_ACTST otherwise. -/
def headOfflineCode (h : Nat) (s : State) : Nat :=
  if s.life != MOUNTED then 2
  else if s.flag FLT_ACTST_BUSY || !(s.present h && s.inSvc h && s.effective h) then 3
  else if (sideHeads (sideOf h)).any fun k => k != h && s.effective k && s.inSvc k then 0
  else 4

/-- A head begins to leave the effective set (R470). -/
def startLeave (h : Nat) (s : State) : State :=
  let s := ((s.setBit SYS_MODE_ST_LEAVE h true).setBit SYS_MODE_ST_EFFH h false).setOpu h fun o => { o with leaving := 0 }
  leaveProgress h ((s.setBit SYS_MODE_ST_JOIN h false).put SYS_MODE_ST_TRANS 1)

/-- A write of OPU_CTRL (R169). LOFF reads 0 until LON falls; a write of 0 before that takes the write of 1 back, and the head leaves all the
same (DESIGN CHOICE, log entry 197). -/
def loffWrite (h v : Nat) (s : State) : State :=
  if v.testBit 0 then
    if s.flag (OPU_CTRL_LOFF h) then s
    else if (s.life == MOUNTING || s.life == MOUNTED) && s.effective h then
      if headOfflineCode h s == 0 then
        startLeave h (s.setOpu h fun o => { o with lofLeave := true })
      else s.put (OPU_HSTAT_LOFFREJ h) 1
    else raiseInhibit h icLASER (syncLon h (s.put (OPU_CTRL_LOFF h) 1))
  else if s.flag (OPU_CTRL_LOFF h) then
    let s := syncLon h (s.put (OPU_CTRL_LOFF h) 0)
    s.when (s.life == MOUNTING || s.life == MOUNTED) reform
  else s.setOpu h fun o => { o with lofLeave := false }

/-- LOFF_WRITE: a write of OPU_CTRL (R169). -/
def execLoffWrite (p : Port) (h : Head) (v : Word) (s : State) : Res :=
  vendorWrite p (OPU_CTRL_LOFF h).off false (loffWrite h v.toNat) s

/-- LPMON_FAULT: LPMON has been out by more than 25% for 64 samples, or at full scale once, with a spot on (R164). -/
def execLpmonFault (h : Head) (s : State) : Res :=
  s.doIf (s.applied && s.present h && s.inSvc h && s.get (OPU_HSTAT_LASERON h) != 0
      && (64 ≤ (s.opuHead h).lpBad || (s.opuHead h).lpCode == 32767)) fun s =>
    let s := laserOff h 0x3F s
    let s := logFlt 5 kDEGRADE 0x03 h [ofSigned 16 (s.opuHead h).lpCode] (s.put (OPU_HSTAT_LPERR h) 1)
    headFault h (0x40 + 5) 0x03 s

/-- The stagger's LASER on of the first waiting head (R171). Heads that have left service are skipped; one whose LON is low gets no LASER
on and is skipped, and the next may follow at the next tick. -/
def staggerNext (s : State) : State :=
  match s.sys.stagLeft.filter fun h => s.present h && s.inSvc h with
  | [] => { s with sys := { s.sys with stagLeft := [] } }
  | h :: hs =>
    if s.flag (OPU_HSTAT_LON h) then
      laserOn h (s.spotMask h) { s with sys := { s.sys with stagLeft := hs, stagAt := some s.now, stagHead := some h } }
    else { s with sys := { s.sys with stagLeft := hs, stagHead := none } }

/-- The head that the stagger switched on last holds the next one back no more: its LPMON check has passed, or it is skipped, because it has
left service or its LASER on has failed (R171). -/
def State.stagFree (s : State) : Bool :=
  (s.sys.stagHead.all fun h => s.lpPassed h || !s.present h || !s.inSvc h || !s.flag (OPU_HSTAT_LON h))
    && s.sys.stagAt.all fun t => passed s.now (t + 1048576)

/-- LASER_STAGGER_NEXT: the previous head's LPMON check has passed, or that head was skipped, and 1,048,576 au have gone
by since the latest LASER on (R171). -/
def execLaserStaggerNext (s : State) : Res :=
  s.doIf (s.inLife [MOUNTING, MOUNTED] && s.sys.stagLeft != [] && s.stagFree) staggerNext

/-- LSR_EN_FALL: pairs IDLE, LASER off to every present head, a safe stop with cause 0x33 outside BARE and HALTED, where
the fall is only counted (R168, R170). -/
def execLsrEnFall (s : State) : Res :=
  s.doIf s.sys.lsrEn fun s =>
    let s := syncLonAll { s with sys := { s.sys with lsrEn := false } }
    if !s.on then s
    else
      let s := (s.put OPU_GSTAT_LSREN 0).inc OPU_GSTAT_TRIPS
      if s.inLife [PRIMED, MOUNTING, MOUNTED, PARKING] then
        let s := forUpTo 4 pairsIdle s
        let s := forUpTo 4 (fun h s => s.when (s.present h) fun s => raiseInhibit h icLASER (laserOff h 0x3F s)) s
        safeStop 0x33 0 0 0 s
      else s

/-- LSR_EN_RISE: LON may rise for the heads whose other conditions hold (R168). -/
def execLsrEnRise (s : State) : Res :=
  s.doIf (!s.sys.lsrEn) fun s =>
    let s := syncLonAll { s with sys := { s.sys with lsrEn := true } }
    if s.on then s.put OPU_GSTAT_LSREN 1 else s

end Sys2Proof.Machine
end

