-- ==== Sys2Proof/Machine/Lifecycle.lean ====
section
/-! DEFINITION. Lifecycle commands: stops, triggers and their resolution, parking, resume, CART_SEATED, the full reset
(R40 to R48, R229, R502 to R504, R543). -/

namespace Sys2Proof.Machine

open R

/-! ### The Mount's completion and its report (R405, R410) -/

/-- The Mount Report (Table 15.10), as bytes. The duration in ms is a free value: REF time is not in the model
(DESIGN CHOICE, log entry 1). -/
def mountReport (s : State) : List Nat :=
  let cnt := fun (h src : Nat) => ((List.range 48).filter fun l => s.get (CAL_HL_SRC h l) == src).length
  leBytes 1 (s.get SYS_STATE_CAUSE) ++ leBytes 1 s.mode
    ++ leBytes 1 (s.get SYS_MEDIUM_FORMATTED + 2 * s.hst.volClean.toNat + 4 * s.hst.resyncRan.toNat)
    ++ leBytes 1 (s.get HLT_LEDG_CASE) ++ leBytes 4 (s.freeVal 32)
    ++ leBytes 8 (s.get (SYS_MINFO_WORD 2) * 2 ^ 32 + s.get (SYS_MINFO_WORD 3))
    ++ leBytes 2 (s.get STR_RESYNC_FWD) ++ leBytes 2 (s.get STR_RESYNC_BACK) ++ leBytes 2 s.hst.ns.length
    ++ leBytes 2 (s.get SYS_MEDIUM_ATTOK * 64 + s.get SYS_MEDIUM_ATTSTALE)
    ++ ((List.range 4).flatMap fun h => [cnt h 1, cnt h 2, cnt h 0, s.get (OPU_HSTAT_ENUM h)])
    ++ List.replicate 24 0

/-- The Mount in progress completes; its report is rewritten and its event issued (R405, R410). -/
def endMount (st : Nat × Nat × Bool) (s : State) : State :=
  match s.hst.long with
  | some l =>
    if l.kind == 0xC0 then
      let s := completeCmd l.port 0 l.cid st (s.get SYS_STATE_CAUSE) s
      let s := { s with hst := { s.hst with report := mountReport s } }
      forUpTo 2 (fun p => asyncEvent p 7 0 0xC2) s.drawn
    else s
  | none => s

/-! ### Stops (R502 to R504) -/

/-- Accepted data that a stop leaves uncommitted is gone: gathered units and open transactions end, and the submission
pointers fall back (R318, R393). -/
def dropUncommitted (s : State) : State :=
  { s.put STR_STAT_OPEN 0 with
    str := { s.str with gather := [], short := [], stripes := [] }
    hst := { s.hst with zones := s.hst.zones.map fun z => { z with swp := z.wp } } }

/-- Commands in flight that a stop ends (R504): every one but the Asynchronous Event Requests. -/
def stopCommands (s : State) : State :=
  let s := dropUncommitted s
  let s := endMount scStopped s
  completeAll (fun c => !(c.qid == 0 && c.op == 0x0C)) scStopped 0 s

/-- A mode transition in progress is over (Table 18.5). -/
def endTrans (s : State) : State :=
  forUpTo 4 (fun h s => s.setOpu h fun o => { o with leaving := 0, lofLeave := false }) <| s.puts [(SYS_MODE_ST_TRANS, 0), (SYS_MODE_ST_JOIN, 0), (SYS_MODE_ST_LEAVE, 0), (SYS_MODE_ST_RAMPWAIT, 0),
    (SYS_MODE_ST_READBACK, 0)]

/-- Windows and requests of the medium end: no window opens (R502). What was to be read, and what the Attic's writers held, goes with them. -/
def endMedium (s : State) : State :=
  let s := [EvClass.readWin, .writeWin, .calWin, .seek, .layerJump, .patrol].foldl (fun s c => withdraw c s) s
  let s := forUpTo 4 (fun h s => dropCal h (pairsIdle h s)) s
  { s with wins := [], att := {}, mnt := {}, str := { s.str with asm := [], ckpt := none }
           trk := s.trk.map fun t => { t with reads := [], partials := 0 } }

/-- LASER off, focus retracted, loops and lanes off, for the present heads (R502 step 4, R556 step 3). -/
def retractHeads (s : State) : State :=
  forUpTo 4 (fun h s =>
    if s.present h && s.inSvc h then
      setPhase h hpRETRACTED (headLanesOff h (headLoopsNext h (laserOff h 0x3F s)))
    else s) s

/-- The entry SYS 0x02 and FLT_HALT of a stop (R496, R497). -/
def recordStop (t : Trigger) (s : State) : State :=
  let s := logFlt 0 kSTOP 0x02 t.cause [t.tag * 256 + t.code] s
  s.puts [(FLT_HALT_TAG, t.tag), (FLT_HALT_CODE, t.code), (FLT_HALT_UNIT, t.unit), (FLT_HALT_CAUSE, t.cause)]

/-- The safe stop reaches HALTED (R45, R503). -/
def takeSafeStop (t : Trigger) (s : State) : State :=
  let s := recordStop t (transition HALTED t.cause s)
  let s := stopCommands (endMedium (endTrans s))
  let s := forUpTo 4 (fun h s => s.when (s.present h && s.inSvc h) fun s => setPhase h hpRETRACTED (headLanesOff h s)) s
  let s := { s with sys := { s.sys with drainUntil := none, parkHeld := false, stagLeft := [], unmountWait := [] } }
  s.put SYS_MNTPROG_STEP 0

/-- Steps 4 to 6 of an orderly stop (R502): cause 0x21 parks and brakes, cause 0x22 stops the sleds and waits for VIN. -/
def orderlyPark (s : State) : State :=
  let s := retractHeads (stopCommands (endMedium { s with sys := { s.sys with drainUntil := none } }))
  if s.get SYS_STATE_CAUSE == 0x22 then
    forUpTo 4 stopSeek { s with sys := { s.sys with parkHeld := true } }
  else parkAll s

/-- The orderly stop reaches PARKING (R502): cause 0x21 first lets stripes commit within DRAIN revolutions. -/
def takeOrderlyStop (t : Trigger) (s : State) : State :=
  let s := endTrans (recordStop t (transition PARKING t.cause s))
  let s := { s with sys := { s.sys with stagLeft := [] } }.put SYS_MNTPROG_STEP 0
  if t.cause == 0x21 then
    { s with sys := { s.sys with drainUntil := some ((s.now + s.get STR_CFG_DRAIN * au24) % au48) } }
  else orderlyPark s

/-! ### Mount and Unmount take their states (R405, R406, R467) -/

/-- A mount fails: PARKING with the cause, the Mount completes with MOUNT_FAILED, and the drive parks (R549). -/
def mountFails (cause : Nat) (s : State) : State :=
  let s := endMount scMountFailed (transition PARKING cause s)
  parkAll (retractHeads (endMedium (s.put SYS_MNTPROG_STEP 0)))

/-- A side has a present head whose LOFF is 0 (R169). -/
def State.sideUsable (s : State) (d : Nat) : Bool := (sideHeads d).any fun h => s.usable h

/-- An accepted Mount enters MOUNTING (R405, R467, R147, R196, R236, R267, R549); a side without a usable head fails it at once. -/
def takeMount (t : Trigger) (s : State) : State :=
  let s := { transition MOUNTING 0x10 s with mnt := {}, att := {} }
  let s := s.when (t.arg < 6) fun s => s.puts [(SYS_MODE_REQ_MODE, t.arg), (SYS_MODE_CUR_MODE, t.arg)]
  let s := s.puts [(SYS_MEDIUM_ATTOK, 0), (SYS_MEDIUM_ATTSTALE, 0), (SYS_MEDIUM_FMT, 0), (SYS_MEDIUM_FORMATTED, 0),
    (SYS_MEDIUM_MINFO_OK, 0), (SYS_MEDIUM_FOLEO, 0), (SYS_MEDIUM_VALID, 0), (SPN_TEST_EN, 0), (SYS_MNTPROG_STEP, 1),
    (SYS_MNTPROG_ATTPEND, 0x3F)]
  let s := forUpTo 64 (fun i s => s.put (SYS_MINFO_WORD i) 0) s
  let s := forUpTo 48 (fun l s =>
    s.puts [(DET_LQ_ACH l, 0), (DET_LQ_IRB l, 0), (DET_LQ_SNR l, 0), (DET_LQ_COVER l, 0)]) { s with det := {} }
  let s := formEffective (setPresets (fun l => 10 * layerDepth l) s)
  let s := forUpTo 4 (fun h s => s.when (s.effective h) (headLanesOn h)) s
  if s.sideUsable 0 && s.sideUsable 1 then followTarget s else mountFails 0x14 s

/-- An accepted Unmount (R406, R554, R556): from MOUNTED it begins with the commit step, from MOUNTING it aborts the
Mount and parks. Calibration stops, that of a head with an open calibration window at its end (Table 14.8). -/
def takeUnmount (t : Trigger) (s : State) : State :=
  let s := { s with sys := { s.sys with unmountWait := s.sys.unmountWait ++ [(t.port, t.cid)] } }
  if s.life == MOUNTED then
    let s := { s with str := { s.str with short := (s.str.gather.map GUnit.nsid).eraseDups } }
    let inCal := fun (h : Nat) => s.wins.any fun w => w.head == h && w.cls == .calWin && w.lane.isNone
    let s := withdraw .calWin (forUpTo 4 (fun h s => s.when (!inCal h) (dropCal h)) s)
    (endTrans (transition PARKING 0x20 s)).puts [(SYS_MNTPROG_STEP, 0xA), (SYS_MNTPROG_ATTPEND, 0)]
  else
    let s := endMount scMountAborted (endTrans (transition PARKING 0x15 s))
    parkAll (retractHeads (endMedium (s.put SYS_MNTPROG_STEP 0xC)))

def trigRank : TrigKind → Nat
  | .safeStop => 0
  | .orderlyStop => 1
  | .unmount => 2
  | .mount => 3

/-- The held trigger that is taken: the best rank, the earliest of it. -/
def bestTrigger : List Trigger → Option Trigger
  | [] => none
  | t :: ts =>
    match bestTrigger ts with
    | none => some t
    | some u => if trigRank u.kind < trigRank t.kind then some u else some t

def takeTrigger (t : Trigger) (s : State) : State :=
  match t.kind with
  | .safeStop => takeSafeStop t s
  | .orderlyStop => takeOrderlyStop t s
  | .unmount => takeUnmount t s
  | .mount => takeMount t s

/-- Every present sled stands at its park position (R229). -/
def State.sledsParked (s : State) : Bool :=
  (List.range 4).all fun h => !s.present h || (!s.sledMoving h && s.get (SLD_STAT_PHASE h) == phIDLE
    && s.getI (SLD_POS_P h) == s.getI SLD_MISC_PARK)

/-- The steps before the park are over: no drain, no wait for VIN, no Unmount step before 0xC. -/
def State.parkReady (s : State) : Bool :=
  s.sys.drainUntil.isNone && !s.sys.parkHeld && s.get SYS_MNTPROG_STEP != 0xA && s.get SYS_MNTPROG_STEP != 0xB

/-- The Unmount commands complete (R406). -/
def completeUnmounts (s : State) : State :=
  let l := s.sys.unmountWait
  l.foldl (fun s p => completeCmd p.1 0 p.2 scSuccess (s.get SYS_STATE_CAUSE) s)
    { s with sys := { s.sys with unmountWait := [] } }

/-- Every key slot clears (R522). -/
def clearKeys (s : State) : State :=
  { (s.put (SEC_KEYS_LOADED 0) 0).put (SEC_KEYS_LOADED 1) 0 with sec := { s.sec with slots := [] } }

/-- Every present sled has parked and the spindle has stopped. -/
def State.parked (s : State) : Bool := s.inLife [PARKING] && s.sledsParked && s.spnPhase == pSTOPPED && s.parkReady

/-- The park is complete: PRIMED after a failed mount, an abort or an Unmount, HALTED after an orderly stop; CAUSE is unchanged
(R42, R48, R229, R556). -/
def parkDone (s : State) : State :=
  let c := s.get SYS_STATE_CAUSE
  if c == 0x21 || c == 0x22 then completeUnmounts (transition HALTED c s)
  else
    let s := transition PRIMED c s
    let s := if c == 0x20 then clearKeys s else s
    completeUnmounts (followTarget (s.put SYS_MNTPROG_STEP 0))

/-- PARK_COMPLETE (R42, R48, R229). -/
def execParkComplete (s : State) : Res := s.doIf s.parked parkDone

/-! ### Resume (R43) -/

/-- A die or pickup sensor reads at or above THM_SOFT. -/
def State.anyHot (s : State) : Bool :=
  ((List.range 16).any fun k => s.getI THM_SOFT_SOFT ≤ s.getI (THM_DIE_TEMP k))
    || (List.range 4).any fun h => s.flag (OPU_TEMP_VALID h) && s.getI THM_SOFT_SOFT ≤ s.getI (OPU_TEMP_TEMP h)

/-- The fault that FLT_HALT names is still in the active set (R43, Table 20.7). -/
def State.haltFaultPresent (s : State) : Bool :=
  match s.get FLT_HALT_TAG - 0x40 with
  | 7 => s.flag SPN_STAT_FAULT
  | 4 => s.get SRV_UNIT_FAULT != 0
  | 18 => s.get LRD_WAYST_FAULT != 0
  | 24 => if s.get FLT_HALT_CODE == 3 then s.flag FLT_ACTIVE2_MEMLIM else s.flag FLT_ACTIVE2_NOSIDE
  | _ => false

/-- The halt cause has cleared (R43). -/
def State.haltCleared (s : State) : Bool :=
  match s.get SYS_STATE_CAUSE with
  | 0x21 => !s.anyHot
  | 0x30 => !s.anyHot
  | 0x22 => s.sys.vinOk100
  | 0x32 => !s.sys.cartSeated
  | 0x33 => s.sys.lsrEn
  | 0x34 => !s.haltFaultPresent
  | 0x35 => true
  | _ => false

/-- A request to resume (R43, R503, R509): PRIMED with cause 0x40, the safety block released and the heads enumerated, or
RSMREJ. An accepted resume leaves RSMREJ as it is, for software to clear (DESIGN CHOICE, log entry 220). -/
def resume (s : State) : State :=
  if s.life == HALTED && s.haltCleared && s.sys.lsrEn then
    let s := transition PRIMED 0x40 { s with sys := { s.sys with tripped := false } }
    enumerateAll (syncLonAll (s.when (s.spnPhase == pFAULT) fun s => s.put SPN_STAT_PHASE pCOAST))
  else s.put SYS_STATE_RSMREJ 1

/-- A write of SYS_CTRL: SAFESTOP alone where both bits are set, its resume rejected (R43, R47). -/
def sysCtrl (v : Nat) (s : State) : State :=
  if v.testBit 1 then
    let s := safeStop 0x35 0 0 0 s
    if v.testBit 0 then s.put SYS_STATE_RSMREJ 1 else s
  else if v.testBit 0 then resume s
  else s

/-- SAFESTOP: a write of SYS_CTRL with SAFESTOP 1 (R43). -/
def execSafestop (p : Port) (v : Word) (s : State) : Res :=
  vendorWrite p SYS_CTRL_SAFESTOP.off false (sysCtrl (v.toNat ||| 2)) s

/-- RESUME: a write of SYS_CTRL with RESUME 1 (R43). -/
def execResume (p : Port) (v : Word) (s : State) : Res :=
  vendorWrite p SYS_CTRL_RESUME.off false (sysCtrl (v.toNat ||| 1)) s

/-! ### CART_SEATED (R44, R577) -/

/-- CART_SEATED_ASSERTED: the pin has been high for 10 ms (R577). -/
def execCartSeatedAsserted (s : State) : Res :=
  .next { s with sys := { s.sys with cartSeated := true } }

/-- CART_SEATED_DEASSERTED: low for 1 ms; a safe stop with cause 0x32 in MOUNTING, MOUNTED and PARKING, and in PRIMED
while the spindle is not STOPPED (R44). -/
def execCartSeatedDeasserted (s : State) : Res :=
  let s := { s with sys := { s.sys with cartSeated := false } }
  s.doIf (s.inLife [MOUNTING, MOUNTED, PARKING] || (s.inLife [PRIMED] && s.spnPhase != pSTOPPED))
    (safeStop 0x32 0 0 0)

end Sys2Proof.Machine
end

