-- ==== Sys2Proof/Machine/StripeBase.lean ====
section
/-! DEFINITION. Map units, the gather buffer, committed contents, parity, and the checkpoint (R310 to R316, R322, R330,
R395). -/

namespace Sys2Proof.Machine

open R

/-! ### Features and notices (R383, R384) -/

/-- A notice goes to a controller whose Asynchronous Event Configuration enables it. -/
def notice (p bit info page : Nat) (s : State) : State :=
  s.when ((s.feat p 0xB 0 0).testBit bit) (asyncEvent p 2 info page)

/-- A zone's descriptor has changed without a command on it: the Changed Zone List and its notice, on each controller. -/
def zoneChanged (nsid idx : Nat) (s : State) : State :=
  forUpTo 2 (fun p s =>
    let rest := s.hst.chgZones.filter (· != (p, nsid, idx))
    notice p 27 0xEF 0xBF { s with hst := { s.hst with chgZones := rest ++ [(p, nsid, idx)] } }) s

/-! ### Namespaces and units (R330, R387) -/

/-- The namespace number that the system zones carry in place of one (Table 12.6; DESIGN CHOICE, log entry 183). -/
def sysNs : Nat := 0xFF

def State.nsOf (s : State) (n : Nat) : Option Ns := s.hst.ns.find? fun x => x.nsid == n
def Ns.lba (n : Ns) : Nat := 2 ^ n.lbads
/-- LBAs of a map unit of 64 KiB. -/
def Ns.unitLbas (n : Ns) : Nat := 65536 / n.lba
/-- Map units of a zone (R387). -/
def State.zoneUnits (s : State) : Nat := 1024 * s.dataMembers
/-- LBAs of a zone of a zoned namespace. -/
def State.zoneLbas (s : State) (n : Ns) : Nat := s.zoneUnits * n.unitLbas

def mapKey (nsid unit : Nat) : Nat := nsid * 2 ^ 32 + unit
/-- A unit's map entry: state (0 unmapped, 1 mapped, 2 deallocated), stripe, member. -/
def State.mapOf (s : State) (nsid unit : Nat) : Nat × Nat × Nat :=
  let v := Sparse.get s.str.map (mapKey nsid unit)
  (v / 2 ^ 40, v % 2 ^ 32, v / 2 ^ 32 % 32)
def setMap (nsid unit state stripe member : Nat) (s : State) : State :=
  let page := (nsid, unit / 512)
  s.setStr fun x => { x with
    map := Sparse.set x.map (mapKey nsid unit) (state * 2 ^ 40 + member * 2 ^ 32 + stripe)
    pagesDirty := if x.pagesDirty.contains page then x.pagesDirty else x.pagesDirty ++ [page] }

/-- The unit's page is loaded (R332). -/
def State.pageReady (s : State) (nsid unit : Nat) : Bool := !s.str.pagesLeft.contains (nsid, unit / 512)

def syncMapPhase (s : State) : State :=
  match s.str.pagesLeft with
  | [] => s.when (s.get MAP_STAT_PHASE == 2) fun s => s.puts [(MAP_STAT_PHASE, 3), (MAP_STAT_NSID, 0)]
  | p :: _ => s.puts [(MAP_STAT_PHASE, 2), (MAP_STAT_NSID, p.1)]

/-- A write, extension or refresh of a stripe discards its read-ahead data (R466). -/
def dropAhead (stripe : Nat) (s : State) : State :=
  s.setStr fun x => { x with ahead := x.ahead.filter (fun a => a.1 != stripe), aheadWant := x.aheadWant.filter (· != stripe) }

/-! ### Committed contents (R395) -/

/-- The LBAs of a unit. -/
def unitRange (n : Ns) (unit : Nat) : List Nat := (List.range n.unitLbas).map fun i => unit * n.unitLbas + i

/-- An LBA holds committed data (R395). -/
def State.lbaWritten (s : State) (n : Ns) (l : Nat) : Bool :=
  if n.zoned then
    match s.hst.zones.find? fun z => z.nsid == n.nsid && z.idx == l / s.zoneLbas n with
    | some z => l % s.zoneLbas n < z.wp
    | none => false
  else (s.mapOf n.nsid (l / n.unitLbas)).1 == 1

/-! ### Gathering (R313, R392) -/

/-- One block of data enters the gather buffer. -/
def gatherOne (n : Ns) (seq : Nat) (lba v : Nat) (s : State) : State :=
  let u := lba / n.unitLbas
  let hit := fun (g : GUnit) => g.nsid == n.nsid && g.unit == u && !g.move
  s.setStr fun x =>
    if x.gather.any hit then
      { x with gather := x.gather.map (fun (g : GUnit) => if hit g then { g with
          items := (g.items.filter fun i => i.1 != lba) ++ [(lba, v)]
          cmds := (if g.cmds.contains seq then g.cmds else g.cmds ++ [seq]) } else g) }
    else { x with
      gather := x.gather ++ [{ nsid := n.nsid, unit := u, items := [(lba, v)], cmds := [seq], slot := x.wslot }]
      wslot := x.wslot + 1 }

/-- Where a gathered unit lies: the units of the WRITE region are taken in turn (DESIGN CHOICE, log entry 179). -/
def State.unitAddr (s : State) (g : GUnit) : Nat := ((s.region 3).map fun r => 65536 * (r.base + g.slot % max 1 r.size)).getD 0

def gatherBlocks (n : Ns) (seq slba : Nat) (data : List Nat) (s : State) : State :=
  data.zipIdx.foldl (fun s p => gatherOne n seq (slba + p.2) p.1 s) s

/-- A namespace's gathered data is to open short (R314, R392). -/
def askShort (nsid : Nat) (s : State) : State :=
  s.when (s.str.gather.any fun g => g.nsid == nsid) fun s =>
    s.setStr fun x => { x with short := if x.short.contains nsid then x.short else x.short ++ [nsid] }

/-- Data of a command, or of any fetched before it, still waits for its commit. -/
def State.waitsOn (s : State) (sel : Nat → Bool) (ns : Nat → Bool) : Bool :=
  (s.str.gather.any fun g => ns g.nsid && g.cmds.any sel)
    || s.str.stripes.any fun t => ns t.nsid && t.units.any fun g => g.cmds.any sel

/-- The commands that only waited for commits complete: Writes, Zone Appends and Write Zeroes with no data left, Flushes,
Finishes and normal shutdowns with nothing before them (R316, R392, R394). -/
def State.cmdDone (s : State) (c : HCmd) : Bool :=
  c.qid != 0 && !c.waiting && c.begun && c.left == 0 &&
    if c.op == 0 then !s.waitsOn (fun q => q < c.seq) (fun n => c.nsid == 0xFFFFFFFF || n == c.nsid)
    else if [1, 8, 0x7D].contains c.op then !s.waitsOn (fun q => q == c.seq) (fun _ => true)
    else if c.op == 0x79 && c.arg == 2 then !s.waitsOn (fun q => q < c.seq) (fun n => n == c.nsid)
    else c.op == 0x79

/-- A zone becomes Full when its Finish has committed (R394). -/
def finishZones (c : HCmd) (s : State) : State :=
  if c.op == 0x79 && c.arg == 2 then
    { s with hst := { s.hst with zones := s.hst.zones.map fun z =>
        if z.nsid == c.nsid && c.data.contains z.idx then { z with st := 0xE } else z } }
  else s

def completeReady (s : State) : State :=
  let s := (s.hst.cmds.filter s.cmdDone).foldl (fun s c =>
    completeCmd c.port c.qid c.cid scSuccess (if c.op == 0x7D then c.slba else 0) (finishZones c s)) s
  forUpTo 2 (fun p s =>
    s.when (s.hst.shst.getD p 0 == 1 && !s.waitsOn (fun q => q < s.hst.shSeq.getD p 0) (fun _ => true)) fun s =>
      { s with hst := { s.hst with shst := setAt s.hst.shst p 2 } }) s

/-! ### Parity (R310, R311, Table 12.2) -/

/-- P and Q of one byte position (R310). -/
def parityP (d : List Nat) : Nat := d.foldl Nat.xor 0
def parityQ (d : List Nat) : Nat := (d.zipIdx.map fun p => gfMul (gfPow p.2) p.1).foldl Nat.xor 0

/-- Recovery at one byte position (Table 12.2): `d` holds the data bytes with 0 for the failed members, `px` and `qx` are P
and Q with the surviving terms removed, `bad` the failed data members, `pBad` that P failed. -/
def recoverByte (d : List Nat) (px qx : Nat) (bad : List Nat) (pBad : Bool) : List Nat :=
  match bad with
  | [a] => setAt d a (if pBad then gfMul qx (gfInv (gfPow a)) else px)
  | [a, b] =>
    let da := gfMul (Nat.xor qx (gfMul (gfPow b) px)) (gfInv (Nat.xor (gfPow a) (gfPow b)))
    setAt (setAt d a da) b (Nat.xor px da)
  | _ => d

/-- The user bytes of every data member at one codeword index, the failed ones recovered. -/
def recoverIndex (dm : Nat) (bytes : Nat → List Nat) (bad : List Nat) (pBad : Bool) : List (List Nat) :=
  let cols := (List.range 4096).map fun t =>
    let byte := fun j => (bytes j).getD t 0
    let d := (List.range dm).map fun j => if bad.contains j then 0 else byte j
    recoverByte d (Nat.xor (byte dm) (parityP d)) (Nat.xor (byte (dm + 1)) (parityQ d)) bad pBad
  (List.range dm).map fun j => cols.map fun c => c.getD j 0

/-! ### Transactions (R315, R316) -/

def syncOpen (s : State) : State := s.put STR_STAT_OPEN s.str.stripes.length
def syncDirty (s : State) : State := s.put STR_DIRTY_COUNT s.str.dirty.length

/-- STR takes the next WSEQ; it appends a WRES record when fewer than 16,384 values remain (R321). -/
def takeWseq (s : State) : State :=
  let s := s.setStr fun x => { x with wseq := x.wseq + 1 }
  let asked := s.cel.ops.any fun o => o.client == 1 && match logRead o.data with
    | some r => r.1 == 4
    | none => false
  if s.str.wres < s.str.wseq + 16384 && !asked then appendJournal 4 0 (s.str.wres + 65536) s else s

/-- A zone's entry, an unused one of its namespace being free. -/
def State.vzone (s : State) (nsid z : Nat) : VZone := (s.str.zones.find? fun x => x.z == z).getD { z, owner := nsid, st := 0 }
def setVzone (v : VZone) (s : State) : State :=
  s.setStr fun x => { x with zones := (x.zones.filter fun y => y.z != v.z) ++ [v] }

def touchNs (nsid : Nat) (s : State) : State :=
  s.setStr fun x => { x with changed := if x.changed.contains nsid then x.changed else x.changed ++ [nsid] }

/-! ### The checkpoint (R322, R330, R331, R333) -/

/-- A commit is counted and recorded (R315); the first after a sanitize clears Global Data Erased (R525). -/
def noteCommit (stripe : Nat) (s : State) : State :=
  eventRec 0x07 0 [stripe] false { s.inc STR_CNT_COMMITS with sec := { s.sec with globalErased := false } }

/-- Mapped units of a zone. -/
def State.mappedIn (s : State) (nsid z : Nat) : List Nat :=
  (s.str.map.filter fun e => e.1 / 2 ^ 32 == nsid && e.2 / 2 ^ 40 == 1 && e.2 % 2 ^ 32 / 1024 == z).map fun e => e.1 % 2 ^ 32

/-- CKWSEQ: every stripe with that WSEQ or a lower one is committed or void. -/
def State.ckwseq (s : State) : Nat := s.str.stripes.foldl (fun m t => min m (t.wseq - 1)) (s.str.wseq - 1)

/-- The map pages of a namespace. -/
def Ns.pages (n : Ns) : Nat := if n.zoned then 0 else ((n.nsze + n.unitLbas - 1) / n.unitLbas + 511) / 512

/-- A zone entry of a checkpoint record (Table 12.6). WP counts the codewords that the write pointer has begun (DESIGN CHOICE, log entry
183). -/
def State.zoneEntry (s : State) (n : Ns) (z idx : Nat) : List Nat :=
  if n.zoned then
    let x := (s.hst.zones.find? fun y => y.nsid == n.nsid && y.idx == idx).getD { nsid := n.nsid, idx }
    leBytes 4 z ++ leBytes 3 ((x.wp * n.lba + 4095) / 4096) ++ [x.st]
  else
    let v := s.vzone n.nsid z
    leBytes 4 z ++ leBytes 2 v.fill ++ [if v.st == 3 then 2 else v.st, 0]
/-- A checkpoint record's body up to its directory. -/
def State.ckptHead (s : State) (n : Ns) : List Nat :=
  leBytes 8 s.ckwseq ++ leBytes 4 n.zones.length ++ leBytes 4 n.pages ++ n.zones.zipIdx.flatMap fun p => s.zoneEntry n p.1 p.2
/-- The directory entry of a page. -/
def dirEntry (v : Nat) : List Nat :=
  if v == 0 then leBytes 4 (2 ^ 32 - 1) ++ leBytes 4 0
  else leBytes 4 ((v - 1) % 2 ^ 32) ++ [(v - 1) / 2 ^ 32 % 256, (v - 1) / 2 ^ 40 % 256, 0, 0]

def setCkpt (k : Ckpt → Ckpt) (s : State) : State := s.setStr fun x => { x with ckpt := x.ckpt.map k }

/-- A checkpoint has ended: CLEAN records for the dirty zones it covers, those without an open stripe or a later commit; zones that
cleaning had emptied are free; the commands that waited for it go on. -/
def endCkpt (c : Ckpt) (s : State) : State :=
  let clean := s.str.dirty.filter fun z => !c.since.contains z && !s.str.stripes.any fun t => t.num / 1024 == z
  let s := clean.foldl (fun s z => appendJournal 3 z c.ckw s) s
  let s := s.setStr fun x => { x with
    ckpt := none, dirDur := x.dir
    zones := x.zones.filter fun v => !c.free.contains v.z
    ckActive := c.active }
  completeReady { s with hst := { s.hst with cmds := s.hst.cmds.map fun c => { c with left := c.left - 1 } } }

/-- Once its pages have committed, a checkpoint's records are appended; one that changes nothing ends. -/
def ckptRecords (s : State) : State :=
  match s.str.ckpt with
  | none => s
  | some c =>
    if c.sent || !c.pages.isEmpty then s
    else if c.left.isEmpty then endCkpt c s
    else
      c.left.foldl (fun s n =>
        match s.nsOf n with
        | none => s
        | some x =>
          let head := ((c.heads.find? fun p => p.1 == n).map Prod.snd).getD []
          let dir := (List.range x.pages).flatMap fun g => dirEntry (Sparse.get s.str.dir (mapKey n g))
          atticWrite (if x.zoned then atZONECKPT else atMAPCKPT) n (head ++ dir) (.ckpt n)
            (s.inc (if x.zoned then MAP_CKPT_ZONECK else MAP_CKPT_MAPCK))) (setCkpt (fun c => { c with sent := true }) s)

/-- The record of a namespace is durable. -/
def ckptDone (n : Nat) (s : State) : State :=
  match s.str.ckpt with
  | none => s
  | some c =>
    let left := c.left.filter (· != n)
    if left.isEmpty then endCkpt { c with left } s else setCkpt (fun c => { c with left }) s

/-- The checkpoints of the changed namespaces begin: their changed map pages go into the system zones as stripes, then their records
follow. While one is in progress no other begins. -/
def checkpoint (s : State) : State :=
  if s.str.ckpt.isSome then s
  else
    let nss := s.str.changed.filter fun n => (s.nsOf n).isSome
    let free := (s.str.zones.filter fun v => v.st == 3 && (s.mappedIn v.owner v.z).isEmpty).map VZone.z
    let active := (s.str.zones.filter fun v => v.st == 1 && (nss.contains v.owner || s.str.ckActive.contains v.z)).map VZone.z
    let heads := nss.filterMap fun n => (s.nsOf n).map fun x => (n, s.ckptHead x)
    ckptRecords (s.setStr fun x => { x with
      ckpt := some { ckw := s.ckwseq, left := nss, heads, pages := x.pagesDirty.filter fun p => nss.contains p.1, free, active }
      changed := [], pagesDirty := [] })

/-- The commands that wait for the next checkpoint wait for the one after the one in progress. -/
def State.ckptsToWait (s : State) : Nat := if s.str.ckpt.isSome then 2 else 1

end Sys2Proof.Machine
end

