-- ==== Sys2Proof/Machine/Records.lean ====
section
/-! DEFINITION. The bodies of the Attic records as bytes, written and read: NAMESPACES, CALIB, MEDIUM, the defect lists, LEDGER and the
checkpoints (Tables 12.1, 12.6, 13.1, 13.5, 14.3 to 14.6, 15.6). -/

namespace Sys2Proof.Machine

open R

/-- `n` little-endian bytes of a body at an offset. -/
def leAt (b : List Nat) (off n : Nat) : Nat := leNat ((b.drop off).take n)
def s16At (b : List Nat) (off : Nat) : Int := toSigned 16 (leAt b off 2)
/-- A number as the 16 low bits of its two's complement. -/
def s16Bytes (v : Int) : List Nat := leBytes 2 (ofSigned 16 v)

/-! ### NAMESPACES (R389, Table 15.6) -/

def Ns.nguid (serial : Nat) (n : Ns) : List Nat := beBytes 8 serial ++ beBytes 8 n.created
/-- A descriptor of 64 bytes. -/
def State.nsDescriptor (s : State) (n : Ns) : List Nat :=
  [1 + 2 * n.zoned.toNat + 4 * n.enc.toNat, n.lbads, n.attach % 4, 0] ++ leBytes 4 n.zones.length ++ leBytes 8 n.nsze ++ leBytes 4 n.keygen
    ++ leBytes 4 0 ++ leBytes 8 n.created ++ n.nguid s.serial ++ List.replicate 16 0
def State.nsBody (s : State) : List Nat :=
  let z := s.get STR_ZONES_Z
  leBytes 2 s.hst.ns.length ++ leBytes 2 z ++ List.replicate 12 0
    ++ ((List.range 64).flatMap fun i => match s.nsOf (i + 1) with
      | some n => s.nsDescriptor n
      | none => List.replicate 64 0)
    ++ (List.range z).map fun k =>
      if k < sysZones then 0xFF else ((s.hst.ns.find? fun n => n.zones.contains k).map Ns.nsid).getD 0
/-- The namespaces that a body lists. -/
def nsRead (b : List Nat) : List Ns :=
  let z := leAt b 2 2
  (List.range 64).filterMap fun i =>
    let d := (b.drop (0x10 + 64 * i)).take 64
    let f := d.getD 0 0
    if f % 2 == 0 then none
    else some { nsid := i + 1, zoned := f.testBit 1, enc := f.testBit 2, lbads := d.getD 1 0, attach := d.getD 2 0 % 4, nsze := leAt d 8 8
                keygen := leAt d 0x10 4, created := leAt d 0x18 8
                zones := (List.range z).filter fun k => b.getD (0x1010 + k) 0 == i + 1 }

/-! ### Defects, LEDGER (Tables 13.1, 13.5) -/

/-- The entries of a PDEFECT or GDEFECT body. -/
def defectsRead (b : List Nat) : List Defect :=
  (List.range (leAt b 0 4)).map fun i =>
    let e := (b.drop (8 + 16 * i)).take 16
    { pba := leAt e 0 4, repl := leAt e 4 4, kind := e.getD 8 0, cause := e.getD 9 0, lost := leAt e 0xA 2, nblk := leAt e 0xC 2, live := true }

/-- A LEDGER body read: AGE, STEP, CLOSED, the COUNT of each region, the regions retired. -/
structure LedgerRec where
  layer : Nat
  age : Nat
  step : Nat
  closed : Bool
  counts : List (Nat × Nat)
  retired : List Nat
  deriving DecidableEq, Repr
def ledgerRead (layer : Nat) (b : List Nat) : LedgerRec :=
  let e := (List.range (leAt b 8 4)).map fun r => (r, leAt b (0x10 + 2 * r) 2)
  { layer, age := leAt b 0 8, step := b.getD 0xC 0, closed := (b.getD 0xD 0).testBit 0
    counts := (e.map fun x => (x.1, x.2 % 16384)).filter fun x => x.2 != 0
    retired := (e.filter fun x => x.2.testBit 14).map Prod.fst }

/-! ### VOLUME, the checkpoints (Tables 12.1, 12.6) -/

/-- A VOLUME body read. -/
structure VolRec where
  width : Nat
  parity : Nat
  spare : Nat
  clean : Bool
  seed : Nat
  wseq0 : Nat
  deriving DecidableEq, Repr
def volRead (b : List Nat) : VolRec :=
  { width := b.getD 0 0, parity := b.getD 1 0, spare := b.getD 2 0, clean := b.getD 4 0 == 1, seed := leAt b 8 8, wseq0 := leAt b 0x20 8 }

/-- A zone entry of a checkpoint: namespace, volume zone, FILL or WP, STATE or ZS. -/
structure CkptZone where
  nsid : Nat
  zone : Nat
  pos : Nat
  st : Nat
  deriving DecidableEq, Repr
def ckptZones (nsid : Nat) (zoned : Bool) (b : List Nat) : List CkptZone :=
  (List.range (leAt b 8 4)).map fun i =>
    let e := (b.drop (0x10 + 8 * i)).take 8
    if zoned then { nsid, zone := leAt e 0 4, pos := leAt e 4 3, st := e.getD 7 0 }
    else { nsid, zone := leAt e 0 4, pos := leAt e 4 2, st := e.getD 6 0 }
/-- The directory entries of a MAPCKPT, as the state holds them: page, and where it is, 0 for one never written. -/
def ckptDir (b : List Nat) : List (Nat × Nat) :=
  let at' := 0x10 + 8 * leAt b 8 4
  (List.range (leAt b 0xC 4)).map fun g =>
    let e := (b.drop (at' + 8 * g)).take 8
    (g, if leAt e 0 4 == 2 ^ 32 - 1 then 0 else 1 + leAt e 0 4 + e.getD 4 0 * 2 ^ 32 + e.getD 5 0 * 2 ^ 40)

/-! ### CALIB (R363, R364, Tables 14.3, 14.5, 14.6) -/

/-- A band's block. -/
def CalBand.bytes (b : CalBand) : List Nat :=
  s16Bytes b.tilt ++ ([b.sum, b.wamp, b.peak0, b.peak1, b.snr, b.eqmse].flatMap (leBytes 2)) ++ [b.eye % 256, b.flags % 256]
/-- An entry of 36,128 bytes. -/
def CalEntry.bytes (e : CalEntry) : List Nat :=
  leBytes 8 e.serial ++ leBytes 2 e.model ++ [e.head, 0] ++ s16Bytes e.sa ++ leBytes 2 e.slope ++ s16Bytes e.feofs ++ s16Bytes e.teofs
    ++ leBytes 2 e.app ++ leBytes 2 e.tres ++ List.replicate 8 0
    ++ e.bands.flatMap CalBand.bytes ++ (e.bands.flatMap fun b => b.row) ++ e.bands.flatMap fun b => b.eq.flatMap s16Bytes
def CalBody.bytes (c : CalBody) (age : Nat) : List Nat :=
  leBytes 2 c.entries.length ++ leBytes 2 36128 ++ leBytes 2 c.saz ++ leBytes 2 0 ++ leBytes 8 age ++ c.tiltm.flatMap s16Bytes
    ++ c.entries.flatMap CalEntry.bytes

def calEntryRead (b : List Nat) : CalEntry :=
  { serial := leAt b 0 8, model := leAt b 8 2, head := b.getD 0xA 0, sa := s16At b 0xC, slope := leAt b 0xE 2, feofs := s16At b 0x10
    teofs := s16At b 0x12, app := leAt b 0x14 2, tres := leAt b 0x16 2
    bands := (List.range 32).map fun i =>
      let x := (b.drop (0x20 + 16 * i)).take 16
      { tilt := s16At x 0, sum := leAt x 2 2, wamp := leAt x 4 2, peak0 := leAt x 6 2, peak1 := leAt x 8 2, snr := leAt x 0xA 2
        eqmse := leAt x 0xC 2, eye := x.getD 0xE 0, flags := x.getD 0xF 0
        row := (List.range 32).map fun k => b.getD (0x220 + 32 * i + k) 0
        eq := (List.range 540).map fun k => s16At b (0x620 + 1080 * i + 2 * k) } }
def calRead (layer : Nat) (b : List Nat) : CalBody :=
  { layer, saz := leAt b 4 2, tiltm := (List.range 32).map fun i => s16At b (0x10 + 2 * i)
    entries := (List.range (min 4 (leAt b 0 2))).map fun i => calEntryRead ((b.drop (80 + 36128 * i)).take 36128) }

/-- The factory SAZ of a layer in a MEDIUM body (R365, Table 14.4). -/
def mediumSaz (b : List Nat) (l : Nat) : Nat := leAt b (0x100 + 8 * l) 2

end Sys2Proof.Machine
end

