-- ==== Sys2Proof/Machine/Focus.lean ====
section
/-! DEFINITION. Focus, tracking and layer access: acquisition, capture, jumps, losses, track identity, write inhibit, the
shock sensor (R132, R133, R192 to R212, R218). -/

namespace Sys2Proof.Machine

open R

/-- A head whose loops may run: present, in service, clocks running. -/
def State.headUp (s : State) (h : Nat) : Bool := s.inLife [MOUNTING, MOUNTED] && s.present h && s.inSvc h

/-! ### Focus (R197, R198) -/

/-- FOCUS_ACQUISITION: an effective head whose laser is on starts focus acquisition on its side's reference layer (R197,
R199). -/
def execFocusAcquisition (h : Head) (s : State) : Res :=
  s.doIf (s.headUp h && s.effective h && s.get (SRV_HSTAT_PHASE h) == hpRETRACTED
      && s.get (OPU_HSTAT_LASERON h) != 0 && s.lpPassed h && (s.tr h).sweepAt.isNone) fun s =>
    startFocus h ((s.setTr h fun t => { t with tries := 0, planLayer := refLayer h }).setSl h fun x => { x with searchMoves := 0 })

/-- FOCUS_SETTLED: FSETN consecutive in-bounds samples, and 64 of the SA loop in a layer jump; capture begins (R197 step 5,
R202 step 5). -/
def execFocusSettled (h : Head) (s : State) : Res :=
  s.doIf (s.headUp h && s.get SRV_JUMP_FSETN ≤ (s.tr h).settle
      && (s.part h == hpFOCUSED || (s.part h == hpLJUMP && s.loopState (4 * h) == lRUN && 64 ≤ (s.tr h).saOk))) fun s =>
    toCapture h (s.setTr h fun t => { t with settledAt := s.now, tridSeen := false })

/-- The override of a sweep has reached +32,767 before the target peak, the focus loop is in FAIL, or it has not settled within 4 × FSETN
samples (R198). -/
def State.focusFails (s : State) (h : Nat) : Bool :=
  let t := s.tr h
  (s.part h == hpFOCUSING && !t.ramp && t.sweepAt.isNone && s.loopState (4 * h) == lOPEN
      && 32767 * 256 ≤ (s.loop (4 * h)).override.getD 0 0)
    || ((s.part h == hpFOCUSING || s.part h == hpFOCUSED) && s.loopState (4 * h) == lFAIL)
    || (s.part h == hpFOCUSED && 4 * s.get SRV_JUMP_FSETN ≤ t.focusN && t.settle < s.get SRV_JUMP_FSETN)

/-- FOCUS_ATTEMPT_FAILED: the override goes back to −32,768 at FSPEED, after which the loop goes OFF and another attempt begins; after TRIES
the head is out of service, with the last peak count in the entry (R198). -/
def execFocusAttemptFailed (h : Head) (s : State) : Res :=
  s.doIf (s.headUp h && s.get (SRV_HSTAT_PHASE h) != hpRECOVERING && s.focusFails h) fun s =>
    let n := (s.tr h).tries + 1
    if s.get SRV_FLIM_TRIES ≤ n then headFaultWith h 0 0 [(s.tr h).peaks] s
    else
      let code := s.getI (SRV_OUT_CODE (4 * h) 0)
      (setOverride (4 * h) code (setPart h hpFOCUSING s)).setTr h fun t => { t with tries := n, ramp := true }

/-! ### Tracks (R200, R201) -/

/-- Spot 2 of a base track lies on a land (R194). -/
def onLand (g : Nat) : Nat := (g + 2) % 2

/-- A push-pull amplitude enters SRV_TPP when it is plausible (R213, Table 14.2). -/
def takeApp (h app : Nat) (s : State) : State :=
  if 3277 ≤ app && app ≤ 52429 then s.put (SRV_TPP_APP h) app else s

/-- The amplitude of TEPP / SUM over the crossings of a capture, in 2⁻¹⁶: half the way between its extremes (R213; DESIGN CHOICE, log entry
199). -/
def Trk.app (t : Trk) : Nat :=
  match t.appMax, t.appMin with
  | some a, some b => ((a - b) / 2).toNat
  | _, _ => 0

/-- TRACK_CAPTURE: the sample has a crossing of the planned track type, at least CAPT after the crossing before it; `land` says that the
crossing is one of a land. Tracking and tilt go to RUN, LAND follows the type, and A_pp is that of the crossings seen (R194, R200, R213). -/
def execTrackCapture (h : Head) (land : Bool) (s : State) : Res :=
  s.doIf (s.headUp h && s.part h == hpCAPTURING && !s.tracking h && (s.tr h).crossNow
      && ((s.tr h).crossGap.any fun d => s.get SRV_TCAP_CAPT * s.get SPN_MEAS_RPM * au24 ≤ d * 960000000)
      && land.toNat == onLand (s.tr h).planG) fun s =>
    let s := ownerSet (4 * h + 2) lRUN (ownerSet (4 * h + 1) lRUN s)
    takeApp h (s.tr h).app (s.put (SRV_HSTAT_LAND h) land.toNat)

/-- Tracks from the one under the spots to the planned one. -/
def State.trackMiss (s : State) (h : Nat) : Int := (s.tr h).planG - s.get (SRV_HTRK_GTRK h)
/-- Micro-steps of a correction seek: ΔG × 0.18 µm / 4.6875 µm, rounded (R227). -/
def correctionSteps (d : Int) : Int := rneDiv (d * 24) 625
/-- A head has captured a track more than 12 tracks from its planned one: it wants a correction seek, of which 13 tracks leave no micro-step
to make and take two jumps (R227). -/
def State.correcting (s : State) (h : Nat) : Bool :=
  s.part h == hpCAPTURING && s.tracking h && 12 < (s.trackMiss h).natAbs && correctionSteps (s.trackMiss h) != 0

/-- An interval of a class is asked for, or granted and not yet begun. -/
def State.asked (s : State) (c : EvClass) (h : Nat) : Bool :=
  (s.ang.pend ++ s.ang.due ++ s.ang.subm.map Req.ev).any fun e => e.cls == c && e.owner == h

/-- The seek interval of a jump, or of a correction seek whose planned duration SLD_EST then holds; after RETRY correction
seeks the head is out of service (R201, R223, R227). -/
def wantTrack (h : Nat) (s : State) : State :=
  if s.asked .seek h then s
  else if !s.correcting h then submit .seek h (tickAfter s.now) (jumpAu (min 12 (s.trackMiss h).natAbs)) 0 s
  else if s.get SLD_MISC_RETRY ≤ (s.sl h).retries then headFault h 0 0 s
  else
    let us := seekUs s h sdCLASSD (s.getI (SLD_POS_P h) + correctionSteps (s.trackMiss h))
    submit .seek h (tickAfter s.now) (seekAu us) 0 (s.put (SLD_EST_US h) us)

/-- The actual base track is known: the head is on its planned track, or a jump of 1 to 12 tracks or a sled seek is asked for (R200). After a
landing that misses, one correction jump is asked for; one that misses too, or cannot be made, is a loss of track (R201; DEDUCED, log entry
200). A head on track that reads another base has lost its track (Table 8.3). -/
def trackSeen (h g : Nat) (s : State) : State :=
  let s := (s.put (SRV_HTRK_GTRK h) g).setTr h fun t => { t with tridOk := g == t.planG }
  let onTrack := s.get (SRV_HSTAT_PHASE h) == hpON_TRACK
  if g == (s.tr h).planG then (if onTrack then checkConf h s else endCapture h s)
  else if onTrack then lose h 2 s
  else if !s.tracking h then s
  else if s.part h == hpCAPTURING then wantTrack h s
  else if s.part h == hpTJUMP && !s.asked .seek h then
    if (s.tr h).corrections == 0 && (s.trackMiss h).natAbs ≤ 12 then
      wantTrack h (s.setTr h fun t => { t with corrections := 1 })
    else lose h 2 s
  else s

/-- TRACK_JUMP: a jump of `k` tracks, 1 to 12 either way, in a granted seek interval; one that corrects a landing goes to the planned track
(R200, R201). The kick and brake of the override are the sequencer's, which is free. -/
def execTrackJump (h : Head) (k : Int) (s : State) : Res :=
  match takeDue .seek h s with
  | none => .next s
  | some (_, t) =>
    let fresh := t.part h == hpON_TRACK
    let k := if fresh then k else max (-12) (min 12 (t.trackMiss h))
    s.doIf (s.headUp h && (fresh || ((t.part h == hpCAPTURING || t.part h == hpTJUMP) && t.tracking h))
        && 1 ≤ k.natAbs && k.natAbs ≤ 12) fun _ =>
      let g := ((t.get (SRV_HTRK_GTRK h) : Int) + k).toNat
      let t := t.setTr h fun x => { x with
        jumpK := k, planG := if fresh then g else x.planG, corrections := if fresh then 0 else x.corrections }
      setOvr (4 * h + 1) 2 (setPart h hpTJUMP t)

/-- TRACK_JUMP_DONE: the crossing of the landing track: tracking goes to RUN and LAND changes; then, with `trid`, the landing TRID's base track,
which is checked (R194, R201). -/
def execTrackJumpDone (h : Head) (trid : Option (Fin 262144)) (s : State) : Res :=
  s.doIf (s.headUp h && s.part h == hpTJUMP) fun s =>
    match trid with
    | none => s.when (!s.tracking h) fun s =>
      (ownerSet (4 * h + 1) lRUN s).putB (SRV_HSTAT_LAND h) (s.flag (SRV_HSTAT_LAND h) != ((s.tr h).jumpK % 2 != 0))
    | some g => s.when (s.tracking h) (trackSeen h g.val)

/-! ### Layers (R202, R203) -/

/-- LAYER_JUMP: a jump to layer `l` of the same side with base track `g` planned, in a granted interval; from a capture it goes to the planned
layer and track (R202, R203, R206). The head is no wobble candidate, and ANG switches when it was the reference. -/
def execLayerJump (h : Head) (l : Layer) (g : Fin 262144) (s : State) : Res :=
  match takeDue .layerJump h s with
  | none => .next s
  | some (e, t) =>
    let fresh := t.part h == hpON_TRACK
    s.doIf (s.headUp h && (fresh || (t.part h == hpCAPTURING && l.val == (t.tr h).planLayer)) && l.val / 24 == sideOf h
        && l.val != s.headLayer h) fun _ =>
      let t := t.setTr h fun x => { x with
        jumpFrom := s.headLayer h, planLayer := l, planG := if fresh then g.val else x.planG
        jumpMis := if x.jumping then x.jumpMis + 1 else 0
        peaks := 0, settle := 0, saOk := 0, marks := 0, lastMark := none
        jumping := true, back := false, jumpEnd := (e.target + e.len) % au48 }
      let t := setPart h hpLJUMP (spoilWindow t)
      let code := t.getI (SRV_OUT_CODE (4 * h + 1) 0)
      let t := tiltToPreset h l (t.headBand h) (saToPreset h (t.tr h).jumpFrom (setOverride (4 * h + 1) code t))
      let t := setOvr (4 * h) 2 (t.setBit ANG_LOCK_CAND h false)
      if t.src == srcWOBBLE && t.get ANG_LOCK_REF == h.val then loseReference t else t

/-- The failures of layer jumps in a row, by head and layer. -/
def jumpCount (h : Nat) (ok : Bool) (s : State) : State :=
  let k := 48 * h + (s.tr h).planLayer
  { s with hlt := { s.hlt with jumpFails := Sparse.set s.hlt.jumpFails k (if ok then 0 else Sparse.get s.hlt.jumpFails k + 1) } }

/-- A layer jump fails: JFAIL counts and loss-of-focus recovery starts (R203). -/
def jumpFails (h : Nat) (s : State) : State := lose h 1 ((jumpCount h false s).inc (SRV_HCNT_JFAIL h))

/-- LAYER_JUMP_DONE: a jump ends ON_TRACK, `us` µs after its start, where a WLID of the planned layer has counted and a TRID set has agreed;
or its interval has ended with no capture, and it has failed (R202, R203). -/
def execLayerJumpDone (h : Head) (us : Nat) (s : State) : Res :=
  s.doIf (s.headUp h && (s.tr h).jumping) fun s =>
    if s.landed h then
      (reachTrack h (jumpCount h true (s.put (SRV_HJUMP_US h) (min us (SRV_HJUMP_US h).max))))
    else s.when (passed s.now (s.tr h).jumpEnd && (s.part h == hpLJUMP || (s.part h == hpCAPTURING && !s.tracking h))) (jumpFails h)

/-! ### Losses (R205 to R207) -/

/-- FOCUS_LOSS: SUM has been low for FLOSSN samples, or the focus loop is in FAIL (Table 8.3). -/
def execFocusLoss (h : Head) (s : State) : Res :=
  s.doIf (s.headUp h && s.get SRV_FLIM_FLOSSN ≤ (s.tr h).sumLow || (s.headUp h && s.loopState (4 * h) == lFAIL)) (lose h 1)

/-- TRACK_LOSS: TEOUT has been high for 4 samples, or the tracking loop is in FAIL (Table 8.3). -/
def execTrackLoss (h : Head) (s : State) : Res :=
  s.doIf (s.headUp h && 4 ≤ (s.tr h).teHigh || (s.headUp h && s.loopState (4 * h + 1) == lFAIL)) (lose h 2)

/-- RECOVERY_DONE: the recovery has brought the head to its planned layer and track, where a WLID of the layer has counted and a TRID set has
agreed on the track; or it has failed, which takes the head out of service (R206; what makes it fail beside R198: DESIGN CHOICE, log entry
198). -/
def execRecoveryDone (h : Head) (ok : Bool) (s : State) : Res :=
  s.doIf (s.headUp h && s.get (SRV_HSTAT_PHASE h) == hpRECOVERING) fun s =>
    if ok then s.when (s.landed h) fun s => reachTrack h (s.when (s.tr h).jumping (jumpCount h true))
    else headFault h (0x40 + 4) 0x06 s

/-- One revolution has gone by since the latest FAIL of loop `k` of a head. -/
def State.failOver (s : State) (h k : Nat) : Bool :=
  (((s.tr h).fails.filter fun p => p.1 == k).getLast?).all fun p => passed s.now (p.2 + au24)

/-- TILT_SA_FAIL_RETRY: one revolution after a FAIL the loop is set RUN again (R207). -/
def execTiltSaFailRetry (h : Head) (k : Fin 2) (s : State) : Res :=
  s.doIf (s.headUp h && (s.tr h).failHeld.contains (k.val + 2) && s.failOver h (k.val + 2)) fun s =>
    ownerSet (4 * h + (k.val + 2)) lRUN (s.setTr h fun t => { t with failHeld := t.failHeld.filter (· != k.val + 2) })

/-! ### Identity (R132, R133, R195, R203, R218) -/

/-- WLID_DECODED: 32 bits that a head has read as a WLID. It counts when its CRC-16 passes and LAYER is at most 47. A
layer other than the planned one, read in a capture, makes the sequencer jump to the planned one; after a jump that repeats one for that
reason it is a failed jump (R203, R206). A wedge other than the expected one is a mark
mismatch (R59). At mount the wedge's MINFO word `minfo` enters the medium information block of the head's side (R136). -/
def execWlidDecoded (h : Head) (bits : Word) (minfo : Option Word) (s : State) : Res :=
  let w := bits.toNat
  let wedge := w / 2 ^ 26
  let layer := w / 2 ^ 20 % 64
  s.doIf (s.applied && s.inFocus h && crc16 (bitsMsb 16 (w / 65536)) == w % 65536 && layer ≤ 47) fun s =>
    let s := s.setTr h fun t => { t with wlids := ((wedge, layer) :: t.wlids).take 64 }
    let s := match minfo with
      | some m => s.when (s.inLife [MOUNTING]) fun s =>
          { s with mnt := { s.mnt with minfo := Sparse.set s.mnt.minfo (64 * sideOf h + wedge) (m.toNat + 1) } }
      | none => s
    let s := s.when (s.misread h (s.get ANG_NOW_LO_ANGLE) wedge) (countMisread h)
    let right := layer == (s.tr h).planLayer
    let s := s.when (right || s.part h == hpCAPTURING) fun s =>
      (s.setTr h fun t => { t with wlidOk := right }).put (SRV_HSTAT_LAYER h) layer
    if right then endCapture h (checkConf h s)
    else if s.part h != hpCAPTURING || s.asked .layerJump h then s
    else if (s.tr h).jumping && (s.tr h).jumpMis != 0 then jumpFails h s
    else
      let p := (s.tr h).planLayer
      submit .layerJump h (tickAfter s.now) (s.layerJumpAu (max layer p - min layer p)) 0 s

/-- The number that reflected Gray code spells. -/
def grayDecode (g : Nat) : Nat := (List.range 16).foldl (fun b i => Nat.xor b (g / 2 ^ i)) 0

/-- The base track a TRID of spot `k` names, where it counts (R133). -/
def tridBase (k w : Nat) : Option Nat :=
  let ring := grayDecode (w / 65536)
  let track := w / 2 ^ 13 % 8
  if crc8 (bitsMsb 24 (w / 256)) == w % 256 && track ≤ 5 && k ≤ 6 * ring + track then some (6 * ring + track - k) else none

/-- The sled position of a base track: spot 2 at angle 0 (R127, R218). -/
def trackSteps (g : Nat) : Int := rneDiv (((22499880 + 180 * (g + 2) : Nat) : Int) * 2 - 45000000) 9375

/-- The index of the sled (R218). -/
def indexSled (h g : Nat) (s : State) : State :=
  let pt := trackSteps g
  if !s.flag (SLD_POS_KNOWN h) then
    ((s.putI (SLD_POS_P h) pt).put (SLD_POS_KNOWN h) 1).setSl h fun x => { x with searchMoves := 0 }
  else
    let d := pt - s.getI (SLD_POS_P h)
    if s.get SLD_MISC_SLIP < d.natAbs then
      logFlt 6 kINFO 0x01 h [ofSigned 24 d] ((s.putI (SLD_POS_P h) pt).inc (SLD_CNT_SLIPS h))
    else s

/-- The base track that the TRID of spot `k` names, where the spot read one that counts (R133). -/
def baseOf (trids : List (Option Word)) (k : Nat) : Option Nat := (trids.getD k none).bind fun w => tridBase k w.toNat

/-- The base track of a set of TRIDs that counts: spot 2 and at least three other spots agree on it (R195). -/
def agreed (trids : List (Option Word)) : Option Nat :=
  (baseOf trids 2).filter fun g => 3 ≤ ((List.range 6).filter fun k => k != 2 && baseOf trids k == some g).length

/-- TRID_DECODED: the TRIDs of the six spots at one gap field, none where a spot read nothing. Each that counts indexes the sled, in
the order of the spots, while |LPOS| is within THR (R133, R218; DESIGN CHOICE, log entry 169); a set that agrees tells the sequencer
where the head is (R195, R200). -/
def execTridDecoded (h : Head) (trids : List (Option Word)) (s : State) : Res :=
  s.doIf (s.applied && s.inFocus h) fun s =>
    let read := (List.range 6).filterMap (baseOf trids)
    let s := s.setTr h fun t => { t with tridSeen := t.tridSeen || !read.isEmpty }
    let s := s.when ((s.tr h).lpos.natAbs ≤ s.get SLD_FOLLOW_THR) fun s => read.foldl (fun s g => indexSled h g s) s
    match agreed trids with
    | some g => trackSeen h g s
    | none => s

/-! ### Write inhibit and shock (R208, R210, R212) -/

/-- INHIBIT_CLEAR: the condition of a cause has been absent for INHCLR consecutive samples (R210). -/
def execInhibitClear (h : Head) (c : Fin 7) (s : State) : Res :=
  s.doIf (s.applied && s.bit (SRV_HSTAT_INHC h) c && s.get SRV_WINH_INHCLR ≤ (s.tr h).absent.getD c 0) (clearInhibit h c)

/-- A write of SRV_HCTRL (R208, R210). -/
def winhWrite (h v : Nat) (s : State) : State :=
  let s := s.put (SRV_HCTRL_WINH h) v
  if v.testBit 0 then raiseInhibit h icHOST s else clearInhibit h icHOST s

/-- SRV_HCTRL_WINH. -/
def execSrvHctrlWinh (p : Port) (h : Head) (v : Word) (s : State) : Res :=
  vendorWrite p (SRV_HCTRL_WINH h).off false (winhWrite h v.toNat) s

/-- SHOCK_SENSOR_READ: a burst read of the accelerometer every 4.0 µs while EN is 1 (R212). -/
def execShockSensorRead (axial radial : BitVec 16) (s : State) : Res :=
  s.doIf (s.applied && s.flag SRV_SHK_EN) fun s =>
    let m := max axial.toInt.natAbs radial.toInt.natAbs
    let s := s.put SRV_SHKST_PEAK (max (s.get SRV_SHKST_PEAK) m)
    if s.get SRV_SHK_LIMIT < m then
      forUpTo 4 (fun h s => s.setTr h fun t => { t with shock := true }) (spoilWindow (s.inc SRV_SHKST_EVENTS))
    else s

end Sys2Proof.Machine
end

