-- ==== Sys2Proof/Machine/Aes.lean ====
section
/-! DEFINITION. AES-256, XTS-AES-256 and the key unwrap with padding, as the standards that R90, R520 and R523 name define them: FIPS 197,
IEEE 1619 and RFC 5649 (PRESUMED, log entry 3). A block, a key and a data unit are lists of bytes. -/

namespace Sys2Proof.Machine

/-! ### GF(2⁸) modulo x⁸ + x⁴ + x³ + x + 1 -/

def aesX (a : Nat) : Nat := let d := 2 * a; if 256 ≤ d then Nat.xor d 0x11B else d
def aesMul (a b : Nat) : Nat :=
  ((List.range 8).foldl (fun (r : Nat × Nat) i => (if b.testBit i then Nat.xor r.1 r.2 else r.1, aesX r.2)) (0, a)).1
/-- The inverse a²⁵⁴; 0 for 0. -/
def aesInv (a : Nat) : Nat :=
  let sq := fun x => aesMul x x
  let a2 := sq a
  let a3 := aesMul a2 a
  let a12 := sq (sq a3)
  let a15 := aesMul a12 a3
  let a240 := sq (sq (sq (sq a15)))
  aesMul (aesMul a240 a12) a2

/-- The substitution of a byte, and its inverse. -/
def aesSub (a : Nat) : Nat :=
  let b := aesInv a
  let rot := fun n => (b * 2 ^ n) % 256 + b / 2 ^ (8 - n)
  [1, 2, 3, 4].foldl (fun v n => Nat.xor v (rot n)) (Nat.xor b 0x63)
def aesSubInv (a : Nat) : Nat :=
  let rot := fun n => (a * 2 ^ n) % 256 + a / 2 ^ (8 - n)
  aesInv ([1, 3, 6].foldl (fun v n => Nat.xor v (rot n)) 0x05)

def xorBytes (a b : List Nat) : List Nat := List.zipWith Nat.xor a b

/-! ### The key schedule: 60 words of four bytes -/

/-- The words of the schedule, newest first, grown by `n` from the number of words made so far. -/
def aesGrow : Nat → Nat → Nat → List (List Nat) → List (List Nat)
  | 0, _, _, ws => ws
  | n + 1, i, rcon, ws =>
    let prev := ws.headD []
    let t :=
      if i % 8 == 0 then xorBytes ((prev.drop 1 ++ prev.take 1).map aesSub) [rcon, 0, 0, 0]
      else if i % 8 == 4 then prev.map aesSub
      else prev
    aesGrow n (i + 1) (if i % 8 == 0 then aesX rcon else rcon) (xorBytes (ws.getD 7 []) t :: ws)

/-- The fifteen round keys of a key of 32 bytes. -/
def aesKeys (key : List Nat) : List (List Nat) :=
  let ws := (aesGrow 52 8 1 ((List.range 8).map fun i => (key.drop (4 * i)).take 4).reverse).reverse
  (List.range 15).map fun r => (ws.drop (4 * r)).take 4 |>.flatten

/-! ### The cipher -/

/-- Row `r` of the state moves by `r` columns. -/
def aesShift (b : List Nat) : List Nat := (List.range 16).map fun i => b.getD ((i + 4 * (i % 4)) % 16) 0
def aesShiftInv (b : List Nat) : List Nat := (List.range 16).map fun i => b.getD ((i + 12 * (i % 4)) % 16) 0
/-- Each column times the circulant of these coefficients. -/
def aesMix (m : List Nat) (b : List Nat) : List Nat :=
  (List.range 16).map fun i =>
    (List.range 4).foldl (fun v k => Nat.xor v (aesMul (m.getD ((k + 4 - i % 4) % 4) 0) (b.getD (i / 4 * 4 + k) 0))) 0

def aesRounds : List (List Nat) → List Nat → List Nat
  | [], b => b
  | [k], b => xorBytes (aesShift (b.map aesSub)) k
  | k :: ks, b => aesRounds ks (xorBytes (aesMix [2, 3, 1, 1] (aesShift (b.map aesSub))) k)

/-- AES-256 of a block of 16 bytes. -/
def aesEnc (keys : List (List Nat)) (b : List Nat) : List Nat :=
  aesRounds (keys.drop 1) (xorBytes b (keys.headD []))

def aesRoundsInv : List (List Nat) → List Nat → List Nat
  | [], b => b
  | [k], b => xorBytes ((aesShiftInv b).map aesSubInv) k
  | k :: ks, b => aesRoundsInv ks (aesMix [14, 11, 13, 9] (xorBytes ((aesShiftInv b).map aesSubInv) k))

/-- The inverse cipher. -/
def aesDec (keys : List (List Nat)) (b : List Nat) : List Nat :=
  aesRoundsInv (keys.reverse.drop 1) (xorBytes b (keys.getLastD []))

/-! ### XTS (R523) -/

/-- The number whose bytes these are, the first least significant, and back. -/
def bytesLe : List Nat → Nat
  | [] => 0
  | b :: bs => b + 256 * bytesLe bs
def leOf (n v : Nat) : List Nat := (List.range n).map fun i => v / 256 ^ i % 256

/-- The tweak times α. -/
def xtsNext (t : Nat) : Nat := let d := 2 * t; if 2 ^ 128 ≤ d then Nat.xor (d - 2 ^ 128) 0x87 else d

def xtsBlocks (cipher : List Nat → List Nat) : Nat → Nat → List Nat → List Nat
  | 0, _, _ => []
  | n + 1, t, l =>
    let tw := leOf 16 t
    xorBytes (cipher (xorBytes (l.take 16) tw)) tw ++ xtsBlocks cipher n (xtsNext t) (l.drop 16)

/-- XTS-AES-256 of a data unit of whole blocks under the data key and the tweak key; `unit` is the data unit number. -/
def xtsEnc (key1 key2 : List Nat) (unit : Nat) (l : List Nat) : List Nat :=
  xtsBlocks (aesEnc (aesKeys key1)) (l.length / 16) (bytesLe (aesEnc (aesKeys key2) (leOf 16 unit))) l
def xtsDec (key1 key2 : List Nat) (unit : Nat) (l : List Nat) : List Nat :=
  xtsBlocks (aesDec (aesKeys key1)) (l.length / 16) (bytesLe (aesEnc (aesKeys key2) (leOf 16 unit))) l

/-! ### Key unwrap with padding (R520, R521) -/

def bytesBe (l : List Nat) : Nat := l.foldl (fun v b => 256 * v + b) 0
def beOf (n v : Nat) : List Nat := (leOf n v).reverse

/-- The steps of the unwrap, from step `t` down: the register A and the n half-blocks. -/
def unwrapSteps (keys : List (List Nat)) (n : Nat) : Nat → Nat × List Nat → Nat × List Nat
  | 0, r => r
  | t + 1, (a, rs) =>
    let i := t % n
    let b := aesDec keys (beOf 8 (Nat.xor a (t + 1)) ++ beOf 8 (rs.getD i 0))
    unwrapSteps keys n t (bytesBe (b.take 8), rs.set i (bytesBe (b.drop 8)))

/-- The plain key that a wrapped one holds; none where its integrity check fails. -/
def keyUnwrap (key w : List Nat) : Option (List Nat) :=
  let keys := aesKeys key
  let n := w.length / 8 - 1
  if w.length % 8 != 0 || w.length < 16 then none
  else
    let r :=
      if n == 1 then let b := aesDec keys w; (bytesBe (b.take 8), [bytesBe (b.drop 8)])
      else unwrapSteps keys n (6 * n) (bytesBe (w.take 8), (List.range n).map fun i => bytesBe ((w.drop (8 * (i + 1))).take 8))
    let plain := r.2.flatMap (beOf 8)
    let len := r.1 % 2 ^ 32
    if r.1 / 2 ^ 32 == 0xA65959A6 && 8 * (n - 1) < len && len ≤ 8 * n && (plain.drop len).all (· == 0) then some (plain.take len)
    else none

end Sys2Proof.Machine
end

