-- ==== Sys2Proof/Machine/Members.lean ====
section
/-! DEFINITION. The members of a stripe as codewords: encryption, metadata, parity (R26, R310, R311, R313, R523), and the reads that STR
plans per head (R324, R465). -/

namespace Sys2Proof.Machine

open R

/-! ### Stripe transactions -/

def setStripe (num : Nat) (k : Stripe → Stripe) (s : State) : State :=
  s.setStr fun x => { x with stripes := x.stripes.map fun t => if t.num == num then k t else t }
def State.stripeOf (s : State) (num : Nat) : Option Stripe := s.str.stripes.find? fun t => t.num == num
def setMem (num idx : Nat) (k : StMem → StMem) (s : State) : State :=
  setStripe num (fun t => { t with mems := t.mems.map fun m => if m.idx == idx then k m else m }) s
def State.memOf (s : State) (num idx : Nat) : Option StMem :=
  (s.stripeOf num).bind fun t => t.mems.find? fun m => m.idx == idx

/-- The header KIND of a member (Table 5.7). -/
def State.memKind (s : State) (idx : Nat) : Nat :=
  if idx < s.dataMembers then 1 else if idx == s.dataMembers then 2 else 3

/-! ### Encryption (R523) -/

def State.keyOf (s : State) (nsid : Nat) : Option (Nat × Nat) := (s.sec.slots.find? fun k => k.1 == nsid).map Prod.snd
/-- The data unit number of a codeword: the byte offset of its first LBA over 4,096. -/
def dataUnit (n : Ns) (lba : Nat) : Nat := lba * n.lba / 4096
/-- User bytes as they are stored. A namespace without its key gives none; its commands are refused before (R522). -/
def State.encrypt (s : State) (n : Ns) (lba : Nat) (b : List Nat) : List Nat :=
  match if n.enc then s.keyOf n.nsid else none with
  | some k => xtsEnc (leBytes 32 k.1) (leBytes 32 k.2) (dataUnit n lba) b
  | none => b
def State.decrypt (s : State) (n : Ns) (lba : Nat) (b : List Nat) : List Nat :=
  match if n.enc then s.keyOf n.nsid else none with
  | some k => xtsDec (leBytes 32 k.1) (leBytes 32 k.2) (dataUnit n lba) b
  | none => b

/-! ### Codewords of a unit (R311, R313, Table 11.1) -/

/-- LBAs in a codeword. -/
def Ns.cwLbas (n : Ns) : Nat := 4096 / n.lba
/-- The first LBA of a unit's codeword. -/
def cwFirst (n : Ns) (unit c : Nat) : Nat := unit * n.unitLbas + c * n.cwLbas
/-- The bytes of a block as the host gives them, byte 0 in the low bits. -/
def lbaBytes (n : Ns) (v : Nat) : List Nat := leBytes n.lba v

/-- The plain user bytes of a unit's codeword: the gathered blocks over the present contents, zeros where there are none. -/
def State.plainCw (s : State) (n : Ns) (u : GUnit) (c : Nat) : List Nat :=
  let first := cwFirst n u.unit c
  let old := match u.base[c]? with
    | some x => s.decrypt n first (cwBytes x 0 4096)
    | none => List.replicate 4096 0
  (List.range n.cwLbas).flatMap fun i =>
    match u.items.find? fun x => x.1 == first + i with
    | some x => lbaBytes n x.2
    | none => (old.drop (i * n.lba)).take n.lba

/-- The stored user bytes of a unit's codeword. Contents that no block replaces stay as they are stored. -/
def State.cipherCw (s : State) (n : Ns) (u : GUnit) (c : Nat) : List Nat :=
  let first := cwFirst n u.unit c
  match u.base[c]?, u.items.any fun x => first ≤ x.1 && x.1 < first + n.cwLbas with
  | some x, false => cwBytes x 0 4096
  | _, _ => s.encrypt n first (s.plainCw n u c)

/-- The codewords of a data member that holds a unit. -/
def State.unitWords (s : State) (n : Ns) (stripe j wseq : Nat) (u : GUnit) : List Nat :=
  (List.range 16).map fun c => encodeCw (s.cipherCw n u c)
    { pba := s.locate stripe j, cwix := c, kind := 1, member := j, enc := n.enc, nsid := n.nsid
      keygen := if n.enc then n.keygen % 256 else 0, wseq, lba := cwFirst n u.unit c, stripe }

/-- The user bytes of P or Q at an index over the data members given (R310). -/
def parityUser (dm j c : Nat) (data : List (Nat × List Nat)) : List Nat :=
  let d := (data.filter fun m => m.1 < dm).map fun m => (m.1, cwBytes (m.2.getD c 0) 0 4096)
  (List.range 4096).map fun t =>
    d.foldl (fun v m => Nat.xor v (if j == dm then m.2.getD t 0 else gfMul (gfPow m.1) (m.2.getD t 0))) 0
/-- The codewords of P or Q. -/
def State.parityWords (s : State) (stripe j wseq : Nat) (data : List (Nat × List Nat)) : List Nat :=
  (List.range 16).map fun c => encodeCw (parityUser s.dataMembers j c data)
    { pba := s.locate stripe j, cwix := c, kind := s.memKind j, member := j, enc := false, nsid := 0, keygen := 0, wseq
      lba := 2 ^ 64 - 1, stripe }
/-- The members of a stripe with P and Q over its data members. -/
def State.withParity (s : State) (stripe wseq : Nat) (data : List (Nat × List Nat)) : List (Nat × List Nat) :=
  data ++ (List.range s.volParity).map fun i => (s.dataMembers + i, s.parityWords stripe (s.dataMembers + i) wseq data)

/-- A codeword as it is written at a block with a WSEQ: its user bytes stay, PBA and WSEQ of its metadata are those of the write. -/
def reword (p wseq x : Nat) : Nat := encodeCw (cwBytes x 0 4096) { metaOf x with pba := p, wseq }

/-- The place of a codeword of a member in the ASSEMBLY region, which is the model's (DESIGN CHOICE, log entry 179). -/
def State.asmAddr (s : State) (stripe j c : Nat) : Nat :=
  match s.region 2 with
  | some r => 65536 * (r.base + (stripe * s.volWidth + j) % max 1 r.size) + 4096 * c
  | none => 4096 * c

/-! ### Blocks to be written (R26, R137, R280) -/

/-- The rebuild job whose replacement a block is. -/
def State.rebuildAt (s : State) (p : Nat) : Option Rebuild := s.str.rebuild.find? fun r => r.running && r.repl == some p
/-- The member that an open transaction writes at a block. -/
def State.writeAt (s : State) (p : Nat) : Option (Stripe × StMem) :=
  s.str.stripes.findSome? fun t => (t.mems.find? fun m => m.st ≤ 2 && s.locate t.num m.idx == p).map fun m => (t, m)

/-- A transaction extends a stripe: it holds data members that it does not write (R314). -/
def State.extends (s : State) (t : Stripe) : Bool :=
  t.data.any fun d => d.1 < s.dataMembers && !t.mems.any fun m => m.idx == d.1

/-- A block that waits to be written: a member of an open stripe whose WSEQ lies below the durable limit (R321), whose remap is durable and
whose attempts are not spent, an extension's in the order of R314; a rebuilt member; or an Attic block. -/
def State.wantsWrite (s : State) (p : Nat) : Bool :=
  (match s.writeAt p with
    | some (t, m) => t.st == 0 && !t.voiding && m.st == 0 && m.tries < 3 && t.wseq < s.str.wres && !s.remapWaits p && (t.data.any fun d => d.1 == m.idx)
        && (!s.extends t || (t.mems.takeWhile fun x => x.idx != m.idx).all fun x => x.st != 0)
    | none => false)
  || (s.rebuildAt p).any (fun r => r.st == 1 && r.tries < 3) || s.attAsked p

/-- KIND, WSEQ and codeword of the sixteen frames of a block that is written. -/
def State.blockWords (s : State) (p : Nat) : List (Nat × Nat × Nat) :=
  match s.writeAt p with
  | some (t, m) => ((t.data.find? fun d => d.1 == m.idx).map fun d => d.2.map fun x => (s.memKind m.idx, t.wseq, reword p t.wseq x)).getD []
  | none =>
    match s.rebuildAt p with
    | some r => r.data.map fun x => (s.memKind r.member, (metaOf x).wseq, reword p (metaOf x).wseq x)
    | none => (s.attWords p).getD []

/-- The frame of a codeword of a block (R137, R278): AREA 1 in the Attic. -/
def frameOf (p cwix : Nat) (w : Nat × Nat × Nat) : List Bool :=
  frameBits (slotAddr p cwix) w.1 (pbaAttic p).toNat w.2.1 w.2.2

/-! ### Reads that STR plans (R324, R465) -/

/-- The extent in force: STR_CFG.EXT, lowered to what fits twice in ASSEMBLY (R324). -/
def State.extent (s : State) : Nat :=
  let size := ((s.region 2).map Region.size).getD 0
  max 8 (min (s.get STR_CFG_EXT) (size / (2 * max s.volWidth 1) / 8 * 8))

/-- Stripe offsets of a piece (Table 18.3). -/
def State.pieceLen (s : State) : Nat :=
  match (s.modeCfg s.mode).sched with
  | 1 => 8
  | 2 => max 1 (s.extent / 4)
  | _ => s.extent

/-- A list cut into pieces of `n`. -/
def piecesOf (n : Nat) : Nat → List Nat → List (List Nat)
  | 0, _ => []
  | fuel + 1, l => if l.isEmpty then [] else l.take (max n 1) :: piecesOf n fuel (l.drop (max n 1))

/-- The codewords of members of a stripe are asked for; those asked for already are not asked for twice. Answers what is new. -/
def wantMembers (stripe : Nat) (l : List (Nat × List Nat)) (whole : Bool) (s : State) : List (Nat × List Nat) × State :=
  match s.str.asm.find? fun a => a.stripe == stripe with
  | some a =>
    let had := fun j => (a.want.filter fun p => p.1 == j).flatMap Prod.snd
    let new := (l.map fun p => (p.1, p.2.filter fun c => !(had p.1).contains c)).filter fun p => !p.2.isEmpty
    (new, s.setStr fun x => { x with asm := x.asm.map fun b =>
      if b == a then { a with want := a.want ++ new, whole := a.whole || whole } else b })
  | none => (l, s.setStr fun x => { x with asm := x.asm ++ [{ stripe, want := l, whole }] })

/-- The members of a stripe that have been written: its data members up to its zone's fill, and P and Q (R314). -/
def State.writtenMembers (s : State) (stripe : Nat) : List Nat :=
  let z := s.str.zones.find? fun v => v.z == stripe / 1024
  let data := match z with
    | some v => if stripe % 1024 == v.fill then v.part else s.dataMembers
    | none => s.dataMembers
  List.range data ++ (List.range s.volParity).map (s.dataMembers + ·)

/-- A partial read: only these codewords of these members, in order of arrival (R324). -/
def askPart (act stripe : Nat) (l : List (Nat × List Nat)) (s : State) : State :=
  let r := wantMembers stripe l false s
  r.1.foldl (fun s p =>
    match s.headFor p.1 with
    | some h => queueRead h { act, part := true, mems := [(stripe, p.1)], cws := p.2, at' := s.now } s
    | none => s) r.2

/-- A member under rebuild: a host read of its stripe is served by reconstruction (R327). -/
def State.rebuilding (s : State) (stripe j : Nat) : Bool :=
  s.str.rebuild.any fun r => r.stripe == stripe && r.member == j && r.running

/-- A member that is not read: it is under rebuild, or its layer has failed and it counts as failed (R327, R352). -/
def State.deadLayer (s : State) (stripe j : Nat) : Bool := s.hlt.failedLayers.contains (pbaLayer (s.locate stripe j))
def State.unreadable (s : State) (stripe j : Nat) : Bool := s.rebuilding stripe j || s.deadLayer stripe j

/-- A read of whole stripes, ascending, of these members: in layer-extents; each head takes its chunks in turn for each extent, in pieces
of the policy's length (R324, Table 18.3). -/
def askMembers (act : Nat) (ms : State → Nat → List Nat) (l : List Nat) (s : State) : State :=
  let r := l.foldl (fun (r : List (Nat × List (Nat × List Nat)) × State) st =>
    let w := wantMembers st ((ms r.2 st).map fun j => (j, List.range 16)) true r.2
    (r.1 ++ [(st, w.1)], w.2)) ([], s)
  let ext := s.extent
  let extents := (l.map fun st => st / ext).eraseDups.map fun e => l.filter fun st => st / ext == e
  forUpTo 4 (fun h s =>
    extents.foldl (fun s x =>
      ((List.range s.volWidth).filter fun j => s.headFor j == some h).foldl (fun s j =>
        let mine := x.filter fun st => r.1.any fun p => p.1 == st && p.2.any fun q => q.1 == j
        (piecesOf s.pieceLen mine.length mine).foldl (fun s piece =>
          queueRead h { act, mems := piece.map fun st => (st, j), at' := s.now } s) s) s) s) r.2

/-- A read of whole stripes: every member that has been written and is read; a rebuild reads the failed member too. -/
def askWhole (act : Nat) (l : List Nat) (s : State) : State :=
  askMembers act (fun s st => (s.writtenMembers st).filter fun j => if act == 1 then !s.deadLayer st j else !s.unreadable st j) l s
/-- A partial read, or where a member of it is not read itself one of the whole stripe. -/
def askSome (act stripe : Nat) (l : List (Nat × List Nat)) (s : State) : State :=
  if l.any fun p => s.unreadable stripe p.1 then askWhole act [stripe] s else askPart act stripe l s

/-- A request has waited 500 ms (R465). -/
def State.waitedLong (s : State) (r : RdReq) : Bool :=
  s.get SPN_MEAS_RPM * au24 / 120 ≤ (s.now + au48 - r.at') % au48
/-- The estimated access of a request from where the head is. -/
def State.accessOf (s : State) (h : Nat) (r : RdReq) : Nat :=
  match r.mems with
  | m :: _ => Config.accessTime (s.get (SRV_HSTAT_LAYER h)) (s.get (SRV_HTRK_GTRK h)) s.now (s.locate m.1 m.2)
  | [] => 0
def State.nearest (s : State) (h : Nat) (l : List RdReq) : Option RdReq :=
  l.foldl (fun (b : Option RdReq) r =>
    match b with
    | none => some r
    | some x => if s.accessOf h r < s.accessOf h x then some r else some x) none

/-- The host read that a head makes next (R465, Table 18.3). What has begun is ended first. Read-ahead ranks below host reads (R466). -/
def State.nextRead (s : State) (h : Nat) : Option RdReq :=
  let t := s.trk.getD h {}
  let host := t.reads.filter fun r => r.act == 0
  let l := if host.isEmpty then t.reads.filter fun r => r.act == 4 else host
  match l.find? fun r => r.begun with
  | some r => some r
  | none =>
    let parts := l.filter fun r => r.part
    let pieces := l.filter fun r => !r.part
    match (s.modeCfg s.mode).sched with
    | 1 => (l.find? s.waitedLong).or (s.nearest h l)
    | 2 => if t.partials < 4 || pieces.isEmpty then parts.head?.or pieces.head? else pieces.head?
    | _ => parts.head?.or pieces.head?

/-- The requests that a window of an activity may serve on a head: the next one of the host's, any of maintenance. -/
def State.mayRead (s : State) (h act : Nat) : List RdReq :=
  if act == 0 || act == 4 then (s.nextRead h).toList.filter fun r => r.act == act
  else (s.trk.getD h {}).reads.filter fun r => r.act == act

/-- A request of a head has begun: pieces and partial reads are counted for the turn of R465. -/
def beginRead (h : Nat) (r : RdReq) (s : State) : State :=
  if r.begun then s
  else s.setTr h fun t => { t with
    reads := t.reads.map fun x => if x == r then { r with begun := true } else x
    partials := if r.act != 0 && r.act != 4 then t.partials else if r.part then t.partials + 1 else 0 }
/-- A member has been read by a request that has begun. -/
def readDone (h act : Nat) (m : Nat × Nat) (s : State) : State :=
  s.setTr h fun t => { t with
    reads := (t.reads.map fun r => if r.act == act && r.begun then { r with mems := r.mems.filter (· != m) } else r).filter fun r => !r.mems.isEmpty }

end Sys2Proof.Machine
end

