-- ==== Sys2Proof/Machine/Patrol.lean ====
section
/-! DEFINITION. The patrol lap: its order, what it reads next, and the margin checks at its head (R211, R351, R353, R354). -/

namespace Sys2Proof.Machine

open R

/-- A block holds data that can be checked: a written member of a committed stripe, or a block of a record of the Attic. -/
def State.holdsData (s : State) (p : Nat) : Bool :=
  (s.memberAt p).any (fun m => s.committed m.1 && (s.writtenMembers m.1).contains m.2) || (s.recordAt p).isSome

/-- Margin checks of these blocks go to the head of the patrol order. -/
def addChecks (l : List Nat) (s : State) : State :=
  let l := l.filter s.holdsData
  s.setHlt fun h => { h with checks := l ++ h.checks.filter fun q => !l.contains q }

/-- The layers beside a layer on its side. -/
def besideLayers (l : Nat) : List Nat :=
  (if 0 < l % 24 then [l - 1] else []) ++ (if l % 24 < 23 then [l + 1] else [])

/-- The data blocks of a layer within ±1.5 mm of radius, 1,388 rings, and ±1 wedge of angle of a block (R351). -/
def areaOf (layer p : Nat) : List Nat :=
  let first := fun (q : Nat) => let b := frameStart q 0; 64 * b.ring + b.wedge
  let last := fun (q : Nat) => let b := frameLast q 15; 64 * b.ring + b.wedge
  let near := fun (q : Nat) =>
    first p / 64 ≤ last q / 64 + 1388 && first q / 64 ≤ last p / 64 + 1388
      && ((first q + 65 - first p % 64) % 64 ≤ last p - first p + 2 || (first p + 127 - first q % 64) % 64 ≤ last q - first q)
  (List.range 32).flatMap fun b => ((List.range (6 * dataBlocks b)).map (ordinalPba layer b)).filter near

/-! ### The order of a lap (R353) -/

/-- What a lap reads as one: its key in the order, its zone or 0x3FFF in the Attic, its blocks. -/
structure LapItem where
  key : Nat
  zone : Nat
  blks : List Nat
  deriving DecidableEq, Repr

/-- The next record of the Attic copies, from a key on. -/
def State.lapRecord (s : State) (from' : Nat) : Option LapItem :=
  let l := s.att.recs.map fun r => ({ key := 32768 * r.copy + r.blks.headD 0, zone := 0x3FFF, blks := r.blks.map (atticPba r.copy) } : LapItem)
  (l.filter fun i => from' ≤ i.key).foldl (fun (b : Option LapItem) i =>
    match b with
    | none => some i
    | some x => if i.key < x.key then some i else some x) none

/-- The key of a stripe: the system zones first, then the namespaces. -/
def lapKey (owner stripe : Nat) : Nat := 2 ^ 20 + (if owner == sysNs then 0 else owner) * 2 ^ 32 + stripe
/-- The committed stripes of a zone from a key on, an extent of them at most. -/
def State.lapExtent (s : State) (from' : Nat) (v : VZone) : Option LapItem :=
  let l := (((List.range 1024).map (1024 * v.z + ·)).filter fun x => from' ≤ lapKey v.owner x && s.committed x).take s.extent
  l.head?.map fun x =>
    { key := lapKey v.owner (l.getLastD x), zone := v.z
      blks := l.flatMap fun x => ((s.writtenMembers x).filter fun j => !s.unreadable x j).map (s.locate x) }
/-- What a lap reads next, from a key on. -/
def State.lapNext (s : State) (from' : Nat) : Option LapItem :=
  (s.lapRecord from').or ((sortBy (fun a b => lapKey a.owner (1024 * a.z) ≤ lapKey b.owner (1024 * b.z)) s.str.zones).findSome? (s.lapExtent from'))

/-- Patrol reads of the lap run (R354): HLT_STAT.PATROL is 2. -/
def State.lapRuns (s : State) : Bool :=
  s.inLife [MOUNTED] && !s.flag HLT_CTRL_PAUSE
    && ((s.modeCfg s.mode).patrol == 2 || ((s.modeCfg s.mode).patrol == 1 && s.hlt.patrolRead))

/-- The lap goes on with its next record or extent once the one under patrol has been read. Its progress in 1/65,536 is of nothing that
the rules name, so that it is free (DESIGN CHOICE, log entry 1). Copies that the lap has found stale are repaired (R146). -/
def lapTake (s : State) : State :=
  if !s.lapRuns || !s.hlt.lapLeft.isEmpty then s
  else
    let s := repairCopies s.att.read s
    match s.lapNext s.hlt.lapAt with
    | none => s
    | some i =>
      ((s.setHlt fun h => { h with lapAt := i.key + 1, lapLeft := i.blks }).puts
        [(HLT_PROG_ZONE, i.zone), (HLT_PROG_FRAC, s.freeVal 16)]).drawn

/-- A patrol slot may read a block: a margin check, or where its side has none a block of the lap (R351, R354). -/
def State.patrolWants (s : State) (p : Nat) : Bool :=
  let side := fun (q : Nat) => pbaLayer q / 24
  s.inLife [MOUNTED] && !s.flag HLT_CTRL_PAUSE
    && (s.hlt.checks.contains p || (s.lapRuns && s.hlt.lapLeft.contains p && !s.hlt.checks.any fun q => side q == side p))

/-- Blocks have been read in a patrol slot. -/
def patrolled (l : List Nat) (s : State) : State :=
  s.setHlt fun h => { h with checks := h.checks.filter fun q => !l.contains q, lapLeft := h.lapLeft.filter fun q => !l.contains q }

/-- The lap has read everything. -/
def State.lapOver (s : State) : Bool := s.lapRuns && s.hlt.lapLeft.isEmpty && (s.lapNext s.hlt.lapAt).isNone
/-- The lap begins anew. -/
def lapAnew (s : State) : State :=
  (s.puts [(HLT_PROG_FRAC, 0), (HLT_PROG_ZONE, 0x3FFF)]).setHlt fun h =>
    { h with lapAt := 0, lapLeft := [], startAge := h.age, lapMin := [], lapSeen := [] }

end Sys2Proof.Machine
end

