-- ==== Sys2Proof/Machine/Writing.lean ====
section
/-! DEFINITION. Windows of the heads, write levels and strategies, optimum-power calibration (R64, R130, R138, R140,
R211, R249, R252, R260, R288 to R299). -/

namespace Sys2Proof.Machine

open R

/-! ### Write strategy (R292 to R295) -/

/-- The layer group of R292. -/
def layerGroup (l : Nat) : Nat := 8 * (l / 24) + l % 24 / 3

/-- The entry of a table that serves a mark (R294). -/
def stratEntry (n : Nat) (b : Nat → Nat → Nat) (len spc : Nat) : Option Nat :=
  let m := min len 16
  match (List.range n).find? fun e => b e 0 == m && b e 1 == spc with
  | some e => some e
  | none => (List.range n).foldl (fun best e => if b e 1 == 3 && b e 0 ≤ m then some e else best) none

/-- The class of a preceding space (Table 11.3). -/
def spaceClass (n : Nat) : Nat := if n == 0 then 3 else min (n - 1) 3

/-- Marks of a run of channel bits: start, length and preceding space, `pos` and `sp` where the run begins. A mark at the very
start of a data field is the part of a divided mark, or follows SYNC-length spaces: SPC 3. -/
def marks : List Bool → Nat → Nat → Nat → List (Nat × Nat × Nat)
  | [], pos, sp, len => if len == 0 then [] else [(pos - len, len, sp)]
  | true :: l, pos, sp, len => marks l (pos + 1) sp (len + 1)
  | false :: l, pos, sp, len =>
    if len == 0 then marks l (pos + 1) (sp + 1) 0 else (pos - len, len, sp) :: marks l (pos + 1) 1 0

/-- Pulse shifts along a row of marks (R295): `last` is where the previous mark's final PEAK ends and its cooling. -/
def shifts (n : Nat) (b : Nat → Nat → Nat) : List (Nat × Nat × Nat) → Option (Int × Int) → Nat
  | [], _ => 0
  | (t0, len, sp) :: ms, last =>
    match stratEntry n b len (spaceClass sp) with
    | none => shifts n b ms none
    | some e =>
      let ps := peaks (b e) len
      let at' := fun (x : Int) => (32 * t0 : Nat) + x
      let first := at' (ps.headD (0, 0)).1
      let last' := at' (ps.getLastD (0, 0)).2
      let moved := match last with
        | none => false
        | some (pe, cool) =>
          let bottom := min cool first - pe
          let erase := first - min cool first
          bottom < 8 || (0 < erase && erase < 8)
      moved.toNat + shifts n b ms (some (last', last' + (b e 8 : Nat)))

/-- Pulse shifts of a window that records `bits`, one list a data field (R294, R295). -/
def pulseShifts (s : State) (band group : Nat) (bits : List (List Bool)) : Nat :=
  let x := 16 * band + group
  let n := s.get (WRS_STCNT_COUNT x)
  (bits.map fun l => shifts n (fun e i => wsByte s.rf x e i) (marks l 0 0 0) none).sum

/-! ### Levels (R288, R291) -/

/-- The spots of HEADS.WSPOTS, lowest first. -/
def State.writeSpots (s : State) (h : Nat) : List Nat := (List.range 6).filter fun i => (s.headCfg h).wspots.testBit i
/-- The spots a head writes with in the mode in force (R288). -/
def State.modeSpots (s : State) (h : Nat) : List Nat := (s.writeSpots h).take (s.modeCfg s.mode).wspots
def opcIdx (layer band : Nat) : Nat := 32 * layer + band
def State.opcPeak (s : State) (h layer band pair : Nat) : Nat :=
  if pair == 0 then s.get (WRS_OPC_PEAK0 h (opcIdx layer band)) else s.get (WRS_OPC_PEAK1 h (opcIdx layer band))
def State.peakMax (s : State) (h : Nat) : Nat := s.romWord h 6
/-- Nearest integer to a ratio, halves up. -/
def roundDiv (n d : Nat) : Nat := (2 * n + d) / (2 * d)
/-- PEAK, ERASE and BOTTOM of a PEAK (R291). -/
def State.ratios (s : State) (peak : Nat) : List Nat :=
  [peak, roundDiv (peak * s.get WRS_RATIO_ERATIO) 256, roundDiv (peak * s.get WRS_RATIO_BRATIO) 256]
/-- Level register and value of every level a window needs. -/
def State.windowLevels (s : State) (h layer band : Nat) : List (Nat × Nat) :=
  (s.modeSpots h).zipIdx.flatMap fun p =>
    ((s.ratios (min (s.opcPeak h layer band p.2) (s.peakMax h))).zipIdx.map fun q => (4 * p.1 + 1 + q.2, q.1))
/-- PEAKs above PEAKMAX. -/
def State.peakClamps (s : State) (h layer band : Nat) : Nat :=
  ((s.modeSpots h).zipIdx.filter fun p => s.peakMax h < s.opcPeak h layer band p.2).length
def State.levelsWanting (s : State) (h layer band : Nat) : List (Nat × Nat) :=
  (s.windowLevels h layer band).filter fun p => s.get (OPU_LVL_LEVEL h p.1) != p.2

/-! ### Failed writes (R211, R300, R309, R317) -/

/-- A member write fails after its attempts: WFAIL, its entry, the block retired; STR remaps the member, up to twice a stripe,
or the stripe is to be voided (R300, R309, R317, R341). -/
def failMember (h num idx : Nat) (s : State) : State :=
  let p := s.locate num idx
  let s := logFlt 11 kDEGRADE 0x01 h [p, p / au24] (s.inc (WRS_VCNT_WFAIL h))
  let remaps := match s.stripeOf num with
    | some t => t.remaps
    | none => 2
  let repl := if remaps < 2 then s.replacement num p else none
  let s := retireBlock p (if s.hlt.retired.contains (regionKey p) then 3 else 1) repl s
  match repl with
  | some _ => setStripe num (fun t => { t with
      remaps := t.remaps + 1
      mems := t.mems.map fun m => if m.idx == idx then { m with st := 0, tries := 0, rereads := 0 } else m }) s
  | none => setStripe num (fun t => { t with
      voiding := true, mems := t.mems.map fun m => if m.idx == idx then { m with st := 3 } else m }) s

def setJob (r : Rebuild) (k : Rebuild → Rebuild) (s : State) : State :=
  s.setStr fun x => { x with rebuild := x.rebuild.map fun y => if y.stripe == r.stripe && y.member == r.member then k y else y }

/-- A rebuilt member's replacement cannot be written: the block is retired and another one chosen (R309, R341; DESIGN CHOICE, log entry
184). -/
def failJob (h : Nat) (r : Rebuild) (p : Nat) (s : State) : State :=
  let s := logFlt 11 kDEGRADE 0x01 h [p, p / au24] (s.inc (WRS_VCNT_WFAIL h))
  let s := retireBlock p (if s.hlt.retired.contains (regionKey p) then 3 else 1) none s
  setJob r (fun r => { r with repl := s.replacement r.stripe (s.locate r.stripe r.member), st := 1, tries := 0, rereads := 0 }) s

/-- A block of the Attic cannot be written: it is retired, and its copy is begun anew behind it (R145, R341). -/
def failAttic (h side : Nat) (c : AttWr) (p : Nat) (s : State) : State :=
  let s := logFlt 11 kDEGRADE 0x01 h [p, p / au24] (s.inc (WRS_VCNT_WFAIL h))
  attFails side c (retireBlock p (if s.hlt.retired.contains (regionKey p) then 3 else 1) none s)

/-- A block cannot be written. -/
def failBlock (h p : Nat) (s : State) : State :=
  match s.writeAt p, s.rebuildAt p, s.attAt p with
  | some (t, m), _, _ => failMember h t.num m.idx s
  | none, some r, _ => failJob h r p s
  | none, none, some (side, c) => failAttic h side c p s
  | none, none, none => s

/-- The attempts made at a block. -/
def State.triesAt (s : State) (p : Nat) : Nat :=
  match s.writeAt p, s.rebuildAt p, s.attAt p with
  | some (_, m), _, _ => m.tries
  | none, some r, _ => r.tries
  | none, none, some (_, c) => Sparse.get c.tries p
  | none, none, none => 0
/-- One more attempt at a block, which has been written whole where `whole`. -/
def attempt (p : Nat) (whole : Bool) (s : State) : State :=
  match s.writeAt p, s.rebuildAt p, s.attAt p with
  | some (t, m), _, _ => setMem t.num m.idx (fun x => { x with tries := x.tries + 1, st := if whole then 1 else x.st }) s
  | none, some r, _ => setJob r (fun r => { r with tries := r.tries + 1, st := if whole then 2 else r.st }) s
  | none, none, some (side, c) =>
    let i := atticIndex p
    let c := { c with tries := Sparse.set c.tries p (Sparse.get c.tries p + 1) }
    setAttCur side (some (if whole then { c with left := c.left.filter (· != i), unver := c.unver ++ [i] } else c)) s
  | none, none, none => s
/-- A block is written and not yet verified. -/
def State.unverifiedAt (s : State) (p : Nat) : Bool :=
  match s.writeAt p, s.rebuildAt p, s.attAt p with
  | some (_, m), _, _ => m.st == 1
  | none, some r, _ => r.st == 2
  | none, none, some (_, c) => c.unver.contains (atticIndex p)
  | none, none, none => false

/-! ### Optimum-power calibration (R296 to R298) -/

/-- The OPC block in force of a track (R296). -/
def State.opcBlock (s : State) (layer band track : Nat) : Nat :=
  pba layer band track (dataBlocks band - Sparse.get s.hlt.opcDown ((layer * 32 + band) * 6 + track)) false

/-- A retired OPC block is replaced by the block below it, whose member is remapped; the OPC region takes the higher COUNT
(R296, R309, R338). -/
def replaceOpc (layer band track : Nat) (s : State) : State :=
  let k := (layer * 32 + band) * 6 + track
  let s := s.setHlt fun h => { h with opcDown := Sparse.set h.opcDown k (Sparse.get h.opcDown k + 1) }
  let q := s.opcBlock layer band track
  let region := regionKey (pba layer band track (dataBlocks band) false)
  let s := match s.memberAt q with
    | some m =>
      let s := retireBlock q 3 (s.spareOnLayer q) s
      if s.committed m.1 then queueRebuild m.1 m.2 s else s
    | none => s
  s.setHlt fun h => { h with
    count := Sparse.set h.count region (max (Sparse.get h.count region) (Sparse.get h.count (regionKey q)))
    high := Sparse.set h.high region 0 }

/-- The powers of a sweep about `p0` (R298). -/
def opcPowers (p0 : Nat) : List Nat := (List.range 8).map fun k => roundDiv (p0 * (33 + 2 * k)) 40

/-- What the read-back of one pair says. -/
inductive OpcEnd
  | ok (peak : Nat)
  | fail (code : Nat)
  | again (p0 : Nat)
  deriving DecidableEq, Repr

def OpcEnd.code : OpcEnd → Option Nat
  | .fail c => some c
  | _ => none

/-- The judgement of R298 on the error counts of the eight steps. -/
def opcJudge (p0 : Nat) (retry : Bool) (e : List Nat) (valid : Bool) (prev peakmax maxber opcm : Nat) : OpcEnd :=
  let p := fun k => (opcPowers p0).getD k 0
  let c := fun k => e.getD k 0
  let km := (List.range 8).foldl (fun b k => if c k < c b then k else b) 0
  if km == 0 || km == 7 then if retry then .fail 1 else .again (p km)
  else
    let den : Int := (c (km - 1) : Int) - 2 * c km + c (km + 1)
    let num : Int := 4 * den * p km + ((c (km - 1) : Int) - c (km + 1)) * ((p (km + 1) : Int) - p (km - 1))
    let popt := roundDiv (num * opcm).toNat (1024 * den.toNat)
    if maxber * 79968 < c km * 4096 then .fail 2
    else if valid && 3 * prev < ((popt : Int) - prev).natAbs * 10 then .fail 3
    else if peakmax < popt then .fail 4
    else .ok popt

/-- A run is requested for a head, layer and band; it uses a calibration window of two revolutions (R297). -/
def requestOpc (h layer band : Nat) (s : State) : State :=
  if (s.wh h).opc.isSome then s
  else submit .calWin h (tickAfter s.now) (2 * au24) 2 (s.setWh h fun w => { w with opc := some (layer, band, false) })

/-- A run ends with a failure code (R298). -/
def opcFails (h code : Nat) (s : State) : State :=
  match (s.wh h).opc with
  | none => s
  | some (l, b, _) =>
    let s := (s.inc (WRS_OPCST_FAILS h)).put (WRS_OPCST_LASTERR h) code
    let valid := s.flag (WRS_OPC_VALID h (opcIdx l b))
    let s := calFail 6 h l b 6 s
    s.setWh h fun w => { w with
      opc := none, opcPairs := []
      opcBad := if valid || w.opcBad.contains (l, b) then w.opcBad else w.opcBad ++ [(l, b)] }

/-- A run that its window's close or an inhibit broke ends with code 5 and is run again (R298). -/
def opcBroken (h : Nat) (s : State) : State :=
  match (s.wh h).opc with
  | some (l, b, true) =>
    requestOpc h l b ((s.put (WRS_OPCST_LASTERR h) 5).setWh h fun w => { w with opc := none, opcPairs := [] })
  | _ => s

/-- The tracks under the write spots of a head. -/
def State.spotTracks (s : State) (h : Nat) : List Nat := (s.writeSpots h).map fun i => (s.get (SRV_HTRK_GTRK h) + i) % 6

/-- A write of WRS_OPCCTL: with GO 1 it requests a run in MOUNTED; elsewhere LASTERR is 5 (R297). -/
def opcCtl (v : Nat) (s : State) : State :=
  let h := WRS_OPCCTL_HEAD.ofWord v
  let l := WRS_OPCCTL_LAYER.ofWord v
  if !v.testBit 24 then s
  else if s.life != MOUNTED || 48 ≤ l then s.put (WRS_OPCST_LASTERR h) 5
  else requestOpc h l (WRS_OPCCTL_BAND.ofWord v) s

/-- WRS_OPCCTL: a write with GO 1. -/
def execWrsOpcctl (p : Port) (v : Word) (s : State) : Res :=
  vendorWrite p WRS_OPCCTL_GO.off false (opcCtl (v.toNat ||| 2 ^ 24)) s

/-! ### Windows (R64, R290) -/

/-- An event that does not open goes back to the schedule by its class rule (R65). -/
def putBack (e : Ev) (s : State) : State := moveEv (tickAfter s.now) e s

/-! ### Where the blocks of a window lie (R138, R260, R289) -/

/-- The rank of an activity's requests (Table 20.5). -/
def actRank (act : Nat) : Nat := if act ≤ 5 then act else 0

/-- A block as the head meets it in the pass under way: its spot and the stamps of its bits. -/
structure Meet where
  blk : WBlk
  spot : Nat
  deriving DecidableEq, Repr

/-- The block, where it lies whole between `lead` channel bits from now and `len` au from now (R260, R290). -/
def State.meet (s : State) (h lead len p : Nat) : Option Meet :=
  let a := s.blockAhead h p
  if 0 ≤ a.1 && bitsAu (kOf p) lead ≤ a.1.toNat && a.2 ≤ len then
    some ⟨{ pba := p, start := (s.now + a.1.toNat) % au48, stop := (s.now + a.2.toNat) % au48 }, s.spotFor h (trackNo p (frameStart p 0))⟩
  else none

/-- The base track at which a spot meets a block's first bit when the head next comes to its angle. -/
def State.baseFor (s : State) (h spot p : Nat) : Nat :=
  let b := frameStart p 0
  trackNo p b - spot - if b.angle (kOf p) ≤ s.headAngle h s.now then 6 else 0

/-- The key of a frame on the medium in the drive. -/
def State.frameKey (s : State) (p cwix : Nat) : Nat := (s.serial * 2 ^ 32 + p) * 16 + cwix
/-- The metadata and the codeword of an OPC frame (R280, R296, Table 11.1): user bytes zero, WSEQ 0. -/
def opcWord (p cwix : Nat) : Nat :=
  encodeCw (List.replicate 4096 0) { pba := p, cwix, kind := 1, member := 0xFF, enc := false, nsid := 0, keygen := 0, wseq := 0
                                     lba := 2 ^ 64 - 1, stripe := 2 ^ 32 - 1 }
/-- Codeword channel bits of a slot of an OPC block that a hard decision differs in (R298). -/
def opcErrors (p cwix read : Nat) : Nat :=
  popCount 39984 (Nat.xor (bitsNat (codewordBits (slotAddr p cwix) (opcWord p cwix))) read)
/-- The OPC blocks under the write spots of a head. -/
def State.opcBlocks (s : State) (h l b : Nat) : List Nat := (s.spotTracks h).map fun t => s.opcBlock l b t
/-- The OPC blocks lie whole within `len` au ahead of the head, each under its write spot. -/
def State.opcAhead (s : State) (h l b len : Nat) : Bool :=
  s.headLayer h == l && (s.opcBlocks h l b).zipIdx.all fun p =>
    (s.meet h 0 len p.1).any fun m => m.spot == (s.writeSpots h).getD p.2 6
/-- The head's calibration window holds the whole of the OPC blocks, and may write. -/
def State.opcReach (s : State) (h l b : Nat) : Bool :=
  !s.flag (SRV_HSTAT_INH h)
    && s.wins.any fun w => w.head == h && w.cls == .calWin && s.opcAhead h l b ((w.stop + au48 - s.now) % au48)
/-- The frames of an OPC block lie on the medium. -/
def recordOpc (p : Nat) (s : State) : State :=
  (List.range 16).foldl (fun s c =>
    let v := 1 + opcWord p c + 2 ^ 37632 * bitsNat (headerBits (slotAddr p c) 1 0 0)
    { s with med := { s.med with data := Sparse.set s.med.data (s.frameKey p c) v } }) s

/-- OPC_RUN: in the head's calibration window a requested run, or its retry, writes the power sweep in each pair's OPC block: slots 2k and
2k + 1 at its k-th power, with ERASE and BOTTOM by R291 (R296, R298). A power above PEAKMAX ends it first. Each write counts as an
overwrite, after its DELTA. -/
def execOpcRun (h : Head) (l : Layer) (b : Band) (s : State) : Res :=
  s.doIf (s.inLife [MOUNTING, MOUNTED] && s.opcReach h l b
      && ((s.wh h).opc == some (l.val, b.val, false) || ((s.wh h).opc == some (l.val, b.val, true)
        && (s.wh h).opcPairs.any fun p => p.2.1 && p.2.2.isNone))) fun s =>
    let regs := (s.spotTracks h).map fun t => pba l b t (dataBlocks b) false
    let ds := s.deltas regs
    let valid := s.flag (WRS_OPC_VALID h (opcIdx l b))
    let start := (s.writeSpots h).zipIdx.map fun p =>
      (if valid then s.opcPeak h l b p.2 else s.get WRS_PDEF_PEAK, false, (none : Option Nat))
    let pairs := if (s.wh h).opcPairs.isEmpty then start else (s.wh h).opcPairs
    let begun := (s.inc (WRS_OPCST_RUNS h)).setWh h fun w => { w with opc := some (l.val, b.val, true), opcPairs := pairs, opcHurt := false }
    if pairs.any fun p => p.2.2.isNone && (opcPowers p.1).any fun x => s.peakMax h < x then opcFails h 4 begun
    else if !ds.isEmpty then askDeltas ds s
    else
      let s := begun.setWh h fun w => { w with
        opcAt := (w.opcAt.filter fun x => !(x.1 == l.val && x.2.1 == b.val)) ++ [(l.val, b.val, s.now)] }
      let s := (List.range 8).foldl (fun s k =>
        sendLevels h (pairs.zipIdx.flatMap fun p =>
          if p.1.2.2.isSome then []
          else (s.ratios ((opcPowers p.1.1).getD k 0)).zipIdx.map fun q => (4 * (s.writeSpots h).getD p.2 0 + 1 + q.2, q.1)) s) s
      let s := (s.opcBlocks h l b).foldl (fun s p => recordOpc p s) s
      regs.foldl (fun s p =>
        let was := s.hlt.retired.contains (regionKey p)
        let s := wearOne p s
        s.when (!was && s.hlt.retired.contains (regionKey p)) (replaceOpc l b (pbaTrack p))) s

/-- OPC_READBACK_DONE: the OPC blocks have been read on the next revolution; `r0` and `r1` are the hard decisions of the first detection
pass on the codeword channel bits of each slot, on pair 0 and pair 1, whose differences from the bits written are counted for each step
(R298). A run that an inhibit has broken ends with code 5. -/
def execOpcReadbackDone (h : Head) (r0 r1 : List Nat) (s : State) : Res :=
  match (s.wh h).opc with
  | some (l, b, true) => s.doIf s.applied fun s =>
      let x := opcIdx l b
      let valid := s.flag (WRS_OPC_VALID h x)
      let errs := fun (i : Nat) => (List.range 8).map fun k =>
        let p := (s.opcBlocks h l b).getD i 0
        let r := if i == 0 then r0 else r1
        opcErrors p (2 * k) (r.getD (2 * k) 0) + opcErrors p (2 * k + 1) (r.getD (2 * k + 1) 0)
      let ends := (s.wh h).opcPairs.zipIdx.map fun p =>
        match p.1.2.2 with
        | some v => OpcEnd.ok v
        | none => opcJudge p.1.1 p.1.2.1 (errs p.2) valid (s.opcPeak h l b p.2) (s.peakMax h)
            (s.get WRS_OPCCFG_MAXBER) (s.get WRS_OPCCFG_OPCM)
      if (s.wh h).opcHurt then opcBroken h s
      else match ends.filterMap OpcEnd.code with
      | c :: _ => opcFails h c s
      | [] =>
        if ends.any fun r => match r with | .again _ => true | _ => false then
          s.setWh h fun w => { w with opcPairs := ends.map fun r =>
            match r with
            | .ok v => (v, false, some v)
            | .again p => (p, true, none)
            | .fail _ => (0, false, none) }
        else
          let v := fun i => match ends.getD i (.ok 0) with | .ok v => v | _ => 0
          let s := s.puts [(WRS_OPC_PEAK0 h x, v 0), (WRS_OPC_PEAK1 h x, v 1), (WRS_OPC_VALID h x, 1),
            (WRS_OPC_TBAND h x, s.thm.pkBand.getD h 0), (WRS_OPCST_LASTERR h, 0)]
          let s := fullEnd h l 6 b 0 (calAccept 6 h l s)
          s.setWh h fun w => { w with opc := none, opcPairs := [], opcBad := w.opcBad.filter (· != (l, b)) }
  | _ => .next s

/-- The sequencer asks for the interval of the jump or seek that brings the head to a layer and base track (R201, R204, R223). One
that waits already is not asked for again. -/
def wantPlace (h act layer g : Nat) (s : State) : State :=
  let mine := fun (e : Ev) => e.owner == h && isMove e.cls
  let from' := s.headLayer h
  let miss := (max g (s.get (SRV_HTRK_GTRK h)) : Nat) - min g (s.get (SRV_HTRK_GTRK h))
  if s.ang.pend.any mine || s.ang.due.any mine || s.ang.subm.any fun r => mine r.ev then s
  else if layer != from' then submit .layerJump h (tickAfter s.now) (s.layerJumpAu (max layer from' - min layer from')) (actRank act) s
  else if miss == 0 then s
  else if miss ≤ 12 then submit .seek h (tickAfter s.now) (jumpAu miss) (actRank act) s
  else submit .seek h (tickAfter s.now) (seekAu (seekUs s h sdCLASSD (trackSteps g))) (actRank act) s

/-- A head works in a band: the tilt sweep and the OPC that wait for that are asked for (R368). -/
def calInBand (h layer band : Nat) (s : State) : State :=
  let k := calKey h layer band
  if !s.cal.bands.contains k then s
  else
    let s := s.setCal fun c => { c with bands := c.bands.filter (· != k), tilts := c.tilts ++ [k] }
    (calWindow h s).when ((s.headCfg h).wspots != 0) (requestOpc h layer band)

/-! ### Reading windows (R64, R67, R252, R260) -/

/-- The lanes and the detector of a head begin to deliver (R252, R253, R260 to R263). Every lane has its timing still to acquire
(DEDUCED, log entry 185). -/
def startReading (h : Nat) (s : State) : State :=
  let s := headRowLoad h s
  let s := forUpTo 7 (fun k s => s.when (s.carries (7 * h + k) && s.lane (7 * h + k) != laneTEST) fun s =>
    unlock (7 * h + k) (s.put (CHN_LSTAT_RX (7 * h + k)) 1)) s
  syncGaps h (s.puts [(DET_HSTAT_RUN h, 1), (DET_HSTAT_TRK h, 2 ^ (s.headCfg h).spots - 1), (DET_HSTAT_ADAPT h, 1)])
def stopReading (h : Nat) (s : State) : State :=
  let s := forUpTo 7 (fun k s => s.put (CHN_LSTAT_RX (7 * h + k)) 0) (eyeBroken h s)
  s.puts [(DET_HSTAT_RUN h, 0), (DET_HSTAT_TRK h, 0), (DET_HSTAT_ADAPT h, 0)]

/-- The channel bits between the opening of a read window and its first wanted frame (R260). -/
def State.readLead (s : State) : Nat := if s.src == srcMARK then 16384 else 4096

/-- A block exists on the medium (R127, R139, R141). -/
def blockExists (p : Nat) : Bool :=
  pbaLayer p < 48 && pbaTrack p < 6 &&
    if pbaAttic p then (atticCopy p).isSome && pbaBand p == 0 && atticIndex p < atticBlocks else pbaBlock p ≤ dataBlocks (pbaBand p)

/-- A block of a span that is to be verified, written and not yet verified (R299). -/
def State.verifies (s : State) (h p : Nat) : Bool :=
  s.unverifiedAt p && (s.wh h).spans.any fun x => x.sampled && x.blks.contains p

/-- What a window of an activity reads of a block: the activity its codewords belong to, the member, and the codewords. Codewords to
be read again (R346) are read in any window; what they give goes to HLT only. -/
def State.readFor (s : State) (h act p : Nat) : Option (Nat × Option (Nat × Nat) × List Nat) :=
  let all := List.range 16
  let again := (s.hlt.rereads.filter fun r => r.1 == p).map Prod.snd
  let other := if again.isEmpty then none else some (5, s.memberAt p, again)
  if !blockExists p then none
  else if act == 2 || act == 8 then some (act, none, all)
  else if act == 5 then if s.patrolWants p then some (5, s.memberAt p, all) else other
  else if act == 7 then
    if s.verifies h p then some (7, (s.writeAt p).map (fun x => (x.1.num, x.2.idx)), all) else other
  else
    match (s.mayRead h act).findSome? fun r => (r.mems.find? fun m => s.locate m.1 m.2 == p).map fun m => (m, r.cws) with
    | some m => some (act, some m.1, m.2)
    | none => other

/-- The requests of a head that a window has begun. -/
def beginReads (h act : Nat) (l : List (Nat × Nat)) (s : State) : State :=
  ((s.mayRead h act).filter fun r => r.mems.any l.contains).foldl (fun s r => beginRead h r s) s

/-- A read window comes due: at the start of a gap field it opens with those of its blocks that it may read and that lie whole in it,
on spots of the head, unless those straddle a band boundary (R261); where there are none, the head is brought to the first of them and the window moves (R64, R65, R260). -/
def openRead (e : Ev) (act : Nat) (blocks : List Nat) (s : State) : State :=
  let h := e.owner
  let ask := blocks.eraseDups.filterMap fun p => (s.readFor h act p).map fun r => (p, r)
  let layer := s.headLayer h
  let got := ask.filterMap fun x =>
    if pbaLayer x.1 == layer then ((s.meet h s.readLead e.len x.1).filter fun m => m.spot < (s.headCfg h).spots).map fun m => (m, x.2)
    else none
  if !s.gapTick h || s.straddles h then putBack e s
  else if got.isEmpty && !ask.isEmpty then
    let p := (ask.headD (0, 0, none, [])).1
    let spot := trackNo p (frameStart p 0) % 6
    putBack e (wantPlace h act (pbaLayer p) (s.baseFor h (if spot < (s.headCfg h).spots then spot else 0) p) s)
  else
    let blks := got.map fun g => { g.1.blk with mem := g.2.2.1 }
    let group := s.get (SRV_HTRK_GTRK h) % 6 == 0
    let s := s.setCwd fun c => { c with expect := c.expect ++ got.map fun g =>
      { pba := g.1.blk.pba, act := g.2.1, mem := g.2.2.1, head := h, spot := g.1.spot, start := g.1.blk.start, group, left := g.2.2.2 } }
    let s := beginReads h act (blks.filterMap WBlk.mem) s
    let p := (blks.map WBlk.pba).headD (pba layer (s.headBand h) 0 0 false)
    calInBand h layer (pbaBand p) (startReading h { s with wins := s.wins ++ [({
      cls := .readWin, head := h, start := s.now, stop := (s.now + e.len) % au48, layer, band := pbaBand p, act, blks } : Win)] })

/-- A read window closes: the blocks that it has begun are read, up to the close; the others stay asked for. -/
def closeRead (w : Win) (s : State) : State :=
  let begun := fun (e : Expect) => passed w.stop e.start && e.start != w.stop
  let mine := s.cwd.expect.filter fun e => e.head == w.head && e.cut.isNone
  let s := s.setCwd fun c => { c with expect := (c.expect.filter fun e => e.head != w.head || e.cut.isSome || begun e).map fun e =>
    if e.head == w.head && e.cut.isNone then { e with cut := some w.stop } else e }
  let s := (mine.filter begun).foldl (fun s e => match e.mem with
    | some m => readDone w.head w.act m s
    | none => s) s
  let rel := fun (t : Nat) => (t + au48 - w.start) % au48
  let s := s.when (w.act == 5) (patrolled ((w.blks.filter fun b => rel b.stop ≤ rel w.stop).map WBlk.pba))
  stopReading w.head s

/-! ### Write windows (R211, R289 to R292, R294, R295, R299) -/

/-- A run is due before the window (R297). -/
def State.opcDue (s : State) (h layer band : Nat) (l : List Nat) : Bool :=
  let x := opcIdx layer band
  !s.flag (WRS_OPC_VALID h x) || s.get (WRS_OPC_TBAND h x) != s.thm.pkBand.getD h 0
    || ((l.any fun p => s.triesAt p == 2)
      && !((s.wh h).opcAt.any fun a => a.1 == layer && a.2.1 == band && !passed s.now (a.2.2 + 16 * au24)))

/-- A write span lasts at most this long (R290). -/
def spanMax : Nat := 16437248

/-- The blocks that a pass writes of those asked for (R289, R290): those that lie whole in the window, on the tracks under the write
spots, in one span. -/
def State.passBlocks (s : State) (h len : Nat) (ask : List Nat) : List Meet :=
  let spots := s.modeSpots h
  let l := (ask.filterMap (s.meet h 0 len)).filter fun m => spots.contains m.spot
  let far := fun (t : Nat) => (t + au48 - s.now) % au48
  let first := l.foldl (fun x m => min x (far m.blk.start)) au48
  l.filter fun m => far m.blk.stop ≤ first + spanMax

/-- CWD reads the codewords of members of open stripes to encode them. One that cannot be read counts as failed at its index and is rebuilt from
the others; beyond the parity at an index the stripe is voided, and its commands complete with Internal Error (Table 16.2). -/
def encodeReads (os : List BlockRead) (mems : List (Nat × Nat)) (s : State) : State :=
  mems.zipIdx.foldl (fun s p =>
    let r := (List.range 16).foldl (fun (r : List Nat × State) c =>
      let y := memLoad srcCWD (s.asmAddr p.1.1 p.1.2 c / 64) (os.getD (16 * p.2 + c) {}) .clean r.2
      (if y.1 then r.1 else r.1 ++ [c], y.2)) ([], s)
    let s := setStripe p.1.1 (fun t => { t with fails := t.fails ++ r.1.map fun c => (p.1.2, c) }) r.2
    match s.stripeOf p.1.1 with
    | none => s
    | some t =>
      if (List.range 16).all (fun c => (t.fails.filter fun f => f.2 == c).eraseDups.length ≤ s.volParity) then s
      else
        completeAll (fun c => c.qid != 0 && (t.units.flatMap GUnit.cmds).contains c.seq && [1, 8, 0x7D].contains c.op) scInternal 0
          (setStripe t.num (fun t => { t with voiding := true }) s)) s

/-- A write window comes due (R288 to R292, R296, R337, R340): blocks that must not be written fail; the lowest unwritten track must lie
under the lower write spot, else the head is brought there and the window moves; then a due OPC run, the levels and the DELTA entries come
first, and the window moves; else it opens. -/
def openWrite (e : Ev) (act : Nat) (blocks : List Nat) (os : List BlockRead) (s : State) : State :=
  let h := e.owner
  let ask := blocks.eraseDups.filter fun p => writableBlock p && s.wantsWrite p
  let bad := fun p => s.writeRefused p
    || (!s.flag (WRS_OPC_VALID h (opcIdx (pbaLayer p) (pbaBand p))) && (s.wh h).opcBad.contains (pbaLayer p, pbaBand p))
  let s := (ask.filter bad).foldl (fun s p => failBlock h p s) s
  let ask := ask.filter fun p => !bad p && s.wantsWrite p
  let p0 := ask.headD 0
  let layer := pbaLayer p0
  let band := pbaBand p0
  let ask := ask.filter fun p => pbaLayer p == layer && pbaBand p == band && pbaAttic p == pbaAttic p0
  let low := ask.foldl (fun t p => min t (pbaTrack p)) 6
  let spot := (s.modeSpots h).headD 0
  let pass := if s.headLayer h == layer then s.passBlocks h e.len ask else []
  if ask.isEmpty then s
  else if (s.wh h).spans.any Span.back then putBack e s
  else if !(pass.any fun m => m.spot == spot && pbaTrack m.blk.pba == low) then
    let p := (ask.find? fun p => pbaTrack p == low).getD p0
    putBack e (wantPlace h act layer (s.baseFor h spot p) s)
  else
    let blks := pass.map fun m => { m.blk with mem := (s.writeAt m.blk.pba).map fun x => (x.1.num, x.2.idx) }
    let own := blks.map WBlk.pba
    let want := s.levelsWanting h layer band
    if s.opcDue h layer band own then putBack e (requestOpc h layer band s)
    else if !want.isEmpty then
      putBack e ((if s.flag (WRS_HSTAT_LVLPEND h) then s else sendLevels h want s).put
        (WRS_HSTAT_LVLPEND h) 1)
    else if !(s.deltas own).isEmpty then putBack e (askDeltas (s.deltas own) s)
    else
      let s := encodeReads os (blks.filterMap WBlk.mem) s
      let blks := blks.filter fun b => s.wantsWrite b.pba
      if blks.isEmpty then s else
      let own := blks.map WBlk.pba
      let s := own.foldl (fun s p => wearOne p s) s
      let far := fun (t : Nat) => (t + au48 - s.now) % au48
      let stop := blks.foldl (fun x b => if far x < far b.stop then b.stop else x) s.now
      let s := calInBand h layer band
        { s with wins := s.wins ++ [({ cls := .writeWin, head := h, start := s.now, stop, layer, band, act, blks, verify := (s.modeCfg s.mode).verify } : Win)] }
      let s := s.setWh h fun x => { x with
        line := ((s.writeSpots h ++ [6, 6]).take 2).map fun k => if pass.any fun m => m.spot == k then 2 else 0
        delay := [7, 8].map fun i => (min (s.get (OPU_ROM_WORD h i) - 1000) 4000) / 2 }
      (s.addSat (WRS_HSTAT_CLAMP h) (s.peakClamps h layer band)).puts [(WRS_HSTAT_LVLPEND h, 0),
        (WRS_HSTAT_WRITING h, 1), (WRS_HSTAT_TBAND h, s.thm.pkBand.getD h 0), (WRS_HSTAT_GROUP h, layerGroup layer)]

/-- A calibration window comes due. The head is brought to the OPC blocks of a run that waits, else to the layer and band that CAL works
on, and the window moves; where it is there, the window opens (R297, R368, R369). A window of one lane leaves the head where it is. -/
def openCal (e : Ev) (s : State) : State :=
  let h := e.owner
  let opened := { s.setTr h fun t => { t with calSum := 0 } with wins := s.wins ++ [({
    cls := .calWin, head := h, start := s.now, stop := (s.now + e.len) % au48, layer := s.headLayer h, band := s.headBand h
    act := 2, lane := e.lane } : Win)] }
  if e.lane.isSome then { s with wins := opened.wins }
  else
    match (s.wh h).opc, s.calTarget h with
    | some (l, b, _), _ =>
      if s.opcAhead h l b e.len then opened
      else
        let spot := (s.writeSpots h).headD 0
        putBack e (wantPlace h 2 l (s.baseFor h spot (s.opcBlock l b ((s.spotTracks h).headD 0))) s)
    | none, some (l, b) =>
      let there := s.headLayer h == l && b.all fun b => s.headBand h == b
      if !there then putBack e (wantPlace h 2 l ((b.map bandTrack).getD (s.get (SRV_HTRK_GTRK h))) s)
      else if (s.headCfg h).wspots != 0 && s.cal.reqs.any (fun r => r.head == h && r.kind != 0)
          && (s.fullLeft h l).contains (6, b.getD 0, 0) then requestOpc h l (b.getD 0) opened
      else opened
    | none, none => opened

/-- WINDOW_OPEN: the head's due window opens, as write, read, calibration window or patrol slot, for an activity and the blocks the
track sequencer wants of it (R64). For a write window buffer memory returns `os` for the codewords that CWD reads to encode them, sixteen to
a member. -/
def execWindowOpen (h : Head) (act : Fin 9) (blocks : List (BitVec 32)) (os : List BlockRead) (s : State) : Res :=
  let l := blocks.map BitVec.toNat
  s.doIf s.applied fun s =>
    match takeDue .writeWin h s with
    | some (e, s) => openWrite e act l os s
    | none =>
      match takeDue .readWin h s with
      | some (e, s) => openRead e act l s
      | none =>
        match takeDue .calWin h s with
        | some (e, s) => openCal e s
        | none =>
          match takeDue .patrol h s with
          | some (e, s) => openRead e 5 l (lapTake s)
          | none => s

/-- The bits that a window has recorded up to `stop` au behind its opening, by data field of a track (R130, R294). -/
def State.recorded (s : State) (w : Win) (stop : Nat) : List (List Bool) :=
  let parts := w.blks.flatMap fun b =>
    ((s.blockWords b.pba).zipIdx.flatMap fun x =>
      let bits := frameOf b.pba x.2 x.1
      ((frameParts b.pba x.2).foldl (fun (r : List ((Nat × Nat × Nat) × List Bool) × Nat) q =>
        let at' := (b.start + behindStart b.pba q.1) % au48
        let n := bitsBefore (kOf b.pba) q.2 at' ((w.start + stop) % au48)
        (r.1 ++ [((pbaTrack b.pba, q.1.ring, q.1.wedge), (bits.drop r.2).take n)], r.2 + q.2)) ([], 0)).1)
  let keys := (parts.map Prod.fst).eraseDups
  keys.map fun k => (parts.filter fun x => x.1 == k).flatMap Prod.snd

/-- The frames of a block that a window has recorded whole lie on the medium; the one under way when it ended holds no frame. -/
def recordBlock (w : Win) (stop : Nat) (b : WBlk) (s : State) : State :=
  (s.blockWords b.pba).zipIdx.foldl (fun s x =>
    let off := fun (q : BitPos) => (b.start + behindStart b.pba q + au48 - w.start) % au48
    let first := off (frameStart b.pba x.2)
    let last := off (frameLast b.pba x.2) + bitsAu (kOf b.pba) 1
    let head := bitsNat (headerBits (slotAddr b.pba x.2) x.1.1 (pbaAttic b.pba).toNat x.1.2.1)
    let v := if last ≤ stop then 1 + x.1.2.2 + 2 ^ 37632 * head else 0
    if stop ≤ first then s else { s with med := { s.med with data := Sparse.set s.med.data (s.frameKey b.pba x.2) v } }) s

/-- The head that goes on with what a window of `h` leaves: `h`, or where it has left service the effective head of its side (Table
12.4). -/
def State.heirOf (s : State) (h : Nat) : Nat := if s.effective h then h else ((s.effHeads (sideOf h)).head?).getD h

/-- A new window for blocks of one that broke, when the head next comes to their angle (R211). -/
def windowAgain (w : Win) (left : List WBlk) (s : State) : State :=
  match left with
  | [] => s
  | b :: _ =>
    let far := fun (t : Nat) => (t + au48 - b.start) % au48
    let len := left.foldl (fun x c => max x (far c.stop)) 0
    submit .writeWin (s.heirOf w.head) ((b.start / tickAu * tickAu + au24) % au48) (len + 2 * tickAu) (actRank w.act) s

/-- The verify read of a span is asked for: the head jumps back six tracks and comes to the span's first frame one revolution after it
was written (R299). -/
def askVerify (w : Win) (ok : List WBlk) (s : State) : State :=
  match ok with
  | [] => s
  | b :: _ =>
    let far := fun (t : Nat) => (t + au48 - b.start) % au48
    let len := ok.foldl (fun x c => max x (far c.stop)) 0
    let lead := bitsAu (kOf b.pba) s.readLead + wedgeAu
    let h := s.heirOf w.head
    let s := submit .seek h (tickAfter s.now) (jumpAu 6) (actRank w.act) s
    submitVerify h ((b.start + au24 + au48 - lead) % au48) (len + lead + wedgeAu) (actRank w.act) s

/-- From a window's opening to a stamp behind it. -/
def Win.behind (w : Win) (t : Nat) : Nat := (t + au48 - w.start) % au48
/-- How far a write window has recorded: to its end, or to the stamp at which its pairs went IDLE. -/
def Win.written (w : Win) : Nat := if w.dead then min (w.behind w.deadAt) (w.behind w.stop) else w.behind w.stop
/-- The open write windows end here and now: what they have recorded stays on the medium (Table 12.4). -/
def settleWrites (s : State) : State :=
  let ws := s.wins.filter fun w => w.cls == .writeWin
  let s := ws.foldl (fun s w =>
    let stop := if passed s.now w.stop then w.written else min w.written (w.behind s.now)
    (w.blks.filter fun b => w.behind b.start < stop).foldl (fun s b => recordBlock w stop b s) s) s
  if ws.isEmpty then s else { s with wins := s.wins.filter fun w => w.cls != .writeWin }

/-- A write window closes. What it has written up to its end, or up to the stamp at which its pairs went IDLE, lies on the medium; the
blocks written whole form a span (R299). A block begun has used an attempt; one interrupted passes its neighbours to HLT after POS, FOC
and SHOCK, and fails without attempts left; the others are asked for again (R211). -/
def closeWrite (w : Win) (s : State) : State :=
  let h := w.head
  let rel := w.behind
  let stop := w.written
  let begun := w.blks.filter fun b => rel b.start < stop
  let ok := begun.filter fun b => rel b.stop ≤ stop
  let broken := begun.filter fun b => stop < rel b.stop
  let s := s.addSat (WRS_HSTAT_CLAMP h) (pulseShifts s (s.get (WRS_HSTAT_TBAND h)) (s.get (WRS_HSTAT_GROUP h)) (s.recorded w stop))
  let s := begun.foldl (fun s b => recordBlock w stop b s) s
  let s := ok.foldl (fun s b => attempt b.pba true s) s
  let s := broken.foldl (fun s b => attempt b.pba false s) s
  let s := s.when (1 ≤ w.cause && w.cause ≤ 3) fun s => broken.foldl (fun s b => addChecks (neighbours b.pba) s) s
  let s := (broken.filter fun b => 3 ≤ s.triesAt b.pba).foldl (fun s b => failBlock h b.pba s) s
  let s := windowAgain w (w.blks.filter fun b => !ok.contains b && s.wantsWrite b.pba) s
  let full := w.verify != 1 || (s.wh h).spanN % 8 == 7
  let s := s.when (!ok.isEmpty) fun s => s.setWh (s.heirOf h) fun x => { x with
    spanN := x.spanN + 1
    spans := x.spans ++ [{ blks := ok.map WBlk.pba, sampled := full, clean := !w.dead, verify := w.verify }] }
  let s := s.when full (askVerify w ok)
  leaveProgress h (releaseLevels h ((s.put (WRS_HSTAT_WRITING h) 0).setWh h fun x => { x with line := [0, 0] }))

/-- A calibration window ends: that of a lane ends its shadow (R249), that of a head breaks the run it held (R298); what is left asks for
the next one. -/
def closeCal (w : Win) (s : State) : State :=
  let s := s.when w.cut fun s => s.put CAL_STAT_LASTERR 2
  match w.lane with
  | some l => endShadow l s
  | none =>
    if s.life == PARKING then dropCal w.head (opcBroken w.head s) else
    let s := opcBroken w.head (s.when (s.calWaits w.head) (calWindow w.head))
    match (s.wh w.head).opc with
    | some (_, _, false) => if s.calWaits w.head then s else submit .calWin w.head (tickAfter s.now) (2 * au24) 2 s
    | _ => s

/-- WINDOW_CLOSE: the open window of a head closes at its end, or at the tick that cuts it (R67, R208, R211, R290). -/
def execWindowClose (h : Head) (s : State) : Res :=
  match s.wins.find? fun w => w.head == h.val with
  | none => .next s
  | some w => s.doIf (s.applied && passed s.now w.stop && s.turn rkCLOSE) fun s =>
      let s := { s with wins := s.wins.erase w }
      match w.cls with
      | .writeWin => closeWrite w s
      | .calWin => closeCal w s
      | _ => closeRead w s

/-- LEVELS_SENT: every level that the head's held window needs has been answered (R291). -/
def execLevelsSent (h : Head) (s : State) : Res :=
  s.doIf (s.applied && s.flag (WRS_HSTAT_LVLPEND h)
    && (s.opuHead h).queue.all fun x => !(x.cmd == cWR && x.cls == 2)) fun s => s.put (WRS_HSTAT_LVLPEND h) 0

end Sys2Proof.Machine
end

