-- ==== Sys2Proof/Machine/Calib.lean ====
section
/-! DEFINITION. Calibration: sweeps and their limits, requests, and what a CALIB record gives (R360 to R373). -/

namespace Sys2Proof.Machine

open R

/-! ### The calSweep (R361) -/

/-- The lowest index with the greatest value. -/
def peakAt (q : List Int) : Nat :=
  (q.zipIdx.foldl (fun (b : Nat × Int) p => if b.2 < p.1 then (p.2, p.1) else b) (0, q.headD 0)).1

/-- One pass: its values v, and the maximum as a ratio, or the value at the edge it ends at. -/
def sweepPass (centre step : Int) (q : List Int) : Int × Option (Int × Int) :=
  let n := q.length
  let k := peakAt q
  let v := centre + ((k : Int) - (n - 1 : Nat) / 2) * step
  if k == 0 || k + 1 == n then (v, none)
  else
    let a := q.getD (k - 1) 0
    let b := q.getD k 0
    let c := q.getD (k + 1) 0
    let d := -(2 * (a - 2 * b + c))
    (v, some (v * d - step * (a - c), d))

/-- The sweep, repeated once about the edge: the result as a ratio, or none. -/
def calSweep (centre step : Int) (q1 q2 : List Int) : Option (Int × Int) :=
  match sweepPass centre step q1 with
  | (_, some r) => some r
  | (v, none) => (sweepPass v step q2).2

/-! ### Limits (Table 14.2) -/

/-- 0.5 to 2.0 times the previous accepted value, where there is one. -/
def ratioOk (prev v : Nat) : Bool := prev == 0 || (prev ≤ 2 * v && v ≤ 2 * prev)

/-- SA: within SAWIN µm of the factory depth of the layer. -/
def State.saOk (s : State) (h l : Nat) (code : Int) : Bool :=
  ((s.get SRV_SAZC_ZC : Int) + code * s.romWord h 19 - Sparse.get s.cal.fac l).natAbs ≤ s.get CAL_LIM2_SAWIN * 100
/-- Focus offset in nm by the slope in force. -/
def State.focusOk (s : State) (slope : Nat) (lsb : Int) : Bool := lsb.natAbs * 256 ≤ s.get CAL_LIM2_OFSMAX * slope
/-- Tracking offset: at most 27 nm with x = (TEPP / SUM) × 360 / (2π A). -/
def trackOk (app : Nat) (tepp sum : Int) : Bool :=
  (tepp.natAbs * 360 * 65536 * piDen : Int) ≤ 27 * 2 * piNum * app * sum
/-- Tilt: its size, and at most 1 mrad from each neighbouring band's accepted value. -/
def State.tiltSizeOk (s : State) (h : Nat) (code : Int) : Bool :=
  code.natAbs * s.romWord h 18 ≤ s.get CAL_LIM2_TILTMAX * 100
def State.tiltOk (s : State) (h l b : Nat) (code : Int) : Bool :=
  s.tiltSizeOk h code && (List.range 32).all fun k =>
    !(k + 1 == b || b + 1 == k) || !s.cal.tiltOk.contains (calKey h l k)
      || (code - s.tiltPreset h l k).natAbs * s.romWord h 18 ≤ 1000
def slopeRange (v : Nat) : Bool := 51 ≤ v && v ≤ 5120
def State.sumRange (s : State) (v : Nat) : Bool := 4 * s.get SRV_FACQ_SUMTHR * 64 ≤ v
def rowFields (g o a : Nat) : Bool :=
  8 ≤ g && g ≤ 247 && (s8 o).natAbs ≤ 112 && (s8 a).natAbs ≤ 112

/-- The register field of byte `i` of a band-table row. -/
def btFld (layer band i : Nat) : Fld :=
  let w := 256 * layer + 8 * band + i / 4
  match i % 4 with
  | 0 => CHN_BT_B0 w
  | 1 => CHN_BT_B1 w
  | 2 => CHN_BT_B2 w
  | _ => CHN_BT_B3 w

/-! ### Records and requests (R363, R368 to R371) -/

/-- The code of a tilt, SA or other value that CAL keeps of a head, layer and band; a value not yet measured is 0. -/
def State.calBand (s : State) (h l b : Nat) : CalBand :=
  let k := calKey h l b
  let c := s.cal
  let x := opcIdx l b
  let eq := ((c.eq.find? fun e => e.1 == k).map Prod.snd).getD (List.replicate 540 0)
  let valid := [c.tiltOk.contains k, Sparse.get c.sum k != 0 && Sparse.get c.wamp k != 0, c.rowOk.contains k, c.eq.any fun e => e.1 == k,
    s.flag (WRS_OPC_VALID h x)]
  { tilt := toSigned 16 (Sparse.get c.tilt k), sum := Sparse.get c.sum k, wamp := Sparse.get c.wamp k
    peak0 := s.get (WRS_OPC_PEAK0 h x), peak1 := s.get (WRS_OPC_PEAK1 h x)
    snr := Sparse.get c.snr k - 1, eqmse := Sparse.get c.mse k - 1, eye := Sparse.get c.eye k - 1
    flags := maskOf ((List.range 5).filter fun i => valid.getD i false) + 32 * s.get (WRS_OPC_TBAND h x)
    row := (List.range 32).map fun i => s.get (btFld l b i), eq := eq.map fun v => rneDiv (toSigned 24 v) 16 }
/-- The entry of the pickup in a head slot for a layer. -/
def State.calEntry (s : State) (h l : Nat) : CalEntry :=
  let ref := fun i => rneDiv (toSigned 24 (Sparse.get s.cal.refs (4 * calKey h l 0 + i))) 256
  { serial := s.romWord h 3 * 65536 + s.romWord h 4, model := s.romWord h 1, head := h, sa := toSigned 16 (s.get (SRV_SAP_CODE h l))
    slope := Sparse.get s.cal.slope (layerKey h l), feofs := ref 0, teofs := ref 1, app := s.get (SRV_TPP_APP h)
    tres := s.get (CAL_HL_TRES h l), bands := (List.range 32).map (s.calBand h l) }

/-- The layer's body with the values of a head's pickup: its entry first, four entries at most; SAZ and the tilts as that pickup measures
them (R363, Table 14.3). -/
def calBodyOf (h l : Nat) (s : State) : CalBody :=
  let e := s.calEntry h l
  let was := s.cal.bodies.find? fun b => b.layer == l
  let old := (was.map CalBody.entries).getD []
  let depth := (s.get SRV_SAZC_ZC : Int) + e.sa * s.romWord h 19
  let tiltm := (List.range 32).map fun b =>
    let t : Int := (e.bands.map CalBand.tilt).getD b 0
    if s.cal.tiltOk.contains (calKey h l b) then (satTo (-32767) 32767 (t * s.romWord h 18)).1
    else ((was.map CalBody.tiltm).getD []).getD b (-32768)
  { layer := l, saz := (satTo 0 65535 depth).1.toNat, tiltm
    entries := (e :: old.filter fun x => (x.serial, x.model) != (e.serial, e.model)).take 4 }

/-- The CALIB record of a layer is written from its body (R371). -/
def recordCalib (l : Nat) (s : State) : State :=
  let s := s.setCal fun c => { c with dirty := c.dirty.filter (· != l), gained := c.gained.filter fun k => k % 48 != l }
  match s.cal.bodies.find? fun b => b.layer == l with
  | some b => atticWrite atCALIB l (b.bytes s.hlt.age) .nothing s
  | none => s

/-- The layer's body takes what a head has gained. -/
def noteBody (h l : Nat) (s : State) : State :=
  let b := calBodyOf h l s
  s.setCal fun c => { c with bodies := (c.bodies.filter fun x => x.layer != l) ++ [b] }
/-- The layer's CALIB record is written, its most recent pickup entry first (R363, R371). -/
def writeCalib (h l : Nat) (s : State) : State := recordCalib l (noteBody h l s)

/-- A request of a head ends; the Calibrate command that made it completes (R407). -/
def endReq (h : Nat) (s : State) : State :=
  let s := s.setCal fun c => { c with reqs := c.reqs.filter fun r => r.head != h }
  match s.hst.long with
  | some l => if l.kind == 0xC8 && l.arg / 16 % 4 == h then completeCmd l.port 0 l.cid scSuccess (s.get CAL_STAT_LASTERR) s else s
  | none => s

/-- The layer counts as calibrated on the head. -/
def calibrated (h l : Nat) (s : State) : State :=
  (s.puts [(CAL_HL_MINUTES h l, 0), (CAL_HL_SRC h l, 3)]).setCal fun c => { c with due := c.due.filter (· != layerKey h l) }

/-- An item of step 1 has ended; with the last one the layer counts as calibrated and a changed record is written. -/
def step1Ends (h l item : Nat) (s : State) : State :=
  let k := layerKey h l
  match s.cal.step1.find? fun x => x.1 == k with
  | none => s
  | some x =>
    let rest := x.2.filter (· != item)
    let s := s.setCal fun c => { c with step1 := c.step1.filter fun y => y.1 != k }
    if !rest.isEmpty then s.setCal fun c => { c with step1 := c.step1 ++ [(k, rest)] }
    else
      let s := calibrated h l s
      let s := s.when (s.cal.gained.contains k) (writeCalib h l)
      s.when (s.cal.reqs.any fun r => r.head == h && r.kind == 0 && r.layers.contains l) (endReq h)

/-- A layer becomes due: its failures are forgotten and step 1 begins (R362, R368). -/
def becomeDue (h l : Nat) (s : State) : State :=
  let k := layerKey h l
  let s := (s.put (CAL_HL_FAILMASK h l) 0).setCal fun c => { c with
    fails := c.fails.filter fun p => p.1 / 8 != k
    due := c.due.filter (· != k) ++ [k]
    step1 := (c.step1.filter fun x => x.1 != k) ++ [(k, [0, 1, 7])] }
  calWindow h (dueBands h l s)

/-- CAL_DUE: CALINT minutes have passed since a layer's latest calibration on a head (R368). -/
def execCalDue (h : Head) (l : Layer) (s : State) : Res :=
  s.doIf (s.inLife [MOUNTED] && s.present h && s.inSvc h && l.val / 24 == sideOf h
    && !s.cal.due.contains (layerKey h l)) fun s =>
    becomeDue h l (s.put (CAL_HL_MINUTES h l) (s.modeCfg s.mode).calint)

/-- A request (R370): refused with 0x04 outside MOUNTED or while the head has one, with 0x05 where the head is not present.
Answers the refusal. -/
def calRequest (kind h l : Nat) (s : State) : Nat × State :=
  if s.life != MOUNTED || (s.cal.reqs.any fun r => r.head == h) || 2 < kind || l / 24 != sideOf h then
    (4, s.put CAL_STAT_LASTERR 4)
  else if !s.present h then (5, s.put CAL_STAT_LASTERR 5)
  else
    let layers := if kind == 2 then (List.range 24).map (24 * sideOf h + ·) else [l]
    let fresh := s.cal.reqs.all fun r => r.kind == 0
    let s := s.setCal fun c => { c with reqs := c.reqs ++ [{ head := h, kind, layers }] }
    if kind == 0 then (0, becomeDue h l s)
    else
      let s := if fresh then s.puts [(CAL_PROG_DONE, 0), (CAL_PROG_TODO, layers.length)]
        else s.put CAL_PROG_TODO (s.get CAL_PROG_TODO + layers.length)
      (0, calWindow h s)

/-- A write of CAL_CTL. -/
def calCtl (v : Nat) (s : State) : State :=
  if CAL_CTL_GO.ofWord v == 1 then
    (calRequest (CAL_CTL_KIND.ofWord v) (CAL_CTL_HEAD.ofWord v) (CAL_CTL_LAYER.ofWord v) s).2
  else s

/-- CAL_CTL (R370). -/
def execCalCtl (p : Port) (v : Word) (s : State) : Res := vendorWrite p CAL_CTL_GO.off false (calCtl v.toNat) s

/-- FULL_CAL_LAYER_DONE: every item of a layer has run on every band; the record is written, and the request ends with its
last layer (R369, R371). -/
def execFullCalLayerDone (h : Head) (l : Layer) (s : State) : Res :=
  match s.cal.reqs.find? fun r => r.head == h.val && r.kind != 0 && r.layers.contains l.val with
  | none => .next s
  | some r => s.doIf (s.inLife [MOUNTING, MOUNTED] && r.layers.head? == some l.val && (s.fullLeft h l).isEmpty) fun s =>
      let s := writeCalib h l ((calibrated h l s).inc CAL_PROG_DONE)
      let s := s.setCal fun c => { c with fullN := Sparse.set c.fullN h (Sparse.get c.fullN h + 1) }
      let rest := r.layers.filter (· != l.val)
      if rest.isEmpty then endReq h s
      else s.setCal fun c => { c with reqs := c.reqs.map fun q => if q.head == h.val then { q with layers := rest, ended := [] } else q }

/-! ### Results (R360, R362) -/

/-- A value waits for the tick of the next gap field. -/
def pendUpd (u : CalUpd) (s : State) : State := s.setCal fun c => { c with pend := c.pend ++ [u] }
/-- A loop's reference for a layer (and band, for tilt): kept, and in force at the next gap field. -/
def setRef (h k key : Nat) (v : Int) (s : State) : State :=
  let w := ofSigned 24 v
  pendUpd { head := h, field := some (SRV_REF_REF (4 * h + k) 0), val := w }
    (s.setCal fun c => { c with refs := Sparse.set c.refs (4 * key + k) w })

/-- CAL_HL follows the measurements of the layer's bands (R373). -/
def syncFigures (h l : Nat) (s : State) : State :=
  let col := fun (m : Sparse) => (List.range 32).filterMap fun b =>
    match Sparse.get m (calKey h l b) with
    | 0 => none
    | n + 1 => some n
  let least := fun (l : List Nat) => l.tail.foldl min (l.headD 0)
  s.puts [(CAL_HL_SNR h l, least (col s.cal.snr)), (CAL_HL_EYE h l, least (col s.cal.eye)),
    (CAL_HL_EQMSE h l, (col s.cal.mse).foldl max 0)]

/-- A tilt sweep, or the calibration of a row in a lane shadow, has ended (R249, R368). -/
def tiltEnds (h l b : Nat) (s : State) : State := s.setCal fun c => { c with tilts := c.tilts.filter (· != calKey h l b) }
def rowEnds (h l b spot : Nat) (s : State) : State :=
  let s := s.setCal fun c => { c with rows := c.rows.filter (· != 8 * calKey h l b + spot) }
  forUpTo 7 (fun k s => if s.laneSpot (7 * h + k) == spot then endShadow (7 * h + k) s else s) s

/-- An accepted result of an item, and a rejected one. -/
def accept (h l item b spot : Nat) (s : State) : State := step1Ends h l item (fullEnd h l item b spot (calAccept item h l s))
def reject (h l b item err : Nat) (s : State) : State :=
  let s := calFail item h l b err s
  if (s.get (CAL_HL_FAILMASK h l)).testBit item then tiltEnds h l b (step1Ends h l item s) else s
/-- The readings of a sweep of `n` points. -/
def points (n : Nat) (q : List Int) : List Int := (List.range n).map fun i => q.getD i 0

/-- A result is judged against Table 14.2. A division by a ROM word of 0 leaves a step free (DESIGN CHOICE, log entry 1). -/
def judge (h l : Nat) (r : CalResult) (s : State) : State :=
  let per := fun n d => if d == 0 then (s.freeVal 16 : Int) else rneDiv n d
  match r with
  | .sa q1 q2 mean =>
    let s := s.drawn
    match calSweep (s.getI (SRV_SAP_CODE h l)) (per 200 (s.romWord h 19)) (points 7 q1) (points 7 q2) with
    | none => reject h l 0 0 3 s
    | some x =>
      let code := rneDiv x.1 x.2
      if s.saOk h l code && -32768 ≤ code && code ≤ 32767 then
        accept h l 0 0 0 (setRef h 3 (calKey h l 0) (mean * 256)
          (pendUpd { head := h, field := some (SRV_SAP_CODE h l), val := ofSigned 16 code } s))
      else reject h l 0 0 1 s
  | .focus q1 q2 =>
    let k := Sparse.get s.cal.slope (layerKey h l)
    let slope : Nat := if k == 0 then s.freeVal 13 else k
    let s := s.drawn
    match calSweep (s.getI (SRV_REF_REF (4 * h) 0)) (10 * slope) (points 7 q1) (points 7 q2) with
    | none => reject h l 0 1 3 s
    | some x =>
      let lsb := rneDiv x.1 (x.2 * 256)
      if s.focusOk slope lsb then accept h l 1 0 0 (setRef h 0 (calKey h l 0) (lsb * 256) s) else reject h l 0 1 1 s
  | .track tepp sum =>
    if trackOk (s.get (SRV_TPP_APP h)) tepp sum then accept h l 2 0 0 (setRef h 1 (calKey h l 0) (tepp * 256) s)
    else reject h l 0 2 1 s
  | .tilt b q1 q2 mean =>
    let s := s.drawn
    match calSweep (s.tiltPreset h l b) (per 1000 (s.romWord h 18)) (points 5 q1) (points 5 q2) with
    | none => reject h l b 3 3 s
    | some x =>
      let code := rneDiv x.1 x.2
      let k := calKey h l b
      if s.tiltOk h l b code && -32768 ≤ code && code ≤ 32767 then
        let s := s.setCal fun c => { c with tiltOk := if c.tiltOk.contains k then c.tiltOk else c.tiltOk ++ [k] }
        tiltEnds h l b <| accept h l 3 b 0 (setRef h 2 k (mean * 256) (pendUpd { head := h, field := none, key := k, val := ofSigned 16 code } s))
      else reject h l b 3 1 s
  | .slope dfe =>
    let v := (per (1600 * dfe) (s.romWord h 16)).toNat
    let k := layerKey h l
    let s := s.drawn
    if slopeRange v && ratioOk (Sparse.get s.cal.slope k) v then
      accept h l 7 0 0 (s.setCal fun c => { c with slope := Sparse.set c.slope k v })
    else reject h l 0 7 1 s
  | .amps b sum wamp =>
    let k := calKey h l b
    if s.sumRange sum && ratioOk (Sparse.get s.cal.sum k) sum && 0 < wamp && ratioOk (Sparse.get s.cal.wamp k) wamp then
      fullEnd h l 8 b 0 <| calAccept 7 h l (s.setCal fun c => { c with sum := Sparse.set c.sum k sum, wamp := Sparse.set c.wamp k wamp })
    else calFail 7 h l b 1 s
  | .row b spot gain offs asym eye =>
    let least := eye.tail.foldl min (eye.headD 0)
    if rowFields gain.toNat offs.toNat asym.toNat && s.get CAL_LIM_EYEMIN ≤ least then
      let upd := fun i (v : Nat) => pendUpd { head := h, field := some (btFld l b i), val := v }
      let s := upd (12 + spot.val) asym.toNat (upd (6 + spot.val) offs.toNat (upd spot.val gain.toNat s))
      rowEnds h l b spot <| syncFigures h l (accept h l 4 b spot (s.setCal fun c => { c with
        rowOk := if c.rowOk.contains (calKey h l b) then c.rowOk else c.rowOk ++ [calKey h l b]
        eye := Sparse.set c.eye (calKey h l b) (least + 1) }))
    else rowEnds h l b spot (reject h l b 4 1 s)
  | .eqz b coef mse dflt snr =>
    let k := calKey h l b
    if mse ≤ dflt && s.get CAL_LIM_SNRMIN ≤ snr && coef.length == 540 then
      let set := coef.map fun c => ofSigned 24 (c.toInt * 16)
      syncFigures h l (accept h l 5 b 0 (s.setCal fun c => { c with
        eq := (c.eq.filter fun e => e.1 != k) ++ [(k, set)]
        mse := Sparse.set c.mse k (min mse 65535 + 1), snr := Sparse.set c.snr k (min snr 65535 + 1) }))
    else reject h l b 5 1 s

/-- The item of a result, and whether it needs the head to itself. -/
def calItem : CalResult → Nat × Bool
  | .sa .. => (0, true)
  | .focus .. => (1, true)
  | .track .. => (2, false)
  | .tilt .. => (3, true)
  | .slope .. => (7, true)
  | .amps .. => (7, false)
  | .row .. => (4, false)
  | .eqz .. => (5, false)

/-- The row of a spot may be calibrated: its lane is in CALIB, or the head is in full calibration, all lanes together (R249, R369). -/
def State.rowFree (s : State) (h : Nat) (r : CalResult) : Bool :=
  match r with
  | .row _ spot .. =>
    (List.range 7).any (fun k => s.lane (7 * h + k) == laneCALIB && s.laneSpot (7 * h + k) == spot.val)
      || s.cal.reqs.any fun q => q.head == h && q.kind != 0
  | _ => true

/-- CAL_SWEEP_DONE: a measurement of a head on a layer ends and is judged (R361, R362). An active one runs in a calibration
window that nothing has cut; an item of FAILMASK is not tried; with SUM below SUMTHR × 64 throughout the window the result is discarded
(Table 14.8). -/
def execCalSweepDone (h : Head) (l : Layer) (r : CalResult) (s : State) : Res :=
  let i := calItem r
  let win := s.on && s.wins.any fun w => w.head == h.val && w.cls == .calWin && w.lane.isNone && !w.cut
  let dark := decide ((s.tr h).calSum < (s.get SRV_FACQ_SUMTHR * 64 : Nat))
  s.doIf ((s.inLife [MOUNTING, MOUNTED] || win) && s.present h && s.inSvc h && s.headLayer h == l.val && (!i.2 || win)
    && s.rowFree h r && !(s.get (CAL_HL_FAILMASK h l)).testBit i.1) fun s =>
    if win && dark then s.put CAL_STAT_LASTERR 7 else judge h l r s

/-! ### The source at mount (R362, R366) -/

/-- Every value an entry flags valid is within the limits, but for the 0.5 to 2.0 ratios and the eye width. -/
def State.entryOk (s : State) (h l : Nat) (e : CalEntry) : Bool :=
  let fl := fun (b : CalBand) i => b.flags.testBit i
  let near := fun (p : CalBand × CalBand) =>
    !(fl p.1 0 && fl p.2 0) || (p.1.tilt - p.2.tilt).natAbs * s.romWord h 18 ≤ 1000
  s.saOk h l e.sa && slopeRange e.slope && s.focusOk e.slope e.feofs && 3277 ≤ e.app && e.app ≤ 52429
    && (e.bands.zip e.bands.tail).all near
    && e.bands.all fun b =>
      (!fl b 0 || s.tiltSizeOk h b.tilt)
      && (!fl b 1 || (s.sumRange b.sum && 0 < b.wamp && trackOk e.app e.teofs b.sum))
      && (!fl b 2 || ((List.range 24).all fun i => btByteOk i (b.row.getD i 0)) && (List.range 6).all fun i => rowFields (b.row.getD i 0) (b.row.getD (6 + i) 0) (b.row.getD (12 + i) 0))
      && (!fl b 3 || s.get CAL_LIM_SNRMIN ≤ b.snr)
      && (!fl b 4 || (b.peak0 ≤ s.peakMax h && b.peak1 ≤ s.peakMax h))

/-- A band of a matched entry is loaded. -/
def loadBand (h l b : Nat) (c : CalBand) (s : State) : State :=
  let k := calKey h l b
  let fl := fun i => c.flags.testBit i
  let s := s.when (fl 0) fun s => s.setCal fun x => { x with
    tilt := Sparse.set x.tilt k (ofSigned 16 c.tilt), tiltOk := x.tiltOk ++ [k] }
  let s := s.when (fl 1) fun s => s.setCal fun x => { x with sum := Sparse.set x.sum k c.sum, wamp := Sparse.set x.wamp k c.wamp }
  let s := s.when (fl 2) fun s => rowChanged l b
    (forUpTo 24 (fun i s => s.put (btFld l b i) (c.row.getD i 0)) (s.setCal fun x => { x with rowOk := x.rowOk ++ [k] }))
  let s := s.when (fl 3) fun s => s.setCal fun x => { x with
    eq := (x.eq.filter fun e => e.1 != k) ++ [(k, c.eq.map fun v => ofSigned 24 (v * 16))] }
  let s := s.when (fl 4) fun s => s.puts [(WRS_OPC_PEAK0 h (opcIdx l b), c.peak0), (WRS_OPC_PEAK1 h (opcIdx l b), c.peak1),
    (WRS_OPC_VALID h (opcIdx l b), 1), (WRS_OPC_TBAND h (opcIdx l b), c.flags / 32)]
  s.setCal fun x => { x with
    snr := Sparse.set x.snr k (c.snr + 1), mse := Sparse.set x.mse k (c.eqmse + 1), eye := Sparse.set x.eye k (c.eye + 1) }

/-- A head's source for a layer (R366): 1 a matched entry, 2 derived from the medium part, 0 none. -/
def loadLayer (h l : Nat) (body : Option CalBody) (s : State) : State :=
  match body with
  | none => s.put (CAL_HL_SRC h l) 0
  | some c =>
    let serial := s.romWord h 3 * 65536 + s.romWord h 4
    match c.entries.find? fun e => e.serial == serial && e.model == s.romWord h 1 && s.entryOk h l e with
    | some e =>
      let s := s.puts [(CAL_HL_SRC h l, 1), (CAL_HL_MINUTES h l, 0), (SRV_SAP_CODE h l, ofSigned 16 e.sa),
        (CAL_HL_TRES h l, e.tres)]
      let s := s.setCal fun x => { x with
        slope := Sparse.set x.slope (layerKey h l) e.slope
        refs := Sparse.set (Sparse.set x.refs (4 * calKey h l 0) (ofSigned 24 (e.feofs * 256)))
          (4 * calKey h l 0 + 1) (ofSigned 24 (e.teofs * 256)) }
      syncFigures h l (e.bands.zipIdx.foldl (fun s p => loadBand h l p.2 p.1 s) s)
    | none =>
      let z : Int := if c.saz == 0 then Sparse.get s.cal.fac l else c.saz
      let per := fun n d => if d == 0 then (s.freeVal 16 : Int) else rneDiv n d
      let code := (satTo (-32768) 32767 (per (z - s.get SRV_SAZC_ZC) (s.romWord h 19))).1
      let tilts := c.tiltm.zipIdx.map fun p =>
        (calKey h l p.2, if p.1 == -32768 then 0 else ofSigned 16 (satTo (-32768) 32767 (per p.1 (s.romWord h 18))).1)
      let s := (s.drawn.puts [(CAL_HL_SRC h l, 2), (SRV_SAP_CODE h l, ofSigned 16 code)]).setCal fun x => { x with
        tilt := tilts.foldl (fun t p => Sparse.set t p.1 p.2) x.tilt }
      dueBands h l (s.setCal fun x => { x with due := x.due ++ [layerKey h l], step1 := x.step1 ++ [(layerKey h l, [0, 1, 7])] })

/-- The band-table rows take their Canvas values and no OPC entry is VALID (R366). -/
def canvasRows (s : State) : State :=
  let bt := fun k => 8 * (CHN_BT_B0 0).off ≤ k && k < 8 * (CHN_BT_B0 12288).off
  let opc := fun k => 8 * (WRS_OPC_PEAK0 0 0).off ≤ k && k < 8 * (WRS_OPC_PEAK0 4 0).off
  let rf := s.rf.filter fun e => !bt e.1 && !opc e.1
  { s with rf := (s.cnv.shadow.filter fun e => bt e.1).foldl (fun m e => Sparse.set m e.1 e.2) rf }

/-- Calibration starts a mount with the Canvas and reset defaults in force (R362, R366). -/
def clearCal (s : State) : State :=
  canvasRows <| forUpTo 192 (fun k s => s.puts [(CAL_HL_SNR (k / 48) (k % 48), 0), (CAL_HL_EYE (k / 48) (k % 48), 0), (CAL_HL_EQMSE (k / 48) (k % 48), 0),
    (CAL_HL_TRES (k / 48) (k % 48), 0), (CAL_HL_FAILMASK (k / 48) (k % 48), 0), (CAL_HL_SRC (k / 48) (k % 48), 0),
    (CAL_HL_MINUTES (k / 48) (k % 48), 0)]) { s.puts [(CAL_PROG_DONE, 0), (CAL_PROG_TODO, 0)] with cal := {} }

/-- The choice of R366 for every present head in the mode's HEADS mask and every layer of its side. The layers without a record
are to be calibrated in full before the mount completes, a side's heads taking them in turn (R369). -/
def loadCalib (bodies : List CalBody) (s : State) : State :=
  let heads := (List.range 4).filter fun h => s.present h && s.inSvc h && (s.modeCfg s.mode).heads.testBit h
  let body := fun l => bodies.find? fun b => b.layer == l
  let s := s.setCal fun c => { c with bodies }
  let s := heads.foldl (fun s h => (List.range 24).foldl (fun s i =>
    let l := 24 * sideOf h + i
    loadLayer h l (body l) s) s) s
  let todo := fun d => ((List.range 24).map (24 * d + ·)).filter fun l => (body l).isNone
  let reqs := heads.filterMap fun h =>
    let mates := heads.filter fun g => sideOf g == sideOf h
    let mine := ((todo (sideOf h)).zipIdx.filter fun p => mates[p.2 % mates.length]? == some h).map Prod.fst
    if mine.isEmpty then none else some ({ head := h, kind := 2, layers := mine, mount := true } : CalReq)
  let s := s.setCal fun c => { c with reqs }
  (heads.filter s.calWaits).foldl (fun s h => calWindow h s) (s.put CAL_PROG_TODO ((reqs.map fun r => r.layers.length).sum))

end Sys2Proof.Machine
end

