-- ==== Sys2Proof/Machine/Canvas.lean ====
section
/-! DEFINITION. The Canvas block: loading, checking and applying the image (R94 to R103), and what COMMITTING and the
transition to PRIMED start (R40, R46, R52, R166, R422, R440, R467, R485). -/

namespace Sys2Proof.Machine

open R

def cEMPTY := 0
def cLOADING := 1
def cLOADED := 2
def cVALIDATING := 3
def cCOMMITTING := 4
def cAPPLIED := 5
def cFAILED := 6
def State.cnvPhase (s : State) : Nat := s.get CNV_STATUS_PHASE

def eNOT_BARE := 0x01
def eBUSY := 0x02
def eNO_IMAGE := 0x03
def eDMA := 0x04
def eMEM_SIZE := 0x12
def eMEM_TRAIN := 0x13
def eABORTED := 0x19
def eCOMMAND := 0x1A

/-- PHASE changes to LOADED, APPLIED or FAILED: its event record (R97). -/
def cnvPhaseTo (ph err : Nat) (s : State) : State :=
  eventRec 0x02 (err * 256 + ph) [] false (s.puts [(CNV_STATUS_PHASE, ph), (CNV_STATUS_ERR, err)])

/-- A failure names its record and offset (R98). -/
def cnvFails (e : CErr) (s : State) : State :=
  cnvPhaseTo cFAILED e.code (s.puts [(CNV_ERRREC_REC, e.idx), (CNV_ERROFF_OFF, e.off)])

/-- A refused action writes its code and leaves PHASE (R100). -/
def cnvRefuse (code : Nat) (s : State) : State := s.put CNV_STATUS_ERR code

/-- An accepted LOAD or APPLY clears the error registers (R100). -/
def cnvAccept (ph : Nat) (s : State) : State :=
  s.puts [(CNV_STATUS_ERR, 0), (CNV_ERRREC_REC, 0xFFFF), (CNV_ERROFF_OFF, 0), (CNV_STATUS_PHASE, ph)]

def State.cnvBusy (s : State) : Bool := [cLOADING, cVALIDATING, cCOMMITTING].contains s.cnvPhase

/-- LOAD (R97, Table 3.14): the fetch runs on DMA channel 0, whose address and length registers it leaves alone (DESIGN CHOICE, log
entry 171). CNV_LEN out of range fails the load with ERR LENGTH. -/
def cnvLoad (p : Nat) (s : State) : State :=
  if s.life != BARE then cnvRefuse eNOT_BARE s
  else if s.cnvBusy then cnvRefuse eBUSY s
  else
    let n := s.get CNV_LEN_LEN
    let s := cnvAccept cLOADING s
    let s := { s with cnv := { s.cnv with image := [], staged := false, fetchPort := p, fetchLen := n } }
    if n < 12 || 4194304 < n || n % 4 != 0 then cnvFails ⟨eLENGTH, noRec, 0⟩ s
    else s.puts [(DMA_STAT_BUSY 0, 1), (DMA_STAT_PAUSED 0, 0), (DMA_STAT_ERR 0, 0), (DMA_STAT_PORT 0, p)]

/-- APPLY (R98, Table 3.14). -/
def cnvApply (s : State) : State :=
  if s.life != BARE then cnvRefuse eNOT_BARE s
  else if s.cnvBusy then cnvRefuse eBUSY s
  else if !s.cnv.staged then cnvRefuse eNO_IMAGE s
  else
    let s := cnvAccept cVALIDATING s
    { s with cnv := { s.cnv with training := false } }

/-- MEM is powered down (R98). -/
def memOff (s : State) : State := s.puts [(MEM_STAT_PHASE, 0), (SYS_DOMAIN_MEM, 0)]

/-- ABORT (R100, Table 3.14): no effect but during LOADING, whose channel 0 drains and ends, and VALIDATING, whose time since the
APPLY write the spec does not bind to a value: CNV_TIME is free (DESIGN CHOICE, log entry 1). -/
def cnvAbort (s : State) : State :=
  if s.cnvPhase == cLOADING then cnvFails ⟨eABORTED, noRec, 0⟩ (dmaEnd 0 5 s)
  else if s.cnvPhase == cVALIDATING then
    let s := if s.cnv.training then memOff s else s
    let s := (s.put CNV_TIME_US (s.freeVal 24)).drawn
    cnvFails ⟨eABORTED, noRec, 0⟩ { s with cnv := { s.cnv with training := false } }
  else s

/-- A write of CNV_CTRL (R100): more than one of its bits is refused as a whole. -/
def cnvCtrl (p v : Nat) (s : State) : State :=
  let l := v.testBit 0
  let a := v.testBit 1
  let x := v.testBit 2
  if (l && a) || (l && x) || (a && x) then cnvRefuse eCOMMAND s
  else if l then cnvLoad p s
  else if a then cnvApply s
  else if x then cnvAbort s
  else s

/-- CNV_LOAD: a write of CNV_CTRL with LOAD 1. -/
def execCnvLoad (p : Port) (v : Word) (s : State) : Res :=
  vendorWrite p CNV_CTRL_LOAD.off true (cnvCtrl p (v.toNat ||| 1)) s

/-- CNV_APPLY: a write of CNV_CTRL with APPLY 1. -/
def execCnvApply (p : Port) (v : Word) (s : State) : Res :=
  vendorWrite p CNV_CTRL_LOAD.off true (cnvCtrl p (v.toNat ||| 2)) s

/-- CNV_ABORT: a write of CNV_CTRL with ABORT 1. -/
def execCnvAbort (p : Port) (v : Word) (s : State) : Res :=
  vendorWrite p CNV_CTRL_LOAD.off true (cnvCtrl p (v.toNat ||| 4)) s

/-- CANVAS_FETCH_DONE: the fetch ends with the bytes asked for, or with an error completion; channel 0 is done (R97, R450, Table
3.13). -/
def execCanvasFetchDone (image : List Byte) (ok : Bool) (s : State) : Res :=
  s.doIf (s.on && s.cnvPhase == cLOADING && (!ok || image.length == s.cnv.fetchLen)) fun s =>
    let s := dmaEnd 0 (if ok then 0 else 1) s
    if ok then cnvPhaseTo cLOADED 0 { s with cnv := { s.cnv with image, staged := true } }
    else cnvFails ⟨eDMA, noRec, 0⟩ s

/-- The port that a fetch keeps resets during it (R97, Table 3.14). -/
def cnvPortReset (p : Nat) (s : State) : State :=
  if s.cnvPhase == cLOADING && s.cnv.fetchPort == p then cnvFails ⟨eDMA, noRec, 0⟩ s else s

/-- CANVAS_VALIDATION_DONE, `us` after the APPLY write: steps 1 to 6 of R98 have passed and MEM trains, or the first check
that fails is reported. -/
def execCanvasValidationDone (us : Nat) (s : State) : Res :=
  s.doIf (s.on && s.cnvPhase == cVALIDATING && !s.cnv.training) fun s =>
    match (validate s.cnv.image (s.get SYS_ID_STEP) (s.get CNV_LEN_LEN) s.mgmt).2 with
    | some e => (cnvFails e s).put CNV_TIME_US (min us CNV_TIME_US.max)
    | none =>
      { s.puts [(MEM_STAT_PHASE, 1), (SYS_DOMAIN_MEM, 1)] with cnv := { s.cnv with training := true } }

/-- MEM_TRAINING_DONE: `trained` has bit c set for each channel that trained, and the mode registers give `gib` GiB in
all, 0 where the channels differ (R415). A failed training names no record (DESIGN CHOICE, log entry 172), another density
MEMLAYOUT's SIZE. The FIFOs take their regions' capacities from COMMITTING on (R451). -/
def execMemTrainingDone (trained : Fin 16) (gib us : Nat) (s : State) : Res :=
  s.doIf (s.on && s.cnvPhase == cVALIDATING && s.cnv.training) fun s =>
    let rs := (validate s.cnv.image (s.get SYS_ID_STEP) (s.get CNV_LEN_LEN) s.mgmt).1
    let mem := recOf rs tMEMLAYOUT
    let s := s.puts [(MEM_INFO_TRAINED, trained.val), (MEM_INFO_DENS, if gib == 8 || gib == 16 then gib / 4 else 0)]
    let s := { s with cnv := { s.cnv with training := false } }
    let fails := fun (e : CErr) => (cnvFails e (memOff s)).put CNV_TIME_US (min us CNV_TIME_US.max)
    if trained.val != 15 then fails ⟨eMEM_TRAIN, noRec, 0⟩
    else if gib != rd8 s.cnv.image (mem.off + 8) then fails ⟨eMEM_SIZE, mem.idx, mem.off + 8⟩
    else { s.put CNV_STATUS_PHASE cCOMMITTING with rf := capacities s.cnv.image mem (s.put CNV_STATUS_PHASE cCOMMITTING).rf }

/-! ### What apply starts -/

/-- CSTS.RDY of a controller (R46, R375): outside BARE it follows CC.EN of a port that QUEUES enables. -/
def syncRdy (p : Nat) (s : State) : State :=
  let r := s.life != BARE && s.life != FROZEN && s.hst.en.getD p false && (s.queueCfg p).enable
  { s.putB (HST_PORT_RDY p) r with hst := { s.hst with rdy := setAt s.hst.rdy p r } }

/-- The Seal's KEK enters the volatile register (R519). -/
def loadKek (s : State) : State :=
  match s.cel.kek with
  | none => { s.puts [(SEC_STAT_KEK, 0), (SEC_STAT_KEKGEN, 0)] with sec := { s.sec with kek := none } }
  | some (k, g) => { s.puts [(SEC_STAT_KEK, 1), (SEC_STAT_KEKGEN, g)] with sec := { s.sec with kek := some k } }

/-- The transition to PRIMED after COMMITTING and what it starts. -/
def enterPrimed (s : State) : State :=
  let s := transition PRIMED 0x01 s
  let s := s.puts [(SYS_MODE_CUR_MODE, s.cnv.cfg.defmode), (SYS_MODE_REQ_MODE, s.cnv.cfg.defmode),
    (LRD_WAYS_INSVC, s.cnv.cfg.ways), (LRD_STAT_STATE, 1), (LRD_LFSR_STATE, 0xACE1), (CWD_POOL_INSVC, 0xFF), (SRV_UNIT_INSVC, 0xF),
    (MEM_STAT_PHASE, 2), (MEM_SWEEP_DONE, 0)]
  let s := { s with
    sys := { s.sys with tripped := false }
    thm := { s.thm with nextGov := tickAu } }
  let s := startAngle (s.putB SYS_DOMAIN_LRD (s.cnv.cfg.ways != 0))
  let s := startSeq 1 (startSeq 0 s)
  let s := forUpTo 24 (fun k s =>
    let l := 7 * (k / 6) + k % 6
    s.when (s.declared (k / 6) && s.boundSpot l < (s.headCfg (k / 6)).spots) fun s =>
      s.put (CHN_LANEMAP_INPUT l) (s.cnv.cfg.bind.getD l 0x1F)) s
  let s := forUpTo 2 syncRdy (loadKek s)
  enumerateAll (syncLonAll (followTarget (formEffective s)))

/-- CANVAS_COMMIT_DONE, `us` after the APPLY write: every Canvas-set field, Palette, table and patch is written, PHASE is
APPLIED and the state PRIMED with cause 0x01 (R98, R101). -/
def execCanvasCommitDone (us : Nat) (s : State) : Res :=
  s.doIf (s.on && s.cnvPhase == cCOMMITTING) fun s =>
    let im := s.cnv.image
    let rs := (validate im (s.get SYS_ID_STEP) (s.get CNV_LEN_LEN) s.mgmt).1
    let s := { s with
      rf := canvasRegs im rs s.rf
      cnv := { s.cnv with cfg := cfgOf im rs, shadow := canvasRegs im rs [], image := [], staged := false } }
    let s := s.puts [(CNV_ID_ID, rd32 im 0x18), (CNV_IMGCRC_CRC, rd32 im (im.length - 8)), (CNV_EDITS_COUNT, 0),
      (CNV_TIME_US, min us CNV_TIME_US.max)]
    let ring := fun (q : Fifo × Nat) => { q.1 with ptr := s.get (FIF_CAP_WORDS q.2) - q.1.rd }
    let s := { s with fifos := s.fifos.zipIdx.map ring }
    let s := { s with sec := { s.sec with dbgLock := s.sec.dbgLock || s.cnv.cfg.secFlags.testBit 2 } }
    enterPrimed (cnvPhaseTo cAPPLIED 0 s)

end Sys2Proof.Machine
end

