-- ==== Sys2Proof/Machine/Ports.lean ====
section
/-! DEFINITION. The host ports: links, resets of a port, controllers, and the loss of custody (R17, R46, R95, R375 to
R377, R412, R450, R542, R547). -/

namespace Sys2Proof.Machine

open R

/-! ### What a port reports of itself (R375) -/

/-- The fields of configuration space that R375 gives: offset, size, value. Their offsets are those of PCI (PRESUMED, log entry 214). -/
def pciConfig : List (Nat × Nat × Nat) :=
  [(0x00, 2, 0x1CB4), (0x02, 2, 0x9648), (0x08, 1, 0xB0), (0x09, 3, 0x010802), (0x2C, 2, 0x1CB4), (0x2E, 2, 0x0000)]
/-- BAR0 and BAR2: their sizes in bytes, both 64-bit and non-prefetchable. -/
def bar0Bytes : Nat := 32 * 2 ^ 20
def bar2Bytes : Nat := 2 ^ 30
/-- The largest payload and read request of a port, in bytes. -/
def maxPayload : Nat := 512
def maxReadRequest : Nat := 4096

/-- Channels that use a port end with ERR PORT when it resets or leaves L0 (Table 17.5). -/
def dmaPortReset (p : Nat) (s : State) : State :=
  forUpTo 8 (fun c s => s.when (s.flag (DMA_STAT_BUSY c) && s.get (DMA_STAT_PORT c) == p) (dmaEnd c 4)) s

/-- What becomes of a command in flight at its port's reset: data in the WRITE region is committed and its completion
discarded; any other command is ended (Table 15.12). A command that HST holds without completion has no identifier. -/
def orphan (c : HCmd) : HCmd := { c with drop := true, cid := 65536 + c.seq }
/-- A command whose data has entered the WRITE region. -/
def dataTaken (c : HCmd) : Bool := c.begun && c.qid != 0 && [1, 8, 0x7D].contains c.op

/-- HST state of one port after its reset (Table 15.12). -/
def hstPortReset (p : Nat) (h : Hst) : Hst :=
  { h with
    en := setAt h.en p false
    rdy := setAt h.rdy p false
    shst := setAt h.shst p 0
    sqs := h.sqs.filter fun q => q.port != p
    cqs := h.cqs.filter fun q => q.port != p
    arb := h.arb.set p {}
    cmds := (h.cmds.filter fun c => c.port != p || dataTaken c).map fun c => if c.port == p then orphan c else c
    long := h.long.map fun l => if l.port == p then { l with cid := 65536 } else l
    longWait := h.longWait.filter fun l => l.port != p
    aer := h.aer.filter fun a => a.1 != p
    aen := h.aen.filter fun a => a.1 != p
    feats := h.feats.filter fun f => f.1.1 != p
    mountWait := h.mountWait && h.mountPort != p }

/-- A reset of one port's host domain (R412, R542): its commands end, its queues and features go, an armed Varnish of the
custody port aborts and its staged Sketch is discarded (Table 4.3), its DMA channels and a Canvas fetch end. -/
def portReset (p : Nat) (s : State) : State :=
  let s := dmaPortReset p (cnvPortReset p s)
  let s := s.when (s.mgmt == some p) fun s => if s.armed then varnishAbort vCUSTODY 0 s else clearSketch s
  let s := { s with
    hst := hstPortReset p s.hst
    sys := { s.sys with
      held := s.sys.held.map fun (t : Trigger) => if t.port == p then { t with cid := 65536 } else t
      unmountWait := s.sys.unmountWait.filter fun u => u.1 != p } }
  syncLocks (syncInfl p (s.put (HST_PORT_RDY p) 0))

/-- A port leaves L0 (R376): LINKDOWNS, the entry HST 0x01, and the port's reset. -/
def leaveL0 (p ltssm : Nat) (s : State) : State :=
  let s := s.puts [(HST_PORT_UP p, 0), (HST_PORT_WIDTH p, 0), (HST_PORT_SPEED p, 0)]
  let s := logFlt 16 kDEGRADE 0x01 p [ltssm] (s.inc (HST_PORT_LINKDOWNS p))
  portReset p s

/-- PCIE_LINK_UP: a port reaches L0 with a width of 4, 2 or 1 lanes and the speed of a generation 1 to 4; custody passes where no port
holds it (R375, R547, R95). -/
def execPcieLinkUp (p : Port) (width : Fin 8) (speed : Fin 16) (s : State) : Res :=
  s.doIf (s.on && !s.flag (HST_PORT_UP p) && [1, 2, 4].contains width.val && 1 ≤ speed.val && speed.val ≤ 4) fun s =>
    let s := s.puts [(HST_PORT_UP p, 1), (HST_PORT_WIDTH p, width.val), (HST_PORT_SPEED p, speed.val)]
    passCustody s

/-- PCIE_LINK_DOWN: a port leaves L0; `ltssm` is the state its link is in (R376). -/
def execPcieLinkDown (p : Port) (ltssm : BitVec 24) (s : State) : Res :=
  s.doIf (s.on && s.flag (HST_PORT_UP p)) (leaveL0 p ltssm.toNat)

/-- PERST: the port's host domain resets (R542). Its exit from L0 is PCIE_LINK_DOWN's. -/
def execPerst (p : Port) (s : State) : Res := s.doIf s.on (portReset p)

/-- FUNCTION_LEVEL_RESET (R542). -/
def execFunctionLevelReset (p : Port) (s : State) : Res := s.doIf s.on (portReset p)

/-- CONTROLLER_RESET: CC.EN goes from 1 to 0 (R412). -/
def execControllerReset (p : Port) (s : State) : Res := s.doIf (s.on && s.hst.en.getD p false) (portReset p)

/-- CONTROLLER_ENABLE: CC.EN is set to 1 with the admin queue sizes of AQA, zero-based, and the arbitration of CC.AMS; CSTS.RDY follows
outside BARE (R46), and custody may pass (R95). -/
def execControllerEnable (p : Port) (asqs acqs : Fin 4096) (wrr : Bool) (s : State) : Res :=
  s.doIf (s.on && !s.hst.en.getD p false) fun s =>
    let s := { s with hst := { s.hst with
      en := setAt s.hst.en p true
      wasEn := setAt s.hst.wasEn p true
      ams := setAt s.hst.ams p wrr.toNat
      sqs := s.hst.sqs ++ [{ port := p, qid := 0, cqid := 0, size := asqs.val + 1 }]
      cqs := s.hst.cqs ++ [{ port := p, qid := 0, size := acqs.val + 1 }] } }
    passCustody (syncRdy p s)

/-- The custodian of a resource: 0 none, 1 A, 2 B; resource 0 is the management window (R397). -/
def State.cust (s : State) (res : Nat) : Nat := if res == 0 then s.get HST_CUST_MGMT else s.get (HST_NSCUST_CUST res)

/-- A request enters arbitration; a later one of the same port for the same resource replaces it (R399). Target 3 stands
for no port (R377). -/
def requestCustody (q : CustReq) (s : State) : State :=
  { s with hst := { s.hst with
    custReq := (s.hst.custReq.filter fun r => !(r.res == q.res && r.port == q.port)) ++ [q] } }

/-- LINK_LOSS_TIMEOUT: a port has stayed out of L0, or at CC.EN 0 after 1, for LINKLOSS ms; every resource it holds is
asked for the other port when that is in L0 with CC.EN 1, else for none (R377). -/
def execLinkLossTimeout (p : Port) (s : State) : Res :=
  s.doIf (s.applied && (!s.flag (HST_PORT_UP p) || (s.hst.wasEn.getD p false && !s.hst.en.getD p false))) fun s =>
    let o := 1 - p.val
    let target := if s.flag (HST_PORT_UP o) && s.hst.en.getD o false then o + 1 else 3
    forUpTo 65 (fun r s => s.when (s.cust r == p.val + 1) (requestCustody ⟨r, p, target, none⟩)) s

end Sys2Proof.Machine
end

