-- ==== Sys2Proof/Machine/Recon.lean ====
section
/-! DEFINITION. Where a namespace's data lies, and the reconstruction of failed codewords from parity (R31, R310, R311, R329). -/

namespace Sys2Proof.Machine

open R

/-! ### Where a namespace's data lies (R306, R313, R330) -/

def updCmd (seq : Nat) (k : HCmd → HCmd) (s : State) : State :=
  { s with hst := { s.hst with cmds := s.hst.cmds.map fun c => if c.seq == seq then k c else c } }
def finishIo (c : HCmd) (st : Nat × Nat × Bool) (s : State) : State := completeCmd c.port c.qid c.cid st 0 s

/-- The volume zone a unit belongs to, where its namespace fixes it. -/
def State.zoneOfUnit (s : State) (n : Ns) (unit : Nat) : Option Nat := n.zones[unit / s.zoneUnits]?
/-- Where a unit's data is: stripe and member. -/
def State.unitPlace (s : State) (n : Ns) (unit : Nat) : Option (Nat × Nat) :=
  if n.zoned then
    (s.zoneOfUnit n unit).map fun z => (1024 * z + unit % s.zoneUnits / s.dataMembers, unit % s.zoneUnits % s.dataMembers)
  else
    let m := s.mapOf n.nsid unit
    if m.1 == 1 then some m.2 else none
/-- The codeword index of an LBA in its unit. -/
def lbaCwix (n : Ns) (l : Nat) : Nat := l % n.unitLbas * n.lba / 4096

/-- An LBA's codeword is named in a KIND 0x03 entry in force (R350). -/
def State.lbaLost (s : State) (n : Ns) (l : Nat) : Bool :=
  match s.unitPlace n (l / n.unitLbas) with
  | none => false
  | some m =>
    match s.defectOf (s.locate m.1 m.2) with
    | some d => d.kind == 3 && d.lost.testBit (lbaCwix n l)
    | none => false

/-- A namespace of the mounted volume, during a mount those that its Attic read found. -/
def State.volNs (s : State) (nsid : Nat) : Option Ns :=
  if s.life == MOUNTING then s.mnt.ns.find? fun n => n.nsid == nsid else s.nsOf nsid

/-! ### Reconstruction (R31, R310, R311, R329) -/

def cwFailed (o : CwOut) : Bool := tagCond o.tag == cERASED || tagCond o.tag == cLOST
/-- What has come of a member at an index. -/
def asmCw (got : List AsmMem) (c j : Nat) : Option CwOut := (got.find? fun p => p.1 == j).bind fun p => p.2.getD c none
/-- A member's codeword at an index failed, or never came. -/
def asmFailed (got : List AsmMem) (c j : Nat) : Bool := (asmCw got c j).all cwFailed
def asmWord (got : List AsmMem) (c j : Nat) : Nat := ((asmCw got c j).map CwOut.x).getD 0
/-- A codeword is entered. -/
def asmPut (j c : Nat) (o : CwOut) (got : List AsmMem) : List AsmMem :=
  if got.any fun p => p.1 == j then got.map fun p => if p.1 == j then (j, setAt p.2 c (some o)) else p
  else got ++ [(j, setAt (List.replicate 16 none) c (some o))]

/-- The LBA of a rebuilt data codeword: from a surviving codeword of its member, else from the zone or the map (R311). -/
def rebuiltLba (s : State) (n : Option Ns) (stripe : Nat) (got : List AsmMem) (c j : Nat) : Nat :=
  let per := match n with
    | some n => n.cwLbas
    | none => 1
  match (List.range 16).find? fun i => !asmFailed got i j with
  | some i => (metaOf (asmWord got i j)).lba + c * per - i * per
  | none =>
    match n with
    | none => 2 ^ 64 - 1
    | some n =>
      if n.zoned then
        match n.zones.findIdx? (· == stripe / 1024) with
        | some i => (i * s.zoneUnits + stripe % 1024 * s.dataMembers + j) * n.unitLbas + c * per
        | none => 2 ^ 64 - 1
      else
        match s.str.map.find? fun e => e.1 / 2 ^ 32 == n.nsid && e.2 == 2 ^ 40 + j * 2 ^ 32 + stripe with
        | some e => e.1 % 2 ^ 32 * n.unitLbas + c * per
        | none => 2 ^ 64 - 1

/-- The metadata of a rebuilt codeword (R311). The WSEQ of a parity codeword is that of the other parity member where it survives, else
the highest of the data members (DEDUCED, log entry 186). -/
def rebuiltMeta (s : State) (stripe : Nat) (got : List AsmMem) (c j : Nat) : Meta :=
  let dm := s.dataMembers
  let alive := (List.range dm).filter fun k => !asmFailed got c k
  let m := metaOf (asmWord got c (alive.headD 0))
  let base : Meta := { m with pba := s.locate stripe j, cwix := c, kind := s.memKind j, member := j, stripe }
  if j < dm then { base with lba := rebuiltLba s (s.volNs m.nsid) stripe got c j }
  else
    let other := ((List.range s.volParity).map (dm + ·)).find? fun k => !asmFailed got c k
    let wseq := match other with
      | some k => (metaOf (asmWord got c k)).wseq
      | none => alive.foldl (fun w k => max w (metaOf (asmWord got c k)).wseq) 0
    { base with enc := false, nsid := 0, keygen := 0, lba := 2 ^ 64 - 1, wseq }

/-- One codeword index of a stripe: rebuilt from parity where at most p of the members `all` failed, each tagged CORR with RECON 1, else
left as it is, counted and logged (R31, R329). Any other data member counts as zero (R310). -/
def resolveOver (all : List Nat) (stripe c : Nat) (r : List AsmMem × State) : List AsmMem × State :=
  let s := r.2
  let dm := s.dataMembers
  let bad := all.filter (asmFailed r.1 c)
  if bad.isEmpty then r
  else if s.volParity < bad.length then
    (r.1, logFlt 12 kDEGRADE 0x02 c [stripe, stripe / au24] (s.inc STR_RECON_UNREC))
  else
    let bytes := fun j => if all.contains j then cwBytes (asmWord r.1 c j) 0 4096 else List.replicate 4096 0
    let data := recoverIndex dm bytes (bad.filter (· < dm)) (bad.contains dm)
    let user := fun j =>
      if j < dm then data.getD j []
      else (List.range 4096).map fun t =>
        let d := data.map fun b => b.getD t 0
        if j == dm then parityP d else parityQ d
    bad.foldl (fun (q : List AsmMem × State) j =>
      let m := rebuiltMeta s stripe r.1 c j
      let i : CwItem := { head := 0, lane := ((asmCw r.1 c j).map fun o => o.tag / 2 ^ 23 % 32).getD 0
                          pba := m.pba, cwix := c, kind := m.kind, wseq := m.wseq }
      let t := tagOf cCORR true i
      let o : CwOut := { tag := t, x := encodeCw (user j) m, mem := some (stripe, j), kind := m.kind, wseq := m.wseq, zero := false
                         act := 0, pba := m.pba, cwix := c, tagAt := q.2.tagAddr }
      (asmPut j c o q.1, keepTag t q.2)) (r.1, s.addSat STR_RECON_RECON bad.length)

/-- One codeword index over the members of a stripe that have been written. -/
def resolveIndex (stripe c : Nat) (r : List AsmMem × State) : List AsmMem × State := resolveOver (r.2.writtenMembers stripe) stripe c r

end Sys2Proof.Machine
end

