-- ==== Sys2Proof/Machine/Resync.lean ====
section
/-! DEFINITION. Resynchronisation at mount: the stripes beyond the checkpointed fill of the zones of the scan set, rolled forward or back
(R321, R323). -/

namespace Sys2Proof.Machine

open R

/-- The next stripe of the scan is read, with all its members; a zone that is scanned to its end leaves. -/
def askScan (s : State) : State :=
  match s.mnt.scan with
  | [] => { s with mnt := { s.mnt with at' := none } }
  | z :: _ =>
    let stripe := 1024 * z + (s.vzone 0 z).fill
    askMembers 1 (fun s st => (List.range s.volWidth).filter fun j => !s.deadLayer st j) [stripe] { s with mnt := { s.mnt with at' := some stripe } }
/-- The scan of a zone ends. -/
def endScan (z : Nat) (s : State) : State := askScan { s with mnt := { s.mnt with scan := s.mnt.scan.filter (· != z) } }
/-- The scan goes on with the zone's next stripe, or with the next zone. -/
def nextScan (z : Nat) (s : State) : State := if 1024 ≤ (s.vzone 0 z).fill then endScan z s else askScan s

/-- The namespace of a zone under scan, and its CKWSEQ. -/
def State.scanNs (s : State) (z : Nat) : Option Ns := s.mnt.ns.find? fun n => n.zones.contains z
def State.scanCkw (s : State) (z : Nat) : Nat :=
  ((s.scanNs z).bind fun n => (s.mnt.ckw.find? fun c => c.1 == n.nsid).map Prod.snd).getD 0

/-- The WSEQs of a member's codewords that decoded. -/
def memSeqs (got : List AsmMem) (j : Nat) : List Nat :=
  (List.range 16).filterMap fun c => (asmCw got c j).bind fun o => if cwFailed o then none else some o.wseq

/-- P agrees with the data members `l` at every index. -/
def State.parityAgrees (s : State) (got : List AsmMem) (l : List Nat) : Bool :=
  let dm := s.dataMembers
  let data := l.map fun j => (j, (List.range 16).map fun c => asmWord got c j)
  (List.range 16).all fun c => !(asmFailed got c dm) && l.all (fun j => !(asmFailed got c j))
    && parityUser dm dm c data == cwBytes (asmWord got c dm) 0 4096

/-- The members of a stripe that failed at some index are queued for rebuild. -/
def queueFailed (stripe : Nat) (got : List AsmMem) (l : List Nat) (s : State) : State :=
  l.foldl (fun s j => s.when ((List.range 16).any fun c => asmFailed got c j) (queueRebuild stripe j)) s

/-- The units of the data members of a stripe enter the delta list, where no later WSEQ has put them there (R332). -/
def noteDelta (stripe ckw : Nat) (got : List AsmMem) (l : List Nat) (s : State) : State :=
  l.foldl (fun s j =>
    let m := metaOf (asmWord got 0 j)
    match s.mnt.ns.find? fun n => n.nsid == m.nsid && !n.zoned with
    | none => s
    | some n =>
      let k := mapKey n.nsid (m.lba / n.unitLbas)
      if m.wseq ≤ ckw || m.wseq < Sparse.get s.mnt.seqs k then s
      else
        let page := (n.nsid, m.lba / n.unitLbas / 512)
        { s with
          mnt := { s.mnt with
            seqs := Sparse.set s.mnt.seqs k m.wseq, pages := if s.mnt.pages.contains page then s.mnt.pages else s.mnt.pages ++ [page] }
          str := { s.str with delta := Sparse.set s.str.delta k (2 ^ 40 + j * 2 ^ 32 + stripe) } }) s

/-- A zone's fill, and for a zoned namespace its write pointer, after `top` data members of a stripe (DESIGN CHOICE, log entry 190). -/
def advanceScan (z at' top : Nat) (s : State) : State :=
  let dm := s.dataMembers
  let v := s.vzone 0 z
  let v := if top == dm then { v with fill := at' + 1, part := 0 } else { v with fill := at', part := top }
  let s := setVzone { v with st := if v.fill == 1024 then 2 else 1 } s
  match s.scanNs z with
  | none => s
  | some n =>
    if !n.zoned then s
    else
      let wp := (at' * dm + top) * n.unitLbas
      let full := 1024 * dm * n.unitLbas ≤ wp
      { s with mnt := { s.mnt with zones := s.mnt.zones.map fun x =>
          if x.nsid == n.nsid && n.zones[x.idx]? == some z then
            { x with wp, swp := wp, st := if full then 0xE else if x.st == 1 then 2 else x.st }
          else x } }

/-- A stripe of an interrupted transaction is brought into agreement: members `l` are written, with a new WSEQ, from the data given. -/
def mendStripe (stripe : Nat) (l : List Nat) (data : List (Nat × List Nat)) (s : State) : State :=
  let w := s.str.wseq
  let owner := ((s.scanNs (stripe / 1024)).map Ns.nsid).getD 0
  let t : Stripe := { num := stripe, wseq := w, nsid := owner, kind := 2, mems := l.map fun i => { idx := i }
                      data := s.withParity stripe w data }
  syncOpen ((takeWseq s).setStr fun x => { x with stripes := x.stripes ++ [t] })

/-- The contents of a partly filled member before an extension that is rolled back, from the old P, or from the old Q where P is torn. -/
def State.oldMember (s : State) (got : List AsmMem) (ckw j : Nat) (others : List Nat) : List (Option Nat) :=
  let dm := s.dataMembers
  (List.range 16).map fun c =>
    let old := fun (k : Nat) => (asmCw got c k).filter fun o => !cwFailed o && o.wseq ≤ ckw
    let byte := fun (k t : Nat) => (cwBytes (asmWord got c k) 0 4096).getD t 0
    let user := match old dm, old (dm + 1) with
      | some _, _ => some ((List.range 4096).map fun t => others.foldl (fun v k => Nat.xor v (byte k t)) (byte dm t))
      | none, some _ => some ((List.range 4096).map fun t =>
          gfMul (others.foldl (fun v k => Nat.xor v (gfMul (gfPow k) (byte k t))) (byte (dm + 1) t)) (gfInv (gfPow j)))
      | none, none => none
    user.map fun u => encodeCw u { metaOf (asmWord got c j) with cwix := c }

/-- An extension is rolled back: its stripe holds the `part` data members that were filled, and the last one of them, where it was only
partly filled and has been written again, its old contents; P and Q are written for them. -/
def rollBack (stripe part : Nat) (partly : Bool) (got : List AsmMem) (s : State) : State :=
  let ckw := s.scanCkw (stripe / 1024)
  let dm := s.dataMembers
  let last := part - 1
  let again := partly && (memSeqs got last).any fun w => ckw < w
  let words := fun j => (List.range 16).map fun c => asmWord got c j
  let old := (s.oldMember got ckw last (List.range last)).map fun x => x.getD 0
  let data := (List.range part).map fun j => (j, if again && j == last then old else words j)
  let parity := (List.range s.volParity).map fun i => dm + i
  (mendStripe stripe ((if again then [last] else []) ++ parity) data s).addSat STR_RESYNC_BACK 1

/-- A stripe of the scan has been read (R323). A zone's first stripe with data of its checkpoint in it takes an extension; P's WSEQ, or
Q's where P cannot be read, names the transaction; its data members are those up to the last that carries that WSEQ. What of a
zone's stripes the checkpoint holds in part, and where a zone goes on behind a void, is the model's (DESIGN CHOICE, log entry 190). -/
def resolveScan (stripe : Nat) (got : List AsmMem) (s : State) : State :=
  let z := stripe / 1024
  let at' := stripe % 1024
  let dm := s.dataMembers
  let ckw := s.scanCkw z
  let zoned := (s.scanNs z).any Ns.zoned
  let parity := (List.range s.volParity).map fun i => dm + i
  let w := ((memSeqs got dm).head?.or ((memSeqs got (dm + 1)).head?)).getD 0
  let top := (List.range dm).foldl (fun t j => if (memSeqs got j).contains w then j + 1 else t) 0
  let life := (List.range s.volWidth).any fun j => (memSeqs got j).any fun x => ckw < x
  let high := (List.range s.volWidth).foldl (fun m j => (memSeqs got j).foldl max m) 0
  let s := s.when life fun s => s.setStr fun x => { x with wseq := max x.wseq (high + 65536) }
  let v := s.vzone 0 z
  let old := (List.range dm).foldl (fun t j => if t == j && (memSeqs got j).any (fun x => 0 < x && x ≤ ckw) then j + 1 else t) 0
  let part := if zoned then v.part else old
  let ext := 0 < part && at' == v.fill && (zoned || !(memSeqs got 0).contains w)
  if ext then
    let whole := ckw < w && (memSeqs got dm).length == 16 && (memSeqs got dm).all (· == w)
    if whole then
      let s := advanceScan z at' (max top part) (noteDelta stripe ckw got (List.range top) s)
      let data := (List.range (max top part)).map fun j => (j, (List.range 16).map fun c => asmWord got c j)
      let s := s.when (s.volParity == 2) fun s => mendStripe stripe [dm + 1] data s
      let s := queueFailed stripe got (List.range (max top part)) (s.addSat STR_RESYNC_FWD 1)
      if top == dm then nextScan z s else endScan z s
    else
      let partly := zoned && s.mnt.zones.any fun x => (s.scanNs z).any fun n =>
        x.nsid == n.nsid && n.zones[x.idx]? == some z && x.wp % n.unitLbas != 0
      endScan z (s.when life (rollBack stripe part partly got))
  else
    let all := List.range top ++ parity
    let r := if ckw < w then (List.range 16).foldl (fun r c => resolveOver all stripe c r) (got, s) else (got, s)
    let one := (memSeqs got dm).all (· == w)
    if ckw < w && one && r.2.parityAgrees r.1 (List.range top) then
      let s := advanceScan z at' top (noteDelta stripe ckw r.1 (List.range top) r.2)
      let s := queueFailed stripe got all (s.addSat STR_RESYNC_FWD 1)
      if top == dm then nextScan z s else endScan z s
    else
      let s := s.when life fun s => s.addSat STR_RESYNC_BACK 1
      endScan z (s.when (life && !zoned) fun s => setVzone { v with fill := at' + 1, part := 0, held := [] } s)

end Sys2Proof.Machine
end

