-- ==== Sys2Proof/Machine/Assembly.lean ====
section
/-! DEFINITION. Assembly: members as they arrive, release, reconstruction, and what a released stripe serves: host reads, merges,
refreshes, rebuilds, map pages and read-ahead (R25, R31, R32, R34, R50, R310, R311, R313, R324 to R329, R332, R395, R466, R523). -/

namespace Sys2Proof.Machine

open R

/-! ### Host reads (R395, R466, R523) -/

/-- The read ends with Unrecovered Read Error; its Error Information entry names the first LBA, the stripe and the codeword
index (R395, R411). -/
def endUnrec (c : HCmd) (n : Ns) (l : Nat) (s : State) : State :=
  let s := finishIo c scUnrecRead s
  let m := (s.unitPlace n (l / n.unitLbas)).getD (0, 0)
  { s with hst := { s.hst with errlog :=
      match s.hst.errlog with
      | e :: es => { e with lba := l, nsid := n.nsid, csi := 16 * m.1 + lbaCwix n l } :: es
      | [] => [] } }

/-- The `k` stripes of a namespace that follow one of its stripes. -/
def State.stripesAfter (s : State) (nsid k stripe : Nat) : List Nat :=
  let own := (s.str.zones.filter fun v => v.owner == nsid).map VZone.z
  let rest := (List.range (1023 - stripe % 1024)).map fun i => stripe + 1 + i
  let later := (own.filter fun z => stripe / 1024 < z).flatMap fun z => (List.range 1024).map fun i => 1024 * z + i
  (rest ++ later).take k

/-- A stripe holds committed data: its zone's fill covers it. -/
def State.hasData (s : State) (stripe : Nat) : Bool := s.committed stripe

/-- A host read of a namespace has covered the stripes `l`: with RAHEAD 1, where it goes on from the stripe that the latest one ended
in or from the next, the extent that follows is read ahead (R466). -/
def noteRead (nsid : Nat) (l : List Nat) (s : State) : State :=
  match l with
  | [] => s
  | a :: _ =>
    let lo := l.foldl min a
    let hi := l.foldl max a
    let was := s.str.readAt.find? fun r => r.1 == nsid
    let follows := was.any fun r => lo == r.2 || lo == r.2 + 1
    let next := (s.stripesAfter nsid s.extent hi).filter fun n =>
      s.hasData n && !s.str.aheadWant.contains n && !s.str.ahead.any fun x => x.1 == n
    let s := s.when ((s.modeCfg s.mode).rahead == 1 && follows && was != some (nsid, hi)) fun s =>
      askWhole 4 next (s.setStr fun x => { x with aheadWant := x.aheadWant ++ next })
    s.setStr fun x => { x with readAt := (x.readAt.filter fun r => r.1 != nsid) ++ [(nsid, hi)] }

/-- The LBAs of a command's range. -/
def HCmd.lbas (c : HCmd) : List Nat := (List.range c.nlb).map (c.slba + ·)

/-- HST reads the data of a host read: of each block of the range that holds data, its first 64 bytes stand for all (DESIGN CHOICE, log entry
179). Whether none meets a bus error. -/
def State.hostLoads (s : State) (c : HCmd) (n : Ns) : Bool × State :=
  (c.lbas.filter (s.lbaWritten n)).zipIdx.foldl (fun (r : Bool × State) p =>
    match s.unitPlace n (p.1 / n.unitLbas) with
    | none => r
    | some m =>
      let y := memLoad c.port (s.asmAddr m.1 m.2 (lbaCwix n p.1) / 64 + p.1 * n.lba % 4096 / 64) (c.os.getD p.2 {}) .clean r.2
      (r.1 && y.1, y.2)) (true, s)

/-- A read that has all it waits for ends (R391, R395, Table 16.2). -/
def finishRead (c : HCmd) (n : Ns) (s : State) : State :=
  match c.fault with
  | some f => endUnrec c n f.1 s
  | none =>
    let r := if c.op == 2 then s.hostLoads c n else (true, s)
    let s := r.2
    if !r.1 then finishIo c scInternal s
    else if c.op != 2 then finishIo c scSuccess s
    else
      let data := c.lbas.map fun l => ((c.got.find? fun g => g.1 == l).map Prod.snd).getD 0
      let held := c.lbas.filter (s.lbaWritten n)
      let s := noteRead n.nsid (held.filterMap fun l => (s.unitPlace n (l / n.unitLbas)).map Prod.fst) s
      let s := { s with hst := { s.hst with
        dataIn := (c.port, c.cid, data) :: s.hst.dataIn
        hostReads := s.hst.hostReads + 1
        unitsRead := s.hst.unitsRead + c.nlb * n.lba / 512 } }
      finishIo c scSuccess s

/-- What a unit's codewords give for one block: its contents, or why there are none: 1 lost, 2 another key generation. -/
def State.blockOf (s : State) (n : Ns) (ws : List (Option CwOut)) (l : Nat) : Except Nat Nat :=
  match ws.getD (lbaCwix n l) none with
  | none => .error 1
  | some o =>
    if cwFailed o then .error 1
    else if n.enc && (metaOf o.x).keygen != n.keygen % 256 then .error 2
    else
      let first := l / n.cwLbas * n.cwLbas
      let b := s.decrypt n first (cwBytes o.x 0 4096)
      .ok (leNat ((b.drop ((l - first) * n.lba)).take n.lba))

/-- The lower of two faults. -/
def lowerFault (a : Option (Nat × Nat)) (f : Nat × Nat) : Option (Nat × Nat) :=
  match a with
  | some x => if x.1 ≤ f.1 then some x else some f
  | none => some f

/-- A command takes what a member gives of a unit. -/
def takeUnit (c : HCmd) (n : Ns) (unit : Nat) (ws : List (Option CwOut)) (s : State) : HCmd × State :=
  let ls := c.lbas.filter fun l => l / n.unitLbas == unit && s.lbaWritten n l
  let r := ls.map fun l => (l, s.blockOf n ws l)
  let mis := ((r.filter fun x => match x.2 with | .error 2 => true | _ => false).map fun x => lbaCwix n x.1).eraseDups.length
  let c := r.foldl (fun (c : HCmd) x => match x.2 with
    | .ok v => { c with got := c.got ++ [(x.1, v)] }
    | .error k => { c with fault := lowerFault c.fault (x.1, k) }) c
  (c, s.addSat SEC_CNT_GENMIS mis)

/-- The reads that wait for a member take it, and those that wait for nothing more end. -/
def serveReads (stripe : Nat) (got : List AsmMem) (s : State) : State :=
  (s.hst.cmds.filter fun c => c.need.any fun u => u.2.1 == stripe && got.any fun p => p.1 == u.2.2).foldl (fun s c =>
    match s.nsOf c.nsid with
    | none => finishIo c scInvalidNs s
    | some n =>
      let mine := fun (u : Nat × Nat × Nat) => u.2.1 == stripe && got.any fun p => p.1 == u.2.2
      let r := (c.need.filter mine).foldl (fun (r : HCmd × State) u =>
        takeUnit r.1 n u.1 (((got.find? fun p => p.1 == u.2.2).map Prod.snd).getD []) r.2) (c, s)
      let c := { r.1 with need := c.need.filter fun u => !mine u }
      if c.need.isEmpty then finishRead c n (updCmd c.seq (fun _ => c) r.2) else updCmd c.seq (fun _ => c) r.2) s

/-! ### What else a released stripe serves -/

/-- The sixteen codewords of a member, and a mask of those that cannot be read. -/
def memWords (ws : List (Option CwOut)) : List Nat × Nat :=
  (ws.map fun o => (o.map CwOut.x).getD 0, maskOf ((List.range 16).filter fun c => (ws.getD c none).all cwFailed))

/-- A gathered unit whose present contents were read has them (R313, R333). -/
def serveGather (stripe : Nat) (got : List AsmMem) (s : State) : State :=
  s.setStr fun x => { x with gather := x.gather.map fun (g : GUnit) =>
    match g.src, g.wait with
    | some m, true =>
      match got.find? fun p => m.1 == stripe && p.1 == m.2 with
      | some p => { g with wait := false, base := (memWords p.2).1, lost := (memWords p.2).2 }
      | none => g
    | _, _ => g }

/-- The members of a part-filled stripe that an extension stands beside are held (R314). -/
def serveHeld (stripe : Nat) (got : List AsmMem) (s : State) : State :=
  s.setStr fun x => { x with zones := x.zones.map fun v =>
    let whole := (List.range v.part).all fun j => got.any fun p => p.1 == j
    if 1024 * v.z + v.fill == stripe && 0 < v.part && v.held.isEmpty && whole then
      { v with held := (List.range v.part).map fun j => (j, (memWords (((got.find? fun p => p.1 == j).map Prod.snd).getD [])).1) }
    else v }

/-- A stripe to be refreshed is held whole; one with an index beyond parity leaves the queue (R355; DESIGN CHOICE, log entry 187). -/
def serveRefresh (stripe : Nat) (got : List AsmMem) (s : State) : State :=
  let asked := s.hlt.refWant.contains stripe && s.hlt.refresh.any fun e => e.2.1 == stripe
  if !asked then s
  else
    let s := s.setHlt fun h => { h with refWant := h.refWant.filter (· != stripe) }
    if got.any fun p => (memWords p.2).2 != 0 then dropRefresh stripe s
    else s.setHlt fun h => { h with refData := h.refData ++ [(stripe, got.map fun p => (p.1, (memWords p.2).1))] }

/-- The running rebuilds of a stripe have their members. -/
def serveRebuild (stripe : Nat) (got : List AsmMem) (s : State) : State :=
  s.setStr fun x => { x with rebuild := x.rebuild.map fun r =>
    let mine := if r.stripe == stripe && r.running && r.st == 0 then got.find? (fun p => p.1 == r.member) else none
    match mine with
    | some p => { r with st := 1, data := (memWords p.2).1, lost := (memWords p.2).2 }
    | none => r }

/-- The entries of a map page (R330). -/
def pageEntries (x : Nat) : List Nat :=
  (List.range 512).map fun i => leNat (cwBytes x (8 * i) 8)
/-- The map pages that lie in the stripe have been read. A page that cannot be read stays to be loaded (DESIGN CHOICE, log entry
188). -/
def servePages (stripe : Nat) (got : List AsmMem) (s : State) : State :=
  let add := fun (l : List (Nat × Nat × List Nat)) (g : Nat × Nat) =>
    let x := s.str
    let v := Sparse.get x.dir (mapKey g.1 g.2) - 1
    let had := l.any fun y => y.1 == g.1 && y.2.1 == g.2
    if Sparse.get x.dir (mapKey g.1 g.2) == 0 || v % 2 ^ 32 != stripe || had then l
    else
      match asmCw got (v / 2 ^ 40) (v / 2 ^ 32 % 256) with
      | some o => if cwFailed o then l else l ++ [(g.1, g.2, pageEntries o.x)]
      | none => l
  s.setStr fun x => { x with pageGot := x.pagesLeft.foldl add x.pageGot }

/-! ### Release (R31, R325) -/

/-- The codewords of a member that a stripe under assembly still waits for. -/
def Asm.due (a : Asm) (j : Nat) : List Nat :=
  (((a.want.filter fun p => p.1 == j).flatMap Prod.snd).eraseDups).filter fun c => (asmCw a.got c j).isNone
/-- The members it still waits for. -/
def Asm.missing (a : Asm) : List Nat := ((a.want.map Prod.fst).eraseDups).filter fun j => !(a.due j).isEmpty

/-- Nothing of a stripe is read any more. -/
def dropReads (stripe : Nat) (s : State) : State :=
  { s with trk := s.trk.map fun t => { t with
      reads := (t.reads.map fun r => { r with mems := r.mems.filter fun m => m.1 != stripe }).filter fun r => !r.mems.isEmpty } }

/-- A stripe is released: every index that is read across its members is resolved, and what waits for it is served (R31); the one that
resynchronisation reads is resolved by R323. -/
def releaseStripe (a : Asm) (s : State) : State :=
  let s := dropReads a.stripe (s.setStr fun x => { x with asm := x.asm.filter fun y => y.stripe != a.stripe })
  if s.mnt.at' == some a.stripe then resolveScan a.stripe a.got s
  else
  let r := (if a.whole then List.range 16 else a.idx).foldl (fun r c => resolveIndex a.stripe c r) (a.got, s)
  let got := r.1
  let s := r.2.setStr fun x => { x with
    last := some (a.stripe, got)
    ahead := if x.aheadWant.contains a.stripe && a.whole then x.ahead ++ [(a.stripe, got)] else x.ahead
    aheadWant := x.aheadWant.filter (· != a.stripe) }
  serveReads a.stripe got (servePages a.stripe got (serveRebuild a.stripe got (serveRefresh a.stripe got
    (serveHeld a.stripe got (serveGather a.stripe got s)))))

def putAsm (a : Asm) (s : State) : State :=
  s.setStr fun x => { x with asm := x.asm.map fun y => if y.stripe == a.stripe then a else y }

/-- Codewords of a partial read failed: the stripe's other members are read at their indices (R324). -/
def widen (a : Asm) (bad : List (Nat × List Nat)) (s : State) : State :=
  let new := ((bad.flatMap Prod.snd).eraseDups).filter fun c => !a.idx.contains c
  let s := s.when a.idx.isEmpty fun s => s.inc STR_SLOW_DEGRD
  let s := putAsm { a with idx := a.idx ++ new } s
  let others := (s.writtenMembers a.stripe).filter fun j => !s.unreadable a.stripe j
  let act := ((s.trk.flatMap Trk.reads).find? fun r => r.mems.any fun m => m.1 == a.stripe).map RdReq.act
  askPart (act.getD 0) a.stripe (others.map fun j => (j, new)) s

/-- A stripe under assembly after a member has come or is given up: a partial read whose codewords failed is widened; one that waits for
nothing more is released. -/
def settleAsm (stripe : Nat) (s : State) : State :=
  match s.str.asm.find? fun a => a.stripe == stripe with
  | none => s
  | some a =>
    let bad := a.got.map fun p => (p.1, (List.range 16).filter fun c => ((p.2.getD c none).any cwFailed) && !a.idx.contains c)
    let s := s.when (!a.whole && bad.any fun p => !p.2.isEmpty) (widen a bad)
    match s.str.asm.find? fun a => a.stripe == stripe with
    | none => s
    | some a => if a.missing.isEmpty then releaseStripe a s else s

/-- The codeword, its tag read from the TAGS region and its data from ASSEMBLY: a bus error on the tag tags it ERASED, one on the data
fails it at its index (Table 16.2). -/
def fetchCw (tag word : BlockRead) (o : CwOut) (s : State) : CwOut × State :=
  let a := memLoad srcSTR (o.tagAt / 64) tag .clean s
  let m := o.mem.getD (0, 0)
  let b := memLoad srcSTR (a.2.asmAddr m.1 m.2 o.cwix / 64) word .clean a.2
  (if a.1 && b.1 then o else { o with tag := cERASED * 2 ^ 30 + o.tag % 2 ^ 30 / 256 * 256 }, b.2)

/-- MEMBER_ARRIVAL: the tagged codewords of a member that are asked for have come into ASSEMBLY; `tags` and `words` are what the reads of
their tags and of their data decode to. The first member fixes the stripe's deadline from the latest planned arrival `planned`; the
stripe is released when all have come; one that comes after the release is discarded (R25, R31, R324, R325). -/
def execMemberArrival (stripe : Nat) (member : Fin 20) (planned : Nat) (tags words : List BlockRead) (s : State) : Res :=
  let j := member.val
  let mine := fun (o : CwOut) => o.mem == some (stripe, j) && [0, 1, 3, 4].contains o.act
  let l := s.cwd.out.filter mine
  let drop := fun (s : State) => s.setCwd fun c => { c with out := c.out.filter fun o => !mine o }
  match s.str.asm.find? fun a => a.stripe == stripe with
  | none => s.doIf s.on drop
  | some a =>
    let due := a.due j
    s.doIf (s.on && !due.isEmpty && due.all fun c => l.any fun o => o.cwix == c) fun s =>
      let take := due.filterMap fun c => l.find? fun o => o.cwix == c
      let r := take.zipIdx.foldl (fun (r : List AsmMem × State) p =>
        let f := fetchCw (tags.getD p.2 {}) (words.getD p.2 {}) p.1 r.2
        (asmPut j p.1.cwix f.1 r.1, f.2)) (a.got, drop s)
      let fixed := (planned + (s.modeCfg s.mode).slowtmo * au24) % au48
      settleAsm stripe (putAsm { a with got := r.1, deadline := some (a.deadline.getD fixed) } r.2)

/-- SLOW_MEMBER_DEADLINE: a stripe's deadline passes; its missing members count as failed, each with its entry, whose CODE no rule gives
(a free value; DESIGN CHOICE, log entry 1), as the slow layer of R50, and it is released; a partial read is widened (R31, R34, R325). -/
def execSlowMemberDeadline (stripe : Nat) (s : State) : Res :=
  match s.str.asm.find? fun a => a.stripe == stripe with
  | none => .next s
  | some a => s.doIf (s.on && a.deadline.any (passed s.now)) fun s =>
      let miss := a.missing
      let s := miss.foldl (fun s j =>
        let kind := s.coveredKind
        let s := logFlt 12 kind (s.freeVal 8) j [stripe, stripe / au24] (openBypass 12 j s)
        s.drawn) (s.addSat STR_SLOW_SLOW miss.length)
      let bad := miss.map fun j => (j, a.due j)
      let b := { a with want := a.want.filter fun p => !miss.contains p.1 }
      let s := dropReads stripe (putAsm b s)
      let s := if a.whole || !a.idx.isEmpty then releaseStripe b s
        else settleAsm stripe (widen { b with deadline := none } bad s)
      miss.foldl (fun s j => closeBypass 12 j s) s

end Sys2Proof.Machine
end

