-- ==== Sys2Proof/Machine/Stripes.lean ====
section
/-! DEFINITION. Stripe transactions, rebuild, checkpoints, map pages and cleaning (R303 to R335, R356). -/

namespace Sys2Proof.Machine

open R

/-! ### Opening (R313 to R315, R319, R321) -/

/-- The zones of a namespace that are free (R333). -/
def State.idleZones (s : State) (n : Ns) : List Nat := n.zones.filter fun z => (s.vzone n.nsid z).st == 0

/-- The gathered units that may enter a stripe of a zone, in order. While a conventional namespace has no free zone, only those that
cleaning moves do (R333). -/
def State.openable (s : State) (n : Ns) (z : Nat) : List GUnit :=
  let stall := !n.zoned && (s.idleZones n).isEmpty
  s.str.gather.filter fun g => g.nsid == n.nsid && (g.move || !stall) && (!n.zoned || s.zoneOfUnit n g.unit == some z)

/-- The members that a transaction on stripe `num` writes for these units: their data members, P and Q (R314). -/
def State.writeSet (s : State) (idx : List Nat) : List StMem :=
  (idx ++ (List.range s.volParity).map fun i => s.dataMembers + i).map fun i => { idx := i }

/-- Stripes of host data or cleaning open in a zone. -/
def State.openIn (s : State) (z : Nat) : List Stripe :=
  s.str.stripes.filter fun t => t.num / 1024 == z && (t.kind == 0 || t.kind == 4)

/-- Stripes may open in this state: MOUNTED, or the commit step of an Unmount (R318, R502); those of the system zones also in its
checkpoint step. -/
def State.mayOpen (s : State) : Bool := s.inLife [MOUNTED] || (s.inLife [PARKING] && s.get SYS_MNTPROG_STEP == 0xA)
def State.mayOpenSys (s : State) : Bool := s.mayOpen || (s.inLife [PARKING] && s.get SYS_MNTPROG_STEP == 0xB)

/-- The zone's DIRTY record comes first, after VOLUME with CLEAN 0, verified in copies 0 and 3, at the first one of a mount (R319). -/
def askDirty (nsid z : Nat) (s : State) : State :=
  let volume := s.att.jobs.any fun j => j.type == atVOLUME && (j.todo.contains 0 || j.todo.contains 3)
  let asked := fun (s : State) => s.setStr fun x => { x with asked := x.asked ++ [z] }
  if s.str.asked.contains z || volume then s
  else if s.str.clean then writeVolume (.dirty nsid z) (asked (s.setStr fun x => { x with clean := false }))
  else appendJournal 2 z s.str.wseq (asked s)

/-- The zone's DIRTY record is asked for; with MAXDIRTY zones dirty a checkpoint is due first (R319, R322). -/
def makeDirty (nsid z : Nat) (s : State) : State :=
  if s.get STR_JCFG_MAXDIRTY ≤ s.str.dirty.length then checkpoint s else askDirty nsid z s

/-- What must be durable before a stripe of a zone opens: the zone's DIRTY record, and a checkpoint that lists it as active (R319,
R322). Answers whether all is. -/
def prepareZone (nsid z : Nat) (s : State) : Bool × State :=
  let listed := nsid == sysNs || s.str.ckActive.contains z
  let dirty := s.str.dirty.contains z
  if listed && dirty then (true, s)
  else
    let s := s.when (!listed) fun s => checkpoint (setVzone { s.vzone nsid z with st := 1 } (touchNs nsid s))
    (false, s.when (!dirty) (makeDirty nsid z))

/-- A stripe of the zone opens with its units (R315): the next WSEQ, its members to write as codewords, with P and Q over them and over
the members that it extends (R310, R314), a member that was partly filled behind the new ones; a refresh queued on it is dropped (Table 13.6). -/
def openStripe (n : Ns) (z num : Nat) (units : List GUnit) (idx : List Nat) (s : State) : State :=
  let wseq := s.str.wseq
  let old := (s.vzone n.nsid z).held.filter fun m => num % 1024 == (s.vzone n.nsid z).fill && !idx.contains m.1
  let new := (units.zip idx).map fun p => (p.2, s.unitWords n num p.2 wseq p.1)
  let again := fun (j : Nat) => (s.vzone n.nsid z).held.any fun m => m.1 == j && num % 1024 == (s.vzone n.nsid z).fill
  let order := idx.filter (fun j => !again j) ++ idx.filter again
  let t : Stripe := { num, wseq, nsid := n.nsid, kind := if units.any GUnit.move then 4 else 0
                      mems := s.writeSet order, units, data := s.withParity num wseq (old ++ new) }
  let s := takeWseq (dropRefresh num (dropAhead num s))
  let s := s.setStr fun x => { x with
    stripes := x.stripes ++ [t]
    gather := x.gather.filter fun g => !units.contains g }
  let s := s.setStr fun x => { x with
    short := x.short.filter fun k => x.gather.any fun g => g.nsid == k }
  let s := s.when (!s.str.zones.any fun v => v.z == z) (setVzone { z, owner := n.nsid })
  syncOpen (touchNs n.nsid s)

/-! ### Merging (R313, R333) -/

/-- A unit needs its present contents: cleaning moves it, or it has committed blocks that no gathered block replaces. -/
def State.needsBase (s : State) (n : Ns) (g : GUnit) : Bool :=
  g.base.isEmpty && (g.move || (unitRange n g.unit).any fun l => s.lbaWritten n l && !g.items.any fun i => i.1 == l)

/-- The present contents of a unit are asked for: STR holds those of a part-filled stripe, any other are read. -/
def askBase (n : Ns) (g : GUnit) (s : State) : State :=
  match s.unitPlace n g.unit with
  | none => s
  | some m =>
    let v := s.vzone n.nsid (m.1 / 1024)
    let put := fun (k : GUnit → GUnit) (s : State) =>
      s.setStr fun x => { x with gather := x.gather.map fun (y : GUnit) => if y == g then k y else y }
    match if m.1 == 1024 * v.z + v.fill then v.held.find? fun h => h.1 == m.2 else none with
    | some h => put (fun y => { y with base := h.2, src := some m, wait := false }) s
    | none =>
      if g.wait then s
      else askSome (if g.move then 3 else 0) m.1 [(m.2, List.range 16)] (put (fun y => { y with src := some m, wait := true }) s)

/-- A stripe leaves the open transactions. -/
def closeStripe (num : Nat) (s : State) : State :=
  syncOpen (s.setStr fun x => { x with stripes := x.stripes.filter fun t => t.num != num })

/-- A write of a zone failed whose blocks from `cut` on do not come to the medium: the later accepted writes of the zone fail, what was
gathered of them and the stripes that hold it go, and SWP falls back to WP (R393). -/
def failZone (n : Ns) (idx cut : Nat) (s : State) : State :=
  let mine := fun (g : GUnit) => g.nsid == n.nsid && g.unit / s.zoneUnits == idx
  let zone := n.zones.getD idx 0
  let held := s.str.stripes.filter fun t =>
    t.nsid == n.nsid && t.kind == 0 && t.num / 1024 == zone && cut ≤ idx * s.zoneLbas n + t.num % 1024 * s.dataMembers * n.unitLbas
  let s := held.foldl (fun s t => closeStripe t.num s) s
  let s := s.setStr fun x => { x with gather := (x.gather.map fun (g : GUnit) =>
    if mine g then { g with items := g.items.filter fun i => i.1 < cut } else g).filter fun g => !mine g || !g.items.isEmpty }
  let s := completeAll (fun c => c.qid != 0 && c.nsid == n.nsid && [1, 0x7D].contains c.op && cut ≤ c.slba
    && c.slba / s.zoneLbas n == idx) scZoneInvalidWrite 0 s
  { s with hst := { s.hst with zones := s.hst.zones.map fun z =>
      if z.nsid == n.nsid && z.idx == idx then { z with swp := z.wp } else z } }

/-- Gathered data that cannot be read leaves the stripe, and its commands complete with Internal Error (Table 16.2). A zone they were
for fails the later writes too (R393). -/
def fetchUnits (n : Ns) (us : List BlockRead) (units : List GUnit) (s : State) : Bool × State :=
  units.zipIdx.foldl (fun (r : Bool × State) p =>
    let f := memLoad srcSTR (r.2.unitAddr p.1 / 64) (us.getD p.2 {}) .clean r.2
    if f.1 then (r.1, f.2)
    else
      let s := f.2.setStr fun x => { x with gather := x.gather.filter fun g => g != p.1 }
      let s := completeAll (fun c => c.qid != 0 && p.1.cmds.contains c.seq && [1, 8, 0x7D].contains c.op) scInternal 0 s
      (false, s.when n.zoned (failZone n (p.1.unit / s.zoneUnits) (p.1.unit * n.unitLbas)))) (true, s)

/-! ### The system zones (R322, R330) -/

/-- The codewords of a member of a system stripe: one map page each, zeros where there are no more. -/
def State.pageWords (s : State) (stripe j wseq : Nat) (pages : List (Nat × Nat)) : List Nat :=
  (List.range 16).map fun c =>
    let base : Meta := { pba := s.locate stripe j, cwix := c, kind := 1, member := j, enc := false, nsid := 0, keygen := 0, wseq
                         lba := 2 ^ 64 - 1, stripe }
    match pages[c]? with
    | none => encodeCw (List.replicate 4096 0) base
    | some g =>
      let per := match s.nsOf g.1 with
        | some n => n.unitLbas
        | none => 1
      encodeCw ((List.range 512).flatMap fun i => leBytes 8 (Sparse.get s.str.map (mapKey g.1 (512 * g.2 + i))))
        { base with nsid := g.1, lba := 512 * g.2 * per }

/-- No directory in force or durable refers to a stripe of the zone. -/
def State.zoneUnreferred (s : State) (z : Nat) : Bool :=
  (s.str.dir ++ s.str.dirDur).all fun e => (e.2 - 1) % 2 ^ 32 / 1024 != z

/-- A stripe of a system zone opens with the next changed map pages of the checkpoint (R322, R330): sixteen to a data member. A full zone
begins anew once nothing refers to it. -/
def openSystem (z : Nat) (s : State) : State :=
  match s.str.ckpt with
  | none => s
  | some c =>
    let v := s.vzone sysNs z
    let v := if v.fill == 1024 && (s.openIn z).isEmpty && s.zoneUnreferred z then { v with fill := 0, st := 1 } else v
    let taken := (s.str.stripes.filter fun t => t.kind == 1).flatMap fun t => t.units.map fun g => (g.nsid, g.unit)
    let dm := s.dataMembers
    let pages := (c.pages.filter fun g => !taken.contains g).take (16 * dm)
    let at' := v.fill + (s.str.stripes.filter fun t => t.num / 1024 == z).length
    let num := 1024 * z + at'
    if pages.isEmpty || sysZones ≤ z || 1024 ≤ at' then s
    else
      let r := prepareZone sysNs z (setVzone { v with st := max v.st 1 } s)
      if !r.1 || r.2.str.wres ≤ r.2.str.wseq then r.2
      else
        let s := r.2
        let wseq := s.str.wseq
        let data := (List.range dm).map fun j => (j, s.pageWords num j wseq ((pages.drop (16 * j)).take 16))
        let t : Stripe := { num, wseq, nsid := sysNs, kind := 1, mems := s.writeSet (List.range dm)
                            units := pages.map fun g => { nsid := g.1, unit := g.2 }, data := s.withParity num wseq data }
        syncOpen ((takeWseq s).setStr fun x => { x with stripes := x.stripes ++ [t] })

/-- STRIPE_OPEN: gathered units of a namespace open the next stripe of one of its zones; `us` is what the reads of their data decode to.
It opens full, or short where durability asks for it (R314); at most MAXOPEN stripes are open, and no stripe of a clean zone while
MAXDIRTY zones are dirty. Units that are merged, and the members that an extension stands beside, are read first. A
conventional namespace opens none until its map pages are loaded, which show where its part-filled stripe ends (DESIGN CHOICE, log entry
190). Namespace 0xFF names the system zones. -/
def execStripeOpen (nsid zone : Nat) (us : List BlockRead) (s : State) : Res :=
  if nsid == sysNs then s.doIf (s.mayOpenSys && s.str.stripes.length < s.get STR_CFG_MAXOPEN) (openSystem zone)
  else
    match s.nsOf nsid with
    | none => .next s
    | some n => s.doIf (s.mayOpen && n.zones.contains zone && s.str.stripes.length < s.get STR_CFG_MAXOPEN) fun s =>
        let v := s.vzone nsid zone
        let busy := s.openIn zone
        let avail := s.openable n zone
        let dm := s.dataMembers
        let base := v.fill + busy.length
        let part := if busy.isEmpty then v.part else 0
        let inZone := fun (g : GUnit) => g.unit % s.zoneUnits
        let first := if n.zoned then (avail.map inZone).headD 0 % dm else part
        let num := 1024 * zone + (if n.zoned then (avail.map inZone).headD 0 / dm else base)
        let units := if n.zoned then (avail.filter fun g => inZone g / dm == num % 1024) else avail.take (dm - part)
        let idx := if n.zoned then units.map fun g => inZone g % dm else (List.range units.length).map (part + ·)
        let full := first + units.length == dm
        let ready := !units.isEmpty && (n.zoned || !s.str.pagesLeft.any fun p => p.1 == nsid) && (full || s.str.short.contains nsid) && num / 1024 == zone
          && busy.all (fun t => t.mems.length == s.volWidth) && !(s.str.stripes.any fun t => t.num == num)
          && !(s.str.rebuild.any fun r => r.stripe == num && r.running)
          && (n.zoned || v.st == 1 || !(s.str.zones.any fun w => w.owner == nsid && w.st == 1)) && v.st ≤ 1
        let alone := num % 1024 == v.fill && 0 < part && v.held.isEmpty
        if !ready then s
        else if alone || units.any (s.needsBase n) then
          let s := s.when alone (askSome 0 num ((List.range part).map fun j => (j, List.range 16)))
          (units.filter (s.needsBase n)).foldl (fun s g => askBase n g s) s
        else
          let r := prepareZone nsid zone s
          if !r.1 || r.2.str.wres ≤ r.2.str.wseq then r.2
          else
            let f := fetchUnits n us units r.2
            if f.1 then openStripe n zone num units idx f.2 else f.2

/-- GATHER_TIMEOUT: GATHER ms have passed since the oldest gathered data of a namespace arrived: it opens short (R392). -/
def execGatherTimeout (nsid : Nat) (s : State) : Res := s.doIf s.on (askShort nsid)

/-- STRIPE_WRITTEN: every member of the transaction is written (Table 12.3). -/
def execStripeWritten (stripe : Nat) (s : State) : Res :=
  match s.stripeOf stripe with
  | none => .next s
  | some t => s.doIf (s.on && t.st == 0 && !t.voiding && t.mems.all fun m => m.st == 1 || m.st == 2)
      (setStripe stripe fun t => { t with st := 1 })

/-- STRIPE_VERIFIED: every member written has passed verify (Table 12.3). -/
def execStripeVerified (stripe : Nat) (s : State) : Res :=
  match s.stripeOf stripe with
  | none => .next s
  | some t => s.doIf (s.on && t.st == 1 && t.mems.all fun m => m.st == 2) (setStripe stripe fun t => { t with st := 2 })

/-! ### Commit (R316) -/

/-- The block a unit leaves had codewords marked lost: its new data ends the KIND 0x03 entry (R350). -/
def endLost (nsid unit : Nat) (s : State) : State :=
  let m := s.mapOf nsid unit
  if m.1 != 1 then s
  else
    let p := s.locate m.2.1 m.2.2
    match s.defectOf p with
    | some d => if d.kind == 3 then addDefect ⟨p, 0xFFFFFFFF, 1, 4, 0, 0, false⟩ s else s
    | none => s

/-- Codewords that a merged or moved unit keeps and that cannot be read are marked lost at its new block (R350; DESIGN CHOICE, log entry
189). -/
def keepLost (n : Ns) (num member : Nat) (u : GUnit) (s : State) : State :=
  let kept := maskOf ((List.range 16).filter fun c => u.lost.testBit c
    && (List.range n.cwLbas).any fun i => !u.items.any fun x => x.1 == cwFirst n u.unit c + i)
  s.when (kept != 0) (addDefect ⟨s.locate num member, 0xFFFFFFFF, 3, 4, kept, 0, false⟩)

/-- The map entries or the write pointer of one unit move. A unit that cleaning moves and that has changed since stays where it is. -/
def commitUnit (n : Ns) (num member : Nat) (u : GUnit) (s : State) : State :=
  if n.zoned then
    let zl := s.zoneLbas n
    let i := u.unit / s.zoneUnits
    let top := u.items.foldl (fun m x => max m (x.1 % zl + 1)) 0
    let s := keepLost n num member u s
    { s with hst := { s.hst with zones := s.hst.zones.map fun z =>
        if z.nsid == n.nsid && z.idx == i then
          { z with wp := max z.wp top, swp := max z.swp top, st := if zl ≤ max z.wp top then 0xE else z.st }
        else z } }
  else if u.move then
    let m := s.mapOf n.nsid u.unit
    if m.1 == 1 && u.src == some m.2 then
      keepLost n num member u ((setMap n.nsid u.unit 1 num member s).addSat MAP_CLEAN_UNITS 1)
    else s
  else keepLost n num member u (setMap n.nsid u.unit 1 num member (endLost n.nsid u.unit s))

/-- The zone's fill follows a commit; STR holds the members of a part-filled stripe (R314). -/
def advanceFill (t : Stripe) (s : State) : State :=
  let v := s.vzone t.nsid (t.num / 1024)
  let dm := s.dataMembers
  let top := t.data.foldl (fun m x => if x.1 < dm then max m (x.1 + 1) else m) 0
  let v := if dm ≤ top || t.kind == 1 then { v with fill := t.num % 1024 + 1, part := 0, held := [] }
    else { v with fill := t.num % 1024, part := top, held := t.data.filter fun d => d.1 < dm }
  setVzone { v with st := if v.fill == 1024 then 2 else 1 } s

/-- The map pages of a system stripe lie where it puts them; with the last of them the checkpoint goes on (R322). -/
def commitPages (t : Stripe) (s : State) : State :=
  let s := (t.units.zipIdx.filter fun p => (s.nsOf p.1.nsid).isSome).foldl (fun s p => s.setStr fun x => { x with
    dir := Sparse.set x.dir (mapKey p.1.nsid p.1.unit) (1 + t.num + (p.2 / 16) * 2 ^ 32 + (p.2 % 16) * 2 ^ 40) }) s
  ckptRecords (setCkpt (fun c => { c with pages := c.pages.filter fun g => !t.units.any fun u => (u.nsid, u.unit) == g }) (advanceFill t s))

/-- STRIPE_COMMIT: at the first tick after VERIFIED at which every remap of the stripe is durable, the write pointer or the map moves and
the writes that waited complete. Stripes of a zone commit in stripe order; a refresh moves nothing (R313, R315, R316, R355, R392). -/
def execStripeCommit (stripe : Nat) (s : State) : Res :=
  match s.stripeOf stripe with
  | none => .next s
  | some t =>
    let first := t.kind == 3 || t.kind == 1 || t.kind == 2 || (s.openIn (stripe / 1024)).all fun u => stripe ≤ u.num
    let durable := t.mems.all fun m => !s.remapWaits (s.locate stripe m.idx)
    s.doIf (s.on && t.st == 2 && first && durable) fun s =>
      let s := closeStripe stripe (noteCommit stripe s)
      if t.kind == 3 then s.inc HLT_CNT_REFRESH
      else if t.kind == 2 then s
      else if t.kind == 1 then commitPages t s
      else
        match s.nsOf t.nsid with
        | none => s
        | some n =>
          let data := (List.range s.dataMembers).filter fun j => t.mems.any fun m => m.idx == j
          let s := (t.units.zip data).foldl (fun s p => commitUnit n stripe p.2 p.1 s) s
          let s := setCkpt (fun c => { c with since := c.since ++ [stripe / 1024] }) s
          completeReady (touchNs n.nsid (advanceFill t s))

/-! ### Void (R317, R356, R394) -/

/-- The writes that a stripe holds fail. -/
def failUnits (t : Stripe) (st : Nat × Nat × Bool) (s : State) : State :=
  let seqs := t.units.flatMap GUnit.cmds
  completeAll (fun c => c.qid != 0 && seqs.contains c.seq && [1, 0x7D].contains c.op) st 0 s

/-- A zoned stripe reopens under its number with a new WSEQ; members that could not be placed take a new replacement. -/
def reopenStripe (t : Stripe) (s : State) : State :=
  let w := s.str.wseq
  let bad := t.mems.filter fun m => m.st == 3
  let s := bad.foldl (fun s m =>
    let p := s.locate t.num m.idx
    match s.replacement t.num p with
    | some q => addDefect ⟨p, q, 1, 1, 0, 0, false⟩ s
    | none => s) (takeWseq s)
  setStripe t.num (fun u => { u with
    wseq := w, st := 0, remaps := 0, voiding := false, mems := u.mems.map fun m => { idx := m.idx } }) s

/-- STRIPE_VOID: a member cannot be placed within two remaps: the stripe is voided (R317). A zoned namespace reopens it, or,
where no replacement is left, makes the zone Read Only and fails the writes (R394); a conventional one gathers its units into
the next stripe; a refresh leaves the stripe as it was and is queued once more (Table 13.6). -/
def execStripeVoid (stripe : Nat) (s : State) : Res :=
  match s.stripeOf stripe with
  | none => .next s
  | some t => s.doIf (s.on && t.voiding) fun s =>
      let s := eventRec 0x07 1 [stripe] false (logFlt 12 kINFO 0x01 0 [stripe, stripe / au24] (s.inc STR_CNT_VOIDS))
      if t.kind == 3 then
        let s := closeStripe stripe s
        if t.again then s else queueRefresh t.key stripe true s
      else if t.kind == 2 then closeStripe stripe s
      else if t.kind == 1 then
        let v := s.vzone sysNs (stripe / 1024)
        setVzone { v with fill := max v.fill (stripe % 1024 + 1) } (closeStripe stripe s)
      else
        match s.nsOf t.nsid with
        | none => closeStripe stripe s
        | some n =>
          if n.zoned then
            let stuck := (t.mems.filter fun m => m.st == 3).any fun m => (s.replacement stripe (s.locate stripe m.idx)).isNone
            if !stuck then reopenStripe t s
            else
              let i := ((t.units.map fun g => g.unit / s.zoneUnits).headD 0)
              let s := failZone n i (i * s.zoneLbas n + stripe % 1024 * s.dataMembers * n.unitLbas) (closeStripe stripe (failUnits t scWriteFault s))
              zoneChanged n.nsid i { s with hst := { s.hst with zones := s.hst.zones.map fun z =>
                  if z.nsid == n.nsid && z.idx == i then { z with st := 0xD } else z } }
          else
            let s := closeStripe stripe s
            let s := s.setStr fun x => { x with gather := t.units ++ x.gather }
            let v := s.vzone n.nsid (stripe / 1024)
            askShort n.nsid (setVzone { v with fill := max v.fill (stripe % 1024 + 1), part := 0, held := [] } s)

/-! ### Rebuild (R326 to R329) -/

/-- Failed members of a stripe that are queued. -/
def State.failedCount (s : State) (stripe : Nat) : Nat := (s.str.rebuild.filter fun r => r.stripe == stripe).length
/-- Stripe `a` goes before stripe `b` (R327). -/
def State.rebuildFirst (s : State) (a b : Nat) : Bool :=
  let key := fun x => if s.failedCount x == s.volParity then 1000 else s.failedCount x
  key b < key a || (key a == key b && a < b)

/-- REBUILD_START: the next job starts, of at most 64 stripes at once; it waits for a refresh open on its stripe (R327,
Table 13.6). Its replacement follows R309 and R328, and its stripe is read. -/
def execRebuildStart (s : State) : Res :=
  let running := ((s.str.rebuild.filter fun r => r.running).map fun r => r.stripe).eraseDups
  s.doIf (s.inLife [MOUNTED] && running.length < 64) fun s =>
    let idle := s.str.rebuild.filter fun r => !r.running && !(s.str.stripes.any fun t => t.num == r.stripe)
    let best := idle.foldl (fun (b : Option Nat) r =>
      match b with
      | none => some r.stripe
      | some x => if s.rebuildFirst r.stripe x then some r.stripe else some x) none
    match best with
    | none => s
    | some x =>
      let s := s.setStr fun y => { y with rebuild := y.rebuild.map fun r =>
        if r.stripe == x && !r.running then { r with running := true, repl := s.replacement x (s.locate x r.member) } else r }
      askWhole 1 [x] s

/-- REBUILD_COMPLETE: the replacement has passed verify and its GDEFECT record is durable (R328). -/
def execRebuildComplete (stripe : Nat) (member : Fin 20) (s : State) : Res :=
  match s.str.rebuild.find? fun r => r.stripe == stripe && r.member == member.val && r.running with
  | none => .next s
  | some r => s.doIf (s.on && r.st == 3 && r.repl == some (s.locate stripe member)) fun s =>
      let s := s.setStr fun x => { x with rebuild := x.rebuild.filter fun y => !(y.stripe == stripe && y.member == member.val) }
      syncHealth (syncRebuild (s.inc STR_RB_DONE))

/-! ### Checkpoints and cleaning (R322, R333) -/

/-- A checkpoint is written in MOUNTED, and in the checkpoint step of an Unmount. -/
def State.mayCheckpoint (s : State) : Bool := s.inLife [MOUNTED] || (s.inLife [PARKING] && s.get SYS_MNTPROG_STEP == 0xB)

/-- CHECKPOINT (R322). -/
def execCheckpoint (s : State) : Res := s.doIf s.mayCheckpoint checkpoint

/-- CHECKPOINT_TIMER: CKPTS seconds after the oldest uncovered commit (R322). -/
def execCheckpointTimer (s : State) : Res := s.doIf (s.inLife [MOUNTED] && !s.str.changed.isEmpty) checkpoint

/-- The read of a map page is asked for, where the directory names a place (R332). -/
def askPage (nsid page : Nat) (s : State) : State :=
  let v := Sparse.get s.str.dir (mapKey nsid page)
  if v == 0 || s.str.pageGot.any fun g => g.1 == nsid && g.2.1 == page then s
  else askSome 1 ((v - 1) % 2 ^ 32) [((v - 1) / 2 ^ 32 % 256, [(v - 1) / 2 ^ 40])] s
/-- The pages are loaded in the background, in ascending order of each namespace. -/
def askNextPage (s : State) : State :=
  match s.str.pagesLeft with
  | [] => s
  | g :: _ => askPage g.1 g.2 s

/-- Where MAPCACHE holds a page: those of the namespaces one behind another (DESIGN CHOICE, log entry 179). -/
def State.pageAddr (s : State) (nsid page : Nat) : Nat :=
  let below := ((s.hst.ns.filter fun n => !n.zoned && n.nsid < nsid).map Ns.pages).sum
  ((s.region 4).map fun r => 65536 * r.base + 4096 * ((below + page) % max 1 (16 * r.size))).getD 0
def srcMAP := 0x5
/-- The page is loaded first for the commands that need it. -/
def demandPage (nsid page : Nat) (s : State) : State :=
  askPage nsid page ((s.inc MAP_DF_COUNT).setStr fun x => { x with
    pageWait := x.pageWait ++ [(nsid, page)]
    pagesLeft := (nsid, page) :: x.pagesLeft.filter (· != (nsid, page)) })
/-- A page of MAPCACHE that cannot be read is to be loaded again; what has changed of it since the latest checkpoint stands in the delta list
(Table 16.2; DESIGN CHOICE, log entry 217). -/
def losePage (nsid page : Nat) (s : State) : State :=
  let key := fun i => mapKey nsid (512 * page + i)
  s.when (s.str.pagesDirty.contains (nsid, page)) fun s => s.setStr fun x => { x with
    delta := (List.range 512).foldl (fun d i =>
      if Sparse.get x.map (key i) == 0 then d else Sparse.set d (key i) (Sparse.get x.map (key i))) x.delta }
/-- MAP_DEMAND_LOAD: a command needs a page that is not loaded, or that MAPCACHE, which returns `o` for its first block, cannot give: the
page is read first (R332, Table 16.2). -/
def execMapDemandLoad (nsid page : Nat) (o : BlockRead) (s : State) : Res :=
  s.doIf (s.inLife [MOUNTED] && !s.str.pageWait.contains (nsid, page)) fun s =>
    if s.str.pagesLeft.contains (nsid, page) then demandPage nsid page s
    else if s.hst.ns.any fun n => n.nsid == nsid && !n.zoned && page < n.pages then
      let r := memLoad srcMAP (s.pageAddr nsid page / 64) o .clean s
      if r.1 then r.2 else syncMapPhase (demandPage nsid page (losePage nsid page r.2))
    else s

/-- CLEANING: a conventional namespace with fewer than two free zones has the active or full zone with the fewest mapped
units cleaned: its units are gathered to move, and at their commit the map moves; the zone is free after the next checkpoint
(R333). -/
def execCleaning (nsid : Nat) (s : State) : Res :=
  match s.nsOf nsid with
  | none => .next s
  | some n =>
    let used := (s.str.zones.filter fun v => v.owner == nsid && (v.st == 1 || v.st == 2))
    s.doIf (s.inLife [MOUNTED] && !n.zoned && (s.idleZones n).length < 2 && !used.isEmpty) fun s =>
      let best := used.foldl (fun (b : Option VZone) v =>
        match b with
        | none => some v
        | some x => if (s.mappedIn nsid v.z).length < (s.mappedIn nsid x.z).length then some v else some x) none
      match best with
      | none => s
      | some v =>
        let had := fun (u : Nat) => s.str.gather.any fun g => g.nsid == nsid && g.unit == u && g.move
        let us := (((s.mappedIn nsid v.z).filter fun u => !had u).zipIdx).map fun p =>
          ({ nsid, unit := p.1, move := true, slot := s.str.wslot + p.2 } : GUnit)
        let s := setVzone { v with st := 3 } s
        let s := s.setStr fun x => { x with gather := x.gather ++ us, wslot := x.wslot + us.length }
        touchNs nsid (askShort nsid s)

end Sys2Proof.Machine
end

