-- ==== Sys2Proof/Machine/Io.lean ====
section
/-! DEFINITION. The I/O commands, their checks, the range locks and the zones (R387, R391 to R396, R398, R522, R523). -/

namespace Sys2Proof.Machine

open R

/-- The transfer limit of 2 MiB (Table 15.2, MDTS). -/
def mdtsBytes : Nat := 2 ^ 21

/-- Opcodes that only a zoned, only a conventional namespace takes (Table 15.7). -/
def zonedOnly : List Nat := [0x79, 0x7A, 0x7D]
def convOnly : List Nat := [8, 9]

/-- The check of an I/O command at its fetch: the status that refuses it, or none (R391, R398, R401, R522, R525, Table
15.11). `len` is the number of blocks it transfers or covers. -/
def State.ioRefusal (s : State) (c : HCmd) (len : Nat) : Option (Nat × Nat × Bool) :=
  if s.life != MOUNTED then some scNotReady
  else if s.flag SEC_STAT_SANITIZING then some scSanitize
  else if c.op == 0 && c.nsid == 0xFFFFFFFF then none
  else
    match s.nsOf c.nsid with
    | none => some scInvalidNs
    | some n =>
      if !n.attach.testBit c.port then some scInvalidField
      else if s.hst.swaps.any (fun w => w.nsid == c.nsid) then some scAnaTransition
      else if s.cust c.nsid != c.port + 1 then some scAnaInaccessible
      else if n.enc && !(s.sec.slots.any fun k => k.1 == c.nsid) then some scKeyMissing
      else if (if n.zoned then convOnly else zonedOnly).contains c.op then some scInvalidOpcode
      else if c.op == 0 then none
      else if n.nsze < c.slba + len then some scLbaRange
      else if [1, 2, 0x7D].contains c.op && mdtsBytes < len * n.lba then some scInvalidField
      else none

/-! ### Range locks (R396) -/

/-- Two entries conflict: they overlap and one of them is modifying. -/
def conflicts (a b : HCmd) : Bool :=
  a.locked && b.locked && a.nsid == b.nsid && (a.modify || b.modify) && a.lo < b.hi && b.lo < a.hi
def State.conflicted (s : State) (c : HCmd) : Bool := s.hst.cmds.any fun d => d.seq < c.seq && conflicts d c
/-- The command needs a map page not yet loaded (R332), or its zones hold a stripe under refresh (Table 13.6). -/
def State.pagesWait (s : State) (c : HCmd) : Bool :=
  match s.nsOf c.nsid with
  | none => false
  | some n =>
    if n.zoned then
      c.op == 0x79 && s.str.stripes.any fun t => t.kind == 3 && t.nsid == c.nsid && c.data.any fun i => n.zones[i]? == some (t.num / 1024)
    else (List.range (c.hi - c.lo)).any fun i => !s.pageReady c.nsid (c.lo + i)

/-! ### Reading (R324, R395, R466) -/

/-- A read asks for the units it waits for: a stripe whose data members it needs all, and one with a member that is not read itself, is read whole;
of any other only the codewords that hold its blocks (R324, R327). -/
def askUnits (c : HCmd) (n : Ns) (s : State) : State :=
  let stripes := (c.need.map fun u => u.2.1).eraseDups
  let needs := fun st j => c.need.any fun u => u.2 == (st, j)
  let whole := stripes.filter fun st =>
    ((s.writtenMembers st).filter (· < s.dataMembers)).all (needs st) || c.need.any fun u => u.2.1 == st && s.unreadable st u.2.2
  let parts := stripes.filter fun st => !whole.contains st
  parts.foldl (fun s st => askPart 0 st ((c.need.filter fun u => u.2.1 == st).map fun u =>
    (u.2.2, ((c.lbas.filter fun l => l / n.unitLbas == u.1).map (lbaCwix n)).eraseDups)) s) (askWhole 0 whole s)

/-- Read and Verify (R391, R395): blocks that hold no committed data read zeros, or refuse the command under DULBE; blocks marked lost fail
it; what read-ahead holds is served from there, but for FUA (R466); all else is read. -/
def runRead (c : HCmd) (n : Ns) (s : State) : State :=
  let held := c.lbas.filter (s.lbaWritten n)
  if s.feat c.port 5 c.nsid 0 % 131072 / 65536 == 1 && held.length < c.lbas.length then finishIo c scUnwritten s
  else
    let fault := (held.find? (s.lbaLost n)).map fun l => (l, 1)
    let units := (held.map fun l => l / n.unitLbas).eraseDups
    let need := if fault.isSome then [] else units.filterMap fun u => (s.unitPlace n u).map fun m => (u, m.1, m.2)
    let ahead := fun (u : Nat × Nat × Nat) => if c.fua then none else (s.str.ahead.find? fun a => a.1 == u.2.1).map Prod.snd
    let r := need.foldl (fun (r : HCmd × State) u =>
      match ahead u with
      | none => ({ r.1 with need := r.1.need ++ [u] }, r.2)
      | some got => takeUnit r.1 n u.1 (((got.find? fun p => p.1 == u.2.2).map Prod.snd).getD []) r.2) ({ c with fault, begun := true }, s)
    let s := updCmd c.seq (fun _ => r.1) r.2
    if r.1.need.isEmpty then finishRead r.1 n s else askUnits r.1 n s

/-! ### Zones (R393, R394) -/

def zEMPTY := 1
def zIMPL := 2
def zEXPL := 3
def zCLOSED := 4
def zREADONLY := 0xD
def zFULL := 0xE

def State.zoneSt (s : State) (nsid i : Nat) : ZoneSt :=
  (s.hst.zones.find? fun z => z.nsid == nsid && z.idx == i).getD { nsid, idx := i }
def setZone (z : ZoneSt) (s : State) : State :=
  let hit := fun (y : ZoneSt) => y.nsid == z.nsid && y.idx == z.idx
  let l := s.hst.zones
  let l := if (l.any hit) = true then l.map (fun y => if hit y then z else y) else l ++ [z]
  { s with hst := { s.hst with zones := l } }
def zoneActive (z : ZoneSt) : Bool := z.st == zIMPL || z.st == zEXPL || z.st == zCLOSED
def State.activeZones (s : State) : Nat := (s.hst.zones.filter zoneActive).length

/-- One more zone may become active (R394). -/
def State.mayActivate (s : State) (z : ZoneSt) : Bool := zoneActive z || s.activeZones + 1 ≤ s.get STR_JCFG_MAXDIRTY - 1

/-- The status that refuses a write of `len` blocks at `at'` of a zone, or none (R393, R394). -/
def State.zoneWriteRefusal (s : State) (n : Ns) (z : ZoneSt) (at' len : Nat) : Option (Nat × Nat × Bool) :=
  if z.st == zFULL then some scZoneFull
  else if z.st == zREADONLY then some scZoneReadOnly
  else if s.zoneLbas n < at' + len then some scZoneBoundary
  else if at' != z.swp then some scZoneInvalidWrite
  else if !s.mayActivate z then some scTooManyActive
  else none

/-- An accepted write of a zone: the zone opens, SWP advances. -/
def acceptZoneWrite (z : ZoneSt) (len : Nat) (s : State) : State :=
  setZone { z with swp := z.swp + len, st := if z.st == zEXPL then zEXPL else zIMPL } s

/-! ### Writing (R391, R392) -/

/-- The blocks of a command are stored in the units that gather them: whether all go without a bus error (R426, Table 16.2). -/
def storeData (c : HCmd) (n : Ns) (data : List Nat) (s : State) : Bool × State :=
  let lines := (n.lba + 255) / 256
  data.zipIdx.foldl (fun (r : Bool × State) p =>
    let lba := c.slba + p.2
    match r.2.str.gather.find? fun g => g.nsid == n.nsid && g.unit == lba / n.unitLbas && !g.move with
    | none => r
    | some g =>
      let y := memStore c.port (r.2.unitAddr g + lba % n.unitLbas * n.lba) ((leBytes n.lba p.1).map fun b => BitVec.ofNat 8 b)
        (c.ls.drop (lines * p.2)) r.2
      (r.1 && y.1, y.2)) (true, s)

/-- The data of a Write or Zone Append enters the WRITE region. On a bus error it does not, and the command completes with Internal Error
(Table 16.2). -/
def runWrite (c : HCmd) (n : Ns) (s : State) : State :=
  let data := (List.range c.nlb).map fun i => c.data.getD i 0 % 2 ^ (8 * n.lba)
  let before := s.str.gather
  let r := storeData c n data (gatherBlocks n c.seq c.slba data s)
  let s := r.2
  if !r.1 then
    let s := finishIo c scInternal (s.setStr fun x => { x with gather := before })
    s.when n.zoned (failZone n (c.slba / s.zoneLbas n) c.slba)
  else
    let s := updCmd c.seq (fun c => { c with begun := true }) s
    let s := { s with hst := { s.hst with
      hostWrites := s.hst.hostWrites + 1, unitsWritten := s.hst.unitsWritten + c.nlb * n.lba / 512 } }
    s.when (s.feat c.port 6 0 1 % 2 == 0) (askShort c.nsid)

/-- The whole map units of an LBA range, and the blocks of it that cover a unit only in part. -/
def unitsOf (n : Ns) (slba nlb : Nat) : List Nat × List Nat :=
  let a := (slba + n.unitLbas - 1) / n.unitLbas
  let b := (slba + nlb) / n.unitLbas
  let whole := (List.range (b - a)).map (a + ·)
  (whole, ((List.range nlb).map (slba + ·)).filter fun l => !whole.contains (l / n.unitLbas))

/-- Write Zeroes: whole units take state 2, blocks of mapped units covered in part are written as zeros; it completes once a
checkpoint after it has verified (R391). -/
def runWriteZeroes (c : HCmd) (n : Ns) (s : State) : State :=
  let u := unitsOf n c.slba c.nlb
  let s := u.1.foldl (fun s k => setMap n.nsid k 2 0 0 s) (updCmd c.seq (fun c => { c with begun := true, left := s.ckptsToWait }) s)
  let s := u.2.foldl (fun s l => s.when (s.lbaWritten n l) (gatherOne n c.seq l 0)) s
  askShort n.nsid (touchNs n.nsid s)

/-- Dataset Management: the whole units of each range take state 2 at once (R391). -/
def runDsm (c : HCmd) (n : Ns) (s : State) : State :=
  let s := (List.range (c.data.length / 2)).foldl (fun s i =>
    (unitsOf n (c.data.getD (2 * i) 0) (c.data.getD (2 * i + 1) 0)).1.foldl (fun s k => setMap n.nsid k 2 0 0 s) s) s
  finishIo c scSuccess (s.when (!c.data.isEmpty) (touchNs n.nsid))

/-! ### Zone Management Send (R394) -/

/-- The states an action may start from: 1 Close, 2 Finish, 3 Open, 4 Reset. -/
def zoneFrom (act st : Nat) : Bool :=
  match act with
  | 1 => [zIMPL, zEXPL, zCLOSED].contains st
  | 2 => [zEMPTY, zIMPL, zEXPL, zCLOSED, zFULL].contains st
  | 3 => [zEMPTY, zIMPL, zEXPL, zCLOSED].contains st
  | _ => [zEMPTY, zIMPL, zEXPL, zCLOSED, zFULL].contains st
/-- The states Select All takes. -/
def zoneSelect (act st : Nat) : Bool :=
  match act with
  | 1 => [zIMPL, zEXPL].contains st
  | 2 => [zIMPL, zEXPL, zCLOSED].contains st
  | 3 => st == zCLOSED
  | _ => [zIMPL, zEXPL, zCLOSED, zFULL].contains st

/-- A zone is reset: Empty, both pointers at its start, its queued refreshes dropped. -/
def resetZone (n : Ns) (i : Nat) (s : State) : State :=
  let z := n.zones.getD i 0
  let s := setZone { s.zoneSt n.nsid i with st := zEMPTY, wp := 0, swp := 0 } s
  let s := (s.hlt.refresh.filter fun r => r.2.1 / 1024 == z).foldl (fun s r => dropRefresh r.2.1 s) s
  s.when (s.str.zones.any fun v => v.z == z) (setVzone { s.vzone n.nsid z with st := 1, fill := 0, part := 0, held := [] })

/-- A Zone Management Send runs on its zones (`c.data`) with its action (`c.arg`): Open and Close at once; a Finish once its
zones' data has committed; a Reset once a ZONECKPT after it has verified. -/
def runZoneSend (c : HCmd) (n : Ns) (s : State) : State :=
  match c.data.find? fun i => !zoneFrom c.arg (s.zoneSt n.nsid i).st with
  | some _ => finishIo c scZoneTransition s
  | none =>
    let new := (c.data.filter fun i => !zoneActive (s.zoneSt n.nsid i)).length
    if c.arg == 3 && s.get STR_JCFG_MAXDIRTY - 1 < s.activeZones + new then finishIo c scTooManyActive s
    else
      let setSt := fun st => c.data.foldl (fun s i => setZone { s.zoneSt n.nsid i with st } s) s
      match c.arg with
      | 1 => finishIo c scSuccess (setSt zCLOSED)
      | 3 => finishIo c scSuccess (setSt zEXPL)
      | 2 => completeReady (askShort n.nsid (updCmd c.seq (fun c => { c with begun := true }) (touchNs n.nsid s)))
      | _ =>
        let s := c.data.foldl (fun s i => resetZone n i s) s
        touchNs n.nsid (updCmd c.seq (fun c => { c with begun := true, left := s.ckptsToWait }) s)

/-! ### Running a command -/

/-- A command's effect once nothing it waits for is left. -/
def runIo (c : HCmd) (s : State) : State :=
  let s := updCmd c.seq (fun c => { c with waiting := false }) s
  if c.op == 0 then
    let s := updCmd c.seq (fun c => { c with begun := true }) s
    let s := (s.str.gather.map GUnit.nsid).eraseDups.foldl (fun s k =>
      s.when (c.nsid == 0xFFFFFFFF || c.nsid == k) (askShort k)) s
    completeReady s
  else
    match s.nsOf c.nsid with
    | none => finishIo c scInvalidNs s
    | some n =>
      match c.op with
      | 1 => runWrite c n s
      | 0x7D => runWrite c n s
      | 8 => runWriteZeroes c n s
      | 9 => runDsm c n s
      | 0x79 => runZoneSend c n s
      | _ => runRead c n s

/-- Waiting commands proceed, in the order of their fetch. -/
def pump (s : State) : State :=
  (s.hst.cmds.filter fun c => c.qid != 0 && c.waiting).foldl (fun s c =>
    if s.conflicted c || s.pagesWait c then s
    else if s.hst.cmds.any (fun d => d.seq == c.seq) then runIo c s else s) s

/-- A host command closes the patrol window of an idle patrol (R354). -/
def patrolYield (s : State) : State :=
  if (s.modeCfg s.mode).patrol == 1 then
    cutReads (fun w => w.act == 5) { s with hlt := { s.hlt with patrolRead := false } }
  else s

/-- The fetch of an I/O command (R379, R396): it takes its entry of the range-lock table, or stays unfetched while that is
full; `accept` is what its acceptance changes. A command that conflicts with an earlier one waits. -/
def ioFetch (c : HCmd) (refusal : State → Option (Nat × Nat × Bool)) (accept : HCmd → State → HCmd × State) (s : State) : Res :=
  .next <|
    if 4096 ≤ (s.hst.cmds.filter fun d => d.locked).length then s
    else
      match fetch c s with
      | none => s
      | some t =>
        let c := { c with seq := s.hst.fetchSeq }
        match refusal t with
        | some st => finishIo c st t
        | none =>
          let a := accept c (patrolYield t)
          let c := { a.1 with locked := true }
          let t := syncLocks (updCmd c.seq (fun _ => c) a.2)
          if t.conflicted c then (updCmd c.seq (fun c => { c with waiting := true }) t).inc HST_RLOCK_STALLS
          else if t.pagesWait c then updCmd c.seq (fun c => { c with waiting := true }) t
          else runIo c t

/-- The entry of a command over a range of blocks, in map units. -/
def rangeOf (n : Ns) (slba len : Nat) : Nat × Nat :=
  if len == 0 then (0, 0) else (slba / n.unitLbas, (slba + len - 1) / n.unitLbas + 1)

def ioCmd (c : IoCmd) (op : Nat) : HCmd :=
  { port := c.port, qid := c.qid.toNat, cid := c.cid.toNat, op, nsid := c.nsid.toNat, slba := c.slba.toNat
    nlb := c.nlb.toNat + 1 }

/-- Queue 0 is the admin queue. -/
def onIoQueue (c : IoCmd) (s : State) (k : Res) : Res := if c.qid == 0 then .next s else k

/-- A command over a plain range of blocks. -/
def plainIo (c : IoCmd) (op : Nat) (modify : Bool) (data : List Nat) (s : State) : Res :=
  onIoQueue c s <| ioFetch (ioCmd c op) (fun s => s.ioRefusal (ioCmd c op) (ioCmd c op).nlb) (fun h s =>
    match s.nsOf h.nsid with
    | none => (h, s)
    | some n => let r := rangeOf n h.slba h.nlb; ({ h with lo := r.1, hi := r.2, modify, data }, s)) s

/-- FLUSH (R392). -/
def execFlush (c : IoCmd) (s : State) : Res :=
  onIoQueue c s <| ioFetch (ioCmd c 0) (fun s => s.ioRefusal (ioCmd c 0) 0) (fun h s => (h, s)) s

/-- READ (R395): `fua` bypasses read-ahead; `os` is what buffer memory returns for the blocks that HST reads of its data (Table 16.2). -/
def execRead (c : IoCmd) (fua : Bool) (os : List BlockRead) (s : State) : Res :=
  let h := { ioCmd c 2 with fua, os }
  onIoQueue c s <| ioFetch h (fun s => s.ioRefusal h h.nlb) (fun h s =>
    match s.nsOf h.nsid with
    | none => (h, s)
    | some n => let r := rangeOf n h.slba h.nlb; ({ h with lo := r.1, hi := r.2 }, s)) s

/-- VERIFY: reads and decodes without transfer, with the statuses of a Read (R391). -/
def execVerify (c : IoCmd) (s : State) : Res := plainIo c 0xC false [] s

/-- A Write of a zone, or none in a conventional namespace: its refusal. -/
def State.writeRefusal (s : State) (h : HCmd) : Option (Nat × Nat × Bool) :=
  match s.ioRefusal h h.nlb, s.nsOf h.nsid with
  | none, some n =>
    if n.zoned then
      s.zoneWriteRefusal n (s.zoneSt n.nsid (h.slba / s.zoneLbas n)) (h.slba % s.zoneLbas n) h.nlb
    else none
  | r, _ => r

/-- WRITE (R392, R393). Its data is stored in the WRITE region; `ls` is what the Larder's lines that the stores hit hold (R426). -/
def execWrite (c : IoCmd) (data : List Nat) (ls : List LineOutcome) (s : State) : Res :=
  let h := { ioCmd c 1 with ls }
  onIoQueue c s <| ioFetch h (fun s => s.writeRefusal h) (fun h s =>
    match s.nsOf h.nsid with
    | none => (h, s)
    | some n =>
      let r := rangeOf n h.slba h.nlb
      ({ h with lo := r.1, hi := r.2, modify := true, data },
        s.when n.zoned fun s => acceptZoneWrite (s.zoneSt n.nsid (h.slba / s.zoneLbas n)) h.nlb s)) s

/-- ZONE_APPEND: SLBA names the zone; the data goes to its SWP, which the completion returns (R393). -/
def execZoneAppend (c : IoCmd) (data : List Nat) (ls : List LineOutcome) (s : State) : Res :=
  let h := { ioCmd c 0x7D with ls }
  onIoQueue c s <| ioFetch h (fun s =>
    match s.ioRefusal h 1, s.nsOf h.nsid with
    | none, some n =>
      let z := s.zoneSt n.nsid (h.slba / s.zoneLbas n)
      if h.slba % s.zoneLbas n != 0 || mdtsBytes < h.nlb * n.lba then some scInvalidField
      else s.zoneWriteRefusal n z z.swp h.nlb
    | r, _ => r) (fun h s =>
    match s.nsOf h.nsid with
    | none => (h, s)
    | some n =>
      let i := h.slba / s.zoneLbas n
      let z := s.zoneSt n.nsid i
      let slba := i * s.zoneLbas n + z.swp
      let r := rangeOf n slba h.nlb
      ({ h with slba, lo := r.1, hi := r.2, modify := true, data }, acceptZoneWrite z h.nlb s)) s

/-- WRITE_ZEROES (R391). -/
def execWriteZeroes (c : IoCmd) (s : State) : Res := plainIo c 8 true [] s

/-- DATASET_MANAGEMENT: without the deallocate attribute it does nothing; its one entry spans its ranges (R391, R396). -/
def execDatasetManagement (c : IoCmd) (ad : Bool) (ranges : List (Nat × Nat)) (s : State) : Res :=
  let h := { ioCmd c 9 with slba := 0, nlb := 0 }
  let top := ranges.foldl (fun m r => max m (r.1 + r.2)) 0
  let low := ranges.foldl (fun m r => min m r.1) top
  onIoQueue c s <| ioFetch h (fun s => s.ioRefusal h top) (fun h s =>
    match s.nsOf h.nsid with
    | none => (h, s)
    | some n =>
      let r := rangeOf n low (top - low)
      ({ h with lo := r.1, hi := r.2, modify := true, data := if ad then ranges.flatMap fun r => [r.1, r.2] else [] }, s)) s

/-- A Zone Management Send: its SLBA is a zone's first block, or it selects all zones in the states its action takes. -/
def zoneSend (c : IoCmd) (act : Nat) (all : Bool) (s : State) : Res :=
  let h := { ioCmd c 0x79 with arg := act, nlb := 0 }
  onIoQueue c s <| ioFetch h (fun s =>
    match s.ioRefusal h (if all then 0 else 1), s.nsOf h.nsid with
    | none, some n => if !all && h.slba % s.zoneLbas n != 0 then some scInvalidField else none
    | r, _ => r) (fun h s =>
    match s.nsOf h.nsid with
    | none => (h, s)
    | some n =>
      let zu := s.zoneUnits
      if all then
        let l := (List.range n.zones.length).filter fun i => zoneSelect act (s.zoneSt n.nsid i).st
        ({ h with data := l, lo := 0, hi := n.zones.length * zu, modify := true }, s)
      else
        let i := h.slba / s.zoneLbas n
        ({ h with data := [i], lo := i * zu, hi := (i + 1) * zu, modify := true }, s)) s

/-- ZONE_OPEN (R394). -/
def execZoneOpen (c : IoCmd) (all : Bool) (s : State) : Res := zoneSend c 3 all s
/-- ZONE_CLOSE (R394). -/
def execZoneClose (c : IoCmd) (all : Bool) (s : State) : Res := zoneSend c 1 all s
/-- ZONE_FINISH (R394). -/
def execZoneFinish (c : IoCmd) (all : Bool) (s : State) : Res := zoneSend c 2 all s
/-- ZONE_RESET (R394). -/
def execZoneReset (c : IoCmd) (all : Bool) (s : State) : Res := zoneSend c 4 all s

/-- A zone descriptor of Report Zones: type, state, capacity, first block and WP, 64 bytes. -/
def zoneDescriptor (s : State) (n : Ns) (z : ZoneSt) : List Nat :=
  let zl := s.zoneLbas n
  [2, 16 * z.st, 0, 0, 0, 0, 0, 0] ++ leBytes 8 zl ++ leBytes 8 (z.idx * zl) ++ leBytes 8 (z.idx * zl + z.wp)
    ++ List.replicate 32 0

/-- The state a reporting option selects: 0 all. -/
def zoneOpt (opt st : Nat) : Bool :=
  opt == 0 || st == [0, zEMPTY, zIMPL, zEXPL, zCLOSED, zFULL, zREADONLY, 0xF].getD opt 0

/-- REPORT_ZONES: the zones from SLBA that the option selects, `len` bytes (R391, R393). -/
def execReportZones (c : IoCmd) (opt : Fin 8) (len : Nat) (s : State) : Res :=
  let h := { ioCmd c 0x7A with nlb := 0 }
  onIoQueue c s <| .next <|
    match fetch h s with
    | none => s
    | some t =>
      match t.ioRefusal h 1, t.nsOf h.nsid with
      | none, some n =>
        let l := ((List.range n.zones.length).filter fun i => h.slba / t.zoneLbas n ≤ i).map (t.zoneSt n.nsid)
        let l := l.filter fun z => zoneOpt opt z.st
        let bytes := leBytes 8 l.length ++ List.replicate 56 0 ++ l.flatMap (zoneDescriptor t n)
        finishIo h scSuccess { t with hst := { t.hst with dataIn := (h.port, h.cid, bytes.take len) :: t.hst.dataIn } }
      | some st, _ => finishIo h st t
      | none, none => finishIo h scInvalidNs t

/-- RANGE_LOCK_RELEASE: the commands whose conflicting entries are gone proceed (R396). -/
def execRangeLockRelease (s : State) : Res := s.doIf s.on pump

/-- A page's entry as it stands in the map, those of no meaning unmapped (R330). -/
def mapEntry (v : Nat) : Nat := if v / 2 ^ 40 < 3 then v else 0

/-- A loaded page shows how far the stripe at an active zone's fill is written: up to the highest member that the page maps to it. A
checkpoint does not say it (DESIGN CHOICE, log entry 190). -/
def partFrom (nsid : Nat) (entries : List Nat) (s : State) : State :=
  entries.foldl (fun s v =>
    if v / 2 ^ 40 != 1 then s
    else
      let n := v % 2 ^ 32
      s.setStr fun x => { x with zones := x.zones.map fun z =>
        if z.z == n / 1024 && z.owner == nsid && z.st == 1 && z.fill == n % 1024 then { z with part := max z.part (v / 2 ^ 32 % 32 + 1) } else z }) s

/-- MAP_PAGE_LOADED: a page that has been read, or was never written, is in force with the delta list's entries over its own, and the
commands that waited for it proceed; `us` is the longest wait for it. The next page is read (R332). -/
def execMapPageLoaded (nsid page us : Nat) (s : State) : Res :=
  let got := s.str.pageGot.find? fun g => g.1 == nsid && g.2.1 == page
  let never := Sparse.get s.str.dir (mapKey nsid page) == 0
  s.doIf (s.on && s.str.pagesLeft.contains (nsid, page) && (never || got.isSome)) fun s =>
    let entries := (got.map fun g => g.2.2).getD []
    let waited := s.str.pageWait.contains (nsid, page)
    let moved := (List.range 512).filter fun i => Sparse.get s.str.delta (mapKey nsid (512 * page + i)) != 0
    let s := s.setStr fun x => { x with
      map := entries.zipIdx.foldl (fun m e => Sparse.set m (mapKey nsid (512 * page + e.2)) (mapEntry e.1)) x.map
      pagesLeft := x.pagesLeft.filter (· != (nsid, page))
      pageWait := x.pageWait.filter (· != (nsid, page))
      pageGot := x.pageGot.filter fun g => !(g.1 == nsid && g.2.1 == page) }
    let s := partFrom nsid (entries.map mapEntry) s
    let s := moved.foldl (fun s i =>
      let v := Sparse.get s.str.delta (mapKey nsid (512 * page + i))
      setMap nsid (512 * page + i) (v / 2 ^ 40) (v % 2 ^ 32) (v / 2 ^ 32 % 32) s) s
    let s := s.when (!moved.isEmpty) (touchNs nsid)
    let s := (s.inc MAP_PROG_LOADED).when waited fun s => s.put MAP_DFMAX_US (min (max (s.get MAP_DFMAX_US) us) MAP_DFMAX_US.max)
    askNextPage (pump (syncMapPhase s))

end Sys2Proof.Machine
end

