-- ==== Sys2Proof/Machine/Custody.lean ====
section
/-! DEFINITION. Custody of the management window and of namespaces, and the notices to the hosts (R390, R397 to R403). -/

namespace Sys2Proof.Machine

open R

/-! ### Notices (R383, R384) -/

/-- Namespace Attribute Changed, on each controller (R390). -/
def nsChanged (nsid : Nat) (s : State) : State :=
  forUpTo 2 (fun p s =>
    let s := { s with hst := { s.hst with chgNs := (p, nsid) :: s.hst.chgNs.filter (· != (p, nsid)) } }
    notice p 8 0 4 s) s
/-- ANA Change, on both controllers (R401). -/
def anaChanged (s : State) : State := forUpTo 2 (fun p => notice p 11 3 0x0C) s

/-! ### Arbitration (R399 to R401) -/

def State.inSwap (s : State) (res : Nat) : Bool := s.hst.swaps.any fun w => w.nsid == res
/-- The result of a Custody command (Table 15.8). -/
def State.custDw0 (s : State) (res : Nat) : Nat := s.cust res + 16 * (s.inSwap res).toNat
/-- The port that lost the latest tie, 1 A or 2 B. -/
def State.loser (s : State) (res : Nat) : Nat :=
  if res == 0 then s.get HST_CUST_LOSER else 1 + s.get (HST_NSCUST_LOSER res)
def setLoser (res v : Nat) (s : State) : State :=
  if res == 0 then s.put HST_CUST_LOSER v else s.put (HST_NSCUST_LOSER res) (v - 1)

/-- Who wins among the requests `a` of port A and `b` of port B (0 none), with the new loser. -/
def arbWinner (cust loser a b : Nat) : Nat × Nat :=
  if a == 0 then (b, loser)
  else if b == 0 || a == b then (a, loser)
  else if cust == 1 then (a, 2)
  else if cust == 2 then (b, 1)
  else if loser == 2 then (b, 1)
  else (a, 2)

/-- Custody commands complete. -/
def completeCust (res : Nat) (l : List (Nat × Nat)) (s : State) : State :=
  l.foldl (fun s c => completeCmd c.1 0 c.2 scSuccess (s.custDw0 res) s) s

/-- The requests of one resource are arbitrated; one in a swap waits for its end (R401). -/
def arbitrate (res : Nat) (s : State) : State :=
  let rs := s.hst.custReq.filter fun r => r.res == res
  if rs.isEmpty || s.inSwap res then s
  else
    let s := { s with hst := { s.hst with custReq := s.hst.custReq.filter fun r => r.res != res } }
    let cids := fun (l : List CustReq) => l.filterMap fun r => r.cid.map fun c => (r.port, c)
    if res != 0 && (s.nsOf res).isNone then completeCust res (cids rs) s
    else
      let req := fun p => ((rs.find? fun r => r.port == p).map CustReq.target).getD 0
      let w := arbWinner (s.cust res) (s.loser res) (req 0) (req 1)
      let s := setLoser res w.2 s
      let want := if w.1 == 3 then 0 else w.1
      if want == s.cust res then completeCust res (cids rs) s
      else if res == 0 then completeCust res (cids rs) (passCustody (moveMgmt want s))
      else
        let s := completeCust res (cids (rs.filter fun r => r.target != w.1)) s
        let s := { s.put (HST_NSCUST_SWAP res) 1 with
          hst := { s.hst with swaps := s.hst.swaps ++ [{ nsid := res, target := want, cmds := cids (rs.filter fun r => r.target == w.1) }] } }
        anaChanged s

/-- NAMESPACE_SWAP_END: the old custodian's commands have drained, or ANATT seconds have passed (`expired`); custody moves
(R401, R403). -/
def execNamespaceSwapEnd (nsid : Fin 65) (expired : Bool) (s : State) : Res :=
  match s.hst.swaps.find? fun w => w.nsid == nsid.val with
  | none => .next s
  | some w =>
    let mine := fun (c : HCmd) => c.qid != 0 && c.nsid == nsid.val && !c.drop && c.port + 1 == s.cust nsid
    s.doIf (s.on && (expired || !s.hst.cmds.any mine)) fun s =>
      let s := completeAll (fun c => mine c && !dataTaken c) scAnaTransition 0 s
      let s := (s.puts [(HST_NSCUST_CUST nsid, w.target), (HST_NSCUST_SWAP nsid, 0)])
      let s := { s with hst := { s.hst with swaps := s.hst.swaps.filter fun x => x.nsid != nsid.val } }
      completeCust nsid w.cmds (forUpTo 2 (fun p => asyncEvent p 7 1 0xC3) (anaChanged s))

end Sys2Proof.Machine
end

