-- ==== Sys2Proof/Machine/Health.lean ====
section
/-! DEFINITION. Medium health: Ledger records in time, retirement by reads, failed layers, patrol and refresh (R342, R351 to
R356). -/

namespace Sys2Proof.Machine

open R

/-- LEDGER_TIMER: LEDGMIN minutes after a layer's first COUNT change since its latest record (R342). -/
def execLedgerTimer (l : Layer) (s : State) : Res :=
  s.doIf (s.inLife [MOUNTING, MOUNTED] && s.hlt.changed.contains l.val) (writeLedger l)

/-- READ_CONFIRM: a second read of a block has failed at the same codeword within CONFIRM revolutions: the block is retired, its
member goes to rebuild, and margin checks of the area on the layers beside it go to the head of the patrol order (R351). -/
def execReadConfirm (pba : BitVec 32) (cwix : Fin 16) (s : State) : Res :=
  let p := pba.toNat
  s.doIf (s.inLife [MOUNTING, MOUNTED] && s.hlt.confirmed.contains (p, cwix.val)) fun s =>
    let s := s.setHlt fun h => { h with
      suspects := h.suspects.filter fun q => q.1 != p, confirmed := h.confirmed.filter fun q => q.1 != p }
    let s := addChecks ((besideLayers (pbaLayer p)).flatMap fun l => areaOf l p) s
    if s.blockRetired p then s
    else
      let m := s.memberAt p
      let s := retireBlock p 2 none s
      match m with
      | some m => if s.committed m.1 then queueRebuild m.1 m.2 s else s
      | none => s

/-- A condition of R352 holds for a layer. -/
def State.layerBad (s : State) (l : Nat) : Bool :=
  let heads := (sideHeads (l / 24)).filter s.present
  s.get HLT_LIM_LFAIL * layerBlocks < 100 * s.retiredOn l
    || (!heads.isEmpty && heads.all fun h => 3 ≤ Sparse.get s.hlt.jumpFails (48 * h + l))

/-- LAYER_FAILED: its KIND 0x04 entry is appended and every committed member on it is queued for rebuild (R352). The entry
names the layer's first block; its CAUSE, which the rules leave out, is free (DESIGN CHOICE, log entry 1). -/
def execLayerFailed (l : Layer) (s : State) : Res :=
  s.doIf (s.inLife [MOUNTING, MOUNTED] && !s.hlt.failedLayers.contains l.val && s.layerBad l) fun s =>
    let s := s.setHlt fun h => { h with failedLayers := h.failedLayers ++ [l.val] }
    let s := (addDefect ⟨pba l 0 0 0 false, 0xFFFFFFFF, 4, s.freeVal 8, 0, 0, false⟩ s).drawn
    let s := s.str.zones.foldl (fun s z =>
      (List.range (z.fill + if 0 < z.part then 1 else 0)).foldl (fun s i =>
        let st := 1024 * z.z + i
        (List.range s.volWidth).foldl (fun s j =>
          s.when (pbaLayer (s.locate st j) == l.val) (queueRebuild st j)) s) s) s
    syncHealth s

/-- PATROL_LAP_END: a lap that has read everything ends; it has taken `sec` seconds of REF-clock time (R348, R353). A layer
whose least margin is 256, which its register cannot hold, reads a free value (DESIGN CHOICE, log entry 1). -/
def execPatrolLapEnd (sec : Nat) (s : State) : Res :=
  s.doIf s.lapOver fun s =>
    let s := s.puts [(HLT_LAP_SEC, min sec HLT_LAP_SEC.max), (HLT_STAT_DUE, 0)]
    let s := forUpTo 48 (fun l s =>
      if !s.hlt.lapSeen.contains l then s.put (HLT_LSTAT_MARGIN l) 0xFF
      else
        let d := Sparse.get s.hlt.lapMin l
        if d == 0 then (s.put (HLT_LSTAT_MARGIN l) (s.freeVal 8)).drawn else s.put (HLT_LSTAT_MARGIN l) (256 - d)) s
    let s := lapAnew (s.setHlt fun h => { h with lapAge := h.startAge })
    eventRec 0x0D 1 [min sec HLT_LAP_SEC.max] false s

/-- REFRESH: the lowest-margin stripe of the queue is read and rebuilt, then rewritten in place, parity included, as a transaction of its
own after its zone's DIRTY record; it waits for a rebuild or an open transaction of the stripe (R355, R356). -/
def execRefresh (s : State) : Res :=
  match s.hlt.refresh with
  | [] => .next s
  | e :: _ =>
    let num := e.2.1
    let z := num / 1024
    s.doIf (s.inLife [MOUNTED] && s.committed num && !(s.str.stripes.any fun t => t.num == num)
      && !(s.str.rebuild.any fun r => r.stripe == num)) fun s =>
      let owner := ((s.str.zones.find? fun v => v.z == z).map VZone.owner).getD 0
      match s.hlt.refData.find? fun d => d.1 == num with
      | none =>
        if s.hlt.refWant.contains num then s
        else askWhole 3 [num] (s.setHlt fun h => { h with refWant := h.refWant ++ [num] })
      | some d =>
        if !s.str.dirty.contains z then makeDirty owner z s
        else if s.str.wres ≤ s.str.wseq || s.get STR_CFG_MAXOPEN ≤ s.str.stripes.length then s
        else
          let t : Stripe := { num, wseq := s.str.wseq, nsid := owner, kind := 3, key := e.1, again := e.2.2
                              mems := d.2.map fun m => { idx := m.1 }, data := d.2 }
          syncOpen ((takeWseq (dropRefresh num (dropAhead num s))).setStr fun x => { x with stripes := x.stripes ++ [t] })

/-! ### HLT_CTRL (R353, R354, R407) -/

/-- A new lap starts. -/
def restartLap (s : State) : State :=
  if s.inLife [MOUNTED] then lapAnew s else s

/-- Patrol reads stop or are allowed: an open patrol window closes at the next tick. -/
def pausePatrol (b : Bool) (s : State) : State :=
  let s := s.putB HLT_CTRL_PAUSE b
  if b then cutReads (fun w => w.act == 5) { s with hlt := { s.hlt with patrolRead := false } } else s

/-- A write of HLT_CTRL. -/
def hltCtrl (v : Nat) (s : State) : State := (pausePatrol (v.testBit 1) s).when (v.testBit 0) restartLap

/-- HLT_CTRL_RESTART: a write of HLT_CTRL with RESTART 1 (R353). -/
def execHltCtrlRestart (p : Port) (v : Word) (s : State) : Res :=
  vendorWrite p HLT_CTRL_RESTART.off false (hltCtrl (v.toNat ||| 1)) s

/-- HLT_CTRL_PAUSE: a write of HLT_CTRL with PAUSE in bit 1 (R354). -/
def execHltCtrlPause (p : Port) (v : Word) (s : State) : Res :=
  vendorWrite p HLT_CTRL_PAUSE.off false (hltCtrl v.toNat) s

/-- PATROL_IDLE_START: under PATROL 1, IDLEMS ms with no host I/O command outstanding: patrol reads begin (R354). -/
def execPatrolIdleStart (s : State) : Res :=
  s.doIf (s.inLife [MOUNTED] && (s.modeCfg s.mode).patrol == 1 && !s.flag HLT_CTRL_PAUSE
    && s.hst.cmds.all fun c => c.qid == 0 || c.drop) fun s =>
    { s with hlt := { s.hlt with patrolRead := true } }

end Sys2Proof.Machine
end

