-- ==== Sys2Proof/Machine/AdminBase.lean ====
section
/-! DEFINITION. How admin commands are fetched, answered and checked (R379, R380, R382). -/

namespace Sys2Proof.Machine

open R

/-- An admin command as its submission entry gives it. -/
def adm (p cid op : Nat) : HCmd := { port := p, qid := 0, cid, op }
/-- An admin command completes. -/
def endAdm (p cid : Nat) (st : Nat × Nat × Bool) (dw0 : Nat) (s : State) : State := completeCmd p 0 cid st dw0 s
/-- An admin command completes with success and data. -/
def endData (p cid : Nat) (bytes : List Nat) (s : State) : State :=
  endAdm p cid scSuccess 0 { s with hst := { s.hst with dataIn := (p, cid, bytes) :: s.hst.dataIn } }

/-- An immediate command executes at its fetch (R380). -/
def immediate (p cid op : Nat) (k : State → State) (s : State) : Res :=
  .next (match fetch (adm p cid op) s with | none => s | some t => k t)

/-- Custody of the management window, which a command marked M needs (R382). -/
def needMgmt (p cid : Nat) (k : State → State) (s : State) : State :=
  if s.mgmt == some p then k s else endAdm p cid scCustody 0 s

/-- The port is named by KEYS_A or KEYS_B (R90, R382). -/
def State.keysPort (s : State) (p : Nat) : Bool := s.cnv.cfg.secFlags.testBit (3 + p)

/-- The NAMESPACES record is written (R144, R389). -/
def writeNamespaces (cont : AttCont) (s : State) : State := atticWrite atNAMESPACES 0 s.nsBody cont s

/-- The key slot of a namespace clears (R522). -/
def clearSlot (n : Nat) (s : State) : State :=
  { s.setBit (SEC_KEYS_LOADED ((n - 1) / 32)) ((n - 1) % 32) false with
    sec := { s.sec with slots := s.sec.slots.filter fun k => k.1 != n } }

end Sys2Proof.Machine
end

