-- ==== Sys2Proof/Machine/Queues.lean ====
section
/-! DEFINITION. Queues, doorbells, Abort, features, asynchronous events and normal shutdown (R378 to R384, R392). Statuses of
malformed queue operations are those of NVMe Base 2.0 (R411). -/

namespace Sys2Proof.Machine

open R

def scCqInvalid : Nat × Nat × Bool := (1, 0x00, true)
def scQidInvalid : Nat × Nat × Bool := (1, 0x01, true)
def scQsize : Nat × Nat × Bool := (1, 0x02, true)
def scAerLimit : Nat × Nat × Bool := (1, 0x05, true)
def scVector : Nat × Nat × Bool := (1, 0x08, true)
def scQdeletion : Nat × Nat × Bool := (1, 0x0C, true)

def State.sqOf (s : State) (p q : Nat) : Option Sq := s.hst.sqs.find? fun x => x.port == p && x.qid == q
def State.cqOf (s : State) (p q : Nat) : Option Cq := s.hst.cqs.find? fun x => x.port == p && x.qid == q

/-- SQ_DOORBELL: a submission queue's tail; a tail beyond the queue is discarded (R379). -/
def execSqDoorbell (p : Port) (qid tail : BitVec 16) (s : State) : Res :=
  s.doIf (s.on && s.hst.rdy.getD p false) fun s =>
    { s with hst := { s.hst with sqs := s.hst.sqs.map fun q =>
        if q.port == p.val && q.qid == qid.toNat && tail.toNat < q.size then { q with tail := tail.toNat } else q } }

/-- A new queue's identifier and zero-based size: the status that refuses it (R382). -/
def State.queueRefusal (s : State) (p qid size : Nat) (taken : Bool) : Option (Nat × Nat × Bool) :=
  if qid == 0 || (s.queueCfg p).ioqp < qid || taken then some scQidInvalid
  else if size == 0 || (s.queueCfg p).mqes < size then some scQsize
  else none

/-- CREATE_IO_CQ (R382). -/
def execCreateIoCq (p : Port) (cid qid size vec : BitVec 16) (s : State) : Res :=
  immediate p cid.toNat 5 (fun s =>
    match s.queueRefusal p qid.toNat size.toNat (s.cqOf p qid.toNat).isSome with
    | some st => endAdm p cid.toNat st 0 s
    | none =>
      if (s.queueCfg p).vectors ≤ vec.toNat then endAdm p cid.toNat scVector 0 s
      else endAdm p cid.toNat scSuccess 0 { s with hst := { s.hst with
        cqs := s.hst.cqs ++ [{ port := p, qid := qid.toNat, size := size.toNat + 1, vec := vec.toNat }] } }) s

/-- CREATE_IO_SQ, with its priority class (R379, R382). -/
def execCreateIoSq (p : Port) (cid qid size cqid : BitVec 16) (prio : Fin 4) (s : State) : Res :=
  immediate p cid.toNat 1 (fun s =>
    match s.queueRefusal p qid.toNat size.toNat (s.sqOf p qid.toNat).isSome with
    | some st => endAdm p cid.toNat st 0 s
    | none =>
      if cqid == 0 || (s.cqOf p cqid.toNat).isNone then endAdm p cid.toNat scCqInvalid 0 s
      else endAdm p cid.toNat scSuccess 0 { s with hst := { s.hst with
        sqs := s.hst.sqs ++ [{ port := p, qid := qid.toNat, cqid := cqid.toNat, size := size.toNat + 1, prio := prio.val }] } }) s

/-- DELETE_IO_CQ (R382): not while a submission queue uses it. -/
def execDeleteIoCq (p : Port) (cid qid : BitVec 16) (s : State) : Res :=
  immediate p cid.toNat 4 (fun s =>
    if qid == 0 || (s.cqOf p qid.toNat).isNone then endAdm p cid.toNat scQidInvalid 0 s
    else if s.hst.sqs.any fun q => q.port == p.val && q.cqid == qid.toNat && q.qid != 0 then endAdm p cid.toNat scQdeletion 0 s
    else
      let rest := s.hst.cqs.filter fun q => !(q.port == p.val && q.qid == qid.toNat)
      endAdm p cid.toNat scSuccess 0 { s with hst := { s.hst with cqs := rest } }) s

/-- DELETE_IO_SQ: its commands complete with Aborted due to SQ Deletion (R382, R411). -/
def execDeleteIoSq (p : Port) (cid qid : BitVec 16) (s : State) : Res :=
  immediate p cid.toNat 0 (fun s =>
    if qid == 0 || (s.sqOf p qid.toNat).isNone then endAdm p cid.toNat scQidInvalid 0 s
    else
      let s := completeAll (fun c => c.port == p.val && c.qid == qid.toNat && !c.drop) scSqDeleted 0 s
      let rest := s.hst.sqs.filter fun q => !(q.port == p.val && q.qid == qid.toNat)
      endAdm p cid.toNat scSuccess 0 (pump { s with hst := { s.hst with sqs := rest } })) s

/-! ### Abort (R381) -/

/-- A Mount or Unmount is still held for the tick of its acceptance or for the end of enumeration. -/
def State.stillHeld (s : State) (p cid : Nat) : Bool :=
  (s.hst.mountWait && s.hst.mountPort == p && s.hst.mountCid == cid)
    || s.sys.held.any fun (t : Trigger) => (t.kind == .mount || t.kind == .unmount) && t.port == p && t.cid == cid

/-- The command has neither begun a medium access nor moved data. -/
def State.notBegun (s : State) (c : HCmd) : Bool :=
  if c.qid != 0 then !c.begun
  else c.op == 0x0C || s.hst.longWait.any (fun l => l.port == c.port && l.cid == c.cid) || c.op == 0xD0 || c.op == 0xD4
    || s.stillHeld c.port c.cid

/-- What a command not begun leaves behind is withdrawn. -/
def withdrawCmd (c : HCmd) (s : State) : State :=
  let me := fun (x : Nat × Nat) => x == (c.port, c.cid)
  if c.qid != 0 then s
  else
    { s with
      hst := { s.hst with
        aer := s.hst.aer.filter fun a => !me a
        mountWait := s.hst.mountWait && !me (s.hst.mountPort, s.hst.mountCid)
        custReq := s.hst.custReq.filter fun r => !(r.port == c.port && r.cid == some c.cid)
        swaps := s.hst.swaps.map fun w => { w with cmds := w.cmds.filter fun x => !me x } }
      sys := { s.sys with held := s.sys.held.filter fun (t : Trigger) =>
        !((t.kind == .mount || t.kind == .unmount) && me (t.port, t.cid)) } }

/-- ABORT (R381): DW0 bit 0 is 0 where the command is aborted. -/
def execAbort (p : Port) (cid sqid target : BitVec 16) (s : State) : Res :=
  immediate p cid.toNat 8 (fun s =>
    match s.hst.cmds.find? fun c => c.port == p.val && c.qid == sqid.toNat && c.cid == target.toNat && !c.drop
        && !(c.qid == 0 && c.cid == cid.toNat) with
    | none => endAdm p cid.toNat scSuccess 1 s
    | some c =>
      if s.notBegun c then endAdm p cid.toNat scSuccess 0 (pump (completeCmd p c.qid c.cid scAbortReq 0 (withdrawCmd c s)))
      else endAdm p cid.toNat scSuccess 1 s) s

/-! ### Features (R384, Table 15.3) -/

/-- A temperature in 1/16 °C in kelvin, rounded down (Table 15.2). -/
def kelvin (t : Int) : Nat := ((t * 100 + 437040) / 1600).toNat

def featList : List Nat := [1, 2, 4, 5, 6, 7, 8, 9, 0xB]
/-- The part of a feature that CDW11 and NSID name: a sensor and a threshold type, a namespace, a vector. -/
def featSub (fid nsid val : Nat) : Nat :=
  match fid with
  | 4 => val / 2 ^ 16 % 64
  | 5 => nsid
  | 9 => val % 2 ^ 16
  | _ => 0

/-- A feature's default in a controller. -/
def State.featDefault (s : State) (p fid sub : Nat) : Nat :=
  match fid with
  | 1 => (s.queueCfg p).arb
  | 4 => if sub == 0 then kelvin (s.getI THM_SOFT_SOFT) else if sub / 16 == 1 then 0 else 0xFFFF
  | 6 => 1
  | 7 => ((s.queueCfg p).ioqp - 1) * 0x10001
  | 9 => sub
  | _ => 0

def setFeat (p fid sub v : Nat) (s : State) : State :=
  let rest := s.hst.feats.filter fun f => f.1 != (p, fid * 256 + sub)
  { s with hst := { s.hst with feats := rest ++ [((p, fid * 256 + sub), v)] } }

/-- A value is in the range of its feature. -/
def State.featOk (s : State) (p fid v : Nat) : Bool :=
  match fid with
  | 2 => v % 32 == 0
  | 4 => v / 2 ^ 16 % 16 ≤ 5 && v / 2 ^ 20 % 4 ≤ 1
  | 5 => v % 2 ^ 16 == 0
  | 7 => v % 2 ^ 16 != 0xFFFF && v / 2 ^ 16 != 0xFFFF
  | 9 => v % 2 ^ 16 < (s.queueCfg p).vectors
  | 0xB => Nat.land v (2 ^ 32 - 1 - 0x080009FF) == 0
  | _ => true

/-- SET_FEATURES (R382, R384). -/
def execSetFeatures (p : Port) (cid : BitVec 16) (fid : BitVec 8) (nsid : BitVec 32) (val : Word) (sv : Bool) (s : State) : Res :=
  immediate p cid.toNat 9 (fun s =>
    let f := fid.toNat
    let v := val.toNat
    let n := nsid.toNat
    if !featList.contains f then endAdm p cid.toNat scInvalidField 0 s
    else if sv then endAdm p cid.toNat scNotSaveable 0 s
    else if !s.featOk p f v then endAdm p cid.toNat scInvalidField 0 s
    else if f == 5 && n == 0xFFFFFFFF then
      endAdm p cid.toNat scSuccess 0 (s.hst.ns.foldl (fun s m => setFeat p 5 m.nsid v s) s)
    else if f == 5 && (s.nsOf n).isNone then endAdm p cid.toNat scInvalidNs 0 s
    else if f == 7 then endAdm p cid.toNat scSuccess (s.featDefault p 7 0) s
    else endAdm p cid.toNat scSuccess 0
      (setFeat p f (featSub f n v) (if f == 4 then v % 2 ^ 16 else if f == 6 then v % 2 else v) s)) s

/-- GET_FEATURES (R382, R384): the current value, the default or the supported capabilities. -/
def execGetFeatures (p : Port) (cid : BitVec 16) (fid : BitVec 8) (nsid : BitVec 32) (sel : Fin 8) (val : Word) (s : State) : Res :=
  immediate p cid.toNat 0xA (fun s =>
    let f := fid.toNat
    let sub := featSub f nsid.toNat val.toNat
    if !featList.contains f || !s.featOk p f (if f == 4 || f == 9 then val.toNat else 0) then
      endAdm p cid.toNat scInvalidField 0 s
    else if f == 5 && (s.nsOf nsid.toNat).isNone then endAdm p cid.toNat scInvalidNs 0 s
    else
      match sel.val with
      | 0 => endAdm p cid.toNat scSuccess (s.feat p f sub (s.featDefault p f sub)) s
      | 1 => endAdm p cid.toNat scSuccess (s.featDefault p f sub) s
      | 3 => endAdm p cid.toNat scSuccess (if f == 5 then 6 else 4) s
      | _ => endAdm p cid.toNat scInvalidField 0 s) s

/-! ### Asynchronous events and shutdown -/

/-- ASYNCHRONOUS_EVENT_REQUEST: it completes with an event that waits, or stays outstanding; AERL 3 (R383). -/
def execAsynchronousEventRequest (p : Port) (cid : BitVec 16) (s : State) : Res :=
  immediate p cid.toNat 0xC (fun s =>
    if 4 ≤ (s.hst.aer.filter fun a => a.1 == p.val).length then endAdm p cid.toNat scAerLimit 0 s
    else
      match s.hst.aen.find? fun a => a.1 == p.val with
      | some a => endAdm p cid.toNat scSuccess a.2 { s with hst := { s.hst with aen := s.hst.aen.erase a } }
      | none => { s with hst := { s.hst with aer := s.hst.aer ++ [(p.val, cid.toNat)] } }) s

/-- NORMAL_SHUTDOWN: CC.SHN of a controller: every partly filled stripe commits short; SHST becomes 2 once those and every
stripe of a Write fetched before are committed (R392). -/
def execNormalShutdown (p : Port) (s : State) : Res :=
  s.doIf (s.on && s.hst.rdy.getD p false && s.hst.shst.getD p 0 == 0) fun s =>
    let s := { s with hst := { s.hst with shst := setAt s.hst.shst p 1, shSeq := setAt s.hst.shSeq p s.hst.fetchSeq } }
    completeReady ((s.str.gather.map GUnit.nsid).eraseDups.foldl (fun s n => askShort n s) s)

end Sys2Proof.Machine
end

