-- ==== Sys2Proof/Machine/Namespaces.lean ====
section
/-! DEFINITION. Namespace Management and Namespace Attachment, and the format of a volume (R305, R386 to R388). -/

namespace Sys2Proof.Machine

open R

/-! ### Format (R305) -/

/-- Does a create format the volume first: no VOLUME record is in force, or the cartridge holds no namespace and its geometry or
seed differs from the Canvas STRIPE record. -/
def State.mustFormat (s : State) : Bool :=
  let c := s.cnv.cfg
  !s.flag STR_STAT_FORMATTED || (s.hst.ns.isEmpty &&
    (s.get STR_GEOM_WIDTH != c.width || s.get STR_GEOM_PARITY != c.parity || s.get STR_GEOM_SPARE != c.spare
      || s.get STR_SEED_LO_SEED != c.seedLo || s.get STR_SEED_HI_SEED != c.seedHi))

/-- The STR registers of a volume. -/
def putVolume (w p sp seedLo seedHi : Nat) (s : State) : State :=
  let d := (dataChunks sp).length
  s.puts [(STR_STAT_FORMATTED, 1), (STR_GEOM_WIDTH, w), (STR_GEOM_PARITY, p), (STR_GEOM_SPARE, sp), (STR_CHUNKS_N, chunksN),
    (STR_CHUNKS_D, d), (STR_ZONES_Z, zonesZ w d), (STR_SEED_LO_SEED, seedLo), (STR_SEED_HI_SEED, seedHi)]

/-- The volume is formatted from the Canvas STRIPE record; its VOLUME record is written, CLEAN, with no zone in use; its WSEQ floor is the
last WSEQ assigned (DESIGN CHOICE, log entry 192). -/
def formatVolume (s : State) : State :=
  let c := s.cnv.cfg
  let s := putVolume c.width c.parity c.spare c.seedLo c.seedHi s
  syncHealth (writeVolume .nothing (s.setStr fun x => { x with
    clean := true, zones := [], map := [], ckActive := [], dir := [], dirDur := [], delta := [], wseq0 := x.wseq - 1 }))

/-! ### Create (R386, R387) -/

/-- The zones of the volume that no namespace owns, lowest first. -/
def State.freeZones (s : State) : List Nat :=
  ((List.range (s.get STR_ZONES_Z)).drop sysZones).filter fun z => !s.hst.ns.any fun n => n.zones.contains z

def ceilDiv (a b : Nat) : Nat := (a + b - 1) / b

/-- NZONES of a namespace (R387). -/
def State.nzones (s : State) (zoned : Bool) (nsze lba : Nat) : Nat :=
  let zb := s.zoneUnits * 65536
  if zoned then ceilDiv nsze (zb / lba)
  else
    let n := ceilDiv (nsze * lba) zb
    n + max 2 (ceilDiv n 32)

/-- The host-specified fields are in the ranges of R386. -/
def State.createOk (s : State) (n : NsCreate) : Bool :=
  (n.csi == 0 || n.csi == 2) && n.ncap == n.nsze && n.nsze != 0 && (n.flbas == 0 || n.flbas == 1) && n.dps == 0 && n.nmic == 1
    && (n.enc || !s.cnv.cfg.secFlags.testBit 0) && n.rest

/-- A new namespace enters the list: attached to no controller, its custodian the creating port. Its first KEYGEN, which no
rule gives, is free (DESIGN CHOICE, log entry 1). -/
def addNs (p cid id : Nat) (n : NsCreate) (zones : List Nat) (s : State) : State :=
  let lbads := if n.flbas == 0 then 12 else 9
  let nsze := if n.csi == 2 then zones.length * (s.zoneUnits * (65536 / 2 ^ lbads)) else n.nsze.toNat
  let e : Ns := { nsid := id, zoned := n.csi == 2, enc := n.enc, lbads, nsze, keygen := s.freeVal 32, created := s.str.wseq, zones }
  let s := { s.drawn with hst := { s.hst with ns := s.hst.ns ++ [e] } }
  nsChanged id (writeNamespaces (.admin p cid id) (s.put (HST_NSCUST_CUST id) (p + 1)))

/-- Namespace Management, SEL 0: it completes once copies 0 and 3 of the record have verified. -/
def createNs (p cid : Nat) (n : NsCreate) (s : State) : State :=
  if s.life != MOUNTED then endAdm p cid scState 0 s
  else if !s.createOk n then endAdm p cid scInvalidField 0 s
  else
    match ((List.range 64).map (· + 1)).find? fun i => (s.nsOf i).isNone with
    | none => endAdm p cid scNsIdUnavail 0 s
    | some id =>
      let s := s.when s.mustFormat formatVolume
      let need := s.nzones (n.csi == 2) n.nsze.toNat (if n.flbas == 0 then 4096 else 512)
      let zones := s.freeZones.take need
      if zones.length < need then endAdm p cid scNsCapacity 0 s
      else addNs p cid id n zones s

/-! ### Delete (R388) -/

/-- Steps 1 and 2: detached, its commands ended, its gathered data and queued refreshes dropped. -/
def detachNs (id : Nat) (s : State) : State :=
  let zones := ((s.nsOf id).map Ns.zones).getD []
  let s := { s with hst := { s.hst with ns := s.hst.ns.map fun n => if n.nsid == id then { n with attach := 0 } else n } }
  let s := completeAll (fun c => c.qid != 0 && c.nsid == id) scInvalidNs 0 s
  let s := s.setStr fun x => { x with gather := x.gather.filter fun g => g.nsid != id, short := x.short.filter (· != id) }
  (s.hlt.refresh.filter fun r => zones.contains (r.2.1 / 1024)).foldl (fun s r => dropRefresh r.2.1 s) s

/-- Steps 4 and 5 for one namespace: its zones are free, its map, key slot and custody go. -/
def removeNs (id : Nat) (s : State) : State :=
  let swap := s.hst.swaps.filter fun w => w.nsid == id
  let s := { s with hst := { s.hst with
    ns := s.hst.ns.filter fun n => n.nsid != id
    zones := s.hst.zones.filter fun z => z.nsid != id
    swaps := s.hst.swaps.filter fun w => w.nsid != id } }
  let s := s.setStr fun x => { x with
    zones := x.zones.filter fun v => v.owner != id
    map := x.map.filter fun e => e.1 / 2 ^ 32 != id
    changed := x.changed.filter (· != id)
    pagesDirty := x.pagesDirty.filter fun g => g.1 != id
    pagesLeft := x.pagesLeft.filter fun g => g.1 != id
    pageGot := x.pageGot.filter fun g => g.1 != id
    dir := x.dir.filter fun e => e.1 / 2 ^ 32 != id
    delta := x.delta.filter fun e => e.1 / 2 ^ 32 != id
    pageWait := x.pageWait.filter fun g => g.1 != id }
  let s := setCkpt (fun c => { c with pages := c.pages.filter fun g => g.1 != id, heads := c.heads.filter fun h => h.1 != id }) s
  let s := clearSlot id (s.puts [(HST_NSCUST_CUST id, 0), (HST_NSCUST_SWAP id, 0)])
  nsChanged id (completeCust id (swap.flatMap Swap.cmds) s)

/-- The delete ends once no open stripe of its namespaces is left and copies 0 and 3 of the record have verified. -/
def endDelete (p cid : Nat) (ids : List Nat) (s : State) : State :=
  if s.str.stripes.any fun t => ids.contains t.nsid then s
  else
    let s := writeNamespaces (.admin p cid 0) (ids.foldl (fun s id => removeNs id s) s)
    let s := { s with hst := { s.hst with long := s.hst.long.map fun l => { l with arg := 2 } } }
    syncMapPhase (ckptRecords (ids.foldl (fun s id => ckptDone id s) s))

/-- Namespace Management, SEL 1. Its range-lock entry covers the whole namespace; it waits for no entry, since step 2 ends the
namespace's commands (R388, R396; DEDUCED, log entry 215). -/
def deleteNs (p cid nsid : Nat) (s : State) : State :=
  let ids := if nsid == 0xFFFFFFFF then s.hst.ns.map Ns.nsid else [nsid]
  if s.life != MOUNTED then endAdm p cid scState 0 s
  else if nsid != 0xFFFFFFFF && (s.nsOf nsid).isNone then endAdm p cid scInvalidNs 0 s
  else
    let me := fun (c : HCmd) => c.port == p && c.qid == 0 && c.cid == cid
    let lock := fun (c : HCmd) => if me c then { c with nsid, lo := 0, hi := 2 ^ 64, locked := true } else c
    let s := syncLocks { s with hst := { s.hst with cmds := s.hst.cmds.map lock } }
    let s := ids.foldl (fun s id => detachNs id s) s
    let s := { s with hst := { s.hst with long := s.hst.long.map fun l => { l with args := ids } } }
    endDelete p cid ids s

/-! ### Attachment (R388) -/

/-- Namespace Attachment: `ctrls` has bit 0 for controller 1, bit 1 for controller 2. -/
def attachNs (p cid nsid : Nat) (detach : Bool) (ctrls : Nat) (s : State) : State :=
  if s.life != MOUNTED then endAdm p cid scState 0 s
  else
    match s.nsOf nsid with
    | none => endAdm p cid scInvalidNs 0 s
    | some n =>
      let a := n.attach % 4
      if ctrls == 0 then endAdm p cid scInvalidField 0 s
      else if !detach && Nat.land a ctrls != 0 then endAdm p cid scNsAttached 0 s
      else if detach && Nat.land a ctrls != ctrls then endAdm p cid scNsNotAttached 0 s
      else
        let a := if detach then a - ctrls else a + ctrls
        let s := { s with hst := { s.hst with ns := s.hst.ns.map fun m => if m.nsid == nsid then { m with attach := a } else m } }
        endAdm p cid scSuccess 0 (nsChanged nsid (writeNamespaces .nothing s))

end Sys2Proof.Machine
end

