-- ==== Sys2Proof/Machine/Security.lean ====
section
/-! DEFINITION. Keys and Sanitize: key delivery, the key-encryption key, key purge, Security Receive, and the steps of a
sanitize (R519 to R526). -/

namespace Sys2Proof.Machine

open R

/-! ### Refusals (R521, Table 21.4) -/

def secSTATE := 1
def secPORT := 2
def secNOKEK := 3
def secUNWRAP := 4
def secBINDING := 5
def secWEAK := 6
def secKEYDIFF := 7
def secLOCKED := 8
def secDEBUG := 9
def secSANITIZE := 0xA
def secLENGTH := 0xB

/-- The first of a list of checks that fails, as its error code; 0 none. -/
def firstErr : List (Bool × Nat) → Nat
  | [] => 0
  | c :: cs => if c.1 then c.2 else firstErr cs

/-- A refused delivery or install completes (R521). -/
def secRefuse (p cid err : Nat) (s : State) : State :=
  let st := if err == secSTATE then scState else if err == secSANITIZE then scSanitize else scInvalidField
  endAdm p cid st 0 ((s.put SEC_STAT_ERR err).inc SEC_CNT_REFUSED)

/-! ### Namespace keys (R521) -/

def numsOf (l : List (BitVec 8)) : List Nat := l.map BitVec.toNat

/-- The wrapped key of a payload, unwrapped under the KEK. -/
def State.unwrapped (s : State) (b : List (BitVec 8)) : Option (List Nat) :=
  match s.sec.kek with
  | none => none
  | some k => keyUnwrap (leBytes 32 k) (numsOf b)

/-- Table 21.3 agrees with the mounted cartridge, the payload header and the namespace's descriptor, which has ENC 1. -/
def State.bound (s : State) (nsid keygen : Nat) (t : List Nat) : Bool :=
  beNat ((t.drop 64).take 8) == s.serial && leNat ((t.drop 72).take 4) == nsid && leNat ((t.drop 76).take 4) == keygen
    && (s.nsOf nsid).any fun n => n.enc && n.keygen == keygen

/-- The check that refuses a delivery, 0 none. -/
def State.deliverErr (s : State) (p : Nat) (b : List (BitVec 8)) : Nat :=
  let h := numsOf (b.take 8)
  let nsid := leNat (h.take 4)
  let t := (s.unwrapped (b.drop 8)).getD []
  let key := (nsid, leNat (t.take 32), leNat ((t.drop 32).take 32))
  firstErr [(s.life != MOUNTED, secSTATE), (!s.keysPort p, secPORT), (s.flag SEC_STAT_DBGOPEN, secDEBUG),
    (s.flag SEC_STAT_SANITIZING, secSANITIZE), (b.length != 96, secLENGTH), (s.sec.kek.isNone, secNOKEK),
    (t.length != 80, secUNWRAP), (!s.bound nsid (leNat (h.drop 4)) t, secBINDING), (key.2.1 == key.2.2, secWEAK),
    (s.sec.slots.any (fun (k : Nat × Nat × Nat) => k.1 == nsid && k != key), secKEYDIFF)]

/-- KEY DELIVER. -/
def deliverKey (p cid : Nat) (b : List (BitVec 8)) (s : State) : State :=
  let err := s.deliverErr p b
  if err != 0 then secRefuse p cid err s
  else
    let n := leNat (numsOf (b.take 4))
    let t := (s.unwrapped (b.drop 8)).getD []
    let others := s.sec.slots.filter fun k => k.1 != n
    let s := { s with sec := { s.sec with slots := others ++ [(n, leNat (t.take 32), leNat ((t.drop 32).take 32))] } }
    endAdm p cid scSuccess 0 ((s.setBit (SEC_KEYS_LOADED ((n - 1) / 32)) ((n - 1) % 32) true).inc SEC_CNT_DELIVERED)

/-! ### The key-encryption key (R519, R520) -/

/-- The word at which the next KEK record begins: the first free place of the sector that holds the record in force, or, where
that sector is full, of the other sector. -/
def Cel.kekPlace (c : Cel) : Nat :=
  let top := c.kek.map Prod.snd
  let cur := if (sealSlots 121).any fun w => top.isSome && (c.kekRecord w).map Prod.snd == top then 121 else 120
  let free := fun k => (sealSlots k).find? fun w => (List.range 3).all fun i => c.stateCode (w + i) == 1
  match free cur with
  | some w => w
  | none => (free (241 - cur)).getD (2048 * (241 - cur))

/-- The bytes of a KEK record. -/
def kekBytes (kek gen : Nat) : List Nat :=
  let b := leBytes 32 kek ++ leBytes 2 gen ++ List.replicate 10 0
  b ++ leBytes 4 (crc32c b)

/-- SEC programs a KEK record; the other Seal sector, if it was full, is erased after it. A sector whose erase was cut short is
erased again first (R512). -/
def programKek (kek : Nat) (s : State) : State :=
  let w := s.cel.kekPlace
  let b := kekBytes kek ((s.get SEC_STAT_KEKGEN + 1) % 65536)
  let other := 241 - celSector w
  let full := s.cel.kek.isSome && (sealSlots other).all fun v => (List.range 3).any fun i => s.cel.stateCode (v + i) != 1
  let s := s.when (s.cel.stateCode w != 1) (celQueue { client := 3, kind := 3, word := w })
  let s := forUpTo 3 (fun i s => celQueue { client := 3, kind := 2, word := w + i, data := leNat ((b.drop (16 * i)).take 16) } s) s
  s.when full (celQueue { client := 3, kind := 3, word := 2048 * other })

/-- The new KEK of an install payload: in clear, or wrapped under the KEK in force. -/
def State.newKek (s : State) (b : List (BitVec 8)) : Option (List Nat) :=
  if leNat (numsOf (b.take 4)) == 0 then some (numsOf (b.drop 8)) else s.unwrapped (b.drop 8)

/-- MODE, the zero bytes and the length agree with R520. -/
def State.kekLength (s : State) (b : List (BitVec 8)) : Bool :=
  let mode := leNat (numsOf (b.take 4))
  leNat (numsOf ((b.drop 4).take 4)) == 0 &&
    ((mode == 0 && b.length == 40 && s.sec.kek.isNone) || (mode == 1 && b.length == 48))

/-- The check that refuses an install, 0 none. -/
def State.installErr (s : State) (p : Nat) (b : List (BitVec 8)) : Nat :=
  firstErr [(!s.keysPort p, secPORT), (s.flag SEC_STAT_DBGOPEN, secDEBUG), (s.flag SEC_STAT_SANITIZING, secSANITIZE),
    (!s.kekLength b, secLENGTH), (s.flag CEL_STATUS_PROTSEAL && !s.flag CEL_STATUS_UNLOCKED, secLOCKED),
    (leNat (numsOf (b.take 4)) == 1 && s.sec.kek.isNone, secNOKEK), (((s.newKek b).getD []).length != 32, secUNWRAP)]

/-- KEK INSTALL: the command ends when its record is complete. -/
def installKek (p cid : Nat) (b : List (BitVec 8)) (s : State) : State :=
  let err := s.installErr p b
  if err != 0 then secRefuse p cid err s else programKek (leNat ((s.newKek b).getD [])) s

/-- A KEK record is complete: the KEK is in force, and the install that waits for it ends (R520). -/
def kekProgrammed (s : State) : State :=
  if s.cel.ops.any fun o => o.client == 3 && o.kind == 2 then s
  else
    let s := loadKek s
    match s.hst.long with
    | some l => if l.kind == 0x81 then endAdm l.port l.cid scSuccess 0 s else s
    | none => s

/-! ### Purge and Security Receive (R521) -/

/-- KEY PURGE: one namespace's slot, or every slot for 0xFFFF_FFFF. -/
def purgeKeys (p cid nsid : Nat) (s : State) : State :=
  if !s.keysPort p || (nsid != 0xFFFFFFFF && (nsid == 0 || 64 < nsid)) then endAdm p cid scInvalidField 0 s
  else endAdm p cid scSuccess 0 (if nsid == 0xFFFFFFFF then clearKeys s else clearSlot nsid s)

/-- The key status: KEKGEN, whether a KEK is in force, the mounted serial, and one entry for each NSID. -/
def State.keyStatus (s : State) : List Nat :=
  leBytes 2 (s.get SEC_STAT_KEKGEN) ++ [s.get SEC_STAT_KEK] ++ List.replicate 5 0 ++ beBytes 8 s.serial
    ++ (List.range 64).flatMap fun i =>
      let n := s.nsOf (i + 1)
      [(s.sec.slots.any fun k => k.1 == i + 1).toNat + 2 * (n.any Ns.enc).toNat, 0, 0, 0] ++ leBytes 4 ((n.map Ns.keygen).getD 0)

/-- Security Receive. -/
def securityReceive (p cid proto spsp : Nat) (s : State) : State :=
  if !s.keysPort p then endAdm p cid scInvalidField 0 s
  else if proto == 0 && spsp == 0 then endData p cid [0, 0, 0, 0, 0, 0, 0, 2, 0x00, 0xF0] s
  else if proto == 0xF0 && spsp == 1 then endData p cid s.keyStatus s
  else endAdm p cid scInvalidField 0 s

/-! ### Sanitize (R524 to R526) -/

/-- A sanitize runs from a step on: every I/O command in flight ends and the data it left uncommitted is discarded. -/
def runSanitize (step cdw : Nat) (s : State) : State :=
  let s := s.puts [(SEC_STAT_SANITIZING, 1), (SEC_SAN_SSTAT, 2), (SEC_SAN_SPROG, (step - 1) * 65536 / 5)]
  let s := { s with sec := { s.sec with sanStep := step, sanCdw := cdw } }
  completeAll (fun c => c.qid != 0) scSanitize 0 (dropUncommitted s)

/-- Sanitize: Crypto Erase alone, where SAN_EN allows it and every namespace is encrypted (R524). -/
def beginSanitize (p cid cdw : Nat) (s : State) : State :=
  if s.life != MOUNTED then endAdm p cid scState 0 s
  else if cdw % 8 != 4 || !s.cnv.cfg.secFlags.testBit 1 || !s.hst.ns.all Ns.enc then endAdm p cid scInvalidField 0 s
  else if s.flag SEC_STAT_SANITIZING then endAdm p cid scSanitize 0 s
  else endAdm p cid scSuccess 0 (runSanitize 1 cdw s)

/-- Step 2: every KEYGEN counts up, every slot clears. -/
def sanKeys (s : State) : State :=
  let s := { s with hst := { s.hst with ns := s.hst.ns.map fun n => { n with keygen := (n.keygen + 1) % 2 ^ 32 } } }
  clearKeys (writeNamespaces .nothing s)

/-- Step 3: every zone of the zoned namespaces is reset, every unit of the others unmapped; the checkpoints follow. -/
def sanData (s : State) : State :=
  let s := s.hst.ns.foldl (fun s n =>
    let s := touchNs n.nsid s
    if n.zoned then (List.range n.zones.length).foldl (fun s i => resetZone n i s) s
    else s.setStr fun x => { x with
      map := x.map.filter fun e => e.1 / 2 ^ 32 != n.nsid
      pagesDirty := (x.pagesDirty.filter fun g => g.1 != n.nsid)
        ++ ((x.map.filter fun e => e.1 / 2 ^ 32 == n.nsid).map fun e => (n.nsid, e.1 % 2 ^ 32 / 512)).eraseDups }) s
  checkpoint s

/-- The sanitize is over with a result: 1 completed, 3 failed; its event is issued. -/
def endSanitize (sstat : Nat) (s : State) : State :=
  let s := s.puts [(SEC_STAT_SANITIZING, 0), (SEC_SAN_SSTAT, sstat)]
  forUpTo 2 (fun p => asyncEvent p 6 1 0x81) { s with sec := { s.sec with sanStep := 0 } }

/-- The record of a START is added, or the latest one of this cartridge gets its DONE. -/
def sanStart (s : State) : State :=
  { s with cel := { s.cel with sanRecs := s.cel.sanRecs ++ [⟨s.serial, s.sec.sanCdw, s.newestSeq atNAMESPACES 0, false⟩] } }
def sanDone (s : State) : State :=
  { s with cel := { s.cel with sanRecs := s.cel.sanRecs.map fun r => if r.serial == s.serial then { r with done := true } else r } }

/-- The next step begins. -/
def sanNext (s : State) : State :=
  { s.put SEC_SAN_SPROG (s.sec.sanStep * 65536 / 5) with sec := { s.sec with sanStep := s.sec.sanStep + 1 } }

/-- SANITIZE_STEP_DONE: the present step ends, the records of the one before it once they have verified in copies 0 and 3; `ok` is false where an Attic or stripe write of step 2 or 3 has failed (R525,
R526). -/
def execSanitizeStepDone (ok : Bool) (s : State) : Res :=
  let waits := s.atticPending || (s.sec.sanStep == 5 && s.str.ckpt.isSome)
  s.doIf (s.inLife [MOUNTED] && !(ok && 3 ≤ s.sec.sanStep && waits)) fun s =>
    match s.sec.sanStep, ok with
    | 1, true => sanNext (sanStart s)
    | 2, true => sanNext (sanKeys s)
    | 3, true => sanNext (sanData s)
    | 4, true => sanNext s
    | 5, true =>
      let s := sanDone s
      endSanitize 1 { s.put SEC_SAN_SPROG 0xFFFF with sec := { s.sec with globalErased := true } }
    | 2, false => endSanitize 3 s
    | 3, false => endSanitize 3 s
    | _, _ => s

/-- The latest START of the mounted cartridge. -/
def State.sanRec (s : State) : Option SanRec := (s.cel.sanRecs.filter fun r => r.serial == s.serial).getLast?
/-- MOUNTED is reached: a START without a DONE is to be resumed, and the log reports it as in progress until then (R526). -/
def lookSanitize (s : State) : State :=
  let sstat := match s.sanRec with
    | some r => if r.done then 1 else 2
    | none => 0
  { s.puts [(SEC_STAT_SANITIZING, (sstat == 2).toNat), (SEC_SAN_SSTAT, sstat)] with sec := { s.sec with sanStep := 0, sanLook := true } }

/-- SANITIZE_RESUME: once after MOUNTED is reached the latest START of the cartridge without a DONE resumes its sanitize, from step 2 where the
NAMESPACES record is still the one it names, else from step 3 (R526). -/
def execSanitizeResume (s : State) : Res :=
  s.doIf (s.inLife [MOUNTED] && s.sec.sanLook) fun s =>
    let s := { s with sec := { s.sec with sanLook := false } }
    match s.sanRec with
    | some r => if r.done then s else runSanitize (if r.seq == s.newestSeq atNAMESPACES 0 then 2 else 3) r.cdw10 s
    | none => s

end Sys2Proof.Machine
end

