-- ==== Sys2Proof/Machine/Modes.lean ====
section
/-! DEFINITION. A mode change in force: what its commit starts, and the events that end its parts (R463, R467 to R472). -/

namespace Sys2Proof.Machine

open R

/-- A head has spans that are read back as it leaves VERIFY 1, and that are not yet verified (R472). -/
def State.unverified (s : State) : Bool := s.wrs.any fun w => w.spans.any Span.back
/-- A head reads back every span since its last passing sample (R472). -/
def startReadBack (h : Nat) (s : State) : State :=
  readBack h (fun _ => true) (s.setWh h fun w => { w with spans := w.spans.map fun x => { x with back := true } })

/-- A mode takes force (R467). In MOUNTED the rows of Table 18.4 begin: no write window while the speed target must change
(R469), heads leave and join (R470, R471), spans written under VERIFY 1 are read back (R472), patrol windows that the mode
forbids close. -/
def commitMode (m : Nat) (s : State) : State :=
  let was := s.modeCfg s.mode
  let s := s.when (s.mode != m) fun s => s.inc SYS_MODE_ST_CHANGES
  let s := { s with sys := { s.sys with modeAt := s.now, modeWas := s.mode } }
  let s := s.puts [(SYS_MODE_REQ_MODE, m), (SYS_MODE_CUR_MODE, m)]
  if s.life != MOUNTED then formEffective s
  else
    let old := s.get SYS_MODE_ST_EFFH
    let s := s.put SYS_MODE_ST_TRANS 1
    let s := s.putB SYS_MODE_ST_RAMPWAIT (s.cappedRpm != s.get SPN_TGT_TARGET)
    let s := reform s
    let new := s.get SYS_MODE_ST_EFFH
    let s := s.put SYS_MODE_ST_LEAVE
      ((s.get SYS_MODE_ST_LEAVE ||| (old - (old &&& new))) - ((s.get SYS_MODE_ST_LEAVE ||| (old - (old &&& new))) &&& new))
    let s := forUpTo 4 (fun h s => s.when (!s.bit SYS_MODE_ST_LEAVE h) fun s => s.setOpu h fun o => { o with leaving := 0 }) s
    let s := s.when (was.verify == 1 && (s.modeCfg m).verify != 1) fun s =>
      let s := forUpTo 4 startReadBack s
      s.when s.unverified fun s => s.put SYS_MODE_ST_READBACK 1
    let s := s.when ((s.modeCfg m).patrol == 0) (cutReads fun w => w.act == 5)
    checkTrans (forUpTo 4 leaveProgress s)

/-- RAMPWAIT_END: the first tick with no open write window; the spindle target changes (R469). -/
def execRampwaitEnd (s : State) : Res :=
  s.doIf (s.inLife [MOUNTED] && s.flag SYS_MODE_ST_RAMPWAIT && !s.writing) fun s =>
    checkTrans (followTarget (s.put SYS_MODE_ST_RAMPWAIT 0))

/-- HEAD_LEAVE_DONE: a leaving head has parked (R470); one that FLT_HEADCTL took offline is out of service without a fault (R508). -/
def execHeadLeaveDone (h : Head) (s : State) : Res :=
  s.doIf (s.inLife [MOUNTED] && s.bit SYS_MODE_ST_LEAVE h && (s.opuHead h).leaving == 2 && !s.sledMoving h) fun s =>
    let s := (s.setBit SYS_MODE_ST_LEAVE h false).setOpu h fun o => { o with leaving := 0 }
    let s := s.when (s.flag FLT_ACTST_BUSY && s.flt.actHead == h.val && !s.enumerating h) fun s =>
      endHeadAction 1 (setPhase h hpOUT (syncLon h (s.put (OPU_HSTAT_INSVC h) 0)))
    checkTrans s

/-- HEAD_JOIN_DONE: a joining head has reached ON_TRACK (R471). -/
def execHeadJoinDone (h : Head) (s : State) : Res :=
  s.doIf (s.inLife [MOUNTED] && s.bit SYS_MODE_ST_JOIN h && s.get (SRV_HSTAT_PHASE h) == hpON_TRACK) fun s =>
    checkTrans (s.setBit SYS_MODE_ST_JOIN h false)

/-- READBACK_DONE: no head has a span written under VERIFY 1 outstanding (R472). -/
def execReadbackDone (s : State) : Res :=
  s.doIf (s.inLife [MOUNTED] && s.flag SYS_MODE_ST_READBACK && !s.unverified) fun s =>
    checkTrans (s.put SYS_MODE_ST_READBACK 0)

/-! ### Head actions (R508) -/

/-- The refusals of a write of FLT_HEADCTL: 0 accepted. -/
def restoreCode (h : Nat) (s : State) : Nat :=
  if s.life != MOUNTED then 2
  else if s.flag FLT_ACTST_BUSY || s.inSvc h || !s.declared h then 3
  else 0

/-- A write of FLT_HEADCTL (R508). -/
def headCtl (v : Nat) (s : State) : State :=
  let h := v % 4
  let off := v.testBit 2
  let res := v.testBit 3
  let begin' := fun (s : State) => { s.puts [(FLT_ACTST_BUSY, 1), (FLT_ACTST_RESULT, 0)] with flt := { s.flt with actHead := h } }
  if off && res then s.put FLT_ACTST_RESULT 3
  else if off then
    if headOfflineCode h s == 0 then startLeave h (begin' s) else s.put FLT_ACTST_RESULT (headOfflineCode h s)
  else if res then
    if restoreCode h s == 0 then startEnum h true (begin' s) else s.put FLT_ACTST_RESULT (restoreCode h s)
  else s

/-- FLT_HEAD_OFFLINE: a write of FLT_HEADCTL with OFFLINE 1. -/
def execFltHeadOffline (p : Port) (v : Word) (s : State) : Res :=
  vendorWrite p FLT_HEADCTL_HEAD.off false (headCtl (v.toNat ||| 4)) s

/-- FLT_HEAD_RESTORE: a write of FLT_HEADCTL with RESTORE 1. -/
def execFltHeadRestore (p : Port) (v : Word) (s : State) : Res :=
  vendorWrite p FLT_HEADCTL_HEAD.off false (headCtl (v.toNat ||| 8)) s

end Sys2Proof.Machine
end

