-- ==== Sys2Proof/Machine/Sketch.lean ====
section
/-! DEFINITION. Sketch and Varnish: staging, arming, distribution, the final check and the commit (R103 to R122, R590). -/

namespace Sys2Proof.Machine

open R

/-! ### Staging (R104 to R108) -/

def block (off : Nat) : Nat := off / 0x100000
def SKT_BUSY := 2
def SKT_FULL := 1
def SKT_TARGET := 3
def SKT_MASK := 4
def SKT_EMPTY := 5

/-- A field is stageable (R104): Canvas-set and RW, outside the blocks that stage nothing and the PATCH record's registers;
and SYS_MODE_REQ. -/
def Fld.stageable (f : Fld) : Bool :=
  f.acc == .rw && ((f.setBy == .canvas && !([3, 4, 0x14, 0x15, 0x1A, 0x1B, 0x1C].contains (block f.off)))
    || f.key == SYS_MODE_REQ_MODE.key)

/-- The slot a Palette word belongs to (R190). -/
def State.slotOf (s : State) (i : Nat) : Option Nat :=
  (List.range 256).find? fun k => s.flag (SRV_PALDIR_VALID k) && s.get (SRV_PALDIR_BASE k) ≤ i
    && i < s.get (SRV_PALDIR_BASE k) + s.get (SRV_PALDIR_WORDS k)
def palWord (off : Nat) : Option Nat :=
  if (SRV_PAL_COEF 0).off ≤ off && off < (SRV_PAL_COEF 16384).off then some ((off - (SRV_PAL_COEF 0).off) / 4) else none

/-- A mask covers all of a field, or none of it. -/
def Fld.wholeOrNone (f : Fld) (mask : Nat) : Bool := mask &&& f.mask == 0 || mask &&& f.mask == f.mask

/-- The refusal of an entry by its offset and mask (R104, R105, R190): 0 none. -/
def entryError (s : State) (off mask : Nat) : Nat :=
  let fs := fieldsAt off
  let orphan := match palWord off with
    | some i => (s.slotOf i).isNone
    | none => false
  if fs.isEmpty || orphan then SKT_TARGET
  else if fs.any fun f => mask &&& f.mask != 0 && (!f.stageable || !f.wholeOrNone mask) then SKT_TARGET
  else if fs.all fun f => mask &&& f.mask == 0 then SKT_MASK
  else 0

/-- The refusal of an append (R107): the first of BUSY, FULL, TARGET, MASK. -/
def stageError (s : State) : Nat :=
  if s.armed then SKT_BUSY
  else if 512 ≤ s.skt.entries.length then SKT_FULL
  else entryError s (4 * s.get SKT_STAGE_ADDR_OFFSET) (s.get SKT_STAGE_MASK_MASK)

/-- A write of SKT_STAGE (R106, R107). -/
def stage (v : Nat) (s : State) : State :=
  if stageError s != 0 then s.put SKT_STATUS_STGERR (stageError s)
  else
    let e : SkEntry := ⟨4 * s.get SKT_STAGE_ADDR_OFFSET, s.get SKT_STAGE_MASK_MASK, v⟩
    let s := { s.put SKT_STATUS_PHASE skSTAGED with skt := { s.skt with entries := s.skt.entries ++ [e] } }
    s.when (s.flag SKT_CTRL_AUTOINC) fun s => s.put SKT_STAGE_ADDR_OFFSET (s.get SKT_STAGE_ADDR_OFFSET + 1)

/-- SKT_STAGE: a write of SKT_STAGE appends an entry or is refused (R106). -/
def execSktStage (p : Port) (v : Word) (s : State) : Res := vendorWrite p SKT_STAGE_VALUE.off false (stage v.toNat) s

/-- A write of SKT_CTRL: CANCEL, then CLEAR, then AUTOINC (R106, R117). -/
def sktCtrl (v : Nat) (s : State) : State :=
  let s := s.when (v.testBit 1 && s.armed) (varnishAbort vCANCELLED 0)
  let s := s.when (v.testBit 0) fun s =>
    if s.armed then s.put SKT_STATUS_STGERR SKT_BUSY else (clearSketch s).put SKT_STATUS_STGERR 0
  s.putB SKT_CTRL_AUTOINC (v.testBit 2)

/-- SKT_CANCEL: a write of SKT_CTRL with CANCEL 1 (R117). -/
def execSktCancel (p : Port) (v : Word) (s : State) : Res :=
  vendorWrite p SKT_CTRL_CLEAR.off false (sktCtrl (v.toNat ||| 2)) s

/-- SKT_CLEAR: a write of SKT_CTRL with CLEAR 1 (R117). -/
def execSktClear (p : Port) (v : Word) (s : State) : Res :=
  vendorWrite p SKT_CTRL_CLEAR.off false (sktCtrl (v.toNat ||| 1)) s

/-! ### Arming and distribution (R109 to R112) -/

/-- SKT settles the strobe and checks the domains in the last 8,192 au (R112, R113). -/
def strobeAu : Nat := 8192

/-- A write of SKT_VARNISH_HI arms the Varnish (R109, R111, R112). An arm that is not refused clears STGERR, also where it aborts at
once with LATE or SCHEDFULL (DESIGN CHOICE, log entry 176). In ASAP mode the commit tick is known when distribution
ends; until then its place in the store holds a target half the range ahead (DEDUCED, log entry 15). -/
def armVarnish (v : Nat) (s : State) : State :=
  let s := s.puts [(SKT_VARNISH_HI_ASAP, v / 2 ^ 24 % 2), (SKT_VARNISH_HI_TGT, v % 2 ^ 24)]
  if s.armed then s.put SKT_STATUS_STGERR SKT_BUSY
  else if s.skt.entries.isEmpty then s.put SKT_STATUS_STGERR SKT_EMPTY
  else
    let s := s.puts [(SKT_STATUS_STGERR, 0), (SKT_STATUS_PHASE, skDISTRIBUTING)]
    let asap := v.testBit 24
    let t := if asap then (s.now + 2 ^ 46) % au48 else v % 2 ^ 24 * au24 + s.get SKT_VARNISH_LO_TGT
    if !asap && passed s.now t then varnishAbort vLATE 0 s
    else
      match storeEv { cls := .varnish, owner := 0, target := t, len := 0 } s with
      | none => varnishAbort vSCHEDFULL 0 s
      | some s => { s with skt := { s.skt with target := tickAt t, asap } }

/-- VARNISH_ARM: a write of SKT_VARNISH_HI (R109). -/
def execVarnishArm (p : Port) (v : Word) (s : State) : Res :=
  vendorWrite p SKT_VARNISH_HI_TGT.off false (armVarnish v.toNat) s

/-- An entry in the register file: the fields its mask covers take the value's bits (R105). -/
def applyEntry (rf : RegFile) (e : SkEntry) : RegFile :=
  (fieldsAt e.off).foldl (fun rf f => if e.mask &&& f.mask == 0 then rf else rf.write f (f.ofWord e.val)) rf
def applyEntries (l : List SkEntry) (rf : RegFile) : RegFile := l.foldl applyEntry rf

/-- The check of the fields one entry writes, against the file as it will be (R110, R467). -/
def entryOk (s : State) (rf : RegFile) (e : SkEntry) : Bool :=
  if e.off == SYS_MODE_REQ_MODE.off then rf.read SYS_MODE_REQ_MODE ≤ 5 && (s.life == PRIMED || s.life == MOUNTED)
  else regInRange rf e.off e.mask

/-- The commit tick leaves SKT its 8,192 au. -/
def State.inTime (s : State) (t : Nat) : Bool :=
  let d := (t + au48 - s.now) % au48
  strobeAu ≤ d && d < 2 ^ 47

/-- VARNISH_DISTRIBUTED: every entry has been checked and delivered, 64 ns each (R109); the first that fails aborts with
RANGE, and a distribution that ends too late with LATE. -/
def execVarnishDistributed (s : State) : Res :=
  s.doIf (s.applied && s.get SKT_STATUS_PHASE == skDISTRIBUTING) fun s =>
    let rf := applyEntries s.skt.entries s.rf
    match s.skt.entries.findIdx? fun e => !entryOk s rf e with
    | some i => varnishAbort vRANGE i s
    | none =>
      if s.skt.asap then
        let t := tickAt (s.now + strobeAu)
        let s := s.put SKT_STATUS_PHASE skWAITING
        { s with
          skt := { s.skt with target := t }
          ang := { s.ang with pend := s.ang.pend.map fun e => if e.cls == .varnish then { e with target := t } else e } }
      else if s.inTime s.skt.target then s.put SKT_STATUS_PHASE skWAITING
      else varnishAbort vLATE 0 s

/-! ### The final check and the commit (R113, R114, R590) -/

/-- The matrix unit whose domain an entry targets: the HOME unit of the loop its SRV_ACT or slot belongs to; every other
entry targets CORE. -/
def entryUnit (s : State) (e : SkEntry) : Option Nat :=
  match (List.range 17).find? fun l => (SRV_ACT_SLOT0 l).off == e.off with
  | some l => some (s.loopDesc l).home
  | none =>
    match palWord e.off with
    | none => none
    | some i => (s.slotOf i).map fun k => (s.loopDesc (s.get (SRV_PALDIR_LOOP k))).home

/-- The first entry whose domain is out of service. -/
def offlineEntry (s : State) : Option Nat :=
  s.skt.entries.findIdx? fun e =>
    match entryUnit s e with
    | some u => !s.bit SRV_UNIT_INSVC u
    | none => false

/-- VARNISH_FINAL_CHECK: in the last 8,192 au before the commit tick every target domain is in service, or the Varnish
aborts with OFFLINE (R113). -/
def execVarnishFinalCheck (s : State) : Res :=
  s.doIf (s.applied && s.get SKT_STATUS_PHASE == skWAITING
      && passed s.now ((s.skt.target + au48 - strobeAu) % au48)) fun s =>
    match offlineEntry s with
    | some i => varnishAbort vOFFLINE i s
    | none => s

/-- What a committed register brings with it: a band-table row that changed is loaded again (R252), a spindle setting moves
the target (R241), a mode change begins (R467). -/
def afterCommit (s : State) (e : SkEntry) : State :=
  if (CHN_BT_B0 0).off ≤ e.off && e.off < (CHN_BT_B0 12288).off then
    let w := (e.off - (CHN_BT_B0 0).off) / 4
    rowChanged (w / 256) (w % 256 / 8) s
  else if e.off == ANG_FREE_RATE.off then s.when (s.src == srcFREE) syncRate
  else if block e.off == 8 && !s.flag SYS_MODE_ST_RAMPWAIT then followTarget s
  else if e.off == THM_PERIOD_PERIOD.off then
    { s with thm := { s.thm with nextGov := (s.now + s.get THM_PERIOD_PERIOD) % au48 } }
  else s

/-- The strobe (R114): every entry takes effect, the shadow follows, an edit counts where a Canvas-set field changed. -/
def commitVarnish (s : State) : State :=
  let es := s.skt.entries
  let rf := applyEntries es s.rf
  let canvas := es.flatMap fun e => (fieldsAt e.off).filter fun f => f.setBy == .canvas && Nat.land e.mask f.mask != 0
  let changed := canvas.any fun f => rf.read f != s.rf.read f
  let mode := es.any fun e => e.off == SYS_MODE_REQ_MODE.off
  let s := { s with
    rf := rf
    cnv := { s.cnv with shadow := canvas.foldl (fun sh f => sh.write f (rf.read f)) s.cnv.shadow } }
  let s := s.when changed fun s => s.inc CNV_EDITS_COUNT
  let s := (varnishResult vCOMMITTED 0 s).inc SKT_CNT_COMMITS
  let s := clearSketch (calYield es (s.put SKT_RESULT_OVR 0))
  let s := es.foldl afterCommit s
  let s := s.when mode fun s => commitMode (s.get SYS_MODE_REQ_MODE) s
  completeMode vCOMMITTED s

/-- VARNISH_COMMIT: the commit tick has come (R114). A domain that left service aborts with OFFLINE, a distribution still
running with LATE. -/
def execVarnishCommit (s : State) : Res :=
  match takeDue .varnish 0 s with
  | none => .next s
  | some (_, t) => s.doIf (s.applied && s.armed) fun _ =>
      if t.get SKT_STATUS_PHASE == skDISTRIBUTING then varnishAbort vLATE 0 t
      else
        match offlineEntry t with
        | some i => varnishAbort vOFFLINE i t
        | none => commitVarnish t

end Sys2Proof.Machine
end

