-- ==== Sys2Proof/Machine/View.lean ====
section
/-! DEFINITION. What a register reads: fields that mirror other state, the latched halves, and the read-back windows (R21,
R106, R354, R451, R454, R537, Tables 14.9, 20.6, 22.7). -/

namespace Sys2Proof.Machine

open R

/-- The instance of a field among the `n` instances of a register. -/
def Fld.inst (f : Fld) (base : Nat → Fld) (n : Nat) : Option Nat := (List.range n).find? fun i => (base i).key == f.key

/-- A running DMA channel owns this FIFO as its source (R446). -/
def State.fifoOwned (s : State) (i : Nat) : Bool :=
  (List.range 8).any fun c => s.flag (DMA_STAT_BUSY c) && s.get (DMA_CTRL_SSPACE c) == 2 && s.get (DMA_SRC_LO_ADDR c) % 4 == i

/-- The next word of a FIFO (R454). -/
def State.fifoNext (s : State) (i : Nat) : Nat :=
  if s.fifoOwned i then 0 else ((((s.fifo i).pkts.headD []).drop (s.fifo i).rd).headD 0).toNat

/-- HLT_STAT.PATROL. -/
def State.patrolCode (s : State) : Nat :=
  if s.flag HLT_CTRL_PAUSE then 3
  else if s.life != MOUNTED || (s.modeCfg s.mode).patrol == 0 then 0
  else if (s.modeCfg s.mode).patrol == 2 || s.hlt.patrolRead then 2
  else 1

/-- A mask with one bit for each head that meets a condition. -/
def headMask (k : Nat → Bool) : Nat := maskOf ((List.range 4).filter k)

/-- Bits of FLT_ACTIVE and CAL_STAT for units: bit i where the condition holds. -/
def bitMask (n : Nat) (k : Nat → Bool) : Nat := maskOf ((List.range n).filter k)

/-- A lane works and the source permits reads: the wobble assist is in force (R257). -/
def State.assist (s : State) (l : Nat) : Bool :=
  s.readsOk && !([laneOFF, laneIDLE, laneFAILED].contains (s.get (CHN_LANEMAP_STATE l)))

/-- The value of a field that mirrors other state; a field of no such kind has none. -/
def State.mirror (s : State) (f : Fld) : Option Nat :=
  match block f.off with
  | 0x01 => if f.key == SYS_ID_GRADE.key then some (if Config.gradeTwo then 2 else 1) else none
  | 0x02 =>
    if f.key == ANG_EVT_PEND.key then some (min s.stored ANG_EVT_PEND.max)
    else if f.key == ANG_NOW_HI_REV.key then some s.ang.latchHi
    else none
  | 0x04 =>
    if f.key == SKT_STATUS_COUNT.key then some s.skt.entries.length
    else if f.key == SKT_COMMIT_HI_REV.key then some s.skt.commitHiLatch
    else none
  | 0x06 => if f.key == OPU_GSTAT_LSREN.key then some s.sys.lsrEn.toNat else none
  | 0x09 => (f.inst CHN_TR_ASSIST 28).map fun l => (s.assist l).toNat
  | 0x0D => if f.key == STR_WSEQ_LO_WSEQ.key then some (s.str.wseq % 2 ^ 32) else none
  | 0x0F => if f.key == HLT_STAT_PATROL.key then some s.patrolCode else none
  | 0x10 =>
    if f.key == CAL_STAT_BUSY.key then
      some (headMask fun h => s.wins.any (fun w => w.cls == .calWin && w.head == h) || s.chn.shadows.any fun l => l / 7 == h)
    else if f.key == CAL_STAT_DUE.key then some (headMask fun h => s.cal.due.any fun k => k / 48 == h)
    else if f.key == CAL_STAT_FULL.key then some (headMask fun h => s.cal.reqs.any fun r => r.head == h && r.kind != 0)
    else none
  | 0x16 =>
    match f.inst FIF_DATA_WORD 3, f.inst FIF_LEVEL_WORDS 3, f.inst FIF_STAT_EMPTY 3, f.inst FIF_STAT_FULL 3 with
    | some i, _, _, _ => some (s.fifoNext i)
    | _, some i, _, _ => some (s.fifo i).level
    | _, _, some i, _ => some ((s.fifo i).level == 0).toNat
    | _, _, _, some i => some (decide (s.get (FIF_CAP_WORDS i) ≤ (s.fifo i).level)).toNat
    | _, _, _, _ => none
  | 0x19 =>
    if f.key == FLT_ACTIVE1_UNITS.key then some (s.get SRV_UNIT_FAULT)
    else if f.key == FLT_ACTIVE1_DECS.key then some (s.get CWD_POOL_FAULT)
    else if f.key == FLT_ACTIVE1_WAYS.key then some (s.get LRD_WAYST_FAULT)
    else if f.key == FLT_ACTIVE2_MCHK.key then some (s.get SEQ_MCHK_VALID)
    else if f.key == FLT_ACTIVE2_SPINDLE.key then some (s.get SPN_STAT_FAULT)
    else if f.key == FLT_ACTIVE2_PORTS.key then some (bitMask 2 fun p => !s.flag (HST_PORT_UP p))
    else none
  | 0x1C =>
    if f.key == DBG_STAT_OPEN.key then some (s.get SEC_STAT_DBGOPEN)
    else if f.key == DBG_STAT_LOCK.key then some s.sec.dbgLock.toNat
    else none
  | _ => none

/-- A field as a read returns it: its state for what a mirror does not give, zero for a write-only field (Table 0.6); in BARE an ANG
field reads its reset value (R73, R94). -/
def State.readFld (s : State) (f : Fld) : Nat :=
  if s.life == BARE && block f.off == 0x02 then f.reset
  else
  match s.mirror f with
  | some v => v
  | none => if f.acc == .wo then 0 else s.get f

/-- The SKT_BUF window: entry i at 16 × i; entries at or above COUNT read as zero (Table 4.4). -/
def State.sktBuf (s : State) (d : Nat) : Nat :=
  match s.skt.entries[d / 16]? with
  | none => 0
  | some e => [e.off, e.mask, e.val, 0].getD (d % 16 / 4) 0

/-- CAL_HL.MINUTES counts minutes that this model does not count. -/
def minutesFree (off : Nat) : Bool := 0x1001000 ≤ off && off < 0x1002000 && off % 16 == 12

/-- PWR_ICORE reports a current and the active phases that no command gives: any current, any number of phases from 1 to 4 (R477; DESIGN CHOICE,
log entry 1). -/
def State.icore (s : State) : Nat := s.freeVal 16 + 2 ^ 16 * (1 + s.freeVal 18 / 2 ^ 16)
/-- A register whose read takes a free value. -/
def readFree (off : Nat) : Bool := minutesFree off || off == PWR_ICORE_MA.off

/-- What a read of an aligned vendor offset returns, without any side effect; reserved bits and offsets that name no register
read as zero. A layer's minutes since its latest calibration are free (DESIGN CHOICE, log entry 1). -/
def State.regRead (s : State) (off : Nat) : Nat :=
  if 0x401000 ≤ off && off < 0x403000 then s.sktBuf (off - 0x401000)
  else if off == PWR_ICORE_MA.off then s.icore
  else
    let v := ((fieldsAt off).map fun f => s.readFld f % 2 ^ f.width * 2 ^ f.lsb).sum
    if minutesFree off then v % 2 ^ 16 + s.freeVal 16 * 2 ^ 16 else v

/-- The free value that a read has taken is used up. -/
def readDraw (off : Nat) (s : State) : State := s.when (readFree off) State.drawn

end Sys2Proof.Machine
end

