-- ==== Sys2Proof/Machine/Admin.lean ====
section
/-! DEFINITION. The admin commands that execute one at a time, the vendor commands, and the work of a tick on them (R380, R404
to R409). -/

namespace Sys2Proof.Machine

open R

/-! ### Vendor commands -/

/-- Mount (R404, R405). -/
def beginMount (p cid cdw : Nat) (s : State) : State :=
  if cdw / 16 != 0 || (5 < cdw && cdw != 0xF) then endAdm p cid scInvalidField 0 s else decideMount p cid cdw s

/-- Calibrate (R407): as CAL_CTL with GO. -/
def beginCalibrate (p cid cdw : Nat) (s : State) : State :=
  if Nat.land cdw (2 ^ 32 - 1 - 0x3F33) != 0 then endAdm p cid scInvalidField 0 s
  else
    let r := calRequest (cdw % 4) (cdw / 16 % 4) (cdw / 256 % 64) s
    if r.1 == 0 then r.2 else endAdm p cid scCalRefused r.1 r.2

/-- DW0 of a Patrol command: HLT_STAT [13:0]. -/
def State.patrolDw0 (s : State) : Nat := s.regRead HLT_STAT_PATROL.off % 2 ^ 14

/-- Patrol actions 1 to 3 (R407): PAUSE, its clearing, a new lap. -/
def beginPatrol (p cid act : Nat) (s : State) : State :=
  if s.life != MOUNTED then endAdm p cid scState 0 s
  else
    let s := if act == 1 then pausePatrol true s else if act == 2 then pausePatrol false s else restartLap s
    endAdm p cid scSuccess s.patrolDw0 s

/-- A Custody request (R408). -/
def beginCustody (p cid res target : Nat) (s : State) : State :=
  let up := (target == 1 || target == 2) && (s.queueCfg (target - 1)).enable && s.flag (HST_PORT_UP (target - 1))
  if (res != 0 && (s.nsOf res).isNone) || !up then endAdm p cid scInvalidField 0 s
  else requestCustody ⟨res, p, target, some cid⟩ s

/-- Mode (R409): one staged entry, armed in ASAP mode. -/
def beginMode (p cid idx : Nat) (s : State) : State :=
  if s.life != PRIMED && s.life != MOUNTED then endAdm p cid scState 0 s
  else if 5 < idx then endAdm p cid scInvalidField 0 s
  else if s.get SKT_STATUS_PHASE != skEMPTY then endAdm p cid scSketchBusy 0 s
  else
    let e : SkEntry := ⟨SYS_MODE_REQ_MODE.off, SYS_MODE_REQ_MODE.mask, idx⟩
    armVarnish (2 ^ 24) { s.put SKT_STATUS_PHASE skSTAGED with skt := { s.skt with entries := [e] } }

/-! ### One at a time (R380) -/

def nsCreateOf (l : List Nat) : NsCreate :=
  let g := fun i => l.getD i 0
  { csi := BitVec.ofNat 8 (g 0), nsze := BitVec.ofNat 64 (g 1), ncap := BitVec.ofNat 64 (g 2), flbas := BitVec.ofNat 8 (g 3)
    dps := BitVec.ofNat 8 (g 4), nmic := BitVec.ofNat 8 (g 5), enc := g 6 != 0, rest := g 7 != 0 }
def nsCreateArgs (n : NsCreate) : List Nat :=
  [n.csi.toNat, n.nsze.toNat, n.ncap.toNat, n.flbas.toNat, n.dps.toNat, n.nmic.toNat, n.enc.toNat, n.rest.toNat]

/-- The commands marked M (Table 15.1). -/
def markedM : List Nat := [0x0D, 0x15, 0x84, 0xC0, 0xC8, 0xCC, 0xD4]

/-- What the command that begins does. -/
def runAdmin (l : LongCmd) (s : State) : State :=
  match l.kind with
  | 0x0D => if l.arg == 0 then createNs l.port l.cid (nsCreateOf l.args) s else deleteNs l.port l.cid l.nsid s
  | 0x15 => attachNs l.port l.cid l.nsid (l.arg / 4 != 0) (l.arg % 4) s
  | 0x81 =>
    let b := l.args.map (BitVec.ofNat 8)
    if l.arg == 1 then deliverKey l.port l.cid b s
    else if l.arg == 2 then installKek l.port l.cid b s
    else purgeKeys l.port l.cid l.nsid s
  | 0x82 => securityReceive l.port l.cid (l.arg / 65536) (l.arg % 65536) s
  | 0x84 => beginSanitize l.port l.cid l.arg s
  | 0xC0 => beginMount l.port l.cid l.arg s
  | 0xC8 => beginCalibrate l.port l.cid l.arg s
  | 0xCC => beginPatrol l.port l.cid l.arg s
  | 0xD0 => beginCustody l.port l.cid l.nsid l.arg s
  | _ => beginMode l.port l.cid l.arg s

/-- The command begins. -/
def beginAdmin (l : LongCmd) (s : State) : State :=
  let s := { s with hst := { s.hst with long := some l } }
  if markedM.contains l.kind then needMgmt l.port l.cid (runAdmin l) s else runAdmin l s

/-- An admin command that is not immediate begins at its fetch, or waits its turn. -/
def enqueueLong (l : LongCmd) (s : State) : Res :=
  .next (match fetch (adm l.port l.cid l.kind) s with
  | none => s
  | some t =>
    if t.hst.long.isNone && t.hst.longWait.isEmpty then beginAdmin l t
    else { t with hst := { t.hst with longWait := t.hst.longWait ++ [l] } })

/-- At a tick a namespace delete whose stripes have ended goes on, and waiting commands begin in fetch order. -/
def pumpAdmin : Nat → State → State
  | 0, s => s
  | n + 1, s =>
    let s := match s.hst.long with
      | some l => if l.kind == 0x0D && l.arg == 1 then endDelete l.port l.cid l.args s else s
      | none => s
    match s.hst.long, s.hst.longWait with
    | none, l :: ls => pumpAdmin n (beginAdmin l { s with hst := { s.hst with longWait := ls } })
    | _, _ => s

/-- CUSTODY_ARBITRATION: at each tick the requests of each resource are arbitrated (R399), and admin commands that wait begin
(R380). -/
def execCustodyArbitration (s : State) : Res :=
  s.doIf s.applied fun s =>
    let s := forUpTo 65 arbitrate s
    pumpAdmin (s.hst.longWait.length + 1) s

/-! ### The commands -/

/-- NAMESPACE_CREATE (R386). -/
def execNamespaceCreate (p : Port) (cid : BitVec 16) (n : NsCreate) (s : State) : Res :=
  enqueueLong { kind := 0x0D, port := p, cid := cid.toNat, arg := 0, args := nsCreateArgs n } s
/-- NAMESPACE_DELETE (R388). -/
def execNamespaceDelete (p : Port) (cid : BitVec 16) (nsid : BitVec 32) (s : State) : Res :=
  enqueueLong { kind := 0x0D, port := p, cid := cid.toNat, arg := 1, nsid := nsid.toNat } s
/-- NAMESPACE_ATTACHMENT (R388). -/
def execNamespaceAttachment (p : Port) (cid : BitVec 16) (nsid : BitVec 32) (detach : Bool) (ctrls : BitVec 2) (s : State) : Res :=
  enqueueLong { kind := 0x15, port := p, cid := cid.toNat, arg := 4 * detach.toNat + ctrls.toNat, nsid := nsid.toNat } s
/-- KEY_DELIVER (R521). -/
def execKeyDeliver (p : Port) (cid : BitVec 16) (payload : List Byte) (s : State) : Res :=
  enqueueLong { kind := 0x81, port := p, cid := cid.toNat, arg := 1, args := payload.map BitVec.toNat } s
/-- KEK_INSTALL (R520). -/
def execKekInstall (p : Port) (cid : BitVec 16) (payload : List Byte) (s : State) : Res :=
  enqueueLong { kind := 0x81, port := p, cid := cid.toNat, arg := 2, args := payload.map BitVec.toNat } s
/-- KEY_PURGE (R521). -/
def execKeyPurge (p : Port) (cid : BitVec 16) (nsid : BitVec 32) (s : State) : Res :=
  enqueueLong { kind := 0x81, port := p, cid := cid.toNat, arg := 3, nsid := nsid.toNat } s
/-- SECURITY_RECEIVE (R521). -/
def execSecurityReceive (p : Port) (cid : BitVec 16) (proto : BitVec 8) (spsp : BitVec 16) (s : State) : Res :=
  enqueueLong { kind := 0x82, port := p, cid := cid.toNat, arg := proto.toNat * 65536 + spsp.toNat } s
/-- SANITIZE (R524). -/
def execSanitize (p : Port) (cid : BitVec 16) (cdw10 : Word) (s : State) : Res :=
  enqueueLong { kind := 0x84, port := p, cid := cid.toNat, arg := cdw10.toNat } s
/-- MOUNT (R405). -/
def execMount (p : Port) (cid : BitVec 16) (cdw10 : Word) (s : State) : Res :=
  enqueueLong { kind := 0xC0, port := p, cid := cid.toNat, arg := cdw10.toNat } s
/-- CALIBRATE (R407). -/
def execCalibrate (p : Port) (cid : BitVec 16) (cdw10 : Word) (s : State) : Res :=
  enqueueLong { kind := 0xC8, port := p, cid := cid.toNat, arg := cdw10.toNat } s
/-- PATROL_PAUSE (R407). -/
def execPatrolPause (p : Port) (cid : BitVec 16) (s : State) : Res :=
  enqueueLong { kind := 0xCC, port := p, cid := cid.toNat, arg := 1 } s
/-- PATROL_RESUME (R407). -/
def execPatrolResume (p : Port) (cid : BitVec 16) (s : State) : Res :=
  enqueueLong { kind := 0xCC, port := p, cid := cid.toNat, arg := 2 } s
/-- PATROL_RESTART (R407). -/
def execPatrolRestart (p : Port) (cid : BitVec 16) (s : State) : Res :=
  enqueueLong { kind := 0xCC, port := p, cid := cid.toNat, arg := 3 } s
/-- CUSTODY_REQUEST (R408). -/
def execCustodyRequest (p : Port) (cid : BitVec 16) (nsid : BitVec 32) (target : Fin 4) (s : State) : Res :=
  enqueueLong { kind := 0xD0, port := p, cid := cid.toNat, arg := target, nsid := nsid.toNat } s
/-- MODE (R409). -/
def execMode (p : Port) (cid : BitVec 16) (cdw10 : Word) (s : State) : Res :=
  enqueueLong { kind := 0xD4, port := p, cid := cid.toNat, arg := cdw10.toNat } s

/-- PATROL_QUERY (R404). -/
def execPatrolQuery (p : Port) (cid : BitVec 16) (s : State) : Res :=
  immediate p cid.toNat 0xCC (fun s => endAdm p cid.toNat scSuccess s.patrolDw0 s) s
/-- CUSTODY_QUERY (R408). -/
def execCustodyQuery (p : Port) (cid : BitVec 16) (nsid : BitVec 32) (s : State) : Res :=
  immediate p cid.toNat 0xD0 (fun s =>
    if 64 < nsid.toNat then endAdm p cid.toNat scInvalidField 0 s
    else endAdm p cid.toNat scSuccess (s.custDw0 nsid.toNat) s) s

/-- UNMOUNT (R406): held for its tick in MOUNTING and MOUNTED; in PARKING it completes when the park does. -/
def execUnmount (p : Port) (cid : BitVec 16) (cdw10 : Word) (s : State) : Res :=
  immediate p cid.toNat 0xC4 (needMgmt p cid.toNat fun s =>
    if cdw10 != 0 then endAdm p cid.toNat scInvalidField 0 s
    else if s.life == MOUNTING || s.life == MOUNTED then hold { kind := .unmount, cause := 0x20, port := p, cid := cid.toNat } s
    else if s.life == PARKING then { s with sys := { s.sys with unmountWait := s.sys.unmountWait ++ [(p.val, cid.toNat)] } }
    else endAdm p cid.toNat scState (s.get SYS_STATE_CAUSE) s) s

/-- Supported opcodes (Tables 15.1 and 15.7). -/
def adminOps : List Nat := [0, 1, 2, 4, 5, 6, 8, 9, 0xA, 0xC, 0xD, 0x15, 0x81, 0x82, 0x84, 0xC0, 0xC4, 0xC8, 0xCC, 0xD0, 0xD4]
def ioOps : List Nat := [0, 1, 2, 8, 9, 0xC, 0x79, 0x7A, 0x7D]

/-- UNSUPPORTED_OPCODE (R382, R391). -/
def execUnsupportedOpcode (p : Port) (qid cid : BitVec 16) (op : BitVec 8) (s : State) : Res :=
  let c : HCmd := { port := p, qid := qid.toNat, cid := cid.toNat, op := op.toNat }
  if (if c.qid == 0 then adminOps else ioOps).contains c.op then .next s
  else .next (match fetch c s with
    | none => s
    | some t => finishIo c (if c.qid != 0 && t.life != MOUNTED then scNotReady else scInvalidOpcode) t)

end Sys2Proof.Machine
end

