-- ==== Sys2Proof/Machine/AdminPages.lean ====
section
/-! DEFINITION. Identify and Get Log Page (R358, R373, R383, R385, R390, R403, R410, R518, R525; Tables 15.2, 15.4 to 15.6). Places
of fields that the spec names but does not place are those of NVMe 2.0. -/

namespace Sys2Proof.Machine

open R

/-- A page of `n` bytes: zero but for the parts given by offset. -/
def pageOf (n : Nat) (parts : List (Nat × List Nat)) : List Nat :=
  (parts.foldl (fun b p => b.take p.1 ++ p.2 ++ b.drop (p.1 + p.2.length)) (List.replicate n 0)).take n

/-! ### The drive serial (R518) -/

/-- The record at a word of the Identity region: TYPE, body and its length in code words, where its CRC passes. -/
def Cel.identityAt (c : Cel) (w : Nat) : Option (Nat × List Nat × Nat) :=
  let head := leBytes 16 (c.data w)
  let len := leNat ((head.drop 4).take 4)
  let words := (len + 12 + 15) / 16
  if 2048 * 8 < words then none
  else
    let b := (List.range words).flatMap fun i => leBytes 16 (c.data (w + i))
    if crc32c (b.take (8 + len)) == leNat ((b.drop (8 + len)).take 4) then
      some (leNat (b.take 4), (b.drop 8).take len, words)
    else none

/-- The serial number in force: the latest record of TYPE 1. -/
def Cel.serial (c : Cel) : Option (List Nat) :=
  let ws := (c.words.map Prod.fst).filter fun w => inRegion sectIDENTITY (celSector w)
  (ws.foldl (fun (r : Nat × Option (List Nat)) w =>
    if w < r.1 then r
    else
      match c.identityAt w with
      | none => r
      | some i => (w + i.2.2, if i.1 == 1 && i.2.1.length == 20 then some i.2.1 else r.2)) (0, none)).2

/-- The serial that Identify reports; a Cellar without a record holds the maker's, which is free (DESIGN CHOICE, log entry 1). -/
def State.sn (s : State) : List Nat := (s.cel.serial).getD (leBytes 20 (s.freeVal 160))

/-! ### Identify Controller (Table 15.2) -/

def ascii (l : List Char) (n : Nat) : List Nat := (l.map Char.toNat ++ List.replicate n 0x20).take n
/-- CNV_ID as eight upper-case hexadecimal digits. -/
def hexDigits (v : Nat) : List Nat :=
  (List.range 8).map fun i =>
    let d := v / 16 ^ (7 - i) % 16
    if d < 10 then 0x30 + d else 0x37 + d

/-- Bytes of one zone, of the volume's user zones, and of the free ones (R383). -/
def State.zoneBytes (s : State) : Nat := s.zoneUnits * 65536
def State.volMounted (s : State) : Bool := s.life == MOUNTED && s.flag STR_STAT_FORMATTED
def State.tnvmcap (s : State) : Nat := if s.volMounted then (s.get STR_ZONES_Z - sysZones) * s.zoneBytes else 0
def State.unvmcap (s : State) : Nat := if s.volMounted then s.freeZones.length * s.zoneBytes else 0

def nqnHead : List Char := "nqn.2024-03.com.maranatrix:hx9648:".toList

def identifyController (p : Nat) (s : State) : List Nat :=
  pageOf 4096 [(0, leBytes 2 0x1CB4 ++ leBytes 2 0x1CB4 ++ s.sn ++ ascii "MARANATRIX HX9648".toList 40 ++ hexDigits (s.get CNV_ID_ID)),
    (76, [0x0B, 9] ++ leBytes 2 (p + 1)), (92, leBytes 4 (2 ^ 8 + 2 ^ 11 + 2 ^ 27)),
    (256, leBytes 2 0x0009 ++ [3, 3, 0x03, 0x06, 63, 0]),
    (266, leBytes 2 (kelvin (s.getI THM_SOFT_SOFT)) ++ leBytes 2 (kelvin (s.getI THM_HARD_HARD))),
    (280, leBytes 16 s.tnvmcap), (296, leBytes 16 s.unvmcap), (328, leBytes 4 (s.cnv.cfg.secFlags / 2 % 2)),
    (342, [s.get HST_CFG_ANATT, 0x55] ++ leBytes 4 64 ++ leBytes 4 64), (512, [0x66, 0x44] ++ leBytes 2 4096 ++ leBytes 4 64),
    (520, leBytes 2 0x008C), (525, [0x07]), (540, leBytes 4 64),
    (768, nqnHead.map Char.toNat ++ (s.sn.reverse.dropWhile (· == 0x20)).reverse),
    (2048, leBytes 2 2100)]

/-! ### Identify Namespace (R390) -/

/-- Mapped units of a namespace. -/
def State.mappedUnits (s : State) (n : Ns) : Nat :=
  (s.str.map.filter fun e => e.1 / 2 ^ 32 == n.nsid && e.2 / 2 ^ 40 == 1).length

def lbaFormats : List Nat := leBytes 2 0 ++ [12, 0] ++ leBytes 2 0 ++ [9, 2]

def identifyNamespace (s : State) (n : Ns) : List Nat :=
  let u := n.unitLbas
  pageOf 4096 [
    (0, leBytes 8 n.nsze ++ leBytes 8 n.nsze ++ leBytes 8 (if n.zoned then n.nsze else s.mappedUnits n * u)
      ++ [if n.zoned then 0x12 else 0x13, 1, if n.lbads == 12 then 0 else 1, 0, 0, 0, 1, 0, 0, 0x09]
      ++ leBytes 2 (u - 1) ++ leBytes 2 (u - 1)),
    (46, leBytes 2 u), (64, leBytes 2 (s.dataMembers * u - 1) ++ leBytes 2 u), (72, leBytes 2 (s.dataMembers * u - 1)),
    (92, leBytes 4 n.nsid), (104, n.nguid s.serial), (128, lbaFormats)]

/-- Identify Namespace for NSID 0xFFFF_FFFF: what all namespaces share. -/
def identifyCommon : List Nat := pageOf 4096 [(25, [1]), (33, [0x09]), (128, lbaFormats)]

/-- CNS 0x05 of a zoned namespace. -/
def identifyZoned (s : State) (n : Ns) : List Nat :=
  let m := s.get STR_JCFG_MAXDIRTY - 1
  let e := leBytes 8 (s.zoneUnits * 16) ++ List.replicate 8 0
  let f := leBytes 8 (s.zoneUnits * 128) ++ List.replicate 8 0
  if n.zoned then pageOf 4096 [(2, leBytes 2 1 ++ leBytes 4 m ++ leBytes 4 m), (2816, e ++ f)] else List.replicate 4096 0

def nsList (l : List Nat) : List Nat := ((l.take 1024).flatMap (leBytes 4) ++ List.replicate 4096 0).take 4096
def ctrlList (l : List Nat) : List Nat := (leBytes 2 l.length ++ l.flatMap (leBytes 2) ++ List.replicate 4096 0).take 4096

/-- The namespaces in ascending order. -/
def State.nsids (s : State) : List Nat := ((List.range 64).map (· + 1)).filter fun i => (s.nsOf i).isSome

/-- An Identify structure, or the status that refuses it (Table 15.1). -/
def identifyPage (p cns csi nsid cntid : Nat) (s : State) : Except (Nat × Nat × Bool) (List Nat) :=
  let named := fun (k : Ns → List Nat) (attached : Bool) =>
    match s.nsOf nsid with
    | some n => if attached && !n.attach.testBit p then .ok (List.replicate 4096 0) else .ok (k n)
    | none => if 1 ≤ nsid && nsid ≤ 64 then .ok (List.replicate 4096 0) else .error scInvalidNs
  let listed := fun (sel : Nat → Bool) =>
    if 0xFFFFFFFE ≤ nsid then .error scInvalidNs else .ok (nsList (s.nsids.filter fun i => nsid < i && sel i))
  let attachedTo := fun (q : Nat) (i : Nat) => (s.nsOf i).any fun n => n.attach.testBit q
  match cns with
  | 0x00 => if nsid == 0xFFFFFFFF then .ok identifyCommon else named (identifyNamespace s) true
  | 0x01 => .ok (identifyController p s)
  | 0x02 => listed (attachedTo p)
  | 0x03 => named (fun n => pageOf 4096 [(0, [2, 16, 0, 0] ++ n.nguid s.serial ++ [4, 1, 0, 0, if n.zoned then 2 else 0])]) true
  | 0x05 => if csi == 2 then named (identifyZoned s) true else .error scInvalidField
  | 0x06 => if csi == 2 then .ok (List.replicate 4096 0) else .error scInvalidField
  | 0x10 => listed fun _ => true
  | 0x11 => named (identifyNamespace s) false
  | 0x12 =>
    if (s.nsOf nsid).isNone then .error scInvalidNs
    else .ok (ctrlList ([1, 2].filter fun c => cntid ≤ c && attachedTo (c - 1) nsid))
  | 0x13 => .ok (ctrlList ([1, 2].filter fun c => cntid ≤ c))
  | 0x1C => .ok (pageOf 4096 [(0, leBytes 8 5)])
  | _ => .error scInvalidField

/-- IDENTIFY (R382, R383, R390). -/
def execIdentify (p : Port) (cid : BitVec 16) (cns csi : BitVec 8) (nsid : BitVec 32) (cntid : BitVec 16) (s : State) : Res :=
  immediate p cid.toNat 6 (fun s =>
    match identifyPage p cns.toNat csi.toNat nsid.toNat cntid.toNat s with
    | .ok b => endData p cid.toNat b (s.when (cns == 1) State.drawn)
    | .error st => endAdm p cid.toNat st 0 s) s

/-! ### Log pages (Table 15.4) -/

/-- 0x01: 64 entries, newest first. -/
def logErrors (s : State) : List Nat :=
  pageOf 4096 [(0, s.hst.errlog.flatMap fun e =>
    leBytes 8 e.num ++ leBytes 2 e.qid ++ leBytes 2 e.cid ++ leBytes 2 (2 * e.status) ++ leBytes 2 0 ++ leBytes 8 e.lba
      ++ leBytes 4 e.nsid ++ leBytes 4 0 ++ leBytes 8 e.csi ++ List.replicate 24 0)]

/-- The valid die readings. -/
def State.dieTemps (s : State) : List Int :=
  ((List.range 16).filter fun k => s.flag (THM_DIE_VALID k)).map fun k => s.getI (THM_DIE_TEMP k)
def hottest : List Int → Nat
  | [] => 0
  | t :: ts => kelvin (ts.foldl max t)

/-- 0x02 (R357, Table 15.5). Busy time, power-on hours and the temperature times are figures of a clock that the model does not
hold: they are free (DESIGN CHOICE, log entry 1). -/
def logSmart (s : State) : List Nat :=
  let hot := s.dieTemps.any fun t => s.getI THM_SOFT_SOFT ≤ t
  let warn := (s.get HLT_STAT_SPARELOW) + 2 * hot.toNat + 4 * (s.get HLT_STAT_DEGR)
  let used := if s.get HLT_WCFG_RETIRE == 0 then 0 else min 255 (100 * s.get HLT_WEAR_MAXCNT / s.get HLT_WCFG_RETIRE)
  let pick := (List.range 4).flatMap fun h =>
    leBytes 2 (if s.flag (OPU_TEMP_VALID h) then kelvin (s.getI (OPU_TEMP_TEMP h)) else 0)
  pageOf 512 [(0, [warn] ++ leBytes 2 (hottest s.dieTemps) ++ [s.get HLT_SPARE_AVAIL, s.get HLT_SPARE_THR, used]),
    (32, leBytes 16 (ceilDiv s.hst.unitsRead 1000) ++ leBytes 16 (ceilDiv s.hst.unitsWritten 1000) ++ leBytes 16 s.hst.hostReads
      ++ leBytes 16 s.hst.hostWrites ++ leBytes 16 (s.freeVal 64) ++ leBytes 16 1 ++ leBytes 16 (s.drawn.freeVal 64)
      ++ leBytes 16 s.hst.unsafeDown ++ leBytes 16 s.hst.mediaErrs ++ leBytes 16 s.hst.errEntries
      ++ leBytes 4 (s.drawn.drawn.freeVal 32) ++ leBytes 4 (s.drawn.drawn.drawn.freeVal 32) ++ pick ++ leBytes 2 (hottest s.dieTemps))]

/-- 0x05: the supported commands; CSUPP, with logical block and namespace inventory changes. -/
def logEffects : List Nat :=
  pageOf 4096 ((adminOps.map fun o => (4 * o, [if o == 0x0D then 0x09 else 0x01]))
    ++ ioOps.map fun o => (1024 + 4 * o, [if [1, 8, 9, 0x79, 0x7D].contains o then 0x03 else 0x01]))

/-- The ANA state that a controller reports for a namespace (R398, R401). -/
def State.anaState (s : State) (p n : Nat) : Nat := if s.inSwap n then 0xF else if s.cust n == p + 1 then 1 else 3

/-- 0x0C: one group for each namespace. -/
def logAna (p : Nat) (s : State) : List Nat :=
  leBytes 8 0 ++ leBytes 2 s.nsids.length ++ List.replicate 6 0
    ++ s.nsids.flatMap fun n => leBytes 4 n ++ leBytes 4 1 ++ leBytes 8 0 ++ [s.anaState p n] ++ List.replicate 15 0 ++ leBytes 4 n

/-- 0x81 (R525). -/
def logSanitize (s : State) : List Nat :=
  let est := leBytes 4 0xFFFFFFFF
  pageOf 512 [(0, leBytes 2 (s.get SEC_SAN_SPROG) ++ leBytes 2 (s.get SEC_SAN_SSTAT + 256 * s.sec.globalErased.toNat)
    ++ leBytes 4 s.sec.sanCdw ++ est ++ est ++ leBytes 4 60 ++ est ++ est ++ est)]

/-- 0xBF: the changed zones of a namespace. -/
def logZones (p nsid : Nat) (s : State) : List Nat :=
  match s.nsOf nsid with
  | none => List.replicate 4096 0
  | some n =>
    let l := (s.hst.chgZones.filter fun z => z.1 == p && z.2.1 == nsid).map fun z => z.2.2 * s.zoneLbas n
    pageOf 4096 [(0, leBytes 2 l.length), (8, (l.take 511).flatMap (leBytes 8))]

/-- 0xC0 (R358). -/
def logHealth (s : State) : List Nat :=
  let bit := fun (f : Fld) => s.regRead f.off / 2 ^ f.lsb % 2 ^ f.width
  leBytes 8 s.hlt.age ++ leBytes 4 (s.get HLT_LAP_SEC) ++ leBytes 2 (s.get HLT_PROG_FRAC)
    ++ [bit HLT_STAT_DUE + 2 * (bit HLT_STAT_PATROL == 2).toNat + 4 * bit HLT_STAT_WARN, s.get HLT_STAT_FAILED]
    ++ (List.range 48).flatMap fun l =>
      let worn := s.hlt.count.any fun e => e.1 / 8192 == l && s.get HLT_WCFG2_WARN ≤ e.2
      leBytes 2 (s.get (HLT_LSTAT_MAXCNT l)) ++ [s.get (HLT_LSTAT_FAILED l) + 2 * worn.toNat, s.get (HLT_LSTAT_MARGIN l)]
        ++ leBytes 4 (s.get (HLT_LSTAT_RETIRED l)) ++ leBytes 4 (s.get (HLT_LSTAT_FREE l))
        ++ leBytes 4 (s.lostEntries.filter fun d => pbaLayer d.pba == l).length

/-- 0xC1 (R373): CAL_PROG, then the four words of CAL_HL of each head and layer, each with its own free count of minutes. -/
def logCalib (s : State) : List Nat :=
  leBytes 2 (s.regRead CAL_PROG_DONE.off) ++ List.replicate 14 0
    ++ (List.range 192).flatMap fun k => (List.range 4).flatMap fun w =>
      leBytes 4 (({ s with freeCtr := s.freeCtr + k } : State).regRead ((CAL_HL_EYE (k / 48) (k % 48)).off + 4 * w))

/-- 0xC3 (R403). -/
def logCustody (s : State) : List Nat :=
  [s.cust 0 + 4 * s.loser 0] ++ List.replicate 15 0
    ++ (List.range 64).map fun i =>
      s.cust (i + 1) + 4 * s.loser (i + 1) + 16 * (s.inSwap (i + 1)).toNat + 32 * (s.nsOf (i + 1)).isSome.toNat

/-- A log page, or none where it is not supported. -/
def logPage (p lid nsid : Nat) (s : State) : Option (List Nat) :=
  match lid with
  | 0x01 => some (logErrors s)
  | 0x02 => if nsid == 0 || nsid == 0xFFFFFFFF then some (logSmart s) else none
  | 0x03 => some (pageOf 512 [(0, [1]), (8, hexDigits (s.get CNV_ID_ID))])
  | 0x04 => some (nsList ((s.hst.chgNs.filter fun c => c.1 == p).map Prod.snd))
  | 0x05 => some logEffects
  | 0x0C => some (logAna p s)
  | 0x81 => some (logSanitize s)
  | 0xBF => some (logZones p nsid s)
  | 0xC0 => some (logHealth s)
  | 0xC1 => some (logCalib s)
  | 0xC2 => some ((s.hst.report ++ List.replicate 64 0).take 64)
  | 0xC3 => some (logCustody s)
  | _ => none

/-- What the read of a page clears, unless the command retains it: the lists of changes. -/
def readLog (p lid nsid : Nat) (s : State) : State :=
  if lid == 0x04 then { s with hst := { s.hst with chgNs := s.hst.chgNs.filter fun c => c.1 != p } }
  else if lid == 0xBF then { s with hst := { s.hst with chgZones := s.hst.chgZones.filter fun z => !(z.1 == p && z.2.1 == nsid) } }
  else s

/-- GET_LOG_PAGE: `len` bytes of a page from an offset in it (R385). -/
def execGetLogPage (p : Port) (cid : BitVec 16) (lid : BitVec 8) (nsid : BitVec 32) (off len : Nat) (rae : Bool) (s : State) : Res :=
  immediate p cid.toNat 2 (fun s =>
    match logPage p lid.toNat nsid.toNat s with
    | none => endAdm p cid.toNat scInvalidField 0 s
    | some b =>
      if b.length < off then endAdm p cid.toNat scInvalidField 0 s
      else
        let s := if rae then s else readLog p lid.toNat nsid.toNat s
        let n := if lid == 2 then 4 else if lid == 0xC1 then 192 else 0
        endData p cid.toNat ((b.drop off).take len) (forUpTo n (fun _ s => s.drawn) s)) s

end Sys2Proof.Machine
end

