-- ==== Sys2Proof/Machine/Thermal.lean ====
section
/-! DEFINITION. Temperature demands, the governed temperature, the lane duty and the stops on heat (R484 to R492). Temperatures are
in units of 1/16 °C; means and the rate are rounded down (DEDUCED, log entry 12). -/

namespace Sys2Proof.Machine

open R

def State.setThm (s : State) (k : Thm → Thm) : State := { s with thm := k s.thm }

/-! ### Demands (R485) -/

/-- Heads whose pickups a demand reads: their link sends TCONV, unless a reading is on its way. -/
def askPickups (hs : List Nat) (s : State) : State :=
  hs.foldl (fun s h =>
    if s.thm.pickWait.contains h || s.thm.govPick.contains h then s else queueXact h xTconv s) s

/-- GOVERNOR_DEMAND: the target of a governor demand has come, or has passed (counted in LATE); every PKDIV-th also reads every
present pickup (R485, Table 2.3). The next demand is PERIOD later. -/
def execGovernorDemand (s : State) : Res :=
  s.doIf (s.applied && s.ang.running && passed s.now s.thm.nextGov && s.turn (dueRank .tempDemand)) fun s =>
    let d := (s.now + au48 - s.thm.nextGov) % au48
    let p := max 1 (s.get THM_PERIOD_PERIOD)
    let s := s.when (tickAu ≤ d) fun s => s.inc ANG_EVT_LATE
    let hs := if (s.thm.govN + 1) % s.get THM_CFG_PKDIV == 0 then (List.range 4).filter s.present else []
    (askPickups hs s).setThm fun t => { t with
      nextGov := (t.nextGov + (d / p + 1) * p) % au48
      govN := t.govN + 1, govDue := true, conv := 0xFFFF
      govPick := t.govPick ++ hs.filter fun h => !t.govPick.contains h }

/-- The last result of a host demand has come: BUSY clears and DONE sets. -/
def hostDemandEnds (s : State) : State :=
  if s.thm.hostDemand && s.thm.pickWait.isEmpty && !s.thm.dieWait then
    ((s.puts [(THM_DEMAND_BUSY, 0), (THM_DEMAND_DONE, 1)]).inc THM_CNT_HOSTDEM).setThm fun t => { t with hostDemand := false }
  else s

/-- The host demand runs at its tick: the die conversion and the pickup readings that it names. A pickup that is not present gives no
reading. -/
def runHostDemand (s : State) : State :=
  if s.isDue .tempDemand 1 then
    let s := { s with ang := { s.ang with due := s.ang.due.filter fun e => !(e.cls == .tempDemand && e.owner == 1) } }
    let hs := (List.range 4).filter fun h => s.bit THM_DEMAND_PICK h && s.present h
    let die := s.get THM_DEMAND_DIE
    hostDemandEnds ((askPickups hs s).setThm fun t => { t with
      hostDemand := true, pickWait := hs, dieWait := die != 0, conv := t.conv ||| die })
  else s

/-- A write of THM_DEMAND: discarded while BUSY; else its fields, and with GO a host demand at the next tick for the sensors it names.
A full store takes none: BUSY stays 0 (DESIGN CHOICE, log entry 167). -/
def thmDemand (v : Nat) (s : State) : State :=
  if s.flag THM_DEMAND_BUSY then s
  else
    let s := s.puts [(THM_DEMAND_PICK, THM_DEMAND_PICK.ofWord v), (THM_DEMAND_DIE, THM_DEMAND_DIE.ofWord v)]
    let s := s.when (v.testBit 30) fun s => s.put THM_DEMAND_DONE 0
    if !v.testBit 24 then s
    else
      match storeEv { cls := .tempDemand, owner := 1, target := tickAfter s.now, len := 0 } s with
      | some s => s.put THM_DEMAND_BUSY 1
      | none => s

/-- THM_DEMAND: a write of THM_DEMAND with GO 1 (R485). -/
def execThmDemand (p : Port) (v : Word) (s : State) : Res :=
  vendorWrite p THM_DEMAND_GO.off false (thmDemand (v.toNat ||| 2 ^ 24)) s

/-! ### Suspect sensors (R486) -/

/-- The grid neighbours of a sensor: up, down, left and right in the 4 × 4 grid. -/
def gridNext (k : Nat) : List Nat :=
  (if 4 ≤ k then [k - 4] else []) ++ (if k < 12 then [k + 4] else [])
    ++ (if k % 4 != 0 then [k - 1] else []) ++ (if k % 4 != 3 then [k + 1] else [])

/-- The sum and the number of the readings of the neighbours that are not suspect. -/
def gridSum (mask : Nat) (vals : List Int) (k : Nat) : Int × Nat :=
  let ns := (gridNext k).filter fun j => !mask.testBit j
  ((ns.map fun j => vals.getD j 0).sum, ns.length)

/-- A reading departs from its estimate by more than XDEV °C. -/
def departs (xdev : Nat) (e : Int × Nat) (v : Int) : Bool := decide (((xdev * 16 * e.2 : Nat) : Int) < (v * e.2 - e.1).natAbs)

/-- A code outside −20 to +140 °C. -/
def outOfRange (v : Int) : Bool := v < -320 || 2240 < v

/-- A sensor is marked: its bit, its count and its entry. More than four suspects at once stop the device. -/
def markSuspect (k : Nat) (v : Int) (s : State) : State :=
  let s := (s.setBit THM_SUSPECT_MASK k true).inc THM_CNT_SUSPN
  let s := s.setThm fun t => { t with outN := t.outN.set k 0, inN := t.inN.set k 0 }
  let s := logFlt 22 kDEGRADE 0x01 k [ofSigned 16 v] (s.put (THM_DIE_SUSPECT k) 1)
  if 4 < ((List.range 16).filter fun j => s.bit THM_SUSPECT_MASK j).length then
    if s.life == PRIMED then safeStop 0x30 (0x40 + 22) 0x01 k s else orderlyStop 0x21 (0x40 + 22) 0x01 k s
  else s

/-- The counts of a sensor as 16 entries. -/
def counts16 (l : List Nat) : List Nat := (List.range 16).map fun k => l.getD k 0

/-- Sensor `k` is judged against its neighbours at a governor demand; one with fewer than two of them is neither marked nor
cleared. -/
def judgeSensor (mask : Nat) (vals : List Int) (s : State) (k : Nat) : State :=
  let v := vals.getD k 0
  let e := gridSum mask vals k
  if e.2 < 2 then s
  else
    let out := departs (s.get THM_CFG_XDEV) e v
    if mask.testBit k then
      let n := if out then 0 else s.thm.inN.getD k 0 + 1
      let s := s.setThm fun t => { t with inN := t.inN.set k n }
      s.when (16 ≤ n) fun s => (s.setBit THM_SUSPECT_MASK k false).put (THM_DIE_SUSPECT k) 0
    else
      let n := if out then s.thm.outN.getD k 0 + 1 else 0
      let s := s.setThm fun t => { t with outN := t.outN.set k n }
      s.when (3 ≤ n) (markSuspect k v)

/-- The sensors of a conversion that are out of range are marked at once. -/
def judgeRange (conv : Nat) (vals : List Int) (s : State) : State :=
  let s := s.setThm fun t => { t with outN := counts16 t.outN, inN := counts16 t.inN }
  (List.range 16).foldl (fun s k =>
    let v := vals.getD k 0
    if conv.testBit k && outOfRange v && !s.bit THM_SUSPECT_MASK k && 2 ≤ (gridSum (s.get THM_SUSPECT_MASK) vals k).2 then markSuspect k v s
    else s) s
/-- A governor demand judges every sensor against its neighbours. -/
def judgeAll (vals : List Int) (s : State) : State :=
  let mask := s.get THM_SUSPECT_MASK
  (List.range 16).foldl (judgeSensor mask vals) s

/-- SENSOR_SUSPECT: a governor conversion in progress shows sensor `k` at `code`: out of range, or beyond XDEV for the third demand in
a row, by the neighbours' latest values (R486). -/
def execSensorSuspect (k : Fin 16) (code : BitVec 16) (s : State) : Res :=
  let v := code.toInt
  let vals := (List.range 16).map fun j => s.getI (THM_DIE_TEMP j)
  let e := gridSum (s.get THM_SUSPECT_MASK) vals k
  s.doIf (s.applied && s.thm.govDue && !s.bit THM_SUSPECT_MASK k && 2 ≤ e.2
      && (outOfRange v || (2 ≤ s.thm.outN.getD k 0 && departs (s.get THM_CFG_XDEV) e v))) (markSuspect k v)

/-! ### Governing (R487 to R489) -/

/-- The mean of the T_max values stamped after `a` and up to `b`: sum and number. -/
def meanOf (hist : List (Nat × Int)) (a b : Int) : Int × Nat :=
  let l := hist.filter fun x => a < x.1 && (x.1 : Int) ≤ b
  ((l.map Prod.snd).sum, l.length)

/-- The rate of rise at a stamp in µs: none where the earlier window holds no value. -/
def rateAt (hist : List (Nat × Int)) (us : Nat) : Option Int :=
  let n := meanOf hist ((us : Int) - 250000) us
  let o := meanOf hist ((us : Int) - 1250000) ((us : Int) - 1000000)
  if n.2 == 0 || o.2 == 0 then none else some (Int.fdiv (n.1 * o.2 - o.1 * n.2) (n.2 * o.2 : Nat))

/-- The lane duty for a governed temperature (R488). -/
def dutyOf (slope floor : Nat) (soft tg : Int) : Nat :=
  let d : Int := if soft < tg then 256 - (slope * (tg - soft) * 256) / 1600 else 256
  min 256 (max d.toNat ((floor * 256 + 99) / 100))

/-- The stops on heat after a governor demand (R489). -/
def heatStops (tmax rate : Int) (s : State) : State :=
  let limit := s.getI THM_HARD_LIMIT
  let hard := s.getI THM_HARD_HARD
  let was := s.life
  let s := s.when (limit ≤ tmax) (safeStop 0x30 0 0 0)
  if tmax < hard then s
  else if was == PARKING || was == HALTED then logFlt 22 kINFO 0x03 0 [ofSigned 16 tmax] s
  else if limit ≤ tmax then s
  else if s.life == PRIMED then safeStop 0x30 0 0 0 s
  else if rate ≤ 0 || s.get THM_CFG_STOPT * rate ≤ (limit - tmax) * 10 then orderlyStop 0x21 0 0 0 s
  else safeStop 0x30 0 0 0 s

/-- T_max, the rate, T_g, the duty and the checks. The rate is free while the window of a second earlier holds no value (log
entry 1). -/
def govern (us : Nat) (s : State) : State :=
  let tmax := ((List.range 16).map fun k => s.getI (THM_DIE_TEMP k)).foldl max (-32768)
  let hist := ((us, tmax) :: s.thm.hist).filter fun x => us ≤ x.1 + 1300000
  let s := s.setThm fun t => { t with hist }
  let r : Int × State := match rateAt hist us with
    | some r => (r, s)
    | none => (toSigned 16 (s.freeVal 16), s.drawn)
  let rate := r.1
  let s := r.2
  let hot := decide (s.getI THM_RISE_RISE < rate)
  let tg := tmax + max 0 (rate - s.getI THM_RISE_RISE) * 2
  let d := dutyOf (s.get THM_DUTY_SLOPE) (s.get THM_DUTY_FLOOR) (s.getI THM_SOFT_SOFT) tg
  let s := s.when (hot && !s.flag THM_STAT_RISE) (logFlt 22 kINFO 0x02 0 [ofSigned 16 rate])
  let s := s.when (d < 256 && !s.flag THM_STAT_THROT) fun s => s.inc THM_CNT_THROTS
  let s := s.puts [(THM_RATE_RATE, ofSigned 16 rate), (THM_STAT_RISE, hot.toNat), (THM_STAT_TG, ofSigned 16 tg), (THM_STAT_VALID, 1),
    (THM_STAT_SOFT, (decide (s.getI THM_SOFT_SOFT ≤ tmax)).toNat), (THM_STAT_HARD, (decide (s.getI THM_HARD_HARD ≤ tmax)).toNat),
    (THM_STAT_DUTY, d), (THM_STAT_THROT, (decide (d < 256)).toNat)]
  heatStops tmax rate (s.setThm fun t => { t with nextDuty := some d })

/-- The values a conversion leaves: a suspect sensor holds its estimate, where it has one. -/
def storeDie (mask : Nat) (vals : List Int) (s : State) : State :=
  forUpTo 16 (fun k s =>
    if !mask.testBit k then s
    else
      let e := gridSum (s.get THM_SUSPECT_MASK) vals k
      let s := s.put (THM_DIE_VALID k) 1
      if !s.bit THM_SUSPECT_MASK k then s.putI (THM_DIE_TEMP k) (vals.getD k 0)
      else if e.2 == 0 then s
      else s.putI (THM_DIE_TEMP k) (Int.fdiv e.1 e.2)) s

/-- DIE_CONVERSION_DONE: a conversion ends, `us` on the REF clock; `codes` are the sixteen readings, those of sensors not converted
without meaning (R485 to R489). -/
def execDieConversionDone (codes : List (BitVec 16)) (us : Nat) (s : State) : Res :=
  s.doIf (s.applied && s.thm.conv != 0 && codes.length == 16 && s.thm.hist.all fun x => x.1 ≤ us) fun s =>
    let conv := s.thm.conv
    let vals := (List.range 16).map fun k =>
      if conv.testBit k then (codes.getD k 0).toInt else s.getI (THM_DIE_TEMP k)
    let gov := s.thm.govDue
    let s := storeDie conv vals ((judgeRange conv vals s).when gov (judgeAll vals))
    let s := s.when s.dieHot spoilWindow
    let s := s.setThm fun t => { t with conv := 0, govDue := false, dieWait := false }
    hostDemandEnds (s.when gov (govern us))

/-- At a tick at which the angle word is 0, a new duty takes effect (R488). -/
def takeDuty (s : State) : State :=
  match s.thm.nextDuty with
  | some d => s.when (s.get ANG_NOW_LO_ANGLE == 0) fun s => s.setThm fun t => { t with duty := d, nextDuty := none }
  | none => s
/-- DUTY_UPDATE: such a tick has come (R488). -/
def execDutyUpdate (s : State) : Res := s.doIf (s.applied && s.ang.running) takeDuty

/-- The die band that the latest T_max selects. -/
def State.dieBandNow (s : State) : Nat :=
  match s.thm.hist with
  | (_, t) :: _ => s.tempBand (s.get THM_RATE_DIEBAND) t
  | [] => s.get THM_RATE_DIEBAND

/-- DIE_BAND_CHANGE: at the tick after T_max has crossed an edge the die band changes, and the factory trims switch (R491). -/
def execDieBandChange (s : State) : Res :=
  s.doIf (s.applied && s.now % tickAu == 0 && s.dieBandNow != s.get THM_RATE_DIEBAND) fun s => s.put THM_RATE_DIEBAND s.dieBandNow

/-- THERMAL_COMPARATOR_TRIP: the comparator at 125 °C trips the safety block in every state; with the Canvas applied it is also a safe
stop (R490). -/
def execThermalComparatorTrip (s : State) : Res :=
  s.doIf s.on fun s => safeStop 0x30 0 0 0 (tripSafety (s.put THM_STAT_ATRIP 1))

end Sys2Proof.Machine
end

