-- ==== Sys2Proof/Machine/Angle.lean ====
section
/-! DEFINITION. The angle commands: the tick, wedges and marks, the sources and the alarm, measurement windows
(R52 to R72, R8). -/

namespace Sys2Proof.Machine

open R

/-- The heads that read marks: those in focus. -/
def State.markHeads (s : State) : List Nat := (List.range 4).filter s.inFocus

/-! ### Ticks (R64 to R66) -/

/-- A stamp that ANG_NOW reaches before the next tick comes. -/
def State.beforeTick (s : State) (t : Nat) : Bool := !passed s.now t && ahead s.now t < ahead s.now (tickAfter s.now)

/-- ANG_NOW moves on to the next tick; an alarm whose target lies in between fires at its target (R64, R70). -/
def advance (s : State) : State :=
  let t := tickAfter s.now
  match s.alarmTarget with
  | some a =>
    let s := if s.beforeTick a then fireAlarm false (s.setNow (a % au48)) else s
    if a % au48 == t then fireAlarm false (s.setNow t) else s.setNow t
  | none => s.setNow t

/-- A forward correction waits for its tick (R59). -/
def takeStep (s : State) : State :=
  if s.ang.stepPending == 0 then s
  else
    let d := s.ang.stepPending
    let s := stepForward d { s with ang := { s.ang with stepPending := 0 } }
    logFlt 1 kINFO 0x01 (s.get ANG_LOCK_REF) [d] s

/-- What else a tick brings: a host temperature demand runs (R485), a scrub slot is asked for where scrubbing has come to go on (R424), the
drain of an orderly stop ends (R502). -/
def tickDuties (s : State) : State :=
  let s := askScrub (tickAfter s.now) (runHostDemand s)
  match s.sys.drainUntil with
  | some t => if passed s.now t then orderlyPark (settleWrites s) else s
  | none => s

/-- TRIGGER_RESOLUTION: at the tick that ends the sample the best held trigger makes its transition and the others are
discarded (R45). Where it ends the work on the medium at once, so do the open write windows. -/
def execTriggerResolution (s : State) : Res :=
  s.doIf (s.applied && !s.sys.held.isEmpty) fun s =>
    match bestTrigger s.sys.held with
    | none => s
    | some t =>
      let rest := s.sys.held.erase t
      let s := { s with sys := { s.sys with held := [] } }
      let ends := t.kind == .safeStop || t.cause == 0x22 || (t.kind == .unmount && s.life == MOUNTING)
      takeTrigger t (rest.foldl (fun s u => discardTrigger u s) (s.when ends settleWrites))

/-- TICK: the next tick comes; the events due at it fire in the order of R66, the others move by their class rule. -/
def execTick (s : State) : Res :=
  s.doIf (s.on && s.ang.running) fun s => tickDuties (fireTick (takeDuty (calApply (fun u => u.late) (takeStep (noteReading (advance s))))))

/-! ### Wedges and marks (R54, R55) -/

/-- The next wedge boundary of a head by its own offset, at least half a wedge behind the one reported last (R54). -/
def State.nextWedge (s : State) (h : Nat) : Nat :=
  let t := ((s.tr h).wedge + wedgeAu / 2) % au48
  (t + (wedgeAu + s.get (ANG_HOFF_OFFSET h) % wedgeAu - t % wedgeAu) % wedgeAu) % au48

/-- Consecutive wedges whose mean lens position lies outside THR, while the head is ON_TRACK or CAPTURING; the mean is taken over the
samples of the wedge that ends (R228). -/
def countFollow (h : Nat) (s : State) : State :=
  let on := s.get (SRV_HSTAT_PHASE h) == hpON_TRACK || s.get (SRV_HSTAT_PHASE h) == hpCAPTURING
  s.setTr h (fun t => { t with lposSum := 0, lposN := 0 }) |>.setSl h fun x =>
    { x with
      outward := 0 < (s.tr h).lposSum
      wedges := if on && s.get SLD_FOLLOW_THR * (s.tr h).lposN < (s.tr h).lposSum.natAbs then x.wedges + 1 else 0 }

/-- A head that follows its tracks comes to the next ring at wedge 0: its base track and its planned one move on by six (R125, R192; DEDUCED,
log entry 202). -/
def nextRing (h : Nat) (s : State) : State :=
  if s.part h == hpON_TRACK || s.part h == hpTJUMP || (s.part h == hpCAPTURING && s.loopState (4 * h + 1) == lRUN) then
    (s.put (SRV_HTRK_GTRK h) (s.get (SRV_HTRK_GTRK h) + 6)).setTr h fun t => { t with planG := t.planG + 6 }
  else s

/-- What a head's wedge start brings: its track sequencer is told, an expected mark that did not come is missed, the rows that changed
are loaded (R54, R55, R228, R252). -/
def wedgeStart (h : Nat) (s : State) : State :=
  let s := s.setTr h fun t => { t with
    markAge := t.markAge + 1
    gapMis := false
    missed := if 1 ≤ t.markAge then t.missed + 1 else t.missed }
  let s := s.when (2 < (s.tr h).markAge) fun s => s.setBit ANG_LOCK_MARKH h false
  reloadStale h (detWedge h (countFollow h s))

/-- WEDGE_BOUNDARY: a head reaches a wedge start at its own offset: ANG_NOW comes to it before the next tick, or a step has passed it
(R54, R64, R65). At wedge 0 of a band's first ring the lanes load its rows (R252). -/
def execWedgeBoundary (h : Head) (s : State) : Res :=
  s.doIf (s.on && s.ang.running && s.present h && (passed s.now (s.nextWedge h) || s.beforeTick (s.nextWedge h))) fun s =>
    let b := s.nextWedge h
    let s := s.setTr h fun t => { t with wedge := b }
    let s := if passed s.now b then s else s.setNow b
    let t := s.when (s.wedgeAt h (b % au24) == 0) (nextRing h)
    wedgeStart h (t.when (t.reading h && t.headBand h != s.headBand h) (headRowLoad h))

/-- A mark follows the one before it: the next index, 262,144 ± 2,048 au later (Table 2.1). -/
def follows (last : Option (Nat × Nat)) (wedge word : Nat) : Bool :=
  match last with
  | none => false
  | some (k, w) =>
    let d := (word + au24 - w) % au24
    (k + 1) % 64 == wedge && wedgeAu ≤ d + 2048 && d ≤ wedgeAu + 2048

/-- MARK_DECODED: a head has decoded the mark of a wedge whose leading edge came at angle word `word`; `rate` is the rate
over its last two marks, `rev` that over the last revolution. At MARK, a mark whose index is not the expected one moves nothing and
counts in LOSSCNT; any other measures the head's offset, once SRC is MARK or WOBBLE, and the rate (R54, R55, R59, R63). -/
def execMarkDecoded (h : Head) (wedge : Fin 64) (word : BitVec 24) (rate : BitVec 24) (rev : BitVec 24) (s : State) : Res :=
  s.doIf (s.applied && s.inFocus h) fun s =>
    let mism := s.misread h word.toNat wedge
    let s := s.setBit ANG_LOCK_MARKH h true
    let s := s.setTr h fun t => { t with
      markAge := 0, missed := 0
      marks := if follows t.lastMark wedge.val word.toNat then t.marks + 1 else 1
      lastMark := some (wedge.val, word.toNat)
      mismatched := if mism || t.gapMis then t.mismatched else 0 }
    if mism then countMisread h s
    else
      let s := { s with ang := { s.ang with markRate := rate.toNat, revRate := rev.toNat } }
      let s := s.when (s.flag ANG_LOCK_INDEXED && srcMARK ≤ s.src)
        (setOffset h ((word.toNat + au24 - wedge.val * wedgeAu) % au24))
      s.when (s.src == srcMARK) syncRate

/-! ### Sources (R55 to R60) -/

/-- The phase error of an entry to MARK or WOBBLE from below (R59). -/
def correct (e : Int) (s : State) : State :=
  if 256 < e then { s with ang := { s.ang with stepPending := e.toNat } }
  else if e < -256 then spoilWindow { s.put ANG_LOCK_SLEW 1 with ang := { s.ang with err := e, errBase := s.now } }
  else s

/-- The angle at which the disc stands by the last mark of a head, with `off` its offset: the mark's wedge and what ANG_NOW has gone
since its leading edge (R53, R58). -/
def State.markAngle (s : State) (h off : Nat) : Nat :=
  match (s.tr h).lastMark with
  | none => s.get ANG_NOW_LO_ANGLE
  | some (k, w) => (k * wedgeAu + off + s.get ANG_NOW_LO_ANGLE + au24 - w) % au24

/-- The first indexing, at the tick of the entry (R53, R58). -/
def indexAngle (h : Nat) (s : State) : State :=
  let d := (s.markAngle h 0 + au24 - s.get ANG_NOW_LO_ANGLE) % au24
  let s := stepForward d s
  let s := forUpTo 4 (fun k s => s.put (ANG_HOFF_VALID k) 0) (s.put ANG_LOCK_INDEXED 1)
  fireTick (logFlt 1 kINFO 0x01 h [d] (setOffset h 0 s))

/-- MARK_ENTRY: a head has decoded two consecutive marks that fit each other. SRC becomes MARK, and the angle is indexed or corrected
(R55, R58, R59, R63). -/
def execMarkEntry (h : Head) (s : State) : Res :=
  s.doIf (s.applied && s.ang.running && s.src < srcMARK && s.inFocus h && 2 ≤ (s.tr h).marks) fun s =>
    let s := s.put ANG_LOCK_SRC srcMARK
    let s := forUpTo 4 (fun k s => s.setTr k fun t => { t with missed := 0, mismatched := 0 }) s
    let s :=
      if s.flag ANG_LOCK_INDEXED then
        correct (toSigned 24 ((s.markAngle h (s.get (ANG_HOFF_OFFSET h)) + au24 - s.get ANG_NOW_LO_ANGLE) % au24)) s
      else indexAngle h s
    syncRate s

/-- The part of a backward correction still to be made: ANG_NOW goes 7/8 as fast as the disc, so it loses an eighth of the disc's way
(R59). -/
def State.slewLeft (s : State) : Nat := s.ang.err.natAbs - (s.now + au48 - s.ang.errBase) % au48 / 7

/-- SLEW_COMPLETE: the error is within 256 au; the increment returns to the measured rate (R59). -/
def execSlewComplete (s : State) : Res :=
  s.doIf (s.applied && s.flag ANG_LOCK_SLEW && s.slewLeft ≤ 256) fun s =>
    syncRate { s.put ANG_LOCK_SLEW 0 with ang := { s.ang with err := 0 } }

/-- The measured speed in sixteenths of an rpm. -/
def State.rpm16 (s : State) : Nat := s.get SPN_MEAS_RPM

/-- MARK_LOSS: every head in focus has missed two expected marks in a row, or has decoded two whose index is not the expected one; heads
of both kinds together count too (DEDUCED, log entry 166). SRC falls to the best source whose entry condition holds (R55, R59). -/
def execMarkLoss (s : State) : Res :=
  s.doIf (s.applied && s.src == srcMARK
      && s.markHeads.all fun h => 2 ≤ (s.tr h).missed || 2 ≤ (s.tr h).mismatched) fun s =>
    let s := forUpTo 4 (fun k s => s.setTr k fun t => { t with marks := 0, lastMark := none, missed := 0, mismatched := 0 }) s
    srcFall (if 600 * 16 < s.rpm16 then srcCOARSE else srcFREE) s

/-- COARSE_ENTRY: the speed has risen above 600 rpm; `rate` is the observer's (R55, R63, R234). -/
def execCoarseEntry (rate : BitVec 24) (s : State) : Res :=
  s.doIf (s.applied && s.src == srcFREE && 600 * 16 < s.rpm16) fun s =>
    syncRate { s.put ANG_LOCK_SRC srcCOARSE with ang := { s.ang with obsRate := rate.toNat } }

/-- COARSE_LOSS: the speed has fallen below 450 rpm (R55, R67). -/
def execCoarseLoss (s : State) : Res :=
  s.doIf (s.applied && s.src == srcCOARSE && s.rpm16 < 450 * 16) (srcFall srcFREE)

/-- The reference head, or before the first lock the lowest candidate, whose wobble detector decides (R57, R60). -/
def State.refHead (s : State) : Nat := if s.src == srcWOBBLE then s.get ANG_LOCK_REF else (s.lowestCand 4).getD 0

/-- WOBBLE_LOCK: the reference, the lowest candidate, has stayed within ±32 au for LOCKN periods; `e` is the error of the
estimate at the entry, `rate` the loop filter's output (R55, R57, R59, R60). -/
def execWobbleLock (e : Int) (rate : BitVec 24) (s : State) : Res :=
  s.doIf (s.applied && s.src < srcWOBBLE && s.flag ANG_LOCK_INDEXED && s.get ANG_LOCK_CAND != 0
      && s.get ANG_PLL_LOCKN ≤ (s.tr s.refHead).wobIn) fun s =>
    let s := s.puts [(ANG_LOCK_REF, s.refHead), (ANG_LOCK_SRC, srcWOBBLE)]
    let s := { s with ang := { s.ang with wobRate := rate.toNat } }
    syncRate (if s.flag ANG_LOCK_SLEW then s else correct e s)

/-- WOBBLE_LOCK_LOSS: the reference's error has been beyond ±128 au for LOSSN periods, or it is no candidate any more; SRC
falls when no other candidate remains (R57, R60). -/
def execWobbleLockLoss (s : State) : Res :=
  s.doIf (s.applied && s.src == srcWOBBLE
      && (!s.bit ANG_LOCK_CAND s.refHead || s.get ANG_PLL_LOSSN ≤ (s.tr s.refHead).wobOut)) loseReference

/-- WOBBLE_REF_SWITCH: the reference has stopped being a candidate and another one remains (R60). -/
def execWobbleRefSwitch (s : State) : Res :=
  s.doIf (s.applied && s.src == srcWOBBLE && !s.bit ANG_LOCK_CAND (s.get ANG_LOCK_REF)
    && s.get ANG_LOCK_CAND != 0) loseReference

/-- RAMP_SETTLED: the speed has stayed within 0.1% of its target for one revolution of servo samples (R69). -/
def execRampSettled (s : State) : Res :=
  s.doIf (s.applied && s.flag ANG_LOCK_RAMP && 4096 ≤ s.spn.settleN) fun s => checkTrans (s.put ANG_LOCK_RAMP 0)

/-! ### The host alarm (R70) -/

/-- ANG_ALARM_ARM: a write of ANG_ALARM_HI. -/
def execAngAlarmArm (p : Port) (v : Word) (s : State) : Res :=
  vendorWrite p ANG_ALARM_HI_TGT.off true (fun s => armAlarm (s.put ANG_ALARM_HI_TGT v.toNat)) s

/-- ALARM: ANG_NOW reaches the alarm's target, which lies no further than the next tick (R64, R70). -/
def execAlarm (s : State) : Res :=
  match s.alarmTarget with
  | some a => s.doIf (s.on && s.ang.running && s.beforeTick a) fun s => fireAlarm false (s.setNow (a % au48))
  | none => .next s

/-! ### Measurement windows (R8, R71, R72, R214, R271 to R273) -/

/-- The square root of a ratio, rounded to nearest (DEDUCED, log entry 12). -/
def rootNear (num den : Nat) : Nat := (iroot 2 (4 * num / den) + 1) / 2

/-- √CRB in 2⁻⁸ au: (512 / 2π) √(1 / (N SNR_w)) × 256 (DEDUCED, log entry 12). -/
def crbFigure (bw num den : Nat) : Nat :=
  rootNear (512 * 512 * 65536 * den * piDen * piDen) (4 * piNum * piNum * (4 * 2 ^ bw) * num)

/-- The shot-noise floor in 10⁻⁴ nm (R214): √(2 ENB / I_e) / s with s = 2π A_pp / 360 per nm and I_e = SUMGAIN × mean SUM, from the sum of
`n` SUM codes of 2⁻¹⁵ V. -/
def floorFigure (s : State) (h n : Nat) (sum : Nat) : Nat :=
  rootNear (10 ^ 8 * 2 * (s.get (SRV_TENB_ENB h) * 1000) * 360 * 360 * 65536 * 65536 * piDen * piDen * (n * 32768))
    (s.get (SRV_TFG_SUMGAIN h) * 1000000 * sum * 4 * piNum * piNum * s.get (SRV_TPP_APP h) * s.get (SRV_TPP_APP h))

/-- The tracking residual in 10⁻⁴ nm (R214): the RMS of r, in 2⁻²⁴, over `n` samples less its mean, divided by s (DEDUCED, log entry 12). -/
def residualFigure (s : State) (h n : Nat) (sum : Int) (q : Nat) : Nat :=
  rootNear ((((n * q : Nat) : Int) - sum * sum).toNat * (10 ^ 4 * 360 * 65536 * piDen) ^ 2) (n * n * 2 ^ 48 * (2 * piNum * s.get (SRV_TPP_APP h)) ^ 2)

/-- The figures of one head over an accepted window; one that breaks R215 is discarded for that head. A figure that R214 does not define (a
mean SUM or an amplitude of 0) is a free value. -/
def headWindow (n h : Nat) (s : State) : State :=
  let t := s.tr h
  if !(s.present h && s.inSvc h) then s
  else if t.winBad then s.inc (SRV_TQWIN_DISCARD h)
  else
    let s := s.inc (SRV_TQWIN_ACCEPT h)
    let open' := s.get (SRV_TPP_APP h) == 0
    let res := if open' then s.freeVal 24 else min (residualFigure s h n t.resS t.resQ) (SRV_TRES_RES h).max
    let flr := if open' || t.sumS ≤ 0 then s.drawn.freeVal 24 else min (floorFigure s h n t.sumS.toNat) (SRV_TFLR_FLR h).max
    (s.puts [(SRV_TRES_RES h, res), (CAL_HL_TRES h (s.headLayer h), min res 65535), (SRV_TFLR_FLR h, flr)]).drawn.drawn


/-- A ratio rounded to nearest (DEDUCED, log entry 12). -/
def ratioNear (num den : Nat) : Nat := (2 * num + den) / (2 * den)

/-- ACH = Σ w_b G_b / D_b in 2⁻¹⁶ (R273; DEDUCED, log entry 12). -/
def achFigure (m : Sparse) (l : Nat) : Nat :=
  let k := ((List.range 32).map kBand).sum
  let r := (List.range 32).foldl (fun (r : Nat × Nat) b =>
    let d := Sparse.get m (lqBits l b)
    (r.1 * d + r.2 * (kBand b * Sparse.get m (lqGood l b)), r.2 * d)) (0, 1)
  ratioNear (r.1 * 65536) (r.2 * k)

/-- The bits of R273 that the window under way read on a layer are added to the layer's; for R5 no block of the layer has reached 8,000
overwrites (R8). COVER and ACH follow; ACH is open until every band is covered. -/
def layerRate (l : Nat) (s : State) : State :=
  if 8000 ≤ s.get (HLT_LSTAT_MAXCNT l) || Sparse.get s.det.wlq (lqAll l) == 0 then s
  else
    let lq := (List.range 64).foldl (fun m i => addTo m (64 * l + i) (Sparse.get s.det.wlq (64 * l + i))) s.det.lq
    let cover := maskOf ((List.range 32).filter fun b => Sparse.get lq (lqBits l b) != 0)
    let s := { s with det := { s.det with lq } }.put (DET_LQ_COVER l) cover
    if cover == 2 ^ 32 - 1 then s.put (DET_LQ_ACH l) (achFigure lq l)
    else (s.put (DET_LQ_ACH l) (s.freeVal 24)).drawn

/-- The layer SNR and the information-rate bound of a fit (R271, R272); IRB is the mean over the accepted windows, weighted by the
channel bits that the window read on the layer (DEDUCED, log entry 208). A ratio below 0 dB or without bound, a bound that R272 does not
define and a mean without weight are free values. -/
def layerFit (w : LayerWin) (s : State) : State :=
  let l := w.layer
  if 8000 ≤ s.get (HLT_LSTAT_MAXCNT l) then s
  else
    let p := (w.h.map fun x => (x * x).toNat).sum
    let s := if w.sigma == 0 || p < w.sigma then (s.put (DET_LQ_SNR l) (s.freeVal 16)).drawn
      else s.put (DET_LQ_SNR l) (dbFigure p w.sigma)
    let bits := Sparse.get s.det.wlq (lqAll l)
    match rateBound w.h w.sigma with
    | none => (s.put (DET_LQ_IRB l) (s.freeVal 24)).drawn
    | some irb =>
      let ir := addTo (addTo s.det.irb (2 * l) bits) (2 * l + 1) (bits * irb)
      let s := { s with det := { s.det with irb := ir } }
      if Sparse.get ir (2 * l) == 0 then (s.put (DET_LQ_IRB l) (s.freeVal 24)).drawn
      else s.put (DET_LQ_IRB l) (ratioNear (Sparse.get ir (2 * l + 1)) (Sparse.get ir (2 * l)))

/-- The RMS of d in 2⁻⁸ au over n samples, less their mean and linear trend, from the sums of d, of d × sample number and of d² in
2⁻²⁴ au (R72; DEDUCED, log entry 12). The variance is a ratio over n²(n² − 1). -/
def detrendRms (n : Nat) (sd tr : Int) (q : Nat) : Nat :=
  let u := 2 * tr - ((n : Int) - 1) * sd
  let num : Int := ((n * q : Nat) - sd * sd) * ((n * n - 1 : Nat) : Int) - 3 * u * u
  rootNear num.toNat (n * n * (n * n - 1) * 2 ^ 32)

/-- A condition of R8 or R72 fails now, a track sequencer's layer jump, a seek and a loop's fallback among them. -/
def State.windowBroken (s : State) : Bool :=
  s.life != MOUNTED || s.src != srcWOBBLE || s.flag ANG_LOCK_SLEW || s.flag ANG_LOCK_RAMP || s.dieHot
    || ((List.range 4).any fun h => s.sledMoving h || s.get (SRV_HSTAT_PHASE h) == hpLJUMP)
    || (List.range 17).any fun l => s.loopState l == lHOLD || s.loopState l == lFAIL

/-- The conditions of R8 and R72 held through the window, which holds 65,536 servo samples. -/
def State.windowOk (s : State) : Bool := !s.ang.winBad && !s.windowBroken && s.ang.jitN == 65536

/-- The next measurement window begins. -/
def newWindow (s : State) : State :=
  { s with
    ang := { s.ang with winBad := s.windowBroken, winAt := s.now, jitN := 0, jitS := 0, jitT := 0, jitQ := 0, ampSum := 0 }
    trk := s.trk.map fun t => { t with winBad := false, resS := 0, resQ := 0, sumS := 0 }
    det := { s.det with wlq := [] } }

/-- MEASUREMENT_WINDOW_END: 16 revolutions have gone by: the figures update, or the window is discarded (R8, R71, R72). SNR_w is
A² / 2σ² with A the mean amplitude of the window. A wobble SNR of zero or without bound, or below 0 dB, has no stated figure: a free
value. -/
def execMeasurementWindowEnd (m : WinMeas) (s : State) : Res :=
  s.doIf (s.applied && s.ang.running && passed s.now (s.ang.winAt + 16 * au24)) fun s =>
    let ok := s.windowOk
    let a := s.ang
    if !ok then
      newWindow (forUpTo 4 (fun h s => s.when (s.present h && s.inSvc h) fun s => s.inc (SRV_TQWIN_DISCARD h)) (s.inc ANG_QWIN_DISCARD))
    else
      let s := (s.inc ANG_QWIN_ACCEPT).put ANG_JIT_JIT (detrendRms a.jitN a.jitS a.jitT a.jitQ)
      let num := a.ampSum * a.ampSum * 65536
      let den := 2 * m.noise * a.jitN * a.jitN
      let s :=
        if num == 0 || den == 0 then
          (s.puts [(ANG_CRB_CRB, s.freeVal 24), (ANG_WSNR_SNR, s.drawn.freeVal 16)]).drawn.drawn
        else
          let s := s.put ANG_CRB_CRB (crbFigure (s.get ANG_PLL_BW) num den)
          if num < den then (s.put ANG_WSNR_SNR (s.freeVal 16)).drawn
          else s.put ANG_WSNR_SNR (dbFigure num den)
      newWindow (m.layers.foldl (fun s w => layerFit w s) (forUpTo 48 layerRate (forUpTo 4 (headWindow a.jitN) s)))

end Sys2Proof.Machine
end

