-- ==== Sys2Proof/Machine/Cellar.lean ====
section
/-! DEFINITION. The Cellar: host access, the end of an operation, erase requests, the password and the protection bits (R512 to
R518, R528). -/

namespace Sys2Proof.Machine

open R

/-! ### Host access (R518) -/

def cerrREPROG := 1
def cerrACCESS := 2
def cerrPASSWORD := 3
def cerrLOCKOUT := 4
def cerrNOTUNLOCKED := 5
def cerrLOWV := 6
def cerrBUSY := 7
def cerrECC := 8

/-- Table 21.1 lets the host do this: 1 read, 2 program, 3 erase. -/
def State.celAllowed (s : State) (op word : Nat) : Bool :=
  let k := celSector word
  if op == 1 then inRegion sectJOURNAL k || inRegion sectLEDGER k || inRegion sectIDENTITY k
  else inRegion sectIDENTITY k && (!s.flag CEL_STATUS_PROTID || s.flag CEL_STATUS_UNLOCKED)

/-- A host operation ends at once with an error. -/
def celFails (err : Nat) (s : State) : State := s.puts [(CEL_STATUS_ERR, err), (CEL_STATUS_DONE, 1)]

/-- A write of CEL_CMD. -/
def celCmd (v : Nat) (s : State) : State :=
  let op := v % 4
  let word := s.get CEL_ADDR_WORD
  let data := ((List.range 4).map fun i => s.get (CEL_DATA_DATA i) * 2 ^ (32 * i)).sum
  if op == 0 then s
  else if s.flag CEL_STATUS_BUSY then s.put CEL_STATUS_ERR cerrBUSY
  else if !s.celAllowed op word then celFails cerrACCESS s
  else if s.flag CEL_STATUS_LOWV && op != 1 then celFails cerrLOWV s
  else celQueue { client := 0, kind := op, word, data } (s.puts [(CEL_STATUS_BUSY, 1), (CEL_STATUS_ERR, 0)])

/-- CEL_READ. -/
def execCelRead (p : Port) (v : Word) (s : State) : Res :=
  vendorWrite p CEL_CMD_OP.off false (celCmd (v.toNat / 4 * 4 + 1)) s
/-- CEL_PROGRAM. -/
def execCelProgram (p : Port) (v : Word) (s : State) : Res :=
  vendorWrite p CEL_CMD_OP.off false (celCmd (v.toNat / 4 * 4 + 2)) s
/-- CEL_ERASE. -/
def execCelErase (p : Port) (v : Word) (s : State) : Res :=
  vendorWrite p CEL_CMD_OP.off false (celCmd (v.toNat / 4 * 4 + 3)) s

/-! ### The end of an operation (R512 to R514) -/

/-- A sector is erased. -/
def celErase (k : Nat) (s : State) : State :=
  { s.inc CEL_CNT_ERASES with cel := (s.inc CEL_CNT_ERASES).cel.eraseSector k }

/-- One word is programmed, after its sector if the sector's last erase was cut short; a word that is not ERASED keeps its
contents and state with REPROG. -/
def celProgram (w v : Nat) (s : State) : State :=
  let s := s.when (s.cel.cutSectors.contains (celSector w)) (celErase (celSector w))
  if s.cel.stateCode w != 1 then s.put CEL_STATUS_ERR cerrREPROG
  else { s with cel := s.cel.setWord w (v % 2 ^ 128 + 1) }

/-- A word is read into CEL_DATA0–3; `ok` says that the word shows no uncorrectable error. -/
def celReadWord (w : Nat) (ok : Bool) (s : State) : State :=
  let st := if ok then s.cel.stateCode w else 2
  let v := if st == 2 then 0 else s.cel.data w
  let s := forUpTo 4 (fun i s => s.put (CEL_DATA_DATA i) (v / 2 ^ (32 * i))) s
  let s := s.put CEL_STATUS_STATE st
  s.when (st == 2) fun s => (s.put CEL_STATUS_ERR cerrECC).inc CEL_CNT_ERRWORDS

/-- STR's record is durable (Table 12.5): a DIRTY or CLEAN zone, the WSEQ limit. -/
def journalDone (v : Nat) (s : State) : State :=
  match logRead v with
  | none => s
  | some (type, _, body) =>
    let arg := leNat (body.take 4)
    let val := leNat (body.drop 4)
    if type == 2 then
      syncDirty (s.setStr fun x => { x with dirty := x.dirty.filter (· != arg) ++ [arg], asked := x.asked.filter (· != arg) })
    else if type == 3 then syncDirty (s.setStr fun x => { x with dirty := x.dirty.filter (· != arg) })
    else if type == 4 then s.setStr fun x => { x with wres := val }
    else s

/-- One DELTA entry is durable: a region's key and value (Table 13.2). -/
def deltaDone (e : List Nat) (s : State) : State :=
  let k := e.getD 0 0 * 8192 + leNat ((e.drop 1).take 2)
  s.setHlt fun h => { h with durable := Sparse.set h.durable k (leNat ((e.drop 3).take 2)), deltaWait := h.deltaWait.filter (· != k) }

/-- HLT's word is durable. -/
def ledgerDone (v : Nat) (s : State) : State :=
  match logRead v with
  | none => s
  | some (type, n, body) =>
    if type == 2 then
      let s := deltaDone (body.take 6) s
      s.when (n == 2) (deltaDone (body.drop 6))
    else s

/-- What the client of an operation takes from its end. -/
def celOwner (o : CelOp) (s : State) : State :=
  if o.client == 0 then s.puts [(CEL_STATUS_BUSY, 0), (CEL_STATUS_DONE, 1)]
  else if o.client == 1 then (if o.kind == 2 then journalDone o.data s else s.put CEL_LOG_JREQ 0)
  else if o.client == 2 then (if o.kind == 2 then ledgerDone o.data s else s.put CEL_LOG_LREQ 0)
  else if o.client == 3 && o.kind == 2 then kekProgrammed s
  else s

/-- The operation acts on its word or sector. -/
def celAct (o : CelOp) (w : Nat) (ok : Bool) (s : State) : State :=
  if o.kind == 1 then celReadWord w ok s
  else if o.kind == 2 then celProgram w o.data s
  else celErase (celSector w) s

/-- The Cellar serves: its domain is powered, and while FROZEN it serves the Seal erase of R527 alone. -/
def State.celServes (s : State) : Bool := !s.sys.off && (s.life != FROZEN || s.cel.ops.any fun o => o.client == 4)

/-- CELLAR_OP_COMPLETE: the operation in progress ends. An append that finds no ERASED word waits behind the others (R514). -/
def execCellarOpComplete (ok : Bool) (s : State) : Res :=
  s.doIf s.celServes fun s =>
    match s.cel.ops with
    | [] => s
    | o :: os =>
      match s.cel.target o with
      | none => { s with cel := { s.cel with ops := os ++ [o] } }
      | some w => celOwner o (syncCelLog (celAct o w ok { s with cel := { s.cel with ops := os } }))

/-! ### Erase requests (R514, R320, R343) -/

/-- The oldest sector of a log: the first sector after the write point that is not erased. -/
def Cel.oldest (c : Cel) (r : Nat × Nat) : Nat :=
  let k := (c.writePoint r).elim 0 fun w => celSector w - r.1
  (((List.range (r.2 - 1)).map fun i => r.1 + (k + 1 + i) % r.2).find? fun x => !c.sectorErased x).getD r.1

/-- The WSEQ that the latest DIRTY record of a zone holds. -/
def State.dirtyVal (s : State) (z : Nat) : Nat :=
  (s.cel.words.filter fun p => inRegion sectJOURNAL (celSector p.1)).foldl (fun m p =>
    match logRead (p.2 - 1) with
    | some (2, _, b) => if leNat (b.take 4) == z then max m (leNat (b.drop 4)) else m
    | _ => m) 0

/-- STR appends its live state again: MOUNT where a volume is mounted, DIRTY for each dirty zone, the latest WRES. -/
def reappendJournal (s : State) : State :=
  let s := s.when (s.inLife [MOUNTING, MOUNTED, PARKING]) fun s => appendJournal 1 0 s.serial s
  let s := s.str.dirty.foldl (fun s z => appendJournal 2 z (s.dirtyVal z) s) s
  appendJournal 4 0 s.str.wres s

/-- HLT writes LEDGER records for every changed layer and then a BASE. -/
def reappendLedger (s : State) : State :=
  if s.hlt.changed.isEmpty then appendLedger 3 0 [] s else s.hlt.changed.foldl (fun s l => writeLedger l s) s

/-- CELLAR_ERASE_REQUEST: two erased sectors or fewer remain ahead; the owner appends its live state again, and the erase of the
oldest sector follows. -/
def execCellarEraseRequest (ledger : Bool) (s : State) : Res :=
  let r := if ledger then sectLEDGER else sectJOURNAL
  let f := if ledger then CEL_LOG_LREQ else CEL_LOG_JREQ
  s.doIf (s.on && s.cel.freeAhead r ≤ 2 && !s.flag f && !s.flag CEL_STATUS_LOWV) fun s =>
    let k := s.cel.oldest r
    let s := (if ledger then reappendLedger else reappendJournal) (s.put f 1)
    celQueue { client := if ledger then 2 else 1, kind := 3, word := 2048 * k } s

/-! ### Password and protection (R515, R516) -/

/-- An attempt with a password, as R516 and R540 share it: 0 right, 1 wrong, 2 locked out. `recent` says that an attempt was made
in the last second of REF time. -/
def State.pwCheck (s : State) (recent : Bool) (pw : Nat) : Nat :=
  if 8 ≤ s.get CEL_STATUS_PWFAIL || recent then 2 else if pw == s.cel.password then 0 else 1

/-- The password in CEL_DATA0–1. -/
def State.celPw (s : State) : Nat := s.get (CEL_DATA_DATA 0) + 2 ^ 32 * s.get (CEL_DATA_DATA 1)

/-- A write of CEL_UNLOCK. -/
def celUnlock (recent : Bool) (v : Nat) (s : State) : State :=
  let prot := v / 256 % 4
  match v % 8 with
  | 1 =>
    match s.pwCheck recent s.celPw with
    | 0 => s.put CEL_STATUS_UNLOCKED 1
    | 1 => (s.addSat CEL_STATUS_PWFAIL 1).put CEL_STATUS_ERR cerrPASSWORD
    | _ => s.put CEL_STATUS_ERR cerrLOCKOUT
  | 2 => s.put CEL_STATUS_UNLOCKED 0
  | 3 =>
    if !s.flag CEL_STATUS_UNLOCKED then s.put CEL_STATUS_ERR cerrNOTUNLOCKED
    else if s.flag CEL_STATUS_LOWV then s.put CEL_STATUS_ERR cerrLOWV
    else { s with cel := { s.cel with password := s.celPw } }
  | 4 =>
    if !s.flag CEL_STATUS_UNLOCKED then s.put CEL_STATUS_ERR cerrNOTUNLOCKED
    else if s.flag CEL_STATUS_LOWV then s.put CEL_STATUS_ERR cerrLOWV
    else s.puts [(CEL_STATUS_PROTID, prot % 2), (CEL_STATUS_PROTSEAL, prot / 2)]
  | _ => s

/-- CEL_UNLOCK. -/
def execCelUnlock (p : Port) (v : Word) (recent : Bool) (s : State) : Res :=
  vendorWrite p CEL_UNLOCK_OP.off false (celUnlock recent (v.toNat / 8 * 8 + 1)) s
/-- CEL_LOCK. -/
def execCelLock (p : Port) (v : Word) (s : State) : Res :=
  vendorWrite p CEL_UNLOCK_OP.off false (celUnlock false (v.toNat / 8 * 8 + 2)) s
/-- CEL_SETPW. -/
def execCelSetpw (p : Port) (v : Word) (s : State) : Res :=
  vendorWrite p CEL_UNLOCK_OP.off false (celUnlock false (v.toNat / 8 * 8 + 3)) s
/-- CEL_SETPROT. -/
def execCelSetprot (p : Port) (v : Word) (s : State) : Res :=
  vendorWrite p CEL_UNLOCK_OP.off false (celUnlock false (v.toNat / 8 * 8 + 4)) s

end Sys2Proof.Machine
end

