-- ==== Sys2Proof/Machine/Power.lean ====
section
/-! DEFINITION. Supply, resets and freezing: R478 to R481, R530 to R532, R542 to R545, R558. -/

namespace Sys2Proof.Machine

open R

/-- PWR_STAT.PG bit of the six rails, in the order VCORE, VDDQ, VIO, VPRE, A12, A18 (Table 19.5). -/
def allPG : Nat := 0x3F

/-- VIN levels above the hold-up threshold (Table 19.2, power-good row). -/
def vinGood (s : State) : State :=
  { s.put PWR_STAT_VINLVL 0 with sys := { s.sys with holdUp := false, brownOut := false } }

/-- The device is OFF: the safety block is tripped and every domain except AON is in reset. -/
def powerOnState (last : Nat) (s : State) : State :=
  { State.reset with
    rf := ((((((State.reset.rf.write PWR_EVT_REGFAULT (s.get PWR_EVT_REGFAULT)).write SYS_RSTINFO_LAST last).write
      OPU_GSTAT_LSREN s.sys.lsrEn.toNat).write PWR_STAT_PG allPG).write CEL_STATUS_PROTID
      (s.get CEL_STATUS_PROTID)).write CEL_STATUS_PROTSEAL (s.get CEL_STATUS_PROTSEAL))
    sys := { State.reset.sys with lsrEn := s.sys.lsrEn, cartSeated := s.sys.cartSeated }
    cel := s.cel.afterReset
    med := s.med
    freeCtr := s.freeCtr
    pending := s.pending }

/-- VIN_POWER_GOOD: from OFF the regulators start in order, unless the wait after a regulator fault runs; the hold-up
and brown-out levels clear (R478, R480, R572). -/
def execVinPowerGood (s : State) : Res :=
  s.doIf (s.on || (s.sys.off && !s.sys.regFault)) fun s =>
    { vinGood s with sys := { (vinGood s).sys with regWait := s.sys.off } }

/-- POWER_GOOD_FUSES_LOADED: every PG bit has held for 100 µs with VIN above the power-good level; OFF becomes BARE with
cause 0x00, and the safety block stays tripped (R478, R545, R558). -/
def execPowerGoodFusesLoaded (s : State) : Res :=
  s.doIf (s.sys.off && s.sys.regWait) fun s =>
    eventRec 0x01 BARE [] true (powerOnState (if s.sys.afterFault then 2 else 1) s)

/-- The device is OFF: the safety block is tripped and every domain except AON is in reset. -/
def turnOff (regfault : Nat) (s : State) : State :=
  let t := powerOnState 1 (settleWrites s)
  let t := (t.put PWR_EVT_REGFAULT regfault).put PWR_STAT_PG 0
  { t with sys := { t.sys with off := true } }

/-- REGULATOR_FAULT: a rail has left its window for 20 µs; the safety block trips, the regulators turn off, REGFAULT
increments and the 100 ms wait begins (R479). -/
def execRegulatorFault (_rail : Fin 6) (s : State) : Res :=
  s.doIf (!s.sys.off || s.sys.regWait) fun s =>
    let t := turnOff (min (s.get PWR_EVT_REGFAULT + 1) 255) { s with cel := s.cel.cut }
    { t with sys := { t.sys with regFault := true, afterFault := true } }

/-- REGULATOR_RESTART: 100 ms after a regulator fault the regulators start again (R479). -/
def execRegulatorRestart (s : State) : Res :=
  s.doIf (s.sys.off && s.sys.regFault) fun s =>
    { s with sys := { s.sys with regFault := false, regWait := true } }

/-- VIN_HOLD_UP (R480, R517): the spindle coasts, write windows close, no write window opens, the Cellar refuses new
programs; in MOUNTING and MOUNTED an orderly stop with cause 0x22 starts. The level counts as crossed once until power-good clears it. -/
def execVinHoldUp (s : State) : Res :=
  s.doIf (s.on && !s.sys.holdUp) fun s =>
    let s := { s with sys := { s.sys with holdUp := true, vinOk100 := false } }
    let s := ((s.put PWR_STAT_VINLVL (if s.sys.brownOut then 2 else 1)).inc PWR_EVT_HOLDUP).put CEL_STATUS_LOWV 1
    let s := celRefuse (cutWrites (fun _ => true) (spindleCoast s))
    orderlyStop 0x22 0 0 0 s

/-- VIN_BROWN_OUT (R480, R517): the Cellar blocks new program pulses and ends the pulse in progress; BROWNOUT counts. -/
def execVinBrownOut (s : State) : Res :=
  s.doIf (s.on && !s.sys.brownOut) fun s =>
    let s := { s with sys := { s.sys with brownOut := true, vinOk100 := false } }
    celEndPulse (((s.put PWR_STAT_VINLVL 2).inc PWR_EVT_BROWNOUT).put CEL_STATUS_LOWV 1)

/-- UNDER_VOLTAGE_LOCKOUT (R480, R45): the safety block trips, every domain except AON resets and the state is OFF;
REGFAULT clears. A Cellar pulse in progress ends through the path of R517. -/
def execUnderVoltageLockout (s : State) : Res :=
  s.doIf (!s.sys.off || s.sys.regWait || s.sys.regFault) fun s => turnOff 0 { s with cel := s.cel.cut }

/-- VIN_RECOVERED (R481, R502, R517): VIN has stayed at or above 10.6 V for 100 ms; the Cellar takes programs again, and
after an orderly stop with cause 0x22 the sleds park and the spindle brakes. -/
def execVinRecovered (s : State) : Res :=
  s.doIf (s.on && !s.sys.holdUp && !s.sys.brownOut) fun s =>
    let s := { s.put CEL_STATUS_LOWV 0 with sys := { s.sys with vinOk100 := true } }
    if s.sys.parkHeld then parkAll { s with sys := { s.sys with parkHeld := false } } else s

/-- VIN_SAMPLE (R480): PWR_VIN.NOW takes the sample and MIN falls to it when it is lower; a sample below 10.6 V ends the time for which
VIN has stayed there (R481). -/
def execVinSample (mv : BitVec 16) (s : State) : Res :=
  s.doIf s.on fun s =>
    let s := (s.put PWR_VIN_NOW mv.toNat).put PWR_VIN_MIN (min (s.get PWR_VIN_MIN) mv.toNat)
    s.when (mv.toNat < 10600) fun s => { s with sys := { s.sys with vinOk100 := false } }

/-- The freeze (R530): every pending trigger is discarded, every clock stops, the safety block trips, the state is
FROZEN with cause 0x50; every flop keeps its value and nothing of a Varnish changes (R118). One free value stands for what the
read-out chain holds beside the registers (R535). -/
def freeze (tap : Bool) (s : State) : State :=
  let s := discardHeld (settleWrites s)
  let s := eventRec 0x01 (0x50 * 256 + s.life * 16 + FROZEN) [] true
    (((s.put SYS_STATE_PREV s.life).put SYS_STATE_STATE FROZEN).put SYS_STATE_CAUSE 0x50)
  syncLonAll { s.drawn with cel := s.cel.freeze, sys := { s.sys with tripped := true, frzTap := tap } }

/-- FREEZE_PIN: FREEZE# held low for 20 ns (R530); no effect while FROZEN (Table 22.2). -/
def execFreezePin (s : State) : Res := s.doIf s.on (freeze false)

/-- A full reset is raised (R543): pending triggers are discarded, the safety block trips and every domain except AON is
held in reset. -/
def raiseFullReset (last : Nat) (s : State) : State :=
  let s := discardHeld (settleWrites s)
  syncLonAll { s with sys := { s.sys with tripped := true, resetHold := last } }

/-- Registers a full reset keeps: PWR (AON), SYS_RSTINFO, and the Cellar's supply flag (Table 23.2). -/
def fullResetKeeps : List Fld := [PWR_EVT_REGFAULT, PWR_EVT_HOLDUP, PWR_EVT_BROWNOUT, PWR_VIN_MIN, PWR_VIN_NOW,
  PWR_STAT_PG, PWR_STAT_VINLVL, PWR_ICORE_PHASES, PWR_ICORE_MA, SYS_RSTINFO_BADKEY, CEL_STATUS_LOWV]

/-- A write of SYS_RESET. -/
def sysReset (v : Nat) (s : State) : State :=
  if v / 65536 == 0x9648 && v.testBit 0 then raiseFullReset 3 s else s.put SYS_RSTINFO_BADKEY 1

/-- SYS_RESET_FULL: a write of SYS_RESET; any KEY but 0x9648, or FULL 0, is discarded and sets BADKEY (R543). -/
def execSysResetFull (p : Port) (v : Word) (s : State) : Res :=
  vendorWrite p SYS_RESET_KEY.off false (sysReset v.toNat) s

/-- FULL_RESET_COMPLETE (R543, R544, R558): the fuses reload and the state is BARE with cause 0x02. AON keeps the PWR
registers and SYS_RSTINFO; the Cellar keeps its contents and its operation in progress. -/
def execFullResetComplete (s : State) : Res :=
  s.doIf (s.sys.resetHold != 0 && !s.sys.off) fun s =>
    let t := powerOnState s.sys.resetHold s
    let t := fullResetKeeps.foldl (fun t f => t.put f (s.get f)) t
    let t := t.put SYS_RSTINFO_FULLS (min (s.get SYS_RSTINFO_FULLS + 1) 255)
    let t := { t with
      sys := { t.sys with holdUp := s.sys.holdUp, brownOut := s.sys.brownOut, vinOk100 := s.sys.vinOk100 }
      cel := s.cel.afterFullReset
      tap := { s.tap with pos := 0 }
      sec := { t.sec with dbgLock := s.sec.dbgLock } }
    let t := ((t.put SYS_STATE_PREV s.life).put SYS_STATE_STATE BARE).put SYS_STATE_CAUSE 0x02
    eventRec 0x01 (0x02 * 256 + s.life * 16 + BARE) [] true t

end Sys2Proof.Machine
end

