-- ==== Sys2Proof/Machine/Reads.lean ====
section
/-! DEFINITION. Reads of the vendor window with a side effect (R21, R22, R94, R402, R454, R537, R564): the halves they latch, the
counts they clear, the FIFO word they take. -/

namespace Sys2Proof.Machine

open R

/-- A read takes the next word of a FIFO (R454); the word that ends a packet leaves the pointer at the next header. A FIFO that a
DMA channel owns, or an empty one, does not move. -/
def fifoTake (i : Nat) (s : State) : State :=
  let q := s.fifo i
  if s.fifoOwned i then s
  else
    match q.pkts with
    | [] => s
    | pkt :: _ => { s with fifos := setAt s.fifos i (if q.rd + 1 < pkt.length then { q with rd := q.rd + 1 } else q.next) }

/-- A read of a _LO register latches its partner (R21). -/
def latchHi (off : Nat) (s : State) : State :=
  if off == ANG_NOW_LO_ANGLE.off then { s with ang := { s.ang with latchHi := s.get ANG_NOW_HI_REV } }
  else if off == SKT_COMMIT_LO_ANGLE.off then { s with skt := { s.skt with commitHiLatch := s.get SKT_COMMIT_HI_REV } }
  else if off == STR_WSEQ_LO_WSEQ.off then s.put STR_WSEQ_HI_WSEQ (s.str.wseq / 2 ^ 32)
  else s

/-- A read of the alias of a _LO register latches the alias of its partner (R537). -/
def latchAlias (off : Nat) (s : State) : State :=
  if off == ANG_NOW_LO_ANGLE.off then { s with ang := { s.ang with aliasHi := s.get ANG_NOW_HI_REV } }
  else if off == SKT_COMMIT_LO_ANGLE.off then { s with skt := { s.skt with aliasHi := s.get SKT_COMMIT_HI_REV } }
  else if off == STR_WSEQ_LO_WSEQ.off then { s with str := { s.str with aliasHi := s.str.wseq / 2 ^ 32 } }
  else s

/-- The side effect of a read: RC fields return to their Reset column, _LO registers latch, FIF_DATA advances. -/
def readSide (off : Nat) (s : State) : State :=
  let s := ((fieldsAt off).filter fun f => f.acc == .rc).foldl (fun s f => s.put f f.reset) s
  let s := latchHi off s
  match (FIF_DATA_WORD 0).off == off, (FIF_DATA_WORD 1).off == off, (FIF_DATA_WORD 2).off == off with
  | true, _, _ => fifoTake 0 s
  | _, true, _ => fifoTake 1 s
  | _, _, true => fifoTake 2 s
  | _, _, _ => s

/-- A register answers in the state: every one outside BARE, in BARE those of R94. -/
def State.liveAt (s : State) (off : Nat) : Bool :=
  s.life != BARE || [0x02, 0x03, 0x15, 0x16].contains (block off)
    || [SYS_ID_PART.off, SYS_STATE_STATE.off, SYS_DOMAIN_HEAD.off].contains off

/-- A read of a register with its side effect. -/
def readReg (off : Nat) (s : State) : State :=
  { readSide off (readDraw off s) with rdata := BitVec.ofNat 32 (s.regRead off) }

/-- What the alias of a register returns: the same value; a _HI register's alias the half its own latch holds. -/
def State.aliasRead (s : State) (off : Nat) : Nat :=
  if off == ANG_NOW_HI_REV.off then s.ang.aliasHi
  else if off == SKT_COMMIT_HI_REV.off then s.skt.aliasHi
  else if off == STR_WSEQ_HI_WSEQ.off then s.str.aliasHi
  else s.regRead off

/-- A read of a register's alias. -/
def readAlias (off : Nat) (s : State) : State :=
  { latchAlias off (readDraw off s) with rdata := BitVec.ofNat 32 (s.aliasRead off) }

/-- A read of a register by a port: with its side effect from the custodian, as its alias from the other port (R564); zero where
the register is not live (R94). -/
def readRow (p off : Nat) (s : State) : Res :=
  s.doIf (s.portOn p) fun s =>
    if !s.liveAt off then { s with rdata := 0 }
    else if s.mgmt == some p then readReg off s
    else readAlias off s

/-- The _LO registers (R21). -/
def loReg (i : Nat) : Nat :=
  if i == 0 then ANG_NOW_LO_ANGLE.off else if i == 1 then SKT_COMMIT_LO_ANGLE.off else STR_WSEQ_LO_WSEQ.off

/-- LO_REGISTER_READ: a read of ANG_NOW_LO, SKT_COMMIT_LO or STR_WSEQ_LO, or of its alias (R21, R537). -/
def execLoRegisterRead (p : Port) (which : Fin 3) (viaAlias : Bool) (s : State) : Res :=
  if viaAlias then
    s.doIf (s.portOn p) fun s => if s.liveAt (loReg which) then readAlias (loReg which) s else { s with rdata := 0 }
  else readRow p (loReg which) s

def srcFIF := 0x7
/-- The buffer address of the next word of a FIFO, in its region (R451, Table 3.7). -/
def State.fifoAddr (s : State) (i : Nat) : Nat :=
  let q := s.fifo i
  ((s.region ([6, 5, 7].getD i 6)).map fun r => 65536 * r.base + 4 * ((q.ptr + q.rd) % max 1 (s.get (FIF_CAP_WORDS i)))).getD 0
/-- A packet whose item cannot be read is lost; the next read takes the oldest that survives (Table 16.2; DEDUCED, log entry 218). -/
def loseItem (i : Nat) (s : State) : State :=
  let q := s.fifo i
  ({ s with fifos := setAt s.fifos i q.next }.inc (FIF_LOST_LOST i)).when (q.rd != 0) fun s => s.put (FIF_STAT_TORN i) 1
/-- FIF_DATA_READ: a read of FIF_DATA (R454); `o` is what buffer memory returns for the block of the ring that it reads. -/
def execFifDataRead (p : Port) (f : FifoId) (o : BlockRead) (s : State) : Res :=
  let held := s.portOn p && s.applied && s.mgmt == some p.val && !s.fifoOwned f && !(s.fifo f).pkts.isEmpty
  let r := if held then memLoad srcFIF (s.fifoAddr f / 64) o .clean s else (true, s)
  readRow p (FIF_DATA_WORD f).off (if r.1 then r.2 else loseItem f r.2)

/-- A write of FIF_DROP: the rest of a started packet is discarded. Its code 3 names no FIFO. -/
def fifDrop (v : Nat) (s : State) : State :=
  let i := v % 4
  let q := s.fifo i
  if q.rd == 0 then s else { s with fifos := setAt s.fifos i q.next }

/-- FIF_DROP: a write of FIF_DROP (R454). -/
def execFifDrop (p : Port) (v : Word) (s : State) : Res := vendorWrite p FIF_DROP_FIFO.off true (fifDrop v.toNat) s

/-! ### One row for each register whose read clears counts -/

/-- ANG_LOCK_READ (R73): A read of ANG_LOCK clears LOSSCNT. -/
def execAngLockRead (p : Port) (s : State) : Res := readRow p (ANG_LOCK_LOSSCNT).off s

/-- ANG_EVT_READ (R73): A read of ANG_EVT clears LATE. -/
def execAngEvtRead (p : Port) (s : State) : Res := readRow p (ANG_EVT_LATE).off s

/-- ANG_QWIN_READ (R73): A read of ANG_QWIN clears its window counts. -/
def execAngQwinRead (p : Port) (s : State) : Res := readRow p (ANG_QWIN_DISCARD).off s

/-- SKT_CNT_READ (R122): A read of SKT_CNT clears its counts. -/
def execSktCntRead (p : Port) (s : State) : Res := readRow p (SKT_CNT_ABORTS).off s

/-- OPU_HSTAT_READ (R172): A read of OPU_HSTAT clears LINKERR. -/
def execOpuHstatRead (p : Port) (h : Head) (s : State) : Res := readRow p (OPU_HSTAT_LINKERR h).off s

/-- OPU_LINKRSP_READ (R172): A read of OPU_LINKRSP clears DONE. -/
def execOpuLinkrspRead (p : Port) (h : Head) (s : State) : Res := readRow p (OPU_LINKRSP_DONE h).off s

/-- OPU_GSTAT_READ (R172): A read of OPU_GSTAT clears TRIPS. -/
def execOpuGstatRead (p : Port) (s : State) : Res := readRow p (OPU_GSTAT_TRIPS).off s

/-- SRV_LSTAT_READ (R191): A read of SRV_LSTAT clears HOLDS. -/
def execSrvLstatRead (p : Port) (l : Loop) (s : State) : Res := readRow p (SRV_LSTAT_HOLDS l).off s

/-- SRV_ARITH_READ (R191): A read of SRV_ARITH clears SATN and LOSTN. -/
def execSrvArithRead (p : Port) (l : Loop) (s : State) : Res := readRow p (SRV_ARITH_SATN l).off s

/-- SRV_HCNT_READ (R216): A read of SRV_HCNT clears its loss counts. -/
def execSrvHcntRead (p : Port) (h : Head) (s : State) : Res := readRow p (SRV_HCNT_FLOSS h).off s

/-- SRV_TQWIN_READ (R216): A read of SRV_TQWIN clears its window counts. -/
def execSrvTqwinRead (p : Port) (h : Head) (s : State) : Res := readRow p (SRV_TQWIN_DISCARD h).off s

/-- SRV_SHKST_READ (R216): A read of SRV_SHKST clears EVENTS and PEAK. -/
def execSrvShkstRead (p : Port) (s : State) : Res := readRow p (SRV_SHKST_EVENTS).off s

/-- SLD_CNT_READ (R243): A read of SLD_CNT clears its counts. -/
def execSldCntRead (p : Port) (h : Head) (s : State) : Res := readRow p (SLD_CNT_SLIPS h).off s

/-- SPN_DIST_READ (R244): A read of SPN_DIST clears its counts. -/
def execSpnDistRead (p : Port) (s : State) : Res := readRow p (SPN_DIST_OCN).off s

/-- CHN_LSTAT_READ (R274): A read of CHN_LSTAT clears FAILCHK. -/
def execChnLstatRead (p : Port) (l : Lane) (s : State) : Res := readRow p (CHN_LSTAT_FAILCHK l).off s

/-- DET_HCNT_READ (R275): A read of DET_HCNT clears its counts. -/
def execDetHcntRead (p : Port) (h : Head) (s : State) : Res := readRow p (DET_HCNT_EQRELOAD h).off s

/-- DET_PASS_READ (R275): A read of DET_PASS clears its counts. -/
def execDetPassRead (p : Port) (h : Head) (s : State) : Res := readRow p (DET_PASS_PASS3 h).off s

/-- CWD_QUEUE_READ (R301): A read of CWD_QUEUE clears PEAK. -/
def execCwdQueueRead (p : Port) (s : State) : Res := readRow p (CWD_QUEUE_PEAK).off s

/-- CWD_TAGCNT_READ (R301): A read of CWD_TAGCNT clears its counts. -/
def execCwdTagcntRead (p : Port) (s : State) : Res := readRow p (CWD_TAGCNT_LOST).off s

/-- CWD_CNT_READ (R301): A read of CWD_CNT clears its counts. -/
def execCwdCntRead (p : Port) (s : State) : Res := readRow p (CWD_CNT_OVF).off s

/-- WRS_HSTAT_READ (R302): A read of WRS_HSTAT clears CLAMP. -/
def execWrsHstatRead (p : Port) (h : Head) (s : State) : Res := readRow p (WRS_HSTAT_CLAMP h).off s

/-- WRS_OPCST_READ (R302): A read of WRS_OPCST clears RUNS and FAILS. -/
def execWrsOpcstRead (p : Port) (h : Head) (s : State) : Res := readRow p (WRS_OPCST_RUNS h).off s

/-- WRS_VCNT_READ (R302): A read of WRS_VCNT clears its counts. -/
def execWrsVcntRead (p : Port) (h : Head) (s : State) : Res := readRow p (WRS_VCNT_VFAIL h).off s

/-- STR_CNT_READ (R334): A read of STR_CNT clears its counts. -/
def execStrCntRead (p : Port) (s : State) : Res := readRow p (STR_CNT_COMMITS).off s

/-- STR_RECON_READ (R334): A read of STR_RECON clears its counts. -/
def execStrReconRead (p : Port) (s : State) : Res := readRow p (STR_RECON_RECON).off s

/-- STR_SLOW_READ (R334): A read of STR_SLOW clears its counts. -/
def execStrSlowRead (p : Port) (s : State) : Res := readRow p (STR_SLOW_SLOW).off s

/-- STR_RB_READ (R334): A read of STR_RB clears DONE. -/
def execStrRbRead (p : Port) (s : State) : Res := readRow p (STR_RB_DONE).off s

/-- MAP_DF_READ (R335): A read of MAP_DF clears its count. -/
def execMapDfRead (p : Port) (s : State) : Res := readRow p (MAP_DF_COUNT).off s

/-- MAP_DFMAX_READ (R335): A read of MAP_DFMAX clears the longest wait. -/
def execMapDfmaxRead (p : Port) (s : State) : Res := readRow p (MAP_DFMAX_US).off s

/-- MAP_CKPT_READ (R335): A read of MAP_CKPT clears its counts. -/
def execMapCkptRead (p : Port) (s : State) : Res := readRow p (MAP_CKPT_MAPCK).off s

/-- MAP_CLEAN_READ (R335): A read of MAP_CLEAN clears its count. -/
def execMapCleanRead (p : Port) (s : State) : Res := readRow p (MAP_CLEAN_UNITS).off s

/-- HLT_REFQ_READ (R359): A read of HLT_REFQ clears DROP. -/
def execHltRefqRead (p : Port) (s : State) : Res := readRow p (HLT_REFQ_DROP).off s

/-- HLT_CNT_READ (R359): A read of HLT_CNT clears its counts. -/
def execHltCntRead (p : Port) (s : State) : Res := readRow p (HLT_CNT_REFRESH).off s

/-- HLT_LEDG_READ (R359): A read of HLT_LEDG clears DELTAS. -/
def execHltLedgRead (p : Port) (s : State) : Res := readRow p (HLT_LEDG_DELTAS).off s

/-- CAL_CNT_READ (R374): A read of CAL_CNT clears its counts. -/
def execCalCntRead (p : Port) (s : State) : Res := readRow p (CAL_CNT_FAILS).off s

/-- HST_PORT_READ (R413): A read of HST_PORT clears LINKDOWNS. -/
def execHstPortRead (p : Port) (i : Port) (s : State) : Res := readRow p (HST_PORT_LINKDOWNS i).off s

/-- HST_INFL_READ (R413): A read of HST_INFL clears PEAK. -/
def execHstInflRead (p : Port) (i : Port) (s : State) : Res := readRow p (HST_INFL_PEAK i).off s

/-- HST_CUST_READ (R413): A read of HST_CUST clears DISCARDS. -/
def execHstCustRead (p : Port) (s : State) : Res := readRow p (HST_CUST_DISCARDS).off s

/-- HST_RLOCK_READ (R413): A read of HST_RLOCK clears STALLS. -/
def execHstRlockRead (p : Port) (s : State) : Res := readRow p (HST_RLOCK_STALLS).off s

/-- HST_ERRCNT_READ (R413): A read of HST_ERRCNT clears its counts. -/
def execHstErrcntRead (p : Port) (s : State) : Res := readRow p (HST_ERRCNT_UNREC).off s

/-- MEM_SWEEP_READ (R434): A read of MEM_SWEEP clears PULLS. -/
def execMemSweepRead (p : Port) (s : State) : Res := readRow p (MEM_SWEEP_PULLS).off s

/-- MEM_CE_BUCKET_READ (R434): A read of MEM_CE_BUCKET clears OVFN. -/
def execMemCeBucketRead (p : Port) (s : State) : Res := readRow p (MEM_CE_BUCKET_OVFN).off s

/-- MEM_CECNT_READ (R434): A read of MEM_CECNT clears its count. -/
def execMemCecntRead (p : Port) (s : State) : Res := readRow p (MEM_CECNT_CE).off s

/-- MEM_UECNT_READ (R434): A read of MEM_UECNT clears its counts. -/
def execMemUecntRead (p : Port) (s : State) : Res := readRow p (MEM_UECNT_ADDRN).off s

/-- MEM_BAR2_READ (R434): A read of MEM_BAR2 clears DISCARDS. -/
def execMemBar2Read (p : Port) (s : State) : Res := readRow p (MEM_BAR2_DISCARDS).off s

/-- LRD_HITS_READ (R435): A read of LRD_HITS clears its count. -/
def execLrdHitsRead (p : Port) (s : State) : Res := readRow p (LRD_HITS_HITS).off s

/-- LRD_MISSES_READ (R435): A read of LRD_MISSES clears its count. -/
def execLrdMissesRead (p : Port) (s : State) : Res := readRow p (LRD_MISSES_MISSES).off s

/-- LRD_SEQCNT_READ (R435): A read of LRD_SEQCNT clears its count. -/
def execLrdSeqcntRead (p : Port) (s : State) : Res := readRow p (LRD_SEQCNT_BYPASS).off s

/-- LRD_ERR_READ (R435): A read of LRD_ERR clears its counts. -/
def execLrdErrRead (p : Port) (s : State) : Res := readRow p (LRD_ERR_UE).off s

/-- SEQ_HITS_READ (R458): A read of SEQ_HITS clears its count. -/
def execSeqHitsRead (p : Port) (q : Seq) (s : State) : Res := readRow p (SEQ_HITS_HITS q).off s

/-- FIF_LOST_READ (R460): A read of FIF_LOST clears its count. -/
def execFifLostRead (p : Port) (f : FifoId) (s : State) : Res := readRow p (FIF_LOST_LOST f).off s

/-- SYS_MODE_ST_READ (R476): A read of SYS_MODE_ST clears CHANGES. -/
def execSysModeStRead (p : Port) (s : State) : Res := readRow p (SYS_MODE_ST_CHANGES).off s

/-- PWR_VIN_READ (R493): A read of PWR_VIN returns MIN to 0xFFFF. -/
def execPwrVinRead (p : Port) (s : State) : Res := readRow p (PWR_VIN_MIN).off s

/-- PWR_EVT_READ (R493): A read of PWR_EVT clears HOLDUP and BROWNOUT. -/
def execPwrEvtRead (p : Port) (s : State) : Res := readRow p (PWR_EVT_HOLDUP).off s

/-- THM_CNT_READ (R494): A read of THM_CNT clears its counts. -/
def execThmCntRead (p : Port) (s : State) : Res := readRow p (THM_CNT_SUSPN).off s

/-- FLT_STAT_READ (R510): A read of FLT_STAT clears its counts. -/
def execFltStatRead (p : Port) (s : State) : Res := readRow p (FLT_STAT_UNCOV).off s

/-- CEL_CNT_READ (R528): A read of CEL_CNT clears its counts. -/
def execCelCntRead (p : Port) (s : State) : Res := readRow p (CEL_CNT_ERASES).off s

/-- SEC_CNT_READ (R529): A read of SEC_CNT clears its counts. -/
def execSecCntRead (p : Port) (s : State) : Res := readRow p (SEC_CNT_GENMIS).off s

end Sys2Proof.Machine
end

