-- ==== Sys2Proof/Machine/Debug.lean ====
section
/-! DEFINITION. The TAP, the opening of the debug port, and the read-out chain (R527, R530 to R541). -/

namespace Sys2Proof.Machine

open R

def State.setTap (s : State) (k : Tap → Tap) : State := { s with tap := k s.tap }
/-- The TAP runs in every state except OFF (R538). -/
def State.tapOn (s : State) : Bool := !s.sys.off
/-- The low `n` bits of a value, least significant first, as they leave on TDO. -/
def bitsLsb (n v : Nat) : List Bool := (List.range n).map fun i => v.testBit i

/-! ### Opening the debug port (R527, R540) -/

/-- An attempt with a password: refused while DBG_LOCK is 1, locked out, wrong, or right; a right one starts the sequence of R527,
unless it runs already. -/
def dbgAttempt (recent : Bool) (pw : Nat) (s : State) : State :=
  if s.sec.dbgLock then s.put DBG_STAT_RESULT 4
  else
    match s.pwCheck recent pw with
    | 1 => (s.addSat CEL_STATUS_PWFAIL 1).put DBG_STAT_RESULT 2
    | 2 => s.put DBG_STAT_RESULT 3
    | _ =>
      if s.sec.dbgStep != 0 then s
      else
        let s := clearKeys (s.puts [(DBG_STAT_BUSY, 1), (DBG_STAT_RESULT, 0), (SEC_STAT_KEK, 0), (SEC_STAT_KEKGEN, 0)])
        let s := { s with sec := { s.sec with kek := none, dbgStep := 1 } }
        celQueue { client := 4, kind := 3, word := 2048 * 121 } (celQueue { client := 4, kind := 3, word := 2048 * 120 } s)

/-- The states in which an attempt through BAR0 is taken. -/
def dbgStates : List Nat := [PRIMED, MOUNTING, MOUNTED, PARKING, HALTED]

/-- A write of DBG_UNLOCK: the attempt, with DBG_PWLO as the low half of the password. -/
def dbgUnlock (recent : Bool) (v : Nat) (s : State) : State :=
  let pw := s.get DBG_PWLO_PW + 2 ^ 32 * v
  let s := s.put DBG_PWLO_PW 0
  if s.inLife dbgStates then dbgAttempt recent pw s else s.put DBG_STAT_RESULT 6

/-- A write of DBG_UNLOCK that custody or the state refuses sets RESULT 6. -/
def dbgRefused (p : Nat) (s : State) : State :=
  s.when (s.on && (s.mgmt != some p || s.life == BARE)) fun s => s.put DBG_STAT_RESULT 6

/-- DBG_UNLOCK. -/
def execDbgUnlock (p : Port) (v : Word) (recent : Bool) (s : State) : Res :=
  vendorWrite p DBG_UNLOCK_PW.off false (dbgUnlock recent v.toNat) (dbgRefused p s)

/-- DEBUG_PORT_OPEN: both Seal sectors are erased and every word reads back ERASED; DBGOPEN sets and the port opens. -/
def execDebugPortOpen (s : State) : Res :=
  s.doIf (!s.sys.off && s.sec.dbgStep == 1 && !(s.cel.ops.any fun o => o.client == 4)
      && s.cel.sectorErased 120 && s.cel.sectorErased 121) fun s =>
    { s.puts [(SEC_STAT_DBGOPEN, 1), (DBG_STAT_RESULT, 1), (DBG_STAT_BUSY, 0)] with sec := { s.sec with dbgStep := 0 } }

/-! ### The read-out chain (R533 to R536) -/

/-- The segments of Table 22.3 after the header: the blocks, the first bit and the length. -/
def chainSegments : List (List Nat × Nat × Nat) := [
  ([0x01, 0x17, 0x18, 0x19, 0x1A], 256, 32768),
  ([0x02], 33024, 131072),
  ([0x04], 164096, 65536),
  ([0x03], 229632, 2097152),
  ([0x05], 2326784, 524288),
  ([0x06, 0x07, 0x08], 2851072, 131072),
  ([0x09], 2982144, 524288),
  ([0x0A], 3506432, 19814528),
  ([0x0B], 23320960, 3887104),
  ([0x0C], 27208064, 1572864),
  ([0x0D, 0x0E], 28780928, 1048576),
  ([0x0F], 29829504, 6094848),
  ([0x11], 35924352, 2097152),
  ([0x12], 38021504, 65536),
  ([0x13], 38087040, 3145728),
  ([0x14], 41232768, 786432),
  ([0x15, 0x16], 42019200, 65536),
  ([0x1B], 42084736, 4096)]

def chainBody : Nat := 42088832
def chainLen : Nat := 42088864

/-- The offsets of a register's instances. -/
def Grp.offs (g : Grp) : List Nat :=
  (List.range g.n1).flatMap fun i => (List.range g.n2).map fun j => g.base + g.s1 * i + g.s2 * j

/-- The registers of a segment, in ascending offset. -/
def segRegs (blocks : List Nat) : List Nat :=
  sortBy (fun a b => a ≤ b) ((blocks.flatMap regRows).flatMap Grp.offs)

/-- A register in the chain: what its alias would return in the state that froze, zero where it is not live there (R94, R535); CEL_DATA0–3
read as zero (R536). -/
def State.chainReg (s : State) (off : Nat) : Nat :=
  let was := s.put SYS_STATE_STATE (s.get SYS_STATE_PREV)
  if ((CEL_DATA_DATA 0).off ≤ off && off ≤ (CEL_DATA_DATA 3).off) || !was.liveAt off then 0
  else if off == SYS_STATE_STATE.off then s.aliasRead off
  else was.aliasRead off

/-- The header (Table 22.4). -/
def State.chainHdr (s : State) : Nat :=
  0x465A4331 + 2 ^ 32 * 0x9648 + 2 ^ 48 * s.get SYS_ID_STEP + 2 ^ 56 * 19 + 2 ^ 64 * s.get CNV_ID_ID
    + 2 ^ 96 * s.get CNV_IMGCRC_CRC + 2 ^ 128 * s.now + 2 ^ 176 * s.get SYS_STATE_PREV + 2 ^ 180 * s.sys.frzTap.toNat

/-- A bit of the chain before the trailer. What a segment holds after its registers is free (DESIGN CHOICE, log entry 1). -/
def State.chainBit (s : State) (i : Nat) : Bool :=
  if i < 256 then s.chainHdr.testBit i
  else
    match chainSegments.find? fun g => i < g.2.1 + g.2.2 with
    | none => false
    | some g =>
      match (segRegs g.1)[(i - g.2.1) / 32]? with
      | some off => (s.chainReg off).testBit ((i - g.2.1) % 32)
      | none => (Config.freeValue (2 ^ 64 * (s.freeCtr + 1) + i)).testBit 0

/-- The trailer: CRC-32C over the bytes of the chain before it (R534). -/
def State.chainCrc (s : State) : Nat :=
  crc32c ((List.range (chainBody / 8)).map fun k => ((List.range 8).map fun j => (s.chainBit (8 * k + j)).toNat * 2 ^ j).sum)

def State.chainAt (s : State) (i : Nat) : Bool :=
  if i < chainBody then s.chainBit i else s.chainCrc.testBit (i - chainBody)

/-- SCANOUT: `n` bits are shifted, from bit 0 after a Capture-DR, else from where the last shift stopped (R533). -/
def execScanout (capture : Bool) (n : Nat) (s : State) : Res :=
  s.doIf s.tapOn fun s =>
    let from0 := if capture then 0 else s.tap.pos
    if s.life == FROZEN && s.flag SEC_STAT_DBGOPEN then
      let out := (List.range n).map fun k => s.chainAt ((from0 + k) % chainLen)
      s.setTap fun t => { t with ir := 0x12, pos := (from0 + n) % chainLen, tdo := out }
    else s.setTap fun t => { t with ir := 0x12, pos := 0, tdo := List.replicate n false }

/-! ### TAP instructions (Table 22.6) -/

/-- The IDCODE of R538. -/
def idcode : Nat := 0x196489A7

/-- IDCODE. -/
def execIdcode (s : State) : Res := s.doIf s.tapOn fun s => s.setTap fun t => { t with ir := 1, tdo := bitsLsb 32 idcode }

/-- SAMPLE/PRELOAD: the balls are captured and shifted out, and the update latches take what was shifted in. -/
def execSamplePreload (balls cells : List Bool) (s : State) : Res :=
  s.doIf s.tapOn fun s => s.setTap fun t => { t with ir := 2, tdo := balls, cells }

/-- An instruction accepted in BARE, which it freezes first, and in FROZEN (R539); elsewhere the bypass register is selected. -/
def boundaryOp (k : Tap → Tap) (s : State) : Res :=
  s.doIf s.tapOn fun s =>
    if s.life == FROZEN then s.setTap k
    else if s.life == BARE && s.on then (freeze true s).setTap k
    else s.setTap fun t => { t with ir := 0xFF, tdo := [false] }

/-- EXTEST: the boundary cells drive the balls, the safety block's balls excepted (R539). -/
def execExtest (balls cells : List Bool) (s : State) : Res := boundaryOp (fun t => { t with ir := 3, tdo := balls, cells }) s
/-- CLAMP. -/
def execClamp (s : State) : Res := boundaryOp (fun t => { t with ir := 4, tdo := [false] }) s
/-- HIGHZ. -/
def execHighz (s : State) : Res := boundaryOp (fun t => { t with ir := 5, tdo := [false] }) s

/-- TAP_UNLOCK: Update-DR with a password, in any state (R540). -/
def execTapUnlock (pw : BitVec 64) (recent : Bool) (s : State) : Res :=
  s.doIf s.tapOn fun s => dbgAttempt recent pw.toNat (s.setTap fun t => { t with ir := 0x10 })

/-- DSTAT captures DBG_STAT. -/
def execDstat (s : State) : Res :=
  s.doIf s.tapOn fun s => s.setTap fun t => { t with ir := 0x11, tdo := bitsLsb 32 (s.regRead DBG_STAT_RESULT.off) }

/-- FULLRST raises a full reset at Update-IR. -/
def execFullrst (s : State) : Res :=
  s.doIf s.tapOn fun s => raiseFullReset 4 (s.setTap fun t => { t with ir := 0x13, tdo := [false] })

/-- TFREEZE freezes at Update-IR; no effect while FROZEN. -/
def execTfreeze (s : State) : Res :=
  s.doIf s.tapOn fun s => (s.setTap fun t => { t with ir := 0x14, tdo := [false] }).when s.on (freeze true)

/-- BYPASS, or a code of Table 22.6 that names no instruction: the bypass register captures 0. -/
def execBypass (code : BitVec 8) (s : State) : Res :=
  s.doIf s.tapOn fun s => 
    let c := if [0x01, 0x02, 0x03, 0x04, 0x05, 0x10, 0x11, 0x12, 0x13, 0x14].contains code.toNat then 0xFF else code.toNat
    s.setTap fun t => { t with ir := c, tdo := [false] }

/-- TRST: the TAP controller alone resets. -/
def execTrst (s : State) : Res := s.doIf s.tapOn fun s => s.setTap fun t => { t with ir := 1, pos := 0, tdo := [] }

end Sys2Proof.Machine
end

