-- ==== Sys2Proof/Machine/Dma.lean ====
section
/-! DEFINITION. The DMA channels and the telemetry samples (R445 to R450, R456, R457). -/

namespace Sys2Proof.Machine

open R

def State.dmaSt (s : State) (c : Nat) : DmaSt := s.dma.getD c {}
def State.setDma (s : State) (c : Nat) (k : DmaSt → DmaSt) : State := { s with dma := updAt s.dma c k }

def dERR_BUSY := 7
def dERR_INVALID := 6
def dERR_ABORTED := 5
def dERR_MEMORY := 3

def spHOST := 0
def spBUFFER := 1
def spFIFO := 2

def State.dmaSrc (s : State) (c : Nat) : Nat := s.get (DMA_SRC_LO_ADDR c) + 2 ^ 32 * s.get (DMA_SRC_HI_ADDR c)
def State.dmaDst (s : State) (c : Nat) : Nat := s.get (DMA_DST_LO_ADDR c) + 2 ^ 32 * s.get (DMA_DST_HI_ADDR c)
def setSrc (c a : Nat) (s : State) : State := s.puts [(DMA_SRC_LO_ADDR c, a), (DMA_SRC_HI_ADDR c, a / 2 ^ 32)]
def setDst (c a : Nat) (s : State) : State := s.puts [(DMA_DST_LO_ADDR c, a), (DMA_DST_HI_ADDR c, a / 2 ^ 32)]

/-! ### Starting (R445, R446) -/

/-- An address is valid in its space (R445). -/
def State.dmaAddrOk (s : State) (space addr len : Nat) : Bool :=
  if space == spHOST then addr % 4 == 0
  else if space == spBUFFER then s.applied && addr % 4 == 0 && addr < 2 ^ 34 && addr + len ≤ s.usableBytes
  else false

/-- A START is valid (R445). -/
def State.dmaValid (s : State) (c : Nat) : Bool :=
  let len := s.get (DMA_LEN_LEN c)
  let src := s.dmaSrc c
  4 ≤ len && len % 4 == 0
    && (if s.get (DMA_CTRL_SSPACE c) == spFIFO then
        src % 4 < 3 && (List.range 8).all fun d => d == c || !s.flag (DMA_STAT_BUSY d) || s.get (DMA_CTRL_SSPACE d) != spFIFO
          || s.dmaSrc d % 4 != src % 4
      else s.dmaAddrOk (s.get (DMA_CTRL_SSPACE c)) src len)
    && s.dmaAddrOk (s.get (DMA_CTRL_DSPACE c)) (s.dmaDst c) len
    && !(c == 0 && s.life == BARE)

/-- CNV's fetch uses the channel: it serves only CNV then (R97, R445). -/
def State.cnvFetch (s : State) (c : Nat) : Bool := c == 0 && s.get CNV_STATUS_PHASE == 1

/-- START (R446, Table 17.5). -/
def dmaStart (p c : Nat) (s : State) : State :=
  if s.flag (DMA_STAT_BUSY c) then s.put (DMA_STAT_ERR c) dERR_BUSY
  else if !s.dmaValid c then s.put (DMA_STAT_ERR c) dERR_INVALID
  else
    let len := s.get (DMA_LEN_LEN c)
    let dst := s.dmaDst c
    let s := s.puts [(DMA_TOTAL_TOTAL c, len), (DMA_STAT_BUSY c, 1), (DMA_STAT_ERR c, 0), (DMA_STAT_PORT c, p),
      (DMA_STAT_PAUSED c, s.get (DMA_CTRL_PAUSE c))]
    s.setDma c fun d => { d with dst0 := dst, len0 := len, issued := 0, halfDone := false, wrapDue := false }

/-- Reads issued at one time: 32 requests of 4,096 bytes (R446). -/
def dmaAhead : Nat := 32 * 4096

/-- A write of DMA_CTRL: its fields, then ABORT, PAUSE and START. `out` is how many bytes of issued reads are still to come when a
PAUSE stops the issue (R449). They do not reach the channel while it serves CNV (DESIGN CHOICE, log entry 171). -/
def dmaCtrl (p c v out : Nat) (s : State) : State :=
  let s := [DMA_CTRL_DSPACE c, DMA_CTRL_SSPACE c, DMA_CTRL_CIRC c, DMA_CTRL_DONEIE c, DMA_CTRL_HALFIE c, DMA_CTRL_PAUSE c].foldl
    (fun s f => s.put f (f.ofWord v)) s
  let s := s.when (v.testBit 1 && s.flag (DMA_STAT_BUSY c) && !s.cnvFetch c) (dmaEnd c dERR_ABORTED)
  let s := s.when (s.flag (DMA_STAT_BUSY c) && !s.cnvFetch c) fun s =>
    if !v.testBit 2 then s.put (DMA_STAT_PAUSED c) 0
    else if s.flag (DMA_STAT_PAUSED c) then s
    else (s.setDma c fun d => { d with issued := out }).putB (DMA_STAT_PAUSED c) (out == 0 && s.get (DMA_LEN_LEN c) != 0)
  s.when (v.testBit 0) (dmaStart p c)

/-- DMA_START: a write of DMA_CTRL with START 1. -/
def execDmaStart (p : Port) (c : Chan) (v : Word) (s : State) : Res :=
  vendorWrite p (DMA_CTRL_START c).off true (fun s => dmaCtrl p c (v.toNat ||| 1) (s.dmaSt c).issued s) s

/-- DMA_PAUSE: a write of DMA_CTRL with PAUSE 1 while `out` bytes of issued reads are still to come (R449). -/
def execDmaPause (p : Port) (c : Chan) (v : Word) (out : Nat) (s : State) : Res :=
  vendorWrite p (DMA_CTRL_START c).off true (fun s => dmaCtrl p c (v.toNat ||| 4) (min out (min (s.get (DMA_LEN_LEN c)) dmaAhead)) s) s

/-- DMA_RESUME: a write of DMA_CTRL with PAUSE 0 (R449). -/
def execDmaResume (p : Port) (c : Chan) (v : Word) (s : State) : Res :=
  vendorWrite p (DMA_CTRL_START c).off true (dmaCtrl p c (v.toNat - v.toNat / 4 % 2 * 4) 0) s

/-- DMA_ABORT: a write of DMA_CTRL with ABORT 1 (R449). -/
def execDmaAbort (p : Port) (c : Chan) (v : Word) (s : State) : Res :=
  vendorWrite p (DMA_CTRL_START c).off true (fun s => dmaCtrl p c (v.toNat ||| 2) (s.dmaSt c).issued s) s

/-! ### Moving data -/

/-- A channel runs a transfer of its own registers. -/
def State.dmaRuns (s : State) (c : Nat) : Bool := s.on && s.flag (DMA_STAT_BUSY c) && !s.cnvFetch c


/-- The 64-byte blocks that `n` bytes from an address touch. -/
def blocksOf (a n : Nat) : List Nat := if n == 0 then [] else (List.range ((a % 64 + n + 63) / 64)).map fun i => a / 64 + i

def srcDMA := 0x8

/-- The DMA engine reads buffer memory: the bytes, or none on a bus error. -/
def dmaLoad (a n : Nat) (s : State) : Option (List Byte) × State :=
  let r := (blocksOf a n).foldl (fun (x : Bool × State) b =>
    let y := memLoad srcDMA b {} .clean x.2
    (x.1 && y.1, y.2)) (true, s)
  (if r.1 then some ((List.range n).map fun i => r.2.mem.bytes.read (a + i)) else none, r.2)

/-- Bytes reach the destination of a channel and DST and LEN advance; a bus error ends the channel. -/
def dmaDeliver (c : Nat) (data : List Byte) (s : State) : State :=
  let a := s.dmaDst c
  let r := if s.get (DMA_CTRL_DSPACE c) == spHOST then (true, s.setDma c fun d => { d with sent := (a, data) :: d.sent })
    else memStore srcDMA a data [] s
  let s := (setDst c (a + data.length) r.2).put (DMA_LEN_LEN c) (r.2.get (DMA_LEN_LEN c) - data.length)
  if r.1 then s else dmaEnd c dERR_MEMORY s

/-- DMA_READ_COMPLETION: `n` bytes of a channel's issued reads come back (from the host as `data`), `left` bytes are still to come.
They are written, SRC, DST and LEN advance, and a pausing channel is paused once nothing is left (R446, R449). -/
def execDmaReadCompletion (c : Chan) (n : Nat) (data : List Byte) (left : Nat) (s : State) : Res :=
  let host := s.get (DMA_CTRL_SSPACE c) == spHOST
  s.doIf (s.dmaRuns c && !s.flag (DMA_STAT_PAUSED c) && s.get (DMA_CTRL_SSPACE c) != spFIFO && 0 < n
      && n % 4 == 0 && n + left ≤ min (s.get (DMA_LEN_LEN c)) dmaAhead && (!host || data.length == n)
      && (!s.flag (DMA_CTRL_PAUSE c) || n + left == (s.dmaSt c).issued)) fun s =>
    let src := s.dmaSrc c
    let r := if host then (some data, s) else dmaLoad src n s
    match r with
    | (none, s) => dmaEnd c dERR_MEMORY s
    | (some bytes, s) =>
      let s := dmaDeliver c bytes (setSrc c (src + n) (s.setDma c fun d => { d with issued := left }))
      s.when (s.flag (DMA_STAT_BUSY c) && s.flag (DMA_CTRL_PAUSE c) && left == 0 && 0 < s.get (DMA_LEN_LEN c)) fun s =>
        s.put (DMA_STAT_PAUSED c) 1

/-- The rest of the oldest packet of the FIFO that is a channel's source. -/
def State.dmaPacket (s : State) (c : Nat) : List Word :=
  let q := s.fifo (s.dmaSrc c % 4)
  (q.pkts.headD []).drop q.rd

/-- A packet that crosses the end of a circular buffer goes on at its start, unless its first part has ended the channel (R448, R450). -/
def dmaWrap (c : Nat) (data : List Byte) (s : State) : State :=
  let d := s.dmaSt c
  let k := s.get (DMA_LEN_LEN c)
  let s := dmaDeliver c (data.take k) s
  s.when (s.flag (DMA_STAT_BUSY c)) fun s =>
    let s := (setDst c d.dst0 s).put (DMA_LEN_LEN c) d.len0
    dmaDeliver c (data.drop k) (s.setDma c fun d => { d with wrapDue := true })

/-- DMA_FIFO_PACKET: a channel moves the oldest packet of the FIFO that is its source (R446). -/
def execDmaFifoPacket (c : Chan) (s : State) : Res :=
  let pkt := s.dmaPacket c
  let data := pkt.flatMap fun w => (List.range 4).map fun i => BitVec.ofNat 8 (w.toNat / 256 ^ i)
  let circ := s.flag (DMA_CTRL_CIRC c)
  s.doIf (s.dmaRuns c && !s.flag (DMA_CTRL_PAUSE c) && s.get (DMA_CTRL_SSPACE c) == spFIFO && !pkt.isEmpty
      && (decide (data.length ≤ s.get (DMA_LEN_LEN c)) || (circ && data.length ≤ (s.dmaSt c).len0))) fun s =>
    let i := s.dmaSrc c % 4
    let s := { s with fifos := setAt s.fifos i (s.fifo i).next }
    if data.length ≤ s.get (DMA_LEN_LEN c) then dmaDeliver c data s else dmaWrap c data s

/-! ### Read-back (R447, R448) and errors (R450) -/

/-- Every byte below half of TOTAL is written. -/
def State.dmaHalfway (s : State) (c : Nat) : Bool :=
  (s.dmaSt c).wrapDue || s.get (DMA_TOTAL_TOTAL c) / 8 * 4 ≤ s.get (DMA_TOTAL_TOTAL c) - s.get (DMA_LEN_LEN c)
/-- DMA_HALF: every byte below half of TOTAL is written, and the read-back has completed. -/
def execDmaHalf (c : Chan) (s : State) : Res :=
  s.doIf (s.dmaRuns c && !(s.dmaSt c).halfDone && s.dmaHalfway c) fun s =>
    let s := (s.setDma c fun d => { d with halfDone := true }).put (DMA_STAT_HALF c) 1
    s.when (s.flag (DMA_CTRL_HALFIE c)) (raiseIrq (8 + c))

/-- The last byte is written: LEN is 0, a circular pass has ended, or a FIFO source without CIRC has no packet that fits. -/
def State.dmaOver (s : State) (c : Nat) : Bool :=
  s.get (DMA_LEN_LEN c) == 0 || (s.dmaSt c).wrapDue
    || (s.get (DMA_CTRL_SSPACE c) == spFIFO && !s.flag (DMA_CTRL_CIRC c)
      && ((s.dmaPacket c).isEmpty || s.get (DMA_LEN_LEN c) < 4 * (s.dmaPacket c).length))

/-- DMA_DONE: the final read-back has completed, that of HALF before it; a circular channel goes on from the start of its buffer. -/
def execDmaDone (c : Chan) (s : State) : Res :=
  s.doIf (s.dmaRuns c && s.dmaOver c && ((s.dmaSt c).halfDone || !s.dmaHalfway c)) fun s =>
    let d := s.dmaSt c
    let s := s.put (DMA_STAT_DONE c) 1
    let s :=
      if !s.flag (DMA_CTRL_CIRC c) then s.puts [(DMA_STAT_BUSY c, 0), (DMA_STAT_PAUSED c, 0)]
      else
        let s := s.when (!d.wrapDue) fun s => (setDst c d.dst0 s).put (DMA_LEN_LEN c) d.len0
        s.setDma c fun d => { d with halfDone := false, wrapDue := false }
    s.when (s.flag (DMA_CTRL_DONEIE c)) (raiseIrq (8 + c))

/-- DMA_ERROR: an error completion (0) or poisoned data (1) from the host, or a bus error from buffer memory (2), which returns `o` for the
block at the source, or whose line there holds `l` (R450). -/
def execDmaError (c : Chan) (err : Fin 3) (o : BlockRead) (l : LineOutcome) (s : State) : Res :=
  let r := memLoad srcDMA (s.dmaSrc c / 64) o l s
  s.doIf (s.dmaRuns c && (if err.val == 2 then s.get (DMA_CTRL_SSPACE c) == spBUFFER && !r.1
      else s.get (DMA_CTRL_SSPACE c) == spHOST || s.get (DMA_CTRL_DSPACE c) == spHOST)) fun s =>
    dmaEnd c (err.val + 1) (if err.val == 2 then r.2 else s)

/-! ### Telemetry (R456) -/

/-- FIF_TCFG_WRITE: a write of FIF_TCFG. Sampling that starts takes its first sample at the next tick. -/
def fifTcfg (v : Nat) (s : State) : State :=
  let s' := s.puts [(FIF_TCFG_EN, FIF_TCFG_EN.ofWord v), (FIF_TCFG_COUNT, FIF_TCFG_COUNT.ofWord v), (FIF_TCFG_PERIOD, FIF_TCFG_PERIOD.ofWord v)]
  if !s.flag FIF_TCFG_EN && s'.flag FIF_TCFG_EN then { s' with telAt := tickAfter s.now } else s'
def execFifTcfgWrite (p : Port) (v : Word) (s : State) : Res := vendorWrite p FIF_TCFG_EN.off true (fifTcfg v.toNat) s

/-- The registers of a sample, in the order of FIF_TSEL. -/
def State.telRegs (s : State) : List Nat :=
  (List.range (min (s.get FIF_TCFG_COUNT) 16)).map fun i => 4 * s.get (FIF_TSEL_OFFSET i)
/-- What a sample holds of each: bits [23:0] as its alias reads. -/
def State.telVals (s : State) : List Nat := s.telRegs.map fun off => s.aliasRead off % au24

/-- The packet or the pair of packets of a sample enters the telemetry FIFO; the pair enters as one (R453). -/
def pushSample (s : State) : State :=
  let vals := s.telVals
  if vals.length ≤ 13 then pushPkt 1 (packet s 0x20 0 vals) false s
  else
    let a := packet s 0x20 0 (vals.take 13)
    let b := packet s 0x21 0 (vals.drop 13)
    let s := pushPkt 1 (a ++ b) false s
    let q := s.fifo 1
    { s with fifos := setAt s.fifos 1 { q with pkts := q.pkts.dropLast ++ [a, b] } }

/-- TELEMETRY_SAMPLE: the tick of a sample has come (R456). -/
def execTelemetrySample (s : State) : Res :=
  s.doIf (s.applied && s.ang.running && s.flag FIF_TCFG_EN && passed s.now s.telAt) fun s =>
    let regs := s.telRegs
    let s := pushSample s
    let s := regs.foldl (fun s off => readDraw off s) s
    { s with telAt := (tickAt s.now + max 1 (s.get FIF_TCFG_PERIOD) * tickAu) % au48 }

end Sys2Proof.Machine
end

