-- ==== Sys2Proof/Machine/Grant.lean ====
section
/-! DEFINITION. The grants of the angle scheduler: which request of those submitted is granted, and which interval it gets (R33,
R61, R62, R65, R68, R488, R505 to R507). -/

namespace Sys2Proof.Machine

open R

/-- The share of a rank of maintenance, in percent of a head's extent time (R507). -/
def State.shareOf (s : State) (rank : Nat) : Option Nat :=
  match rank with
  | 1 => some (s.get STR_RBCFG_SHARE)
  | 2 => some (s.get CAL_CFG_SHARE)
  | 3 => some (s.get HLT_PCFG_RSHARE)
  | 5 => some (s.get HLT_PCFG_SHARE)
  | _ => none
def shareKey (rev h rank : Nat) : Nat := (rev * 4 + h) * 8 + rank
/-- Host commands are outstanding, and the rank of a request has used its share in the revolution it is for. Of a head's extent time in a
revolution the model takes the whole revolution (DESIGN CHOICE, log entry 213). -/
def State.spent (s : State) (r : Req) : Bool :=
  (s.hst.cmds.any fun c => c.qid != 0 && !c.drop) && ofHead r.ev.cls && match s.shareOf r.rank with
    | some n => n * au24 ≤ 100 * Sparse.get s.ang.share (shareKey (r.ev.target / au24) r.ev.owner r.rank)
    | none => false
/-- A grant counts in the revolution of its interval; revolutions that are over are of no further use. -/
def countShare (rank : Nat) (e : Ev) (s : State) : State :=
  if !ofHead e.cls || (s.shareOf rank).isNone then s
  else
    let k := shareKey (e.target / au24) e.owner rank
    let live := fun (x : Nat × Nat) => s.now / au24 ≤ x.1 / 32 || x.1 / 32 + 2 ^ 23 < s.now / au24
    { s with ang := { s.ang with share := Sparse.set (s.ang.share.filter live) k (Sparse.get s.ang.share k + e.len) } }

/-- The place of a request in the order of precedence (R505, R507): maintenance that has share left by rank, then host work, then
maintenance that has used its share, with read-ahead and scrub, which always yield to host work (DEDUCED, log entry 26). -/
def State.precedence (s : State) (r : Req) : Nat :=
  if r.rank == 0 then 7 else if r.rank == 4 || r.rank == 6 || s.spent r then 7 + r.rank else r.rank

/-- Between two requests for one interval the one of higher precedence wins, then the one submitted first (R33). -/
def State.beats (s : State) (a b : Req × Nat) : Bool :=
  s.precedence a.1 < s.precedence b.1 || (s.precedence a.1 == s.precedence b.1 && a.2 < b.2)

/-- No request submitted for an overlapping interval of the same resource beats this one. -/
def State.mayGrant (s : State) (r : Req) (i : Nat) : Bool :=
  (s.ang.subm.zipIdx).all fun q => q.2 == i || !q.1.ev.clash r.ev
    || !overlaps s.now (q.1.ev.target, q.1.ev.len) (r.ev.target, r.ev.len) || !s.beats q (r, i)

/-! ### The answer to a sequencer (Table 17.2) -/

/-- The next address after a word: ROM addresses count on modulo 16,384, patch addresses up to the first beyond word 255. -/
def nextPc (a : Nat) : Nat := if a < 2 ^ 14 then (a + 1) % 2 ^ 14 else a + 1

def State.seq (s : State) (q : Nat) : SeqSt := s.seqs.getD q {}
def State.setSeq (s : State) (q : Nat) (k : SeqSt → SeqSt) : State := { s with seqs := updAt s.seqs q k }

def SeqSt.reg (q : SeqSt) (i : Nat) : Nat := if i % 32 == 0 then 0 else q.regs.getD (i % 32) 0
/-- A register takes the low 24 bits of a value; r0 takes none. -/
def SeqSt.setReg (q : SeqSt) (i v : Nat) : SeqSt :=
  if i % 32 == 0 then q else { q with regs := ((List.range 32).map q.reg).set (i % 32) (v % au24) }

/-- A sequencer goes on behind the word at which it waits. -/
def resumeSeq (q : Nat) (s : State) : State :=
  let s := s.puts [(SEQ_STAT_STATE q, 1), (SEQ_STAT_PC q, nextPc (s.get (SEQ_STAT_PC q)))]
  s.setSeq q fun x => { x with wait := 0, waitQ := 0, waitDesc := [], waitRd := 0 }

/-- The answer to a WAITA: 0 on a grant, else the refusal reason, a free value that is not 0 (DESIGN CHOICE, log entry 1). -/
def answerSeq (q : Nat) (granted : Bool) (s : State) : State :=
  if 6 ≤ q || (s.seq q).wait != 3 then s
  else
    let v := if granted then 0 else 1 + Config.freeValue s.freeCtr % (au24 - 1)
    let s := if granted then s else s.drawn
    resumeSeq q (s.setSeq q fun x => x.setReg x.waitRd v)

/-- The scheduler grants a request the first free interval of its length, or gives it back (R33, R61, R67). -/
def decideReq (r : Req) (s : State) : State :=
  let u := moveEv (tickAfter s.now) r.ev s
  let granted := s.ang.returned.length == u.ang.returned.length
  let u := match u.ang.pend.getLast? with
    | some e => u.when granted (countShare r.rank e)
    | none => u
  answerSeq r.seq granted u

/-- A request is submitted (R33, R68): a full store refuses it at once, and a sequencer that waits on it learns so. -/
def ask (r : Req) (s : State) : State :=
  let full := storeMax ≤ s.stored
  let s := submitReq r s
  if full then answerSeq r.seq false s else s

/-- ANGLE_GRANT: the scheduler decides on the `idx`-th request submitted: returned while the source is FREE, left where the source does not
permit it or another request comes first, else granted the first free interval of its length. -/
def execAngleGrant (idx : Nat) (s : State) : Res :=
  s.doIf s.applied fun s =>
    match s.ang.subm[idx]? with
    | none => s
    | some r =>
      let out := { s with ang := { s.ang with subm := s.ang.subm.eraseIdx idx } }
      if s.givesBack r.ev.cls then decideReq r out
      else if !s.srcPermits r.ev.cls || !s.mayGrant r idx then s
      else decideReq r out

end Sys2Proof.Machine
end

