-- ==== Sys2Proof/Machine/AtticRead.lean ====
section
/-! DEFINITION. The Attic read of a mount: the records that the blocks read hold, their newest instances, the copies that are stale, and
their repair (R141 to R146, R550 to R552). -/

namespace Sys2Proof.Machine

open R

/-! ### What has been read -/

/-- The codeword read last at an index of a block of the Attic. -/
def State.attSlot (s : State) (p c : Nat) : Option CwOut := s.cwd.out.reverse.find? fun o => o.act == 8 && o.pba == p && o.cwix == c
/-- A codeword that was not read as written. -/
def slotFailed (o : CwOut) : Bool := tagCond o.tag == cERASED || tagCond o.tag == cLOST
/-- The WSEQ of a block's frames, where one was found. -/
def State.attSeq (s : State) (p : Nat) : Option Nat :=
  (List.range 16).findSome? fun c => (s.attSlot p c).bind fun o => if o.sync && !slotFailed o then some o.wseq else none
/-- The first `n` bytes of a block, where every codeword that holds them was read. -/
def State.attBytes (s : State) (p n : Nat) : Option (List Nat) :=
  (List.range (min 16 ((n + 4095) / 4096))).foldl (fun (r : Option (List Nat)) c =>
    match r, s.attSlot p c with
    | some b, some o => if slotFailed o then none else some (b ++ cwBytes o.x 0 4096)
    | _, _ => none) (some [])

/-- The blocks of a record from its first one on: the next `n` of its area whose frames carry its SEQ. -/
def State.attSpan (s : State) (copy seq : Nat) : Nat → Nat → Nat → List Nat
  | 0, _, _ => []
  | _, 0, _ => []
  | fuel + 1, n + 1, a =>
    let next := if a + 1 == atticBlocks then atticFirst else a + 1
    if s.attSeq (atticPba copy a) == some seq then a :: s.attSpan copy seq fuel n next else s.attSpan copy seq fuel (n + 1) next

/-- The record that begins at a block of a copy, with its body: it is valid where HCRC and RCRC pass. -/
def State.attRecord (s : State) (copy a : Nat) : Option (AttRec × List Nat) :=
  match (s.attBytes (atticPba copy a) 0x20).bind atticRead with
  | none => none
  | some (type, seq, len, _, inst) =>
    let n := atticCount len
    let blks := s.attSpan copy seq atticBlocks n a
    let size := 0x24 + len
    let b := blks.zipIdx.foldl (fun (r : Option (List Nat)) x =>
      match r, s.attBytes (atticPba copy x.1) (min 65536 (size - 65536 * x.2)) with
      | some b, some c => some (b ++ c)
      | _, _ => none) (some [])
    let ok := blks.length == n && b.any fun b => atticCheck b len
    some ({ copy, type, inst, seq, blks, ok }, ((b.getD []).drop 0x20).take len)

/-- The records that begin in blocks `lo` to `hi` − 1 of copies. A TYPE or INST that has no meaning is ignored (R143). -/
def State.attFound (s : State) (copies : List Nat) (lo hi : Nat) : List (AttRec × List Nat) :=
  copies.flatMap fun c => (((List.range hi).drop lo).filterMap (s.attRecord c)).filter fun r => atticInst r.1.type r.1.inst
/-- The rewritable records of copies. -/
def State.attRecords (s : State) (copies : List Nat) : List (AttRec × List Nat) :=
  (s.attFound copies atticFirst atticBlocks).filter fun r => r.1.type < atMEDIUM
/-- The valid records of the factory area of copies. -/
def State.attFactory (s : State) (copies : List Nat) : List (AttRec × List Nat) :=
  (s.attFound copies 0 atticFirst).filter fun r => atMEDIUM ≤ r.1.type && r.1.ok

/-- A copy yields the MEDIUM record and the PDEFECT records of its side's layers (R146). -/
def State.factoryOk (s : State) (copy : Nat) : Bool :=
  let l := s.attFactory [copy]
  let has := fun t i => l.any fun r => r.1.type == t && r.1.inst == i
  has atMEDIUM 0 && (List.range 24).all fun i => has atPDEFECT (24 * attSide copy + i)

/-- A primary copy shows a failure (R551). -/
def State.primaryFails (s : State) (copy : Nat) : Bool :=
  ((s.attRecords [copy]).any fun r => !r.1.ok)
    || s.cwd.out.any fun o => o.act == 8 && o.sync && slotFailed o && atticCopy o.pba == some copy && pbaAttic o.pba
      && atticFirst ≤ atticIndex o.pba && (s.attSlot o.pba o.cwix).any slotFailed

/-! ### The newest records (R144, R146) -/

/-- The newest valid instance of each type and instance, as the Attic keeps it. -/
def newestOf (l : List (AttRec × List Nat)) : List (Nat × Nat × Nat × List Nat) :=
  let ok := l.filter fun r => r.1.ok
  ((ok.map fun r => (r.1.type, r.1.inst)).eraseDups).filterMap fun k =>
    (ok.filter fun r => (r.1.type, r.1.inst) == k).foldl (fun (b : Option (Nat × Nat × Nat × List Nat)) r =>
      match b with
      | none => some (k.1, k.2, r.1.seq, r.2)
      | some x => if x.2.2.1 < r.1.seq then some (k.1, k.2, r.1.seq, r.2) else some x) none

/-- Where a copy is appended to: behind the last block of its record with the highest SEQ (R145). -/
def writePoint (copy : Nat) (l : List AttRec) : Nat :=
  let top := (l.filter fun r => r.copy == copy).foldl (fun (b : Option AttRec) r =>
    match b with
    | none => some r
    | some x => if x.seq < r.seq then some r else some x) none
  match top.bind fun r => r.blks.getLast? with
  | none => atticFirst
  | some a => if a + 1 == atticBlocks then atticFirst else a + 1

/-- What has been read of copies is taken over: their records, their write points, the highest SEQ. What the read gave is done with. -/
def takeRecords (copies : List Nat) (l : List (AttRec × List Nat)) (s : State) : State :=
  let recs := l.map Prod.fst
  let s := s.setAtt fun a => { a with
    recs := (a.recs.filter fun r => !recs.contains r) ++ recs
    read := (a.read ++ copies).eraseDups
    wp := copies.foldl (fun w c => setAt w c (writePoint c (recs ++ a.recs.filter fun r => r.copy == c))) a.wp }
  { s with
    str := { s.str with atSeq := recs.foldl (fun m r => max m r.seq) s.str.atSeq }
    cwd := { s.cwd with out := s.cwd.out.filter fun o => o.act != 8 } }

/-- Nothing that an Attic read has asked for is still on its way. -/
def State.attReadDone (s : State) : Bool :=
  !(s.wins.any fun w => w.act == 8) && !(s.cwd.expect.any fun e => e.act == 8)
    && !(s.cwd.queue.any fun i => i.act == 8) && !(s.cwd.busy.any fun b => b.any fun i => i.1.act == 8)

/-! ### What the records say -/

/-- The adopted records of a mount, read: the factory SAZ and defects, VOLUME, the namespaces, defects, LEDGER, the checkpoints' CKWSEQ,
zones and directories, CALIB. -/
structure AtticIn where
  fac : List Nat
  pdef : List Nat
  vol : Option VolRec
  ns : List Ns
  gdef : List Defect
  ledger : List LedgerRec
  ckw : List (Nat × Nat)
  zones : List CkptZone
  dir : List (Nat × Nat × Nat)
  calib : List CalBody
  deriving DecidableEq, Repr

/-- The body of the newest record of a type and instance. -/
def bodyOf (l : List (Nat × Nat × Nat × List Nat)) (type inst : Nat) : Option (List Nat) :=
  (l.find? fun r => r.1 == type && r.2.1 == inst).map fun r => r.2.2.2

/-- The records of a mount. The MEDIUM record comes from the lowest copy that yields it. -/
def State.readAttic (s : State) (newest : List (Nat × Nat × Nat × List Nat)) : AtticIn :=
  let fac := s.attFactory (List.range 6)
  let med := (fac.find? fun r => r.1.type == atMEDIUM).map Prod.snd
  let layers := List.range 48
  let body := bodyOf newest
  let pd := layers.filterMap fun l => (fac.find? fun r => r.1.type == atPDEFECT && r.1.inst == l).map Prod.snd
  let ns := match body atNAMESPACES 0 with
    | some b => if (body atVOLUME 0).isSome then nsRead b else []
    | none => []
  let ck := ns.filterMap fun n => (body (if n.zoned then atZONECKPT else atMAPCKPT) n.nsid).map fun b => (n, b)
  { fac := layers.map fun l => ((med.map fun b => mediumSaz b l)).getD 0
    pdef := pd.flatMap fun b => (defectsRead b).map Defect.pba
    vol := (body atVOLUME 0).map volRead
    ns
    gdef := layers.flatMap fun l => ((body atGDEFECT l).map defectsRead).getD []
    ledger := layers.filterMap fun l => (body atLEDGER l).map (ledgerRead l)
    ckw := ck.map fun x => (x.1.nsid, leAt x.2 0 8)
    zones := ck.flatMap fun x => ckptZones x.1.nsid x.1.zoned x.2
    dir := ck.flatMap fun x => if x.1.zoned then [] else (ckptDir x.2).map fun g => (x.1.nsid, g)
    calib := layers.filterMap fun l => (body atCALIB l).map (calRead l) }

end Sys2Proof.Machine
end

