-- ==== Sys2Proof/Machine/Mount.lean ====
section
/-! DEFINITION. The mount sequence and the Unmount sequence (R136, R146, R147, R303 to R305, R319 to R323, R331, R332, R341 to R344,
R366, R390, R397, R405, R549 to R552, R556). -/

namespace Sys2Proof.Machine

open R

/-! ### The medium information block (R135, R136) -/

/-- The block that the MINFO words of a side have given, where every word has been read. -/
def State.minfoBlock (s : State) (side : Nat) : Option (List Nat) :=
  let w := (List.range 64).map fun i => Sparse.get s.mnt.minfo (64 * side + i)
  if w.all (· != 0) then some (w.map (· - 1)) else none

/-- A block passes: its CRC-32C, MAGIC, FORMAT 0x0001, 24 layers per side and 2 sides. -/
def minfoOk (w : List Nat) : Bool :=
  w.length == 64 && crc32c ((w.take 63).flatMap (beBytes 4)) == w.getD 63 0 && w.getD 0 0 == 0x464F4C45 && w.getD 1 0 == 0x00011802

/-- The block is adopted: SYS_MINFO, SYS_MEDIUM, and the presets of the measured depths (R147, R196). -/
def takeMinfo (b : List Nat) (s : State) : State :=
  let s := forUpTo 64 (fun i s => s.put (SYS_MINFO_WORD i) (b.getD i 0)) s
  let s := s.puts [(SYS_MEDIUM_FMT, 1), (SYS_MEDIUM_MINFO_OK, 1), (SYS_MEDIUM_FOLEO, 1), (SYS_MEDIUM_VALID, 1)]
  setPresets (fun l => b.getD (5 + l) 0 / 65536) s

/-- A side has had its 8 revolutions since the first focus on it. -/
def State.minfoLate (s : State) (side : Nat) : Bool :=
  ((s.mnt.focusAt.getD side none).any fun t => passed s.now (t + 8 * au24))
/-- What the blocks of the two sides say: none as long as a side has not yielded one in its time, else the block of both, or the
failure. -/
def State.minfoEnd (s : State) : Option (Option (List Nat)) :=
  let ok := fun d => (s.minfoBlock d).filter minfoOk
  match ok 0, ok 1 with
  | some a, some b => some (if a == b then some a else none)
  | a, b => if (a.isNone && s.minfoLate 0) || (b.isNone && s.minfoLate 1) then some none else none

/-! ### The Cellar's logs at mount (R320, R321, R323, R344) -/

/-- The records of a circular log, oldest first: those beyond the write point, then those below it. -/
def Cel.logRecs (c : Cel) (r : Nat × Nat) : List (Nat × Nat × List Nat) :=
  let ws := (c.words.map Prod.fst).filter fun w => inRegion r (celSector w)
  let p := (c.writePoint r).getD 0
  ((ws.filter fun w => p ≤ w) ++ ws.filter fun w => w < p).filterMap fun w => if c.stateCode w == 0 then logRead (c.data w) else none

/-- A Journal record: TYPE, ARG, VAL. -/
def journal (c : Cel) : List (Nat × Nat × Nat) :=
  (c.logRecs sectJOURNAL).map fun r => (r.1, leNat (r.2.2.take 4), leNat ((r.2.2.drop 4).take 8))

/-- What the Journal says of a cartridge: a MOUNT without an UNMOUNT after it, its dirty zones, its latest WRES limit. -/
def journalOf (c : Cel) (serial : Nat) : Bool × List Nat × Nat :=
  ((journal c).foldl (fun (r : Bool × Bool × List Nat × Nat) e =>
    let mine := if e.1 == 1 then e.2.2 == serial else r.1
    if !mine then (mine, r.2)
    else
      match e.1 with
      | 1 => (true, true, r.2.2)
      | 2 => (true, r.2.1, r.2.2.1.filter (· != e.2.1) ++ [e.2.1], r.2.2.2)
      | 3 => (true, r.2.1, r.2.2.1.filter (· != e.2.1), r.2.2.2)
      | 4 => (true, r.2.1, r.2.2.1, e.2.2)
      | 5 => (true, false, [], r.2.2.2)
      | _ => (true, r.2)) (false, false, [], 0)).2

/-- What the Ledger says of a cartridge: whether it holds a MOUNT for it, whether a CLOSE follows the latest one, and the DELTA
values after the last BASE, as region key and value. -/
def ledgerOf (c : Cel) (serial : Nat) : Bool × Bool × List (Nat × Nat) :=
  ((c.logRecs sectLEDGER).foldl (fun (r : Bool × Bool × Bool × List (Nat × Nat)) e =>
    let mine := if e.1 == 1 then leNat ((e.2.2.drop 4).take 8) == serial else r.1
    if !mine then (mine, r.2)
    else
      let ent := fun i =>
        let b := (e.2.2.drop (6 * i)).take 6
        (b.getD 0 0 * 8192 + leNat ((b.drop 1).take 2), leNat ((b.drop 3).take 2))
      match e.1 with
      | 1 => (true, true, false, r.2.2.2)
      | 2 => (true, r.2.1, r.2.2.1, r.2.2.2 ++ (List.range e.2.1).map ent)
      | 3 => (true, r.2.1, r.2.2.1, [])
      | 4 => (true, r.2.1, true, r.2.2.2)
      | _ => (true, r.2)) (false, false, false, [])).2

/-! ### COUNT at mount (R344, Table 13.3) -/

/-- The row of Table 13.3 for layers with a LEDGER record. -/
def ledgerCase (a : AtticIn) (l : Bool × Bool × List (Nat × Nat)) : Nat :=
  if a.ledger.isEmpty then 3
  else if l.1 && !l.2.1 then 1
  else if a.ledger.all fun r => r.closed then 0
  else 2

def roundUp (v step : Nat) : Nat := if step == 0 then v else (v + step - 1) / step * step

/-- COUNT of a layer's regions by the case. -/
def loadCounts (cs foreign : Nat) (deltas : List (Nat × Nat)) (a : AtticIn) (layer : Nat) : List (Nat × Nat) :=
  match a.ledger.find? fun r => r.layer == layer with
  | none => if a.vol.isSome then (List.range (layerRegions layer)).map fun r => (8192 * layer + r, foreign) else []
  | some rec =>
    let base := rec.counts.map fun c => (8192 * layer + c.1, c.2)
    match cs with
    | 0 => base
    | 1 =>
      let mine := deltas.filter fun d => d.1 / 8192 == layer
      let keys := (base.map Prod.fst ++ mine.map Prod.fst).eraseDups
      keys.map fun k => (k, roundUp (((base ++ mine).filter fun e => e.1 == k).foldl (fun m e => max m e.2) 0) rec.step)
    | _ => (List.range (layerRegions layer)).map fun r =>
      let v := ((rec.counts.find? fun c => c.1 == r).map Prod.snd).getD 0
      (8192 * layer + r, roundUp v rec.step + foreign)

/-- The first block of a region. -/
def regionFirst (key : Nat) : Nat :=
  let layer := key / 8192
  let r := key % 8192
  if regionsBefore 32 ≤ r then pba layer 0 ((r - regionsBefore 32) / 18) (256 * ((r - regionsBefore 32) % 18)) true
  else
    let b := ((List.range 32).filter fun b => regionsBefore b ≤ r).length - 1
    let d := r - regionsBefore b
    let i := d % (dataRegions b + 1)
    pba layer b (d / (dataRegions b + 1)) (if i == dataRegions b then dataBlocks b else 256 * i) false

/-- How far below its first place a track's OPC block lies: one where its region is retired, and one for each defect of the
factory next below (R296). -/
def opcPlaces (h : Hlt) : Sparse :=
  (h.retired.map regionFirst).filter isOpcBlock |>.foldl (fun m p =>
    let track := (pbaLayer p * 32 + pbaBand p) * 6 + pbaTrack p
    let more := ((List.range 256).map fun i => p - 16 * (i + 1)).takeWhile h.pdef.contains
    Sparse.set m track (1 + more.length)) []

/-- The health tables are loaded from the Attic and the Ledger (R341, R344, R349). -/
def loadHealth (a : AtticIn) (s : State) : State :=
  let l := ledgerOf s.cel s.serial
  let cs := ledgerCase a l
  let foreign := s.get HLT_WCFG2_FOREIGN
  let counts := (List.range 48).flatMap (loadCounts cs foreign l.2.2 a)
  let gdef := a.gdef
  let count := counts.foldl (fun m e => Sparse.set m e.1 (min e.2 16383)) []
  let kept := a.ledger.flatMap fun r => r.retired.map fun k => 8192 * r.layer + k
  let byEntry := (gdef.filter fun d => d.kind == 2).map fun d => regionKey d.pba
  let age := a.ledger.foldl (fun m r => max m r.age) 0
  let failed := ((gdef.filter fun (d : Defect) => d.kind == 4).map fun (d : Defect) => pbaLayer d.pba).eraseDups
  let s := { s with hlt := {
    count, gdef, retired := (kept ++ byEntry).eraseDups, pdef := a.pdef, age, startAge := age, lapAge := age
    failedLayers := failed } }
  let s := s.setHlt fun h => { h with opcDown := opcPlaces h }
  let s := s.puts [(HLT_LEDG_CASE, cs), (HLT_REFQ_LEN, 0), (HLT_AGE_HOURS, min (age / 3600) HLT_AGE_HOURS.max),
    (HLT_STAT_WARN, (count.any fun e => s.get HLT_WCFG2_WARN ≤ e.2).toNat), (HLT_STAT_DUE, 0)]
  let s := forUpTo 48 (fun k s => s.put (HLT_LSTAT_MARGIN k) 0xFF) s
  let worn := count.filter fun e => s.get HLT_WCFG_RETIRE ≤ e.2 && !s.hlt.retired.contains e.1
  syncHealth (worn.foldl (fun s e => retireRegion (regionFirst e.1) s) s)

/-! ### The volume (R303 to R305, R321, R323) -/

/-- A zone of a checkpoint: its place in the volume's zones. WP counts codewords, sixteen to a unit. -/
def zoneOfCkpt (dm : Nat) (zoned : Bool) (c : CkptZone) : VZone :=
  if zoned then
    let units := (c.pos + 15) / 16
    { z := c.zone, owner := c.nsid, st := if dm * 1024 ≤ units then 2 else 1, fill := units / dm, part := units % dm }
  else { z := c.zone, owner := c.nsid, st := c.st, fill := c.pos }

/-- A zone of a zoned namespace as its checkpoint gives it. -/
def zoneStOf (n : Ns) (c : CkptZone) : Option ZoneSt :=
  (n.zones.findIdx? (· == c.zone)).map fun i =>
    { nsid := n.nsid, idx := i, st := c.st, wp := c.pos * 4096 / n.lba, swp := c.pos * 4096 / n.lba }

/-- The fill of a system zone, which no record holds: behind the last stripe that a directory refers to (DESIGN CHOICE, log entry
183). -/
def systemZone (dir : List (Nat × Nat × Nat)) (z : Nat) : VZone :=
  let fill := dir.foldl (fun m g => if g.2.2 != 0 && (g.2.2 - 1) % 2 ^ 32 / 1024 == z then max m ((g.2.2 - 1) % 1024 + 1) else m) 0
  { z, owner := 0xFF, st := if fill == 1024 then 2 else 1, fill }

/-- The volume is loaded, or none is there (R146). The zones of the scan set are those of R323. -/
def loadVolume (a : AtticIn) (s : State) : State :=
  let j := journalOf s.cel s.serial
  let isZoned := fun id => a.ns.any fun n => n.nsid == id && n.zoned
  let seq := s.str.atSeq
  match a.vol with
  | none =>
    let s := s.puts [(STR_STAT_FORMATTED, 0), (STR_GEOM_WIDTH, 0), (STR_GEOM_PARITY, 0), (STR_GEOM_SPARE, 0), (STR_CHUNKS_N, 0),
      (STR_CHUNKS_D, 0), (STR_ZONES_Z, 0), (STR_SEED_LO_SEED, 0), (STR_SEED_HI_SEED, 0)]
    { s with
      str := { wseq := j.2.2 + 1, wres := j.2.2, atSeq := seq }
      mnt := { calib := a.calib } }
  | some v =>
    let s := putVolume v.width v.parity v.spare (v.seed % 2 ^ 32) (v.seed / 2 ^ 32) s
    let zs := (a.zones.map fun c => zoneOfCkpt (v.width - v.parity) (isZoned c.nsid) c).filter fun z => z.st != 0
    let active := (zs.filter fun z => z.st == 1).map VZone.z
    let top := a.ckw.foldl (fun m c => max m c.2) 0
    let dir := a.dir.foldl (fun m g => Sparse.set m (mapKey g.1 g.2.1) g.2.2) []
    let scan := if v.clean then [] else if j.1 then j.2.1 else active
    let system := ((List.range sysZones).map (systemZone a.dir)).filter fun z => 0 < z.fill
    { s with
      str := {
        wseq := max (max j.2.2 (top + 65535)) v.wseq0 + 1, wseq0 := v.wseq0, wres := j.2.2, atSeq := seq, clean := v.clean, dirty := j.2.1
        zones := zs ++ system, ckActive := active, dir, dirDur := dir }
      mnt := {
        ns := a.ns, ckw := a.ckw, calib := a.calib, pages := a.dir.map fun g => (g.1, g.2.1)
        zones := a.zones.filterMap fun c => (a.ns.find? fun n => n.nsid == c.nsid && n.zoned).bind fun n => zoneStOf n c
        scan := scan.filter fun z => zs.any fun v => v.z == z && v.fill < 1024 }
      hst := { s.hst with unsafeDown := s.hst.unsafeDown + (!v.clean).toNat } }

/-- What the read has found in copies is adopted; resynchronisation begins, after the Journal's MOUNT record (R320, R549 steps 4 to 6). -/
def adoptAttic (copies : List Nat) (s : State) : State :=
  let found := s.attRecords copies
  let newest := newestOf found
  let a := s.readAttic newest
  let s := takeRecords copies found (s.setAtt fun x => { x with newest })
  let s := { s with hst := { s.hst with volClean := a.vol.any VolRec.clean, resyncRan := false } }
  let s := { s with wrs := s.wrs.map fun w => { w with spanN := 0, spans := [] } }
  let s := loadVolume a s
  let s := s.setCal fun c => { c with fac := a.fac.zipIdx.foldl (fun m p => Sparse.set m p.2 p.1) [] }
  let s := syncOpen (syncDirty (loadHealth a s))
  let s := s.puts [(SYS_MEDIUM_FORMATTED, a.vol.isSome.toNat), (SYS_MEDIUM_ATTSTALE, maskOf (copies.filter s.attStale)),
    (STR_RESYNC_FWD, 0), (STR_RESYNC_BACK, 0), (STR_RB_PEND, 0),
    (STR_STAT_DEGRADED, 0), (MAP_STAT_PHASE, 1), (MAP_STAT_NSID, 0), (MAP_PROG_LOADED, 0)]
  askScan (appendJournal 1 0 s.serial ((s.putB STR_STAT_RESYNC (!s.mnt.scan.isEmpty)).put SYS_MNTPROG_STEP 6))

/-- ATTIC_PART1_DONE: in step 4 the factory areas and the primary copies have been read; a failure of a primary extends the read to step 5,
where the other copies are read too (R550, R551). A side without a valid factory area fails the mount (R146). Slots that no read has given
count as unwritten. -/
def execAtticPart1Done (s : State) : Res :=
  let step := s.get SYS_MNTPROG_STEP
  s.doIf (s.inLife [MOUNTING] && (step == 4 || step == 5) && s.attReadDone) fun s =>
    let ok := (List.range 6).map s.factoryOk
    let bad := s.primaryFails 0 || s.primaryFails 3
    let s := s.puts [(SYS_MEDIUM_ATTOK, maskOf ((List.range 6).filter fun c => ok.getD c false)),
      (SYS_MNTPROG_ATTPEND, if step == 4 then 0x36 else 0)]
    if !((ok.take 3).any id) || !((ok.drop 3).any id) then mountFails 0x13 s
    else if step == 4 && bad then s.put SYS_MNTPROG_STEP 5
    else adoptAttic (if step == 4 then [0, 3] else List.range 6) s

/-- ATTIC_PART2_DONE: after MOUNTED the other copies have been read: those that are stale are repaired by refresh writes (R146, R552). -/
def execAtticPart2Done (s : State) : Res :=
  s.doIf (s.inLife [MOUNTED] && s.attReadDone) fun s =>
    let copies := (List.range 6).filter fun c => s.bit SYS_MNTPROG_ATTPEND c
    let s := takeRecords copies (s.attRecords copies) (s.put SYS_MNTPROG_ATTPEND 0)
    let s := s.put SYS_MEDIUM_ATTSTALE (Nat.lor (s.get SYS_MEDIUM_ATTSTALE) (maskOf (copies.filter s.attStale)))
    repairCopies copies s

/-- RESYNC_DONE: every stripe of the scan set is resolved, and what that wrote has committed (R323). -/
def execResyncDone (s : State) : Res :=
  s.doIf (s.inLife [MOUNTING] && s.get SYS_MNTPROG_STEP == 6 && s.flag STR_STAT_RESYNC && s.mnt.at'.isNone
    && s.str.stripes.isEmpty) fun s =>
    { s.put STR_STAT_RESYNC 0 with hst := { s.hst with resyncRan := true } }

/-! ### The steps of a mount (R549) -/

/-- Step 8 ends: the namespace list is in force, MOUNTED with cause 0x11, the Mount completes (R390, R397, R405); stale copies are repaired
(R146), and the map pages are loaded in the background (R332). -/
def finishMount (s : State) : State :=
  let port := (s.hst.long.map LongCmd.port).getD s.hst.mountPort
  let seen := ((s.hst.ns ++ s.mnt.ns).map Ns.nsid).eraseDups
  let s := { s with
    hst := { s.hst with ns := s.mnt.ns, zones := s.mnt.zones }
    str := { s.str with pagesLeft := s.mnt.pages }
    mnt := {} }
  let s := repairCopies s.att.read s
  let s := forUpTo 64 (fun i s => s.puts [(HST_NSCUST_CUST (i + 1), if (s.nsOf (i + 1)).isSome then port + 1 else 0),
    (HST_NSCUST_SWAP (i + 1), 0)]) { s with hst := { s.hst with swaps := [] } }
  let s := s.puts [(SYS_MNTPROG_STEP, 9), (MAP_TOTAL_PAGES, s.str.pagesLeft.length), (MAP_STAT_PHASE, 2)]
  let s := s.when (s.str.wres < s.str.wseq + 16384) (appendJournal 4 0 (s.str.wres + 65536))
  let s := lookSanitize (restartLap (formEffective (syncMapPhase (transition MOUNTED 0x11 s))))
  askNextPage (endMount scSuccess (seen.foldl (fun s n => nsChanged n s) s))

/-- MOUNT_STEP_DONE: a step ends and the next begins (R549). Step 3 ends with the medium information blocks of the two sides (R136), step 8
once copies 0 and 3 of the CALIB records written have verified (R371). -/
def execMountStepDone (s : State) : Res :=
  s.doIf (s.inLife [MOUNTING]) fun s =>
    match s.get SYS_MNTPROG_STEP with
    | 1 =>
      if s.spnPhase != pRUN then s
      else
        let s := clearCal (s.put SYS_MNTPROG_STEP 2)
        staggerNext { s with sys := { s.sys with stagLeft := (List.range 4).filter s.effective } }
    | 2 => if s.sys.stagLeft.isEmpty then s.put SYS_MNTPROG_STEP 3 else s
    | 3 =>
      match s.minfoEnd with
      | some (some a) => (takeMinfo a s).put SYS_MNTPROG_STEP 4
      | some none => mountFails 0x12 s
      | none => s
    | 6 => if s.flag STR_STAT_RESYNC then s else loadCalib s.mnt.calib (s.put SYS_MNTPROG_STEP 7)
    | 7 => if s.cal.reqs.any fun r => r.mount then s else s.put SYS_MNTPROG_STEP 8
    | 8 => if s.atticPending then s else finishMount s
    | _ => s

/-- MOUNT_FAILURE: a step finds a failure: 0x12 in step 3, 0x13 in step 4 or 5, 0x14 where a side has no usable head (R549). -/
def execMountFailure (cause : Fin 3) (s : State) : Res :=
  let step := s.get SYS_MNTPROG_STEP
  let side := fun (l : List Nat) => l.all fun c => !s.factoryOk c
  let found := match cause.val with
    | 0 => step == 3 && s.minfoEnd == some none
    | 1 => (step == 4 || step == 5) && s.attReadDone && (side [0, 1, 2] || side [3, 4, 5])
    | _ => !(s.sideUsable 0 && s.sideUsable 1)
  s.doIf (s.inLife [MOUNTING] && found) (mountFails (0x12 + cause.val))

/-! ### Unmount (R322, R342, R343, R371, R556) -/

def nextStage (s : State) : State := { s with mnt := { s.mnt with stage := s.mnt.stage + 1 } }

/-- Step 0xB of an Unmount, part by part: the checkpoints, the CALIB records that differ and the closed LEDGER records; then VOLUME with
CLEAN 1; then the UNMOUNT record, BASE and CLOSE (R322, R342, R343, R371). -/
def unmountRecords (s : State) : State :=
  if s.atticPending || s.str.ckpt.isSome then s
  else
    match s.mnt.stage with
    | 0 =>
      let s := (checkpoint s).setHlt fun h => { h with changed := [] }
      let s := s.cal.gained.foldl (fun s k => noteBody (k / 48) (k % 48) s) s
      let s := s.cal.dirty.foldl (fun s l => recordCalib l s) s
      nextStage (forUpTo 48 (fun l s => atticWrite atLEDGER l (s.ledgerBody l true) .nothing s) s)
    | 1 => nextStage (s.when (s.flag STR_STAT_FORMATTED) fun s => writeVolume .nothing (s.setStr fun x => { x with clean := true }))
    | 2 => nextStage (appendLedger 4 0 [] (appendLedger 3 0 [] (appendJournal 5 0 s.serial s)))
    | _ => s

/-- UNMOUNT_STEP_DONE: a step of an Unmount ends and the next begins; after the last the state is PRIMED (R556). -/
def execUnmountStepDone (s : State) : Res :=
  s.doIf (s.inLife [PARKING]) fun s =>
    match s.get SYS_MNTPROG_STEP with
    | 0xA =>
      if s.str.stripes.isEmpty && s.str.gather.isEmpty then
        (s.setHlt fun h => { h with refresh := [], refWant := [], refData := [] }).puts [(HLT_REFQ_LEN, 0), (SYS_MNTPROG_STEP, 0xB)]
      else s
    | 0xB =>
      if s.mnt.stage == 3 && !(s.cel.ops.any fun o => o.client == 1 || o.client == 2) then
        parkAll (retractHeads (endMedium (s.put SYS_MNTPROG_STEP 0xC)))
      else unmountRecords s
    | 0xC => if s.parked then parkDone s else s
    | _ => s

end Sys2Proof.Machine
end

