-- ==== Sys2Proof/Machine/Servo.lean ====
section
/-! DEFINITION. The control engine's commands: the servo sample, supervisor reports, matrix units, speed bands
(R173 to R190, R208 to R212, R234, R254). -/

namespace Sys2Proof.Machine

open R

/-! ### Inputs -/

def sampleHead (i : SampleIn) (h : Nat) : Option HeadIn := i.heads.find? fun x => x.head.val == h
/-- A converter code of a head; 0 where the sample shows none. -/
def svi (i : SampleIn) (h k : Nat) : Int :=
  match sampleHead i h with
  | some x => (x.svi.getD k 0).toInt
  | none => 0
def svFE := 0
def svSUM := 1
def svTEPP := 2
def svTEOUT := 3
def svLPMON := 6
def svLPOS := 7

/-- The measured speed: from ANG under MARK and WOBBLE, else from the observer (R234). -/
def measureSpeed (i : SampleIn) (s : State) : State :=
  if srcMARK ≤ s.src then
    s.puts [(SPN_MEAS_RPM, s.get ANG_SPEED_RATE * 60000000000 * 16 / (65536 * au24)), (SPN_MEAS_FROMANG, 1)]
  else s.puts [(SPN_MEAS_RPM, min i.rpm SPN_MEAS_RPM.max), (SPN_MEAS_FROMANG, 0)]

/-- The rates of the observer and of the loop filter, which the increment follows under COARSE and WOBBLE (R63). -/
def measureRates (i : SampleIn) (s : State) : State :=
  let s := { s with ang := { s.ang with obsRate := i.rate.toNat, wobRate := i.wobRate.toNat } }
  s.when (s.src == srcCOARSE || s.src == srcWOBBLE) syncRate

/-- The samples for which the speed has stayed within 0.1% of its target (R69). -/
def countSettled (s : State) : State :=
  let t := 16 * s.get SPN_TGT_TARGET
  let m := s.get SPN_MEAS_RPM
  { s with spn := { s.spn with settleN := if 1000 * (max m t - min m t) ≤ t then s.spn.settleN + 1 else 0 } }

/-- The speed error in 0.25 rpm, saturated (Table 9.2). -/
def State.speedError (s : State) : Int :=
  (satTo (-32768) 32767 (rneDiv ((s.get SPN_TGT_REF * 16 : Int) - s.get SPN_MEAS_RPM) 4)).1

/-- The code of input `k` of a loop (Table 7.3). -/
def loopIn (i : SampleIn) (s : State) (l k : Nat) : Int :=
  let src := (s.loopDesc l).insrc / 16 ^ k % 16
  if l == 16 then (if src == 8 then s.speedError else i.iq.toInt) else svi i (l / 4) src

/-! ### Owner changes and units (R174, R175, R185 to R187) -/

/-- A state set by the owner takes effect (R174): x̂p clears from OFF to OPEN or RUN, the supervisor's counts clear. -/
def applyOwner (l : Nat) (s : State) : State :=
  let t := (s.loop l).setTo
  if t == 5 then s
  else
    let fresh := s.loopState l == lOFF && (t == lOPEN || t == lRUN)
    let s := s.puts [(SRV_LSTAT_STATE l, t), (SRV_LSTAT_OOB l, 0)]
    s.setLoop l fun x => { x with
      setTo := 5, heldN := 0
      xp := if fresh then [] else x.xp
      satPrev := if fresh then false else x.satPrev }

def State.unitIn (s : State) (u : Nat) : Bool := s.bit SRV_UNIT_INSVC u
/-- The unit that runs a loop: HOME while it is in service, else ALT (R185). -/
def loopUnit (s : State) (l : Nat) : Nat := if s.unitIn (s.loopDesc l).home then (s.loopDesc l).home else (s.loopDesc l).alt
def placeLoops (s : State) : State := forUpTo 17 (fun l s => s.put (SRV_LSTAT_UNIT l) (loopUnit s l)) s

/-- Units that an accepted OFFLINE powers down at this tick: the action completes (R187). A bypass of a unit is complete
with the first sample on the ALT units (Table 20.3). -/
def moveUnits (s : State) : State :=
  let l := s.srv.moveNext
  let s := l.foldl (fun s u => logFlt 4 kINFO 0x05 u [1] s) { s with srv := { s.srv with moveNext := [] } }
  placeLoops (forUpTo 4 (closeBypass 4) s)

/-- A matrix unit fails (R186): out of service, its entry; uncovered where it has no spare or another unit is offline. -/
def unitFails (f : UnitFault) (s : State) : State :=
  let u := f.unit.val
  let arg := if f.overrun then 2 else 1
  let covered := s.bit SRV_UNIT_SPAREOK u && s.get SRV_UNIT_OFFLINE == 0
  let kind := s.coveredKind
  let s := ((s.setBit SRV_UNIT_INSVC u false).setBit SRV_UNIT_FAULT u true).setBit SRV_UNIT_OFFLINE u true
  if covered then logFlt 4 kind 0x04 u [arg] (openBypass 4 u s)
  else safeStop 0x34 (0x40 + 4) 0x04 u ((logFlt 4 kSTOP 0x04 u [arg] s).inc FLT_STAT_UNCOV)

/-! ### One loop (R173, R181, R191) -/

def State.paletteSlot (s : State) (l : Nat) : Nat :=
  let b := s.get SRV_SPB_BAND
  s.get (if b == 0 then SRV_ACT_SLOT0 l else if b == 1 then SRV_ACT_SLOT1 l else SRV_ACT_SLOT2 l)
/-- A coefficient word of the loop's Palette. -/
def State.coef (s : State) (l i : Nat) : Int :=
  toSigned 24 (s.get (SRV_PAL_COEF (s.get (SRV_PALDIR_BASE (s.paletteSlot l)) + i)))

/-- The outputs of a loop reach the DACs that its descriptor names: ACT4n to ACT4n + 3 of head n (R156, Table 7.2). -/
def toDacs (l : Nat) (s : State) : State :=
  let d := s.loopDesc l
  if l == 16 then s
  else forUpTo d.nout (fun k s =>
    let c := d.outdst / 16 ^ k % 16
    if c < 4 then { s with srv := { s.srv with dac := s.srv.dac.set (4 * (l / 4) + c) (s.getI (SRV_OUT_CODE l k)) } } else s) s

/-- A loop that is OFF gives code 0 on every output; focus is retracted by its switch (Table 7.1). -/
def loopOffSample (l : Nat) (s : State) : State :=
  toDacs l (forUpTo 4 (fun k s => s.put (SRV_OUT_CODE l k) 0) (s.setLoop l fun x => { x with satPrev := false }))

/-- One sample of one loop; its reports are those of Table 7.5. The torque command of loop 16 goes to SPN, clamped to
IQMAX (Table 9.2). -/
def runLoop (i : SampleIn) (l : Nat) (s : State) : State :=
  let st := s.loopState l
  if st == lOFF then loopOffSample l s
  else if st == lFAIL then s
  else
    let d := s.loopDesc l
    let x := s.loop l
    let free := (List.range 4).map fun k => toSigned 24 (Config.freeValue (s.freeCtr + 4 * l + k))
    let ovr := if x.ovr == 1 then none else some (if x.ovr == 2 then free else x.override)
    let land := l % 4 == 1 && l < 16 && s.flag (SRV_HSTAT_LAND (l / 4))
    let r := loopSample d (s.coef l) ((List.range 4).map (loopIn i s l)) ((List.range 4).map fun k => s.getI (SRV_REF_REF l k))
      land ovr st (s.get (SRV_LSTAT_OOB l)) x.heldN x.satPrev x.xp
    let s := forUpTo d.nin (fun k s => s.putI (SRV_INNOV_E l k) (r.e.getD k 0)) s
    let s := if r.code.isEmpty then s else toDacs l (forUpTo d.nout (fun k s => s.putI (SRV_OUT_CODE l k) (r.code.getD k 0)) s)
    let s := s.when r.sat fun s => (s.put (SRV_LSTAT_SAT l) 1).inc (SRV_ARITH_SATN l)
    let s := s.when r.lost fun s => (s.put (SRV_LSTAT_LOST l) 1).inc (SRV_ARITH_LOSTN l)
    let s := s.when r.clip fun s => s.put (SRV_LSTAT_CLIP l) 1
    let s := s.when (l == 16 && !r.code.isEmpty) fun s =>
      let k := ((List.range 4).find? fun k => d.outdst / 16 ^ k % 16 == 8).getD 0
      let m : Int := s.get SPN_ILIM_IQMAX
      { s with spn := { s.spn with iq := max (-m) (min m (r.code.getD k 0)) } }
    let s := s.setLoop l fun y => { y with xp := r.xp, satPrev := r.late }
    if r.st == st then (s.put (SRV_LSTAT_OOB l) r.cnt).setLoop l fun y => { y with heldN := r.held }
    else if r.st == lHOLD then enterHold l s
    else if r.st == lRUN then leaveHold l s
    else enterFail l s

/-- Every loop whose unit did not fail, and SRV_LOAD.NOW (R184, R191). -/
def runLoops (i : SampleIn) (s : State) : State :=
  let skip := i.faults.flatMap fun f => f.loops.map Fin.val
  let s := forUpTo 4 (fun u s => s.put (SRV_LOAD_NOW u)
    (((List.range 17).filter fun l => [lOPEN, lRUN, lHOLD].contains (s.loopState l) && s.get (SRV_LSTAT_UNIT l) == u).map
      fun l => loopCost (s.loopDesc l)).sum) s
  let s := forUpTo 17 (fun l s => if skip.contains l then s else runLoop i l s) s
  { s with freeCtr := s.freeCtr + 68 }

/-! ### The sequencers' part of a sample (R197, R202, R205, R206) -/

/-- The SA code at peak `c` of `k` of a layer jump (R202). -/
def jumpSa (s : State) (h : Nat) (c k : Nat) : Int :=
  let a := s.getI (SRV_SAP_CODE h (s.tr h).jumpFrom)
  let b := s.getI (SRV_SAP_CODE h (s.tr h).planLayer)
  a + rneDiv ((b - a) * c) (max k 1)

/-- The first focus of a side in a mount (R136). -/
def noteFocus (h : Nat) (s : State) : State :=
  if s.life == MOUNTING && (s.mnt.focusAt.getD (sideOf h) none).isNone then
    { s with mnt := { s.mnt with focusAt := s.mnt.focusAt.set (sideOf h) (some s.now) } }
  else s

/-- The target peak: focus and SA go to RUN (R197 step 4, R202 step 4). -/
def captureFocus (i : SampleIn) (h : Nat) (s : State) : State :=
  let s := s.setTr h fun t => { t with settle := 0, saOk := 0, focusN := 0, fell := false, back := false, capSum := svi i h svSUM }
  let s := ownerSet (4 * h + 3) lRUN (ownerSet (4 * h) lRUN s)
  if s.part h == hpLJUMP then saToPreset h (s.tr h).planLayer (s.put (SRV_HSTAT_LAYER h) (s.tr h).planLayer)
  else
    let s := s.when (s.get (SRV_HSTAT_PHASE h) != hpRECOVERING) fun s => s.put (SRV_HSTAT_LAYER h) (refLayer h)
    noteFocus h (setOvr (4 * h + 1) 1 (setPart h hpFOCUSED s))

/-- The focus override moves on by one sample at FSPEED, toward the disc or away from it. -/
def moveFocus (h : Nat) (inward : Bool) (s : State) : State :=
  let d : Int := s.sweepStep h
  (s.setLoop (4 * h) fun x => { x with
    override := [min 8388607 (max (-8388608) (x.override.getD 0 0 + if inward then d else -d))] }).drawn

/-- The sweep of a head in FOCUSING moves on: what is left of the outward way of a recovery first, then toward the disc (R197, R206). -/
def sweep (h : Nat) (s : State) : State :=
  let o := (s.tr h).out
  let d := s.sweepStep h
  (moveFocus h (o == 0) s).setTr h fun t => { t with out := o - min d o }

/-- After a failed attempt the override goes back to −32,768; then the loop goes OFF and the next attempt begins (R198). -/
def rampBack (h : Nat) (s : State) : State :=
  let s := moveFocus h false s
  if (s.loop (4 * h)).override.getD 0 0 ≤ -32768 * 256 then startFocus h (ownerSet (4 * h) lOFF s) else s

/-- A peak of the sweep of a focus acquisition (R197), or of a recovery, which takes the first (R206). -/
def focusPeak (i : SampleIn) (h : Nat) (s : State) : State :=
  let n := (s.tr h).peaks + 1
  let s := s.setTr h fun t => { t with peaks := n }
  if n == (if s.get (SRV_HSTAT_PHASE h) == hpRECOVERING then 1 else 2) then captureFocus i h s else s

/-- A peak of a layer jump: SA is interpolated, and the target peak captures (R202). On the way back from an overshoot the peaks count down
(R203). -/
def jumpPeak (i : SampleIn) (h : Nat) (s : State) : State :=
  let t := s.tr h
  let k := max t.jumpFrom t.planLayer - min t.jumpFrom t.planLayer
  if t.back then
    if t.peaks == k then captureFocus i h s else s.setTr h fun t => { t with peaks := t.peaks - 1 }
  else
    let n := t.peaks + 1
    let s := setOverride (4 * h + 3) (jumpSa s h (min n k) k) (s.setTr h fun t => { t with peaks := n })
    if n == k then captureFocus i h s else s

/-- The peak count of a layer jump overshoots: a further peak comes after the target peak. The sweep reverses at FSPEED (R203). -/
def overshoot (h : Nat) (s : State) : State :=
  let code := s.getI (SRV_OUT_CODE (4 * h) 0)
  let s := s.setTr h fun t => { t with peaks := t.peaks + 1, back := true, fell := false }
  ownerSet (4 * h) lOPEN (setOverride (4 * h) code s)

/-- Peaks of a sweep (R197 step 3): SUM at or above SUMTHR where FE crosses zero; toward the disc from negative to
positive, outward the other way (R202). -/
def countPeaks (i : SampleIn) (h : Nat) (s : State) : State :=
  let fe := svi i h svFE
  let t := s.tr h
  let part := s.part h
  let deeper := decide (t.jumpFrom < t.planLayer)
  let inward := part == hpFOCUSING || deeper != t.back
  let cross := if inward then t.fePrev < 0 && 0 ≤ fe else 0 ≤ t.fePrev && fe < 0
  let high := decide ((s.get SRV_FACQ_SUMTHR * 64 : Int) ≤ svi i h svSUM)
  let s := s.setTr h fun t => { t with fePrev := fe, fell := t.fell || !high }
  let open' := s.loopState (4 * h) == lOPEN && (s.loop (4 * h)).setTo != lRUN
  match t.sweepAt with
  | some a => if passed s.now a then beginSweep h s else s
  | none =>
    if t.ramp then rampBack h s
    else if part == hpFOCUSING && open' then
      let s := sweep h s
      if cross && high && t.out == 0 then focusPeak i h s else s
    else if part == hpLJUMP && open' then
      let s := s.when t.back (moveFocus h (!deeper))
      if cross && high then jumpPeak i h s else s
    else if part == hpLJUMP && cross && high && t.fell then overshoot h s
    else s

/-- The zero crossings of TEPP while the tracking loop observes in a capture, and the extremes of TEPP / SUM over it (R200, R213). -/
def countCrossings (i : SampleIn) (h : Nat) (s : State) : State :=
  let te := svi i h svTEPP
  let sum := svi i h svSUM
  let t := s.tr h
  let s := s.setTr h fun t => { t with tePrev := te }
  if s.part h == hpCAPTURING && !s.tracking h then
    let cross := (t.tePrev < 0 && 0 ≤ te) || (0 ≤ t.tePrev && te < 0)
    let gap := if cross then t.crossAt.map fun a => (s.now + au48 - a) % au48 else t.crossGap
    let r := if sum = 0 then none else some (rneDiv (te * 65536) sum)
    let far := fun (best : Int → Int → Int) (x : Option Int) => match x, r with
      | some a, some b => some (best a b)
      | none, b => b
      | a, none => a
    s.setTr h fun t => { t with
      crossNow := cross, crossGap := gap, crossAt := if cross then some s.now else t.crossAt
      appMax := far max t.appMax, appMin := far min t.appMin }
  else s.setTr h fun t => { t with crossNow := false }

/-- Settling of focus and SA, LPOS for sled follow (R155, R228), and the counts of Table 8.3. While no SUMCAL is in force, SUM at focus capture stands for it. -/
def watchHead (i : SampleIn) (h : Nat) (s : State) : State :=
  let run := s.loopState (4 * h) == lRUN
  let okF := run && s.get (SRV_LSTAT_OOB (4 * h)) == 0
  let okA := s.loopState (4 * h + 3) == lRUN && s.get (SRV_LSTAT_OOB (4 * h + 3)) == 0
  let c := Sparse.get s.cal.sum (calKey h (s.headLayer h) (s.headBand h))
  let cal : Int := if c == 0 then (s.tr h).capSum else c
  let low := svi i h svSUM * 100 < s.get SRV_FLIM_SUMLOSS * cal && s.loopState (4 * h) != lOPEN
  let high := (s.get SRV_TCAP_TEOMAX * 16 : Int) < (svi i h svTEOUT).natAbs && s.part h == hpON_TRACK
  s.setTr h fun t => { t with
    focusN := if run then t.focusN + 1 else 0
    settle := if okF then t.settle + 1 else 0
    saOk := if okA then t.saOk + 1 else 0
    lposSum := t.lposSum + svi i h svLPOS, lposN := t.lposN + 1, lpos := svi i h svLPOS
    sumLow := if low then t.sumLow + 1 else 0
    teHigh := if high then t.teHigh + 1 else 0 }

/-- The power in 10 µW that LPMON is expected to show: the READ levels of the spots on. Of a spot that writes, the pulse states in force make
it a mean that the spec does not state: a free value (R164; DESIGN CHOICE, log entry 201). -/
def State.expectedPower (s : State) (h : Nat) : Nat :=
  let on := (List.range 6).filter fun k => (s.get (OPU_HSTAT_LASERON h)).testBit k
  if (s.wh h).line.any (· != 0) then s.freeVal 16 else (on.map fun k => s.get (OPU_LVL_LEVEL h (4 * k))).sum

/-- Laser supervision of a sample with any spot on: LPMON, 0.020 V per mW at 2¹⁵ codes per volt, against the expected power (R164, R171). -/
def watchLaser (i : SampleIn) (h : Nat) (s : State) : State :=
  if s.get (OPU_HSTAT_LASERON h) == 0 then s.setOpu h fun o => { o with lpBad := 0, lpGood := 0, lpCode := 0 }
  else
    let p : Int := s.expectedPower h * 65536
    let c := svi i h svLPMON
    let ok := decide (4 * (10000 * c - p).natAbs ≤ p.natAbs)
    s.drawn.setOpu h fun o => { o with
      lpBad := if ok then 0 else o.lpBad + 1, lpGood := if ok then o.lpGood + 1 else if o.lpGood < 64 then 0 else o.lpGood, lpCode := c }

/-- What the measurement window records of a head in a sample: r = e / (256 × SUM), its square, and SUM; a head off track, a tracking input
other than TEPP and an inhibit cause of the first four spoil it (R214, R215). r with a SUM of 0 is a free value. -/
def recordHead (i : SampleIn) (h : Nat) (s : State) : State :=
  let sum := svi i h svSUM
  let r := if sum = 0 then toSigned 24 (s.freeVal 24) else rneDiv (s.getI (SRV_INNOV_E (4 * h + 1) 0) * 65536) sum
  let bad := s.get (SRV_HSTAT_PHASE h) != hpON_TRACK || (s.loopDesc (4 * h + 1)).insrc % 16 != svTEPP
    || s.get (SRV_HSTAT_INHC h) % 16 != 0
  s.drawn.setTr h fun t => { t with
    winBad := t.winBad || bad, resS := t.resS + r, resQ := t.resQ + r.natAbs * r.natAbs, sumS := t.sumS + sum, calSum := max t.calSum sum }

/-! ### Write inhibit and candidates (R56, R208, R209) -/

/-- |position error| > PEMAX × 0.1% of 0.18 µm, with x = (y / (256 × SUM)) × 360 / (2π A_pp). -/
def posError (i : SampleIn) (s : State) (h : Nat) : Bool :=
  let l := 4 * h + 1
  let y := (convIn (loopIn i s l 0) ((s.loopDesc l).inpol.testBit 0) (s.flag (SRV_HSTAT_LAND h)) (s.getI (SRV_REF_REF l 0))).1
  let lhs : Int := y.natAbs * 360 * 65536 * 100 * piDen
  s.get SRV_WINH_PEMAX * 18 * 256 * 2 * piNum * s.get (SRV_TPP_APP h) * svi i h svSUM < lhs

/-- |focus error| > FEMAX nm by the focus-error slope of the layer; a layer without one leaves the slope free (R208). -/
def focError (i : SampleIn) (s : State) (h : Nat) : Bool :=
  let c := Sparse.get s.cal.slope (h * 48 + s.headLayer h)
  let slope := if c == 0 then s.freeVal 16 else c
  s.get SRV_WINH_FEMAX * slope < 256 * (svi i h svFE).natAbs

/-- The causes of Table 8.4 whose condition holds in this sample. -/
def causesNow (i : SampleIn) (s : State) (h : Nat) : List Nat :=
  (if posError i s h then [icPOS] else []) ++ (if focError i s h then [icFOC] else [])
    ++ (if (s.tr h).shock then [icSHOCK] else [])
    ++ (if (List.range 4).all (fun k => s.loopState (4 * h + k) == lRUN) && s.get (SRV_HSTAT_PHASE h) == hpON_TRACK then []
        else [icLOOP])
    ++ (if s.writesOk then [] else [icANGLE]) ++ (if (s.opuHead h).overtemp then [icPICKUP] else [])
    ++ (if !s.sys.lsrEn || s.flag (OPU_CTRL_LOFF h) then [icLASER] else [])
    ++ (if s.flag (SRV_HCTRL_WINH h) then [icHOST] else [])

/-- Causes found set INH; for each active cause the samples of its absence are counted (R209, R210). -/
def inhibits (i : SampleIn) (h : Nat) (s : State) : State :=
  let l := causesNow i s h
  let act := s.get (SRV_HSTAT_INHC h)
  let s := s.drawn.setTr h fun t => { t with
    shock := false
    absent := (List.range 8).map fun c => if l.contains c || !act.testBit c then 0 else t.absent.getD c 0 + 1 }
  raiseInhibits h l s

/-- A head is a wobble candidate: R56, its amplitude at least AMPMIN/256 of the calibrated one where there is one. -/
def candidate (i : SampleIn) (h : Nat) (s : State) : State :=
  let w := Sparse.get s.cal.wamp (calKey h (s.headLayer h) (s.headBand h))
  let a := (sampleHead i h).map HeadIn.wamp |>.getD 0
  s.setBit ANG_LOCK_CAND h (s.candOk h && s.get ANG_PLL_AMPMIN * w ≤ 256 * a)

/-- How many values at the end of a list meet a condition, after `n` that did. -/
def runLength (ok : Int → Bool) (n : Nat) (l : List Int) : Nat := l.foldl (fun n e => if ok e then n + 1 else 0) n

/-- A head's wobble periods within ±32 au and beyond ±128 au in a row, while it is a candidate (R57). -/
def countWobble (i : SampleIn) (h : Nat) (s : State) : State :=
  let w := (sampleHead i h).map HeadIn.wob |>.getD []
  let c := s.bit ANG_LOCK_CAND h
  s.setTr h fun t => { t with
    wobIn := if c then runLength (fun e => e.natAbs ≤ 32) t.wobIn w else 0
    wobOut := if c then runLength (fun e => 128 < e.natAbs) t.wobOut w else 0 }

/-- What the measurement window records of a sample: d, and the wobble amplitude of the reference head (R71, R72). -/
def recordWindow (i : SampleIn) (s : State) : State :=
  let a := s.ang
  let amp := (sampleHead i (s.get ANG_LOCK_REF)).map HeadIn.wamp |>.getD 0
  { s with ang := { a with
    jitN := a.jitN + 1, jitS := a.jitS + i.diff, jitT := a.jitT + a.jitN * i.diff, jitQ := a.jitQ + i.diff.natAbs * i.diff.natAbs
    ampSum := a.ampSum + amp } }

/-- SERVO_SAMPLE: everything SRV does at a tick, once at each, after a Varnish commit (R66, R173, R183); calibration values take effect
with it (R115, R360). -/
def execServoSample (i : SampleIn) (s : State) : Res :=
  s.doIf (s.applied && s.ang.running && s.ang.sampleDue && s.turn rkSAMPLE) fun s =>
    let s := calTick { s with ang := { s.ang with sampleDue := false } }
    let s := recordWindow i (countSettled (measureSpeed i (measureRates i s)))
    let s := moveUnits (forUpTo 17 applyOwner s)
    let s := runLoops i s
    let s := i.faults.foldl (fun s f => unitFails f s) s
    let up := fun (h : Nat) (s : State) => s.present h && s.inSvc h
    let s := forUpTo 4 (fun h s => s.when (up h s) fun s => watchLaser i h (watchHead i h (countCrossings i h (countPeaks i h s)))) s
    let s := forUpTo 4 (fun h s => s.when (up h s) fun s => recordHead i h (inhibits i h s)) s
    let s := forUpTo 4 (fun h s => countWobble i h (candidate i h s)) s
    checkLanes i.lanes (i.eq.foldl (fun s x => eqStep x s) s)

/-! ### Reports issued on their own (R181, R182) -/

/-- LOOP_HOLD: OOB has reached SUPN in RUN (R181). A servo sample that has made the change leaves this nothing to do. -/
def execLoopHold (l : Loop) (s : State) : Res :=
  s.doIf (s.applied && s.loopState l == lRUN && (s.loopDesc l).supn ≤ s.get (SRV_LSTAT_OOB l)) (enterHold l)
/-- LOOP_RESUME: INB, which SRV_LSTAT.OOB shows in HOLD, has reached SUPM (R181). -/
def execLoopResume (l : Loop) (s : State) : Res :=
  s.doIf (s.applied && s.loopState l == lHOLD && (s.loopDesc l).supm ≤ s.get (SRV_LSTAT_OOB l)) (leaveHold l)
/-- LOOP_FAIL: the loop has held for HOLDMAX samples; its owner is told (R181, R182, R207). -/
def execLoopFail (l : Loop) (s : State) : Res :=
  s.doIf (s.applied && s.loopState l == lHOLD && (s.loopDesc l).holdmax ≤ (s.loop l).heldN) (enterFail l)

/-! ### Units (R187) -/

/-- A write of SRV_UNITCTL (R187). A RESTORE of a unit that is not OFFLINE, or whose RESTORE is under way, is refused (DESIGN CHOICE, log
entry 222). -/
def unitCtl (v : Nat) (s : State) : State :=
  let u := v % 4
  let off := v.testBit 2
  let res := v.testBit 3
  if off && res then s.put SRV_UNIT_REFUSED 1
  else if off then
    if s.bit SRV_UNIT_SPAREOK u && s.get SRV_UNIT_OFFLINE == 0 && s.inLife [PRIMED, MOUNTING, MOUNTED, PARKING] then
      let s := (s.setBit SRV_UNIT_INSVC u false).setBit SRV_UNIT_OFFLINE u true
      { s with srv := { s.srv with moveNext := s.srv.moveNext ++ [u] } }
    else s.put SRV_UNIT_REFUSED 1
  else if res then
    if s.bit SRV_UNIT_OFFLINE u && !s.srv.restoring.contains u then
      { s with srv := { s.srv with restoring := s.srv.restoring ++ [u] } }
    else s.put SRV_UNIT_REFUSED 1
  else s

/-- SRV_UNIT_OFFLINE: a write of SRV_UNITCTL with OFFLINE 1. -/
def execSrvUnitOffline (p : Port) (v : Word) (s : State) : Res :=
  vendorWrite p SRV_UNITCTL_UNIT.off false (unitCtl (v.toNat ||| 4)) s
/-- SRV_UNIT_RESTORE: a write of SRV_UNITCTL with RESTORE 1. -/
def execSrvUnitRestore (p : Port) (v : Word) (s : State) : Res :=
  vendorWrite p SRV_UNITCTL_UNIT.off false (unitCtl (v.toNat ||| 8)) s

/-- SRV_UNIT_RESTORE_DONE: BIST and reload have ended. The HOME loops return at the next tick, or BISTFAIL sets; the entry
SRV 0x05 (R187). -/
def execSrvUnitRestoreDone (u : MUnit) (pass : Bool) (s : State) : Res :=
  s.doIf (s.applied && s.srv.restoring.contains u.val) fun s =>
    let s := { s with srv := { s.srv with restoring := s.srv.restoring.filter (· != u.val) } }
    let s := s.setBit SRV_UNIT_BISTFAIL u (!pass)
    if pass then
      logFlt 4 kCLEAR 0x05 u [2] ((s.setBit SRV_UNIT_INSVC u true).setBit SRV_UNIT_OFFLINE u false)
    else logFlt 4 kINFO 0x05 u [3] s

/-! ### Speed bands (R189) -/

/-- The band the measured speed asks for, with the hysteresis of Table 7.7; speeds in sixteenths of an rpm. -/
def bandFor (now rpm16 : Nat) : Nat :=
  let up := if 8100 * 16 ≤ rpm16 then 2 else if 6300 * 16 ≤ rpm16 then 1 else 0
  let down := if rpm16 < 6250 * 16 then 0 else if rpm16 < 8050 * 16 then 1 else 2
  if now < up then up else min now down

/-- SPEED_BAND_CHANGE: the first tick after the measured speed has crossed a threshold (R189). -/
def execSpeedBandChange (s : State) : Res :=
  s.doIf (s.applied && bandFor (s.get SRV_SPB_BAND) (s.get SPN_MEAS_RPM) != s.get SRV_SPB_BAND) fun s =>
    let b := bandFor (s.get SRV_SPB_BAND) (s.get SPN_MEAS_RPM)
    eventRec 0x05 b [] false (s.put SRV_SPB_BAND b)

end Sys2Proof.Machine
end

