-- ==== Sys2Proof/Machine/Sled.lean ====
section
/-! DEFINITION. The sleds: step edges of the planner, seeks of both classes, follow steps, the search (R217 to R230). -/

namespace Sys2Proof.Machine

open R

/-! ### Step edges (R221, R224 to R226) -/

/-- A seek taken by a moving sled (R225, R226): it plans again from the present state with the class S limits. When the
new target cannot be reached from here without a stop, the sled stops, reverses at rest and seeks it from rest. The
planned duration from a state of motion is stated nowhere: a free value. -/
def retarget (h kind : Nat) (target : Int) (s : State) : State :=
  let x := { s.sl h with vv := seekV s true, aa := seekA s true, jj := seekJ s true, req := none, late := false, lowered := false, back := none }
  let p := s.getI (SLD_POS_P h)
  let dir := s.sledDir h
  let target := if kind == sdSTOP then clampTarget h (p + dir * x.restSteps) s else target
  let ahead := 0 < (target - p) * dir && x.dend + stopDist x.aa x.jj x.vpk + stepD ≤ (target - p).natAbs * stepD
  let s := (((s.putI (SLD_TGT_TGT h) target).put (SLD_STAT_KIND h) kind).put (SLD_EST_US h) (s.freeVal 24)).drawn
  if ahead then
    let slow := x.vv < x.v
    (s.put (SLD_STAT_PHASE h) (if slow then phSLOW else phACCEL)).setSl h fun _ =>
      { x with ad := if slow then min x.aa (fsqrt (fmul (x.v - x.vv) x.jj)) else x.ad }
  else
    (s.put (SLD_STAT_PHASE h) phREVERSE).setSl h fun _ =>
      { x with back := some (p + dir * x.restSteps), ad := min x.aa (fsqrt (fmul x.vpk x.jj)) }

/-- A request that has met the sled is taken at this edge: class S ends a class D seek, whose target goes back to the
track sequencer, or retargets a class S seek (R225, R226). -/
def takeRequest (h : Nat) (s : State) : State :=
  match (s.sl h).req with
  | none => s
  | some (k, target) =>
    let s :=
      if s.get (SLD_STAT_KIND h) == sdCLASSD then
        (s.inc (SLD_CNT_PREEMPT h)).setSl h fun x => { x with returned := x.returned ++ [s.getI (SLD_TGT_TGT h)] }
      else s.inc (SLD_CNT_RETGT h)
    retarget h k target s

/-- A change of SLD_PROF_D reaches a class D seek that does not decelerate yet (R224): a lower V slows the sled, a lower A
holds unless the sled could then not stop in time. A higher V lets a cruise accelerate (DEDUCED, log entry 20). -/
def adoptLimits (h : Nat) (s : State) : State :=
  let ph := s.get (SLD_STAT_PHASE h)
  if s.get (SLD_STAT_KIND h) != sdCLASSD || !(ph == phACCEL || ph == phCRUISE || ph == phSLOW) then s
  else
    let x := s.sl h
    let nv := seekV s false
    let na := seekA s false
    let rem : Int := (s.getI (SLD_TGT_TGT h) - s.getI (SLD_POS_P h)).natAbs * stepD
    let late := na < x.aa && rem < x.dend + stopDist na x.jj x.vpk + stepD
    let aa := if late || x.late then x.aa else na
    let slow := nv < x.vv && nv < x.v
    let s := s.when late fun s => s.put (SLD_STAT_LIMLATE h) 1
    let s := s.put (SLD_STAT_PHASE h) (if slow then phSLOW else if ph == phCRUISE && x.vv < nv then phACCEL else ph)
    s.setSl h fun x => { x with
      vv := nv, aa, late := x.late || late, lowered := x.lowered || aa < x.aa
      ad := if slow then min aa (fsqrt (fmul (x.v - nv) x.jj)) else x.ad }

/-- SLED_STEP: a rising edge of SLD_STEP moves the sled by one micro-step; the planner loads the next interval, or the
seek has reached its target (R217, R221, R222). -/
def execSledStep (h : Head) (s : State) : Res :=
  s.doIf (s.applied && s.sledMoving h) fun s =>
    let s := s.putI (SLD_POS_P h) (s.getI (SLD_POS_P h) + s.sledDir h)
    let s := adoptLimits h (takeRequest h s)
    let x := s.sl h
    if s.getI (SLD_POS_P h) = x.back.getD (s.getI (SLD_TGT_TGT h)) then
      if x.back.isSome then seekFromRest h (s.get (SLD_STAT_KIND h)) (s.getI (SLD_TGT_TGT h)) s else sledAtRest h s
    else loadInterval h false s

/-! ### Seeks (R219, R223, R225 to R227) -/

/-- A head whose sequencer has loops to move: it is in SEEK while a seek moves it (Table 8.1, R223). -/
def toSeek (h : Nat) (s : State) : State :=
  if s.headUp h && !([hpRETRACTED, hpOUT].contains (s.get (SRV_HSTAT_PHASE h))) then setPart h hpSEEK s else s

/-- A class D target lies outside the limits while the position is known (R219). -/
def outside (s : State) (h : Nat) (target : Int) : Bool :=
  s.flag (SLD_POS_KNOWN h) && !(s.getI SLD_LIM_MIN ≤ target && target ≤ s.getI SLD_LIM_MAX)

/-- CLASS_D_SEEK: a class D seek to base track `g`, to the sled position of that track, starts in its granted seek interval (R218, R223).
A correction seek after a landing goes by the difference of the tracks (R227); it keeps the planned track. -/
def execClassDSeek (h : Head) (g : Fin 262144) (s : State) : Res :=
  s.doIf (s.headUp h && s.flag (SLD_STAT_EN h)) fun s =>
    let due := takeDue .seek h s
    let t := (due.map Prod.snd).getD s
    let corr := t.correcting h
    let target := if corr then t.getI (SLD_POS_P h) + correctionSteps (t.trackMiss h) else trackSteps g
    if s.sledMoving h then (if isClassS (s.get (SLD_STAT_KIND h)) then t.inc (SLD_CNT_REFUSED h) else s)
    else if due.isNone then s
    else if outside t h target then t.inc (SLD_CNT_REFUSED h)
    else
      let t := if corr then t.setSl h fun x => { x with retries := x.retries + 1 }
        else (t.setTr h fun x => { x with planG := g, corrections := 0 }).setSl h fun x => { x with retries := 0 }
      seekFromRest h sdCLASSD target (toSeek h t)

/-- A granted seek interval of a head, due or moved along while its sled is in motion. -/
def takeSeek (h : Nat) (s : State) : Option State :=
  match takeDue .seek h s with
  | some r => some r.2
  | none =>
    (s.ang.pend.find? fun e => e.cls == .seek && e.owner == h).map fun e =>
      { s with ang := { s.ang with pend := s.ang.pend.erase e } }

/-- A search move is due (R220): four revolutions after focus settled no counted TRID has come at mount. -/
def State.searchDue (s : State) (h : Nat) : Bool :=
  s.inLife [MOUNTING] && s.headUp h && !s.flag (SLD_POS_KNOWN h) && !s.sledMoving h
    && s.get (SRV_HSTAT_PHASE h) == hpCAPTURING && !(s.tr h).tridSeen && passed s.now ((s.tr h).settledAt + 4 * au24)

/-- One move of the search: 256 micro-steps outward, from the 33rd move inward; after 96 moves the head is out of service (R220). -/
def searchMove (h : Nat) (s : State) : State :=
  let n := (s.sl h).searchMoves
  if 96 ≤ n then headFault h 0 0 s
  else
    let s := s.setSl h fun x => { x with searchMoves := n + 1 }
    askSeek h sdSEARCH (s.getI (SLD_POS_P h) + if n < 32 then 256 else -256) (toSeek h s)

/-- A class S seek to a base track that becomes the planned one. -/
def trackSeek (h kind g : Nat) (s : State) : State :=
  askSeek h kind (clampTarget h (trackSteps g) s) (toSeek h (s.setTr h fun x => { x with planG := g, corrections := 0 }))

/-- Who may start which kind, and when (Table 9.1); the seek interval is used up by those that need one. -/
def startable (h : Nat) (k : SeekKind) (s : State) : Option State :=
  let here := fun (b : Bool) => if b then some s else none
  match k with
  | .shock => here (s.headUp h && s.get (SRV_HSTAT_PHASE h) == hpRECOVERING)
  | .preempt _ => if s.headUp h && s.sledMoving h && s.get (SLD_STAT_KIND h) == sdCLASSD then takeSeek h s else none
  | .cal _ => if s.headUp h then takeSeek h s else none
  | .park => here (s.inLife [PARKING] || s.bit SYS_MODE_ST_LEAVE h)
  | .stop => here (s.inLife [PARKING, HALTED] || !s.inSvc h)
  | .host _ => here (s.inLife [PRIMED])
  | .search => here (s.searchDue h)

/-- CLASS_S_SEEK: a class S seek starts from rest, preempts a class D seek or retargets a class S seek (R225, R226). Its
target is clamped to MIN and MAX while the position is known (R219): the planned track after a shock (R206), the track asked for by
PREEMPT and CAL, SLD_MISC.PARK (R229), the nearest point of rest, SLD_HSEEK.TGT, or the next place of the search (R220). -/
def execClassSSeek (h : Head) (k : SeekKind) (s : State) : Res :=
  match if s.applied && s.present h && s.flag (SLD_STAT_EN h) then startable h k s else none with
  | none => .next s
  | some t =>
    .next <|
      match k with
      | .stop => stopSeek h t
      | .park => askSeek h sdPARK (clampTarget h (t.getI SLD_MISC_PARK) t) t
      | .search => searchMove h t
      | .host v => askSeek h sdHOST (clampTarget h v.toInt t) t
      | .shock => askSeek h sdSHOCK (clampTarget h (trackSteps (t.tr h).planG) t) (toSeek h t)
      | .preempt g => trackSeek h sdPREEMPT g t
      | .cal g => trackSeek h sdCAL g t

/-- A write of SLD_HSEEK: with GO 1 it starts a HOST seek in PRIMED; in any other state, and for a head whose driver is not
enabled, the seek is refused (R225, R230; DEDUCED, log entry 21). -/
def hseek (h v : Nat) (s : State) : State :=
  if !v.testBit 24 then s
  else if s.life == PRIMED && s.flag (SLD_STAT_EN h) then askSeek h sdHOST (clampTarget h (toSigned 24 v) s) s
  else s.inc (SLD_CNT_REFUSED h)

/-- SLD_HSEEK: a write with GO 1. -/
def execSldHseek (p : Port) (h : Head) (v : Word) (s : State) : Res :=
  vendorWrite p (SLD_HSEEK_GO h).off false (hseek h (v.toNat ||| 2 ^ 24)) s

/-- SEEK_COMPLETE: the seek has ended and the sequencer captures track; after a search step it acquires focus again
(R200, R220, R227). -/
def execSeekComplete (h : Head) (s : State) : Res :=
  s.doIf (s.applied && !s.sledMoving h && (s.sl h).ended != 0) fun s =>
    let kind := (s.sl h).ended
    let s := s.setSl h fun x => { x with ended := 0 }
    if s.headUp h && s.part h == hpSEEK then
      if kind == sdSEARCH then startFocus h s
      else toCapture h s
    else s

/-- SLED_FOLLOW_STEP: at the first tick of the next gap field one micro-step toward centring the lens, after two
consecutive wedges outside THR: outward where the mean of LPOS is positive (R228; DESIGN CHOICE, log entry 168). -/
def execSledFollowStep (h : Head) (s : State) : Res :=
  s.doIf (s.applied && s.present h && s.inSvc h && !s.sledMoving h && 2 ≤ (s.sl h).wedges && s.gapTick h
      && (s.get (SRV_HSTAT_PHASE h) == hpON_TRACK || s.get (SRV_HSTAT_PHASE h) == hpCAPTURING)) fun s =>
    let outward := (s.sl h).outward
    let s := s.putI (SLD_POS_P h) (s.getI (SLD_POS_P h) + if outward then 1 else -1)
    (s.putB (SLD_STAT_DIR h) outward).setSl h fun x => { x with wedges := 0 }

/-- SEARCH_TIMEOUT: four revolutions after focus settled no counted TRID has come: 256 micro-steps outward, from the 33rd move
inward; after 96 moves the head is out of service (R220). -/
def execSearchTimeout (h : Head) (s : State) : Res := s.doIf (s.searchDue h) (searchMove h)

end Sys2Proof.Machine
end

