-- ==== Sys2Proof/Machine/Spindle.lean ====
section
/-! DEFINITION. The spindle drive: PWM periods, faults, catch and spin-up, braking, SPEEDREF (R231 to R242). -/

namespace Sys2Proof.Machine

open R

def State.setSpn (s : State) (k : Spn → Spn) : State := { s with spn := k s.spn }

/-! ### PWM periods (R232, R233, R235, R238, R239) -/

/-- Phases in which the bridge is driven. -/
def State.driven (s : State) : Bool := [pSHORTBRAKE, pALIGN, pOPENLOOP, pRUN, pBRAKING].contains s.spnPhase

/-- One PWM period's part of the ramp: the reference moves toward `goal` at RATE; the fraction is in 1/(1000 × FREQ) rpm. -/
def rampRef (goal : Nat) (s : State) : State :=
  let ref := s.get SPN_TGT_REF
  let unit := s.get SPN_PWM_FREQ * 1000
  let sum := s.spn.refFrac + min (s.get SPN_RAMP_RATE) 3000
  if ref == goal || unit == 0 then s.setSpn fun x => { x with refFrac := 0 }
  else
    let d := sum / unit
    let ref' := if ref < goal then min goal (ref + d) else max goal (ref - d)
    (s.put SPN_TGT_REF ref').setSpn fun x => { x with refFrac := sum % unit }

/-- A leg whose low-side window in the present period is narrower than 600 ns (R232). -/
def State.narrowLeg (s : State) (k : Nat) : Bool :=
  (65536 - s.spn.duty.getD k 0) * 1000000 < (600 + s.get SPN_PWM_DEAD) * 65536 * s.get SPN_PWM_FREQ
def State.narrow (s : State) : Bool := (List.range 3).any s.narrowLeg

/-- The leg samples of a period (R232): a leg whose window is narrow keeps its last good sample and is counted. -/
def sampleLegs (i : PwmIn) (s : State) : State :=
  let now := [i.iu, i.iv, i.iw]
  let narrow := s.narrowLeg
  let s := (List.range 3).foldl (fun s k => s.when (narrow k) fun s =>
    s.inc (if k == 0 then SPN_DIST_NARROWU else if k == 1 then SPN_DIST_NARROWV else SPN_DIST_NARROWW)) s
  s.setSpn fun x => { x with
    obsRpm := i.rpm
    held := (List.range 3).map fun k => if narrow k then x.held.getD k 0 else now.getD k 0 }

/-- The counts of the conditions of Table 9.3; a period with a narrow leg is not checked for the sum. -/
def checkPeriod (i : PwmIn) (s : State) : State :=
  let legs := s.spn.held
  let overC := legs.any fun v => s.get SPN_ILIM_IMAX < v.natAbs
  let sumBad := s.get SPN_CHECK_ISUMMAX < legs.sum.natAbs
  let ke : Int := s.get SPN_MOTOR2_KE * s.get SPN_MEAS_RPM
  let obsBad := ke < 4 * (16 * i.bemf - ke).natAbs && 600 * 16 < s.get SPN_MEAS_RPM
  let s := s.when overC fun s => s.inc SPN_DIST_OCN
  s.setSpn fun x => { x with
    ocRun := if overC then x.ocRun + 1 else 0
    sumRun := if s.narrow then x.sumRun else if sumBad then x.sumRun + 1 else 0
    obsRun := if obsBad then x.obsRun + 1 else 0 }

/-- √3, as a ratio. -/
def root3Num : Int := 17320508075688772
def root3Den : Int := 10000000000000000

/-- The duties of space-vector modulation for a voltage in µV in the rotating frame, no longer than VIN / √3 (R233). -/
def svDuties (vin : Nat) (cosE sinE vd vq : Int) : List Nat :=
  let lim : Int := vin * 1000
  let len : Int := iroot 2 (vd * vd + vq * vq).natAbs
  let most := lim * root3Den / root3Num
  let cut := fun (v : Int) => if most < len then v * most / len else v
  let a := (cut vd * cosE - cut vq * sinE) / 32768
  let b := (cut vd * sinE + cut vq * cosE) / 32768
  let h := b * root3Num / root3Den
  let ph := [a, (h - a) / 2, (-h - a) / 2]
  let mid := (ph.foldl max a + ph.foldl min a) / 2
  ph.map fun v => if lim = 0 then 0 else (min 65536 (max 0 (32768 + 65536 * (v - mid) / lim))).toNat

/-- One period of the current loop (R233): the leg currents in the frame of the electrical angle, proportional-integral control of i_d toward 0
and of i_q toward `ref`, and the duties (its precision: DEDUCED, log entry 203). -/
def currentLoop (i : PwmIn) (ref : Int) (s : State) : State :=
  let l := s.spn.held
  let a := l.getD 0 0
  let b := (l.getD 1 0 - l.getD 2 0) * root3Den / root3Num
  let ed := -((a * i.cosE + b * i.sinE) / 32768)
  let eq := ref - (b * i.cosE - a * i.sinE) / 32768
  let sd := s.spn.sumD + ed
  let sq := s.spn.sumQ + eq
  let kp : Int := s.get SPN_CURLOOP_KP
  let ki : Int := s.get SPN_CURLOOP_KI
  let fq : Int := s.get SPN_PWM_FREQ
  s.setSpn fun x => { x with
    sumD := sd, sumQ := sq, duty := svDuties i.vin i.cosE i.sinE (kp * ed + ki * sd / fq) (kp * eq + ki * sq / fq) }

/-- The bridge in a period (R233, R237, R239): the current loop in RUN and in the first part of a brake, with the reference of loop 16; with
IQMAX / 2 at the fixed or the forced angle while aligning and in the open loop; all low sides on in a short brake. -/
def driveBridge (i : PwmIn) (s : State) : State :=
  let ph := s.spnPhase
  if ph == pSHORTBRAKE || (ph == pBRAKING && s.spn.shortBrake) then s.setSpn fun x => { x with duty := [0, 0, 0], sumD := 0, sumQ := 0 }
  else if ph == pALIGN || ph == pOPENLOOP then currentLoop i (s.get SPN_ILIM_IQMAX / 2) s
  else currentLoop i s.spn.iq s

/-- The open loop in a period (R237): the forced speed ramps at IFRATE, and the periods count in which the observer's speed lies within 10% of
it and the observer's angle within 30° of the forced one. -/
def openLoopPeriod (i : PwmIn) (s : State) : State :=
  let f := s.spn.forced + s.get SPN_START_IFRATE * 1000 / s.get SPN_PWM_FREQ
  let near := 10 * ((i.rpm * 62500 : Int) - f).natAbs ≤ f && i.angErr.natAbs ≤ 300
  s.setSpn fun x => { x with forced := f, agree := if near then x.agree + 1 else 0 }

/-- Braking in RUN down to 600 rpm, then by short brake; returned energy above VBUS reduces the braking current by 1/8
(R239). -/
def brakePeriod (i : PwmIn) (s : State) : State :=
  let s :=
    if s.get SPN_BRAKE_VBUS < i.vin then
      (s.put SPN_STAT_VINLIM 1).setSpn fun x => { x with iq := x.iq - x.iq.tdiv 8 }
    else s.when (i.vin < s.get SPN_BRAKE_VBUS) fun s => s.put SPN_STAT_VINLIM 0
  if s.get SPN_MEAS_RPM ≤ 600 * 16 then
    ((setLoopNext 16 lOFF s).put SPN_TGT_REF 0).setSpn fun x => { x with shortBrake := true, refFrac := 0, iq := 0 }
  else rampRef 600 s

/-- PWM_PERIOD: the legs are sampled and checked, the current loop runs, the reference or the forced speed ramps, the brake proceeds. -/
def execPwmPeriod (i : PwmIn) (s : State) : Res :=
  s.doIf (s.applied && !s.sys.tripped && s.driven) fun s =>
    let s := driveBridge i (checkPeriod i (sampleLegs i s))
    if s.spnPhase == pRUN then rampRef (s.get SPN_TGT_TARGET) s
    else if s.spnPhase == pBRAKING && !s.spn.shortBrake then brakePeriod i s
    else if s.spnPhase == pOPENLOOP then openLoopPeriod i s
    else s

/-- The condition of Table 9.3 for FCAUSE `c` holds. -/
def State.spindleCause (s : State) (c : Nat) : Bool :=
  match c with
  | 1 => 64 ≤ s.spn.ocRun
  | 2 => 16 ≤ s.spn.sumRun
  | 3 => 256 ≤ s.spn.obsRun
  | 4 => s.get SPN_START_TRIES ≤ s.spn.tries
  | _ => s.loopState 16 == lFAIL

/-- SPINDLE_FAULT: the condition of FCAUSE `cause` + 1 is met (R235). -/
def execSpindleFault (cause : Fin 5) (s : State) : Res :=
  s.doIf (s.applied && s.spnPhase != pFAULT && s.spindleCause (cause.val + 1)) (spindleFault (cause.val + 1))

/-! ### Spin-up (R236, R237) -/

/-- SPN enters RUN at a speed: the reference starts there and ramps, loop 16 runs. -/
def enterRun (rpm : Nat) (s : State) : State :=
  let s := s.puts [(SPN_STAT_PHASE, pRUN), (SPN_TGT_REF, rpm)]
  setLoopNext 16 lRUN (s.setSpn fun x => { x with tries := 0, refFrac := 0, ocRun := 0, sumRun := 0, obsRun := 0, sumD := 0, sumQ := 0 })

/-- The open loop begins at a speed in rpm (R237). -/
def enterOpenLoop (rpm : Nat) (s : State) : State :=
  (s.put SPN_STAT_PHASE pOPENLOOP).setSpn fun x => { x with forced := rpm * 1000000, agree := 0 }

/-- SPIN_UP_START: the target is nonzero from standstill or coasting: a catch begins (R69, R236). -/
def execSpinUpStart (s : State) : Res :=
  s.doIf (s.applied && !s.sys.tripped && !s.sys.holdUp && s.spnTarget != 0
      && (s.spnPhase == pSTOPPED || s.spnPhase == pCOAST)) fun s =>
    setRamp (s.puts [(SPN_TGT_TARGET, s.spnTarget), (SPN_STAT_PHASE, pCATCH)])

/-- CATCH_WINDOW_END: a window of CATCHT has ended with so many zero crossings, that peak back-EMF in mV and that speed
(R237). After a short brake only the peak counts. -/
def execCatchWindowEnd (crossings peak rpm : Nat) (s : State) : Res :=
  s.doIf (s.applied && !s.sys.tripped && (s.spnPhase == pCATCH || s.spnPhase == pSHORTBRAKE)) fun s =>
    let weak := peak < s.get SPN_CHECK_BEMFMIN
    if s.spnPhase == pSHORTBRAKE then s.when weak fun s => s.put SPN_STAT_PHASE pALIGN
    else
      let note := fun (r : Nat) (s : State) => s.puts [(SPN_CATCH_RESULT, r), (SPN_CATCH_RPM, min rpm 65535)]
      if 4 ≤ crossings && 500 ≤ rpm then enterRun (min rpm 65535) (note 2 s)
      else if 4 ≤ crossings then enterOpenLoop rpm (note 1 s)
      else if weak then (note 0 s).put SPN_STAT_PHASE pALIGN
      else (note 3 s).put SPN_STAT_PHASE pSHORTBRAKE

/-- ALIGN_END: ALIGNT has passed; the forced angle ramps (R237). -/
def execAlignEnd (s : State) : Res :=
  s.doIf (s.applied && s.spnPhase == pALIGN) (enterOpenLoop 0)

/-- SPINDLE_HANDOVER: at or above 600 rpm the observer has agreed with the forced speed and angle for 32 periods (R237). -/
def execSpindleHandover (s : State) : Res :=
  s.doIf (s.applied && s.spnPhase == pOPENLOOP && 600 * 16 ≤ s.spn.obsRpm && 32 ≤ s.spn.agree) fun s => enterRun (s.spn.obsRpm / 16) s

/-- SPIN_UP_ATTEMPT_FAILED: no hand-over by 900 rpm: SPN coasts for CATCHT and starts again, or after TRIES attempts
declares a start fault (R235, R237). -/
def execSpinUpAttemptFailed (s : State) : Res :=
  s.doIf (s.applied && s.spnPhase == pOPENLOOP && 900 * 1000000 ≤ s.spn.forced) fun s =>
    let n := s.spn.tries + 1
    if s.get SPN_START_TRIES ≤ n then spindleFault 4 s
    else (s.put SPN_STAT_PHASE pCOAST).setSpn fun x => { x with tries := n }

/-- SPINDLE_STOPPED: a window of CATCHT shows a peak below BEMFMIN while braking by short brake or coasting (R239, R577). -/
def execSpindleStopped (peak : Nat) (s : State) : Res :=
  s.doIf (s.applied && ((s.spnPhase == pBRAKING && s.spn.shortBrake) || s.spnPhase == pCOAST)
      && peak < s.get SPN_CHECK_BEMFMIN) fun s =>
    checkTrans ((s.puts [(SPN_STAT_PHASE, pSTOPPED), (SPN_TGT_REF, 0), (SPN_STAT_VINLIM, 0), (ANG_LOCK_RAMP, 0)]).setSpn fun x =>
      { x with tries := 0, shortBrake := false, refFrac := 0 })

/-! ### Test spin and SPEEDREF (R241, R242, R244) -/

/-- SPN_TEST_WRITE: a write of SPN_TEST; one that would set RPM to 1 to 599 or above 9,000 is discarded whole (R244). -/
def spnTest (v : Nat) (s : State) : State :=
  let r := v % 65536
  if (1 ≤ r && r ≤ 599) || 9000 < r then s
  else followTarget (s.puts [(SPN_TEST_EN, v / 65536), (SPN_TEST_RPM, r)])
def execSpnTestWrite (p : Port) (v : Word) (s : State) : Res :=
  vendorWrite p SPN_TEST_EN.off false (spnTest v.toNat) s

/-- The decoded SPEEDREF speed, where the input is valid (Table 9.6): `x` is the averaged voltage in µV, the duty in
10⁻⁴ %, or the frequency in mHz; none: no rising edge. Rounded down (DEDUCED, log entry 12). -/
def speedRef (enc : Nat) (x : Option Nat) : Option Nat :=
  match x with
  | none => none
  | some x =>
    if enc == 0 then (if 150000 ≤ x && x ≤ 2900000 then some (min 9000 ((x - 300000) / 250)) else none)
    else if enc == 1 then (if 50000 ≤ x && x ≤ 950000 then some (min 9000 ((x - 100000) * 1125 / 100000)) else none)
    else if 50000 ≤ x && x ≤ 12000000 then some (min 9000 (x / 1000))
    else none

/-- SPEEDREF_DECODE: the decoded speed enters SPN_SREFIN, or the input becomes invalid and S follows FALLBACK (R242). -/
def execSpeedrefDecode (x : Option Nat) (s : State) : Res :=
  s.doIf s.applied fun s =>
    match speedRef (s.get SPN_SREF_ENC) x with
    | some r =>
      (s.puts [(SPN_SREFIN_RPM, r), (SPN_SREFIN_VALID, 1), (SPN_STAT_SREFVALID, 1)]).setSpn fun y =>
        { y with srefCand := r / s.get SPN_SREF_STEP * s.get SPN_SREF_STEP }
    | none =>
      followTarget ((s.puts [(SPN_SREFIN_VALID, 0), (SPN_STAT_SREFVALID, 0)]).setSpn fun y => { y with srefFollow := true })

/-- SPEEDREF_ADOPT: the rounded speed has stayed unchanged for HOLD ms (R242). -/
def execSpeedrefAdopt (s : State) : Res :=
  s.doIf (s.applied && s.flag SPN_SREFIN_VALID) fun s =>
    followTarget (s.setSpn fun y => { y with srefS := some y.srefCand, srefFollow := false })

end Sys2Proof.Machine
end

