-- ==== Sys2Proof/Machine/RegWrite.lean ====
section
/-! DEFINITION. A write of one register of the vendor window, whatever register it is (R20 to R24, R94, R402, R562 to R566). -/

namespace Sys2Proof.Machine

open R

/-- Which of the `n` instances of a field an offset names. -/
def instAt (f : Nat → Fld) (n off : Nat) : Option Nat := (List.range n).find? fun i => (f i).off == off

/-- The write of a register of one of `n` instances. -/
def perInst (f : Nat → Fld) (n off : Nat) (k : Nat → State → State) : Option (State → State) := (instAt f n off).map k

/-- The write of a register that stands alone. -/
def atReg (f : Fld) (off : Nat) (k : State → State) : Option (State → State) := if f.off == off then some k else none

/-- FIF_IRQ_ST: a cleared FIFO bit sets again while the level is at or above its threshold (R457). -/
def irqClear (v : Nat) (s : State) : State :=
  let s := [FIF_IRQ_ST_FIFO, FIF_IRQ_ST_DMA].foldl (fun s f => s.put f (s.get f - Nat.land (s.get f) (f.ofWord v))) s
  forUpTo 3 (fun i s => s.when (v.testBit i && s.get (FIF_THR_THR i) ≤ (s.fifo i).level) (raiseIrq i)) s

/-- SRC, DST and LEN of a paused channel keep their values (R449). -/
def dmaAddr (f : Nat → Fld) (off v : Nat) : Option (State → State) :=
  perInst f 8 off fun c s => if s.flag (DMA_STAT_PAUSED c) then s else s.put (f c) ((f c).ofWord v)

/-- The registers whose write does more than set fields. `out` is for a PAUSE as in DMA_PAUSE; `recent` for a password as in
CEL_UNLOCK. -/
def commandReg (p off v out : Nat) (recent : Bool) : Option (State → State) :=
  [atReg SYS_CTRL_RESUME off (sysCtrl v), atReg SYS_RESET_KEY off (sysReset v), atReg SYS_MODE_REQ_MODE off id,
    atReg ANG_ALARM_HI_TGT off fun s => armAlarm (s.put ANG_ALARM_HI_TGT v),
    atReg CNV_CTRL_LOAD off (cnvCtrl p v),
    atReg SKT_CTRL_CLEAR off (sktCtrl v), atReg SKT_STAGE_VALUE off (stage v), atReg SKT_VARNISH_HI_TGT off (armVarnish v),
    atReg SRV_UNITCTL_UNIT off (unitCtl v), perInst SRV_HCTRL_WINH 4 off fun h => winhWrite h v,
    perInst OPU_CTRL_LOFF 4 off fun h => loffWrite h v, perInst OPU_LINKCMD_CMD 4 off fun h => linkCmd h v,
    perInst SLD_HSEEK_GO 4 off fun h => hseek h v, atReg SPN_TEST_EN off (spnTest v),
    atReg CHN_LANECTL_LANE off (laneCtl v), atReg CWD_DECCTL_DEC off (decCtl v), atReg WRS_OPCCTL_GO off (opcCtl v),
    atReg HLT_CTRL_PAUSE off (hltCtrl v), atReg CAL_CTL_GO off (calCtl v),
    atReg LRD_CTL_DISABLE off (lrdCtl v), atReg LRD_WAYCTL_WAY off (lrdWayCtl v),
    perInst DMA_CTRL_START 8 off fun c => dmaCtrl p c v out,
    dmaAddr DMA_SRC_LO_ADDR off v, dmaAddr DMA_SRC_HI_ADDR off v, dmaAddr DMA_DST_LO_ADDR off v, dmaAddr DMA_DST_HI_ADDR off v,
    dmaAddr DMA_LEN_LEN off v,
    atReg FIF_DROP_FIFO off (fifDrop v), atReg FIF_TCFG_EN off (fifTcfg v), atReg FIF_IRQ_ST_FIFO off (irqClear v),
    atReg THM_DEMAND_GO off (thmDemand v), atReg FLT_HEADCTL_HEAD off (headCtl v),
    atReg CEL_CMD_OP off (celCmd v), atReg CEL_UNLOCK_OP off (celUnlock recent v),
    atReg DBG_UNLOCK_PW off (dbgUnlock recent v)].findSome? id

/-- What a write does to one field (Table 0.6, R23, R566): a Run field takes the value, the ones written to a W1C field clear its bits,
and every other field keeps its value. -/
def writeFld (v : Nat) (f : Fld) (s : State) : State :=
  match f.acc, f.setBy with
  | .rw, .run => s.put f (f.ofWord v)
  | .wo, .run => s.put f (f.ofWord v)
  | .w1c, _ => s.put f (s.get f - Nat.land (s.get f) (f.ofWord v))
  | _, _ => s

/-- A write that has passed custody and liveness. -/
def writeReg (p off v out : Nat) (recent : Bool) (s : State) : State :=
  match commandReg p off v out recent with
  | some k => k s
  | none => (fieldsAt off).foldl (fun s f => writeFld v f s) s

/-- A register lies at an offset and is live in BARE (R94). -/
def State.bareLive (s : State) (off : Nat) : Bool := s.liveAt off && !(fieldsAt off).isEmpty

/-- REGISTER_WRITE: a write of BAR0 by a port, at an offset above the NVMe area; `whole` says that it is one aligned 32-bit access with
all byte enables set (R562). -/
def execRegisterWrite (p : Port) (off : Nat) (v : Word) (whole : Bool) (out : Nat) (recent : Bool) (s : State) : Res :=
  if whole && off % 4 == 0 && 0x10000 ≤ off && off < 0x2000000 then
    vendorWrite p off (s.bareLive off) (writeReg p off v.toNat out recent)
      (if off == DBG_UNLOCK_PW.off then dbgRefused p s else s)
  else .next s

end Sys2Proof.Machine
end

