-- ==== Sys2Proof/Machine/Sequencer.lean ====
section
/-! DEFINITION. The six microcoded sequencers: fetching, the opcodes of Table 17.2, waits, barriers and machine checks (R35, R36,
R436 to R444). A word in the ROM is what the command says it is; a word in patch memory must be the one the Canvas put there. -/

namespace Sys2Proof.Machine

open R

def sqOFF := 0
def sqRUN := 1
def sqWAIT := 2
def sqBARRIER := 3
def sqSTOPPED := 4

def mcPARITY := 1
def mcILLEGAL := 2
def mcACCESS := 3
def mcSTACK := 4
def mcASSERT := 5

/-! ### Machine checks (R443) -/

/-- Sequencer `q` stops at address `a`: SEQ_MCHK, the FLT_LOG entry, and a safe stop with cause 0x31. -/
def machineCheck (q a cause : Nat) (s : State) : State :=
  let s := s.setSeq q fun x => { x with wait := 0 }
  let s := s.puts [(SEQ_STAT_STATE q, sqSTOPPED), (SEQ_MCHK_CAUSE, cause), (SEQ_MCHK_SEQ, q), (SEQ_MCHK_VALID, 1), (SEQ_MCHK_ADDR, a)]
  let s := logFlt 19 kSTOP 0x01 q [a * 256 + cause] (s.inc FLT_STAT_UNCOV)
  safeStop 0x31 (0x40 + 19) 0x01 q s

/-! ### Fetching (R436, R441) -/

/-- The 96 bits of a microword with an opcode. -/
def microBits (op : Nat) (w : Microword) : Nat :=
  w.dwell.val * 2 ^ 94 + op * 2 ^ 88 + w.cond.val * 2 ^ 84 + w.neg.toNat * 2 ^ 83 + w.tgt.val * 2 ^ 68 + w.rd.val * 2 ^ 63
    + w.ra.val * 2 ^ 58 + w.bimm.toNat * 2 ^ 57 + w.q.val * 2 ^ 48 + w.imm.val * 2 ^ 24 + w.bsel.val * 2 ^ 20 + w.addr.val

/-- Word `i` of a sequencer's patch memory. -/
def State.patchWord (s : State) (q i : Nat) : Nat :=
  s.get (SEQ_PATCH_W0 q i) + 2 ^ 32 * s.get (SEQ_PATCH_W1 q i) + 2 ^ 64 * s.get (SEQ_PATCH_W2 q i)

/-- The patch address a valid match register gives a ROM address. -/
def State.redirect (s : State) (q a : Nat) : Option Nat :=
  ((List.range 16).find? fun i => s.flag (SEQ_MATCH_VALID q i) && s.get (SEQ_MATCH_ROMADDR q i) == a).map
    fun i => s.get (SEQ_MATCH_PATADDR q i)

/-- The word a running sequencer fetches: its address, P in bit 14, and the state with a redirected fetch counted; none where the
sequencer does not run or patch memory holds another word. -/
def fetchMicro (q op : Nat) (w : Microword) (s : State) : Option (Nat × State) :=
  let pc := s.get (SEQ_STAT_PC q)
  if !s.applied || s.get (SEQ_STAT_STATE q) != sqRUN then none
  else if pc < 2 ^ 14 then
    match s.redirect q pc with
    | none => some (pc, s)
    | some i => if s.patchWord q i == microBits op w then some (2 ^ 14 + i, s.inc (SEQ_HITS_HITS q)) else none
  else if 2 ^ 14 + 256 ≤ pc || s.patchWord q (pc - 2 ^ 14) == microBits op w then some (pc, s)
  else none

def branches (op : Nat) : Bool := op == 0x11 || op == 0x12 || op == 0x13

/-- One word: a fetch beyond patch word 255, an unassigned COND, or a COND on an opcode that does not branch is ILLEGAL; else `k` acts,
given the word's address. -/
def micro (q op : Nat) (w : Microword) (k : Nat → State → State) (s : State) : Res :=
  .next <|
    match fetchMicro q op w s with
    | none => s
    | some (a, s) =>
      if 2 ^ 14 + 256 ≤ a || 6 ≤ w.cond.val || (w.cond.val != 0 && !branches op) then machineCheck q a mcILLEGAL s
      else k a s

/-! ### Registers and flags (R437) -/

/-- The sequencer goes on at the next word. -/
def goOn (q a : Nat) (s : State) : State := s.put (SEQ_STAT_PC q) (nextPc a)

/-- Operand B. -/
def State.opB (s : State) (q : Nat) (w : Microword) : Nat := if w.bimm then w.imm.val else (s.seq q).reg w.imm.val
def State.opA (s : State) (q : Nat) (w : Microword) : Nat := (s.seq q).reg w.ra.val

def SeqSt.setZN (x : SeqSt) (v : Nat) : SeqSt := { x with z := v % au24 == 0, n := (v % au24).testBit 23 }

/-- `rd` takes a result and Z and N follow it. -/
def logicOp (q : Nat) (w : Microword) (k : Nat → Nat → Nat) (a : Nat) (s : State) : State :=
  let v := k (s.opA q w) (s.opB q w)
  goOn q a (s.setSeq q fun x => (x.setReg w.rd.val v).setZN v)

/-- ra + B and the carry out of bit 23. -/
def addC (x y : Nat) : Nat × Bool := ((x + y) % au24, au24 ≤ x + y)
/-- ra − B as ra + not B + 1: its carry out of bit 23 says that B is not above ra. -/
def subC (x y : Nat) : Nat × Bool := ((x + au24 - y) % au24, y ≤ x)

/-- `rd` takes a sum or a difference, unless `keep`, and Z, N and C follow it. -/
def arithOp (q : Nat) (w : Microword) (k : Nat → Nat → Nat × Bool) (keep : Bool) (a : Nat) (s : State) : State :=
  let r := k (s.opA q w) (s.opB q w)
  goOn q a (s.setSeq q fun x => { ((if keep then x else x.setReg w.rd.val r.1).setZN r.1) with c := r.2 })

/-- NOP. -/
def execNop (q : Seq) (w : Microword) (s : State) : Res := micro q 0x00 w (goOn q) s
/-- MOV. -/
def execMov (q : Seq) (w : Microword) (s : State) : Res :=
  micro q 0x01 w (fun a s => goOn q a (s.setSeq q fun x => x.setReg w.rd.val (s.opB q w))) s
/-- ADD. -/
def execAdd (q : Seq) (w : Microword) (s : State) : Res := micro q 0x02 w (arithOp q w addC false) s
/-- SUB. -/
def execSub (q : Seq) (w : Microword) (s : State) : Res := micro q 0x03 w (arithOp q w subC false) s
/-- AND. -/
def execAnd (q : Seq) (w : Microword) (s : State) : Res := micro q 0x04 w (logicOp q w Nat.land) s
/-- OR. -/
def execOr (q : Seq) (w : Microword) (s : State) : Res := micro q 0x05 w (logicOp q w Nat.lor) s
/-- XOR. -/
def execXor (q : Seq) (w : Microword) (s : State) : Res := micro q 0x06 w (logicOp q w Nat.xor) s
/-- SHL. -/
def execShl (q : Seq) (w : Microword) (s : State) : Res := micro q 0x07 w (logicOp q w fun x y => x * 2 ^ (y % 32)) s
/-- SHR. -/
def execShr (q : Seq) (w : Microword) (s : State) : Res := micro q 0x08 w (logicOp q w fun x y => x / 2 ^ (y % 32)) s
/-- CMP. -/
def execCmp (q : Seq) (w : Microword) (s : State) : Res := micro q 0x09 w (arithOp q w subC true) s

/-! ### Registers of the blocks (R438) -/

/-- The blocks of a sequencer's access set, by BSEL. -/
def accessSet (q : Nat) : List Nat :=
  if q == 0 then [0x11, 0x0E] else if q == 1 then [0x0D, 0x0E, 0x0F] else [0x05, 0x07, 0x09, 0x0A, 0x0C, 0x06]

/-- The head whose register lies at an offset of a track sequencer's blocks; none for a shared register. -/
def regHead (off : Nat) : Option Nat :=
  match findGrp off with
  | none => none
  | some (g, d) =>
    let i := d / g.s1
    if g.n1 == 4 && 0x100 ≤ g.s1 then some i
    else if g.n1 == 17 then (if i == 16 then none else some (i / 4))
    else if g.n1 == 28 then some (i / 7)
    else none

/-- The offset an LD or ST reaches, if the access set allows it. -/
def accessOff (q : Nat) (w : Microword) (store : Bool) : Option Nat :=
  match (accessSet q)[w.bsel.val]? with
  | none => none
  | some b =>
    let off := b * 2 ^ 20 + w.addr.val
    if off % 4 != 0 then none
    else if q < 2 then some off
    else
      match regHead off with
      | some h => if h + 2 == q then some off else none
      | none => if store then none else some off

/-- LD: bits [23:0] of the register, with the side effect of its read (DEDUCED, log entry 27). -/
def execLd (q : Seq) (w : Microword) (s : State) : Res :=
  micro q 0x0A w (fun a s =>
    match accessOff q w false with
    | none => machineCheck q a mcACCESS s
    | some off =>
      let v := s.regRead off
      goOn q a ((readSide off (readDraw off s)).setSeq q fun x => x.setReg w.rd.val v)) s

/-- ST: the register is written with bits [31:24] zero. -/
def execSt (q : Seq) (w : Microword) (s : State) : Res :=
  micro q 0x0B w (fun a s =>
    match accessOff q w true with
    | none => machineCheck q a mcACCESS s
    | some off => goOn q a (writeReg 0 off (s.opA q w % au24) 0 false s)) s

/-! ### Queues, requests and barriers (R35, R439) -/

def queueMax : Nat := 64
def SeqSt.inAt (x : SeqSt) (i : Nat) : List (List Nat) := x.inQ.getD (i % 8) []
def SeqSt.outAt (x : SeqSt) (i : Nat) : List (List Nat) := x.outQ.getD (i % 8) []
def SeqSt.setIn (x : SeqSt) (i : Nat) (l : List (List Nat)) : SeqSt :=
  { x with inQ := ((List.range 8).map x.inAt).set (i % 8) l }
def SeqSt.setOut (x : SeqSt) (i : Nat) (l : List (List Nat)) : SeqSt :=
  { x with outQ := ((List.range 8).map x.outAt).set (i % 8) l }

/-- The sequencer and the input queue that an output queue feeds; none where a block takes its descriptors (R35, R437). -/
def State.feeds (s : State) (q i : Nat) : Option (Nat × Nat) :=
  let n := Config.queueWire (8 * q + i % 8)
  if n == 0 || 48 < n || s.seqs.length * 8 < n then none else some ((n - 1) / 8, (n - 1) % 8)
/-- A sequencer's output queue feeds this input queue. -/
def State.fed (s : State) (q i : Nat) : Bool := (List.range 48).any fun n => s.feeds (n / 8) n == some (q, i % 8)

/-- The oldest descriptor of output queue `n` enters the input queue that it feeds, where that has room and its sequencer has power; what
state the sequencer is in, at a barrier too, does not matter (R35, R36). -/
def flowQueue (s : State) (n : Nat) : State :=
  match (s.seq (n / 8)).outAt n, s.feeds (n / 8) n with
  | d :: ds, some (r, j) =>
    if s.get (SEQ_STAT_STATE r) != sqOFF && ((s.seq r).inAt j).length < queueMax then
      (s.setSeq (n / 8) fun x => x.setOut n ds).setSeq r fun x => x.setIn j (x.inAt j ++ [d])
    else s
  | _, _ => s
/-- Descriptors move along every wire between the sequencers. -/
def flowQueues (s : State) : State := (List.range 48).foldl flowQueue s

/-- A sequencer waits at its word. -/
def waitAt (q a st kind what : Nat) (s : State) : State :=
  (s.puts [(SEQ_STAT_STATE q, st), (SEQ_STAT_PC q, a)]).setSeq q fun x => { x with wait := kind, waitQ := what }

/-- DEQ: the oldest descriptor into rd to rd + 3 with Z 0, or Z 1 where the queue is empty. -/
def execDeq (q : Seq) (w : Microword) (s : State) : Res :=
  micro q 0x0C w (fun a s => flowQueues (goOn q a (s.setSeq q fun x =>
    match x.inAt w.q.val with
    | [] => { x with z := true }
    | d :: ds => { ((List.range 4).foldl (fun x k => x.setReg (w.rd.val + k) (d.getD k 0)) (x.setIn w.q.val ds)) with z := false }))) s

/-- ENQ: ra to ra + 3 join an output queue; a full one makes the sequencer wait. -/
def execEnq (q : Seq) (w : Microword) (s : State) : Res :=
  micro q 0x0D w (fun a s =>
    let d := (List.range 4).map fun k => (s.seq q).reg (w.ra.val + k)
    let l := (s.seq q).outAt w.q.val
    if l.length < queueMax then flowQueues (goOn q a (s.setSeq q fun x => x.setOut w.q.val (l ++ [d])))
    else (waitAt q a sqWAIT 1 (w.q.val % 8) s).setSeq q fun x => { x with waitDesc := d }) s

/-- WAITQ. -/
def execWaitq (q : Seq) (w : Microword) (s : State) : Res :=
  micro q 0x0E w (fun a s =>
    if ((s.seq q).inAt w.q.val).isEmpty then waitAt q a sqWAIT 2 (w.q.val % 8) s else goOn q a s) s

/-- The event a request asks for: a calibration window names its lane, any other event its owner (R33). -/
def askedEv (cls : EvClass) (owner : Fin 28) (target len : Nat) : Ev :=
  if cls == .calWin then { cls, owner := owner / 7, target := target % au48, len, lane := some owner.val }
  else { cls, owner, target := target % au48, len }

/-- WAITA: the request goes to the angle scheduler and the sequencer waits for its grant or refusal. What the descriptor in ra to
ra + 3 asks for is given beside the word (DESIGN CHOICE, log entry 28). -/
def execWaita (q : Seq) (w : Microword) (cls : EvClass) (owner : Fin 28) (target len : Nat) (rank : Fin 7) (exempt : Bool) (s : State) : Res :=
  micro q 0x0F w (fun a s =>
    let r : Req := ⟨{ askedEv cls owner target len with exempt }, rank, q⟩
    ask r ((waitAt q a sqWAIT 3 0 s).setSeq q fun x => { x with waitRd := w.rd.val })) s

/-- BAR: the sequencer arrives at a barrier. -/
def execBar (q : Seq) (w : Microword) (s : State) : Res :=
  micro q 0x10 w (fun a s =>
    let mask := w.q.val % 64
    if mask.testBit q then waitAt q a sqBARRIER 4 mask s else machineCheck q a mcILLEGAL s) s

/-! ### Branches -/

/-- The condition of a branch (Table 17.3), inverted by NEG. -/
def State.seqCond (s : State) (q : Nat) (w : Microword) : Bool :=
  let x := s.seq q
  let l := if w.q.val.testBit 3 then x.outAt w.q.val else x.inAt w.q.val
  let c := match w.cond.val with
    | 0 => true
    | 1 => x.z
    | 2 => x.n
    | 3 => x.c
    | 4 => l.isEmpty
    | _ => queueMax ≤ l.length
  c != w.neg

/-- CALL. -/
def execCall (q : Seq) (w : Microword) (s : State) : Res :=
  micro q 0x11 w (fun a s =>
    if !s.seqCond q w then goOn q a s
    else if 8 ≤ (s.seq q).stack.length then machineCheck q a mcSTACK s
    else (s.put (SEQ_STAT_PC q) w.tgt).setSeq q fun x => { x with stack := nextPc a :: x.stack }) s
/-- RET. -/
def execRet (q : Seq) (w : Microword) (s : State) : Res :=
  micro q 0x12 w (fun a s =>
    if !s.seqCond q w then goOn q a s
    else
      match (s.seq q).stack with
      | [] => machineCheck q a mcSTACK s
      | t :: ts => (s.put (SEQ_STAT_PC q) t).setSeq q fun x => { x with stack := ts }) s
/-- BR. -/
def execBr (q : Seq) (w : Microword) (s : State) : Res :=
  micro q 0x13 w (fun a s => if s.seqCond q w then s.put (SEQ_STAT_PC q) w.tgt else goOn q a s) s
/-- MCHK. -/
def execMchk (q : Seq) (w : Microword) (s : State) : Res := micro q 0x14 w (fun a s => machineCheck q a mcASSERT s) s

/-! ### What ends a wait, and the checks beside the words -/

/-- QUEUE_WAIT_END: queue `i` of a sequencer becomes ready. An output queue on which its ENQ waits has room, once the sequencer that it
feeds has taken a descriptor, or a block takes its oldest one, and the waiting descriptor enters. An input queue that no sequencer feeds
takes a block's descriptor `desc`, also while its sequencer waits at a barrier (R36); a WAITQ on a queue that holds one goes on. -/
def execQueueWaitEnd (q : Seq) (i : Fin 8) (desc : List (BitVec 24)) (s : State) : Res :=
  s.doIf (s.applied && (s.get (SEQ_STAT_STATE q) == sqWAIT || s.get (SEQ_STAT_STATE q) == sqBARRIER)) fun s =>
    let x := s.seq q
    if x.wait == 1 && x.waitQ == i.val then
      let l := (s.feeds q i).elim ((x.outAt i).drop 1) fun _ => x.outAt i
      if l.length < queueMax then flowQueues (resumeSeq q (s.setSeq q fun x => x.setOut i (l ++ [x.waitDesc]))) else s
    else
      let d := (List.range 4).map fun k => (desc.map BitVec.toNat).getD k 0
      let s := s.when (!s.fed q i && (x.inAt i).length < queueMax) fun s => s.setSeq q fun x => x.setIn i (x.inAt i ++ [d])
      if x.wait == 2 && x.waitQ == i.val && !((s.seq q).inAt i).isEmpty then resumeSeq q s else s

/-- A sequencer named in a barrier's mask has arrived: it waits at a barrier with that mask, or does not run. -/
def State.atBarrier (s : State) (mask q : Nat) : Bool :=
  let st := s.get (SEQ_STAT_STATE q)
  st == sqOFF || st == sqSTOPPED || (st == sqBARRIER && (s.seq q).waitQ == mask)

/-- BARRIER_COMPLETE: every sequencer named has arrived, and those that wait go on. -/
def execBarrierComplete (mask : BitVec 6) (s : State) : Res :=
  let named := (List.range 6).filter fun q => mask.toNat.testBit q
  s.doIf (s.applied && named.all (s.atBarrier mask.toNat)) fun s =>
    (named.filter fun q => s.get (SEQ_STAT_STATE q) == sqBARRIER).foldl (fun s q => resumeSeq q s) s

/-- MACHINE_CHECK: a parity error on a fetch or on the ROM scan (cause 0), or a word with an unassigned opcode (cause 1). The checks
of a word that is executed stand with its opcode. -/
def execMachineCheck (q : Seq) (cause : Fin 2) (scan : Option (BitVec 14)) (s : State) : Res :=
  match cause.val, scan with
  | 0, some a => s.doIf s.applied (machineCheck q a.toNat mcPARITY)
  | _, _ =>
    s.doIf (s.applied && s.get (SEQ_STAT_STATE q) == sqRUN) fun s =>
      let pc := s.get (SEQ_STAT_PC q)
      let a := if pc < 2 ^ 14 then ((s.redirect q pc).map fun i => 2 ^ 14 + i).getD pc else pc
      machineCheck q a (cause.val + 1) s

/-- ROM_SCAN_LAP: a lap of the ROM scan ends (R444). -/
def execRomScanLap (s : State) : Res := s.doIf s.applied fun s => s.inc SEQ_ROMSCAN_LAPS

end Sys2Proof.Machine
end

