-- ==== Sys2Proof/Machine/Verify.lean ====
section
/-! DEFINITION. Verify of written blocks, and what follows once a member, a rebuilt block or an Attic record has verified (R144, R299,
R300, R309, R319, R322, R328, R329, R343, R472). -/

namespace Sys2Proof.Machine

open R

/-- What a verify read of a block says. -/
inductive Verdict
  | pass | fail | inconclusive
  deriving DecidableEq, Repr

/-- A block was written under VERIFY 2. -/
def State.marginAt (s : State) (p : Nat) : Bool := s.wrs.any fun w => w.spans.any fun x => x.verify == 2 && x.blks.contains p

/-- R300 on the codewords of a block. -/
def verdict (s : State) (margin : Bool) (kind wseq : Nat) (l : List CwOut) : Verdict :=
  let limit := if margin then s.get WRS_VFY_MARGINIT else s.get WRS_VFY_VFYIT
  if l.any fun c => (tagCond c.tag == cERASED || tagCond c.tag == cLOST) && c.zero then .inconclusive
  else if l.all fun c => (tagCond c.tag == cCLEAN || tagCond c.tag == cCORR) && !tagRecon c.tag && tagIter c.tag ≤ limit
      && c.kind == kind && c.wseq == wseq then .pass
  else .fail

/-! ### What follows a pass -/

/-- What waited for a record to verify in copies 0 and 3 goes on (R144). -/
def afterRecord (c : AttCont) (s : State) : State :=
  match c with
  | .nothing => s
  | .defects layer n => syncHealth (defectsLive layer n s)
  | .ledger _ => ledgerDurable s
  | .dirty _ zone => appendJournal 2 zone s.str.wseq s
  | .ckpt n => ckptDone n s
  | .admin port cid dw0 => completeCmd port 0 cid scSuccess dw0 s

/-- A rebuilt member's replacement has verified: the GDEFECT record names it, and what of it is lost (R328, R329, R341). -/
def rebuildVerified (r : Rebuild) (q : Nat) (s : State) : State :=
  let p := s.locate r.stripe r.member
  let cause := ((s.defectOf p).map Defect.cause).getD 2
  let s := setJob r (fun r => { r with st := 3 }) s
  let s := if s.blockRetired p then addDefect ⟨p, q, 1, cause, 0, 0, false⟩ s else retireBlock p cause (some q) s
  s.when (r.lost != 0) (addDefect ⟨q, 0xFFFFFFFF, 3, 4, r.lost, 0, false⟩)

/-- A block is verified, or reported so. -/
def blockVerified (p : Nat) (s : State) : State :=
  match s.writeAt p, s.rebuildAt p, s.attAt p with
  | some (t, m), _, _ => setMem t.num m.idx (fun m => { m with st := 2 }) s
  | none, some r, _ => rebuildVerified r p s
  | none, none, some (side, c) =>
    let c := { c with unver := c.unver.filter (· != atticIndex p) }
    let s := setAttCur side (some c) s
    if c.left.isEmpty && c.unver.isEmpty then
      let r := attVerified side c s
      match r.1 with
      | some k => afterRecord k r.2
      | none => r.2
    else s
  | none, none, none => s

/-! ### Spans (R299, R472) -/

/-- Every block of a span is verified, or is not waited for any more. -/
def State.spanDone (s : State) (x : Span) : Bool := x.blks.all fun p => !s.unverifiedAt p

/-- Spans whose every block is verified leave; under VERIFY 1 a passing sample reports the clean spans before it, and unclean ones are
read back. -/
def settleSpans (h : Nat) (s : State) : State :=
  match (s.wh h).spans.findIdx? fun x => x.sampled && s.spanDone x with
  | none => s
  | some i =>
    let before := (s.wh h).spans.take i
    let report := before.filter fun x => x.clean && !x.sampled
    let s := s.setWh h fun w => { w with
      spans := before.filter (fun x => !report.contains x) ++ w.spans.drop (i + 1) }
    let s := (report.flatMap Span.blks).foldl (fun s p => s.when (s.unverifiedAt p) (blockVerified p)) s
    readBack h (fun x => before.contains x) s

/-- A block leaves its head's spans: it will be written again. -/
def dropFromSpans (h p : Nat) (s : State) : State :=
  s.setWh h fun w => { w with
    spans := (w.spans.map fun x => { x with blks := x.blks.filter (· != p) }).filter fun x => !x.blks.isEmpty }

/-! ### The verify read (R300) -/

/-- The rereads made of a block. -/
def State.rereadsAt (s : State) (p : Nat) : Nat :=
  match s.writeAt p, s.rebuildAt p, s.attAt p with
  | some (_, m), _, _ => m.rereads
  | none, some r, _ => r.rereads
  | none, none, some (_, c) => Sparse.get c.rereads p
  | none, none, none => 0
/-- A block is read again on the next revolution, or, where `again`, written again in full. -/
def retry (p n : Nat) (again : Bool) (s : State) : State :=
  match s.writeAt p, s.rebuildAt p, s.attAt p with
  | some (t, m), _, _ => setMem t.num m.idx (fun m => { m with rereads := n, st := if again then 0 else m.st }) s
  | none, some r, _ => setJob r (fun r => { r with rereads := n, st := if again then 1 else r.st }) s
  | none, none, some (side, c) =>
    let c := { c with rereads := Sparse.set c.rereads p n }
    let i := atticIndex p
    setAttCur side (some (if again then { c with left := c.left ++ [i], unver := c.unver.filter (· != i) } else c)) s
  | none, none, none => s

/-- A block fails verify: the spans that waited for the sample are read back; it is written again within its three attempts, or fails. -/
def verifyFails (h p : Nat) (s : State) : State :=
  let s := readBack h (fun _ => true) (dropFromSpans h p (s.inc (WRS_VCNT_VFAIL h)))
  if s.triesAt p < 3 then
    let a := s.blockAhead h p
    submit .writeWin h (tickAfter s.now) ((a.2 - a.1).toNat + 2 * wedgeAu) 0 (retry p 0 true (s.inc (WRS_VCNT_REWRITE h)))
  else failBlock h p s

/-- VERIFY_RESULT: the verify read of a block by its head has ended; the verdict is R300's on the tagged codewords. An inconclusive block
is read again up to REREAD times, a failed one written again within three attempts, then it fails. -/
def execVerifyResult (h : Head) (pba : BitVec 32) (s : State) : Res :=
  let p := pba.toNat
  let mine := fun (c : CwOut) => c.pba == p && c.act == 7
  let l := s.cwd.out.filter mine
  let whole := (List.range 16).all fun i => l.any fun c => c.cwix == i
  s.doIf (s.applied && s.unverifiedAt p && whole) fun s =>
    let s := s.setCwd fun c => { c with out := c.out.filter fun o => !mine o }
    let w := (s.blockWords p).headD (0, 0, 0)
    let v := verdict s (s.marginAt p) w.1 w.2.1 l
    let s := s.when (v == .inconclusive) fun s => s.inc (WRS_VCNT_INCONCL h)
    let n := s.rereadsAt p
    if v == .inconclusive && n < s.get WRS_VFY_REREAD then askReread h [p] (retry p (n + 1) false s)
    else if v == .pass then leaveProgress h (settleSpans h (blockVerified p s))
    else leaveProgress h (verifyFails h p s)

end Sys2Proof.Machine
end

