-- ==== Sys2Proof/Machine/Dispatch.lean ====
section
/-! DEFINITION. The one place where a command meets its meaning: one arm per row of the table. -/

namespace Sys2Proof.Machine

/-- The effect of a command on everything but the queue. -/
def exec (i : Instr) (s : State) : Host.Outcome State Fault Refusal :=
  match i with
  | .vinPowerGood => Sys2Proof.Machine.execVinPowerGood s
  | .powerGoodFusesLoaded => Sys2Proof.Machine.execPowerGoodFusesLoaded s
  | .regulatorFault rail => Sys2Proof.Machine.execRegulatorFault rail s
  | .regulatorRestart => Sys2Proof.Machine.execRegulatorRestart s
  | .vinHoldUp => Sys2Proof.Machine.execVinHoldUp s
  | .vinBrownOut => Sys2Proof.Machine.execVinBrownOut s
  | .underVoltageLockout => Sys2Proof.Machine.execUnderVoltageLockout s
  | .vinRecovered => Sys2Proof.Machine.execVinRecovered s
  | .sysResetFull p v => Sys2Proof.Machine.execSysResetFull p v s
  | .fullResetComplete => Sys2Proof.Machine.execFullResetComplete s
  | .pcieLinkUp p width speed => Sys2Proof.Machine.execPcieLinkUp p width speed s
  | .pcieLinkDown p ltssm => Sys2Proof.Machine.execPcieLinkDown p ltssm s
  | .perst p => Sys2Proof.Machine.execPerst p s
  | .functionLevelReset p => Sys2Proof.Machine.execFunctionLevelReset p s
  | .controllerReset p => Sys2Proof.Machine.execControllerReset p s
  | .controllerEnable p asqs acqs wrr => Sys2Proof.Machine.execControllerEnable p asqs acqs wrr s
  | .normalShutdown p => Sys2Proof.Machine.execNormalShutdown p s
  | .linkLossTimeout p => Sys2Proof.Machine.execLinkLossTimeout p s
  | .freezePin => Sys2Proof.Machine.execFreezePin s
  | .lsrEnFall => Sys2Proof.Machine.execLsrEnFall s
  | .lsrEnRise => Sys2Proof.Machine.execLsrEnRise s
  | .cartSeatedAsserted => Sys2Proof.Machine.execCartSeatedAsserted s
  | .cartSeatedDeasserted => Sys2Proof.Machine.execCartSeatedDeasserted s
  | .safestop p v => Sys2Proof.Machine.execSafestop p v s
  | .resume p v => Sys2Proof.Machine.execResume p v s
  | .triggerResolution => Sys2Proof.Machine.execTriggerResolution s
  | .parkComplete => Sys2Proof.Machine.execParkComplete s
  | .cnvLoad p v => Sys2Proof.Machine.execCnvLoad p v s
  | .cnvApply p v => Sys2Proof.Machine.execCnvApply p v s
  | .cnvAbort p v => Sys2Proof.Machine.execCnvAbort p v s
  | .canvasFetchDone image ok => Sys2Proof.Machine.execCanvasFetchDone image ok s
  | .canvasValidationDone us => Sys2Proof.Machine.execCanvasValidationDone us s
  | .memTrainingDone trained gib us => Sys2Proof.Machine.execMemTrainingDone trained gib us s
  | .canvasCommitDone us => Sys2Proof.Machine.execCanvasCommitDone us s
  | .enumNopRetry h => Sys2Proof.Machine.execEnumNopRetry h s
  | .enumWaitExpired h => Sys2Proof.Machine.execEnumWaitExpired h s
  | .pickupResponse h resp => Sys2Proof.Machine.execPickupResponse h resp s
  | .pickupResponseTimeout h => Sys2Proof.Machine.execPickupResponseTimeout h s
  | .pickupLinkError h => Sys2Proof.Machine.execPickupLinkError h s
  | .statusPoll h => Sys2Proof.Machine.execStatusPoll h s
  | .pickupTempRead h => Sys2Proof.Machine.execPickupTempRead h s
  | .opuLinkcmd p h v => Sys2Proof.Machine.execOpuLinkcmd p h v s
  | .loffWrite p h v => Sys2Proof.Machine.execLoffWrite p h v s
  | .lpmonFault h => Sys2Proof.Machine.execLpmonFault h s
  | .laserStaggerNext => Sys2Proof.Machine.execLaserStaggerNext s
  | .servoSample x => Sys2Proof.Machine.execServoSample x s
  | .loopHold l => Sys2Proof.Machine.execLoopHold l s
  | .loopResume l => Sys2Proof.Machine.execLoopResume l s
  | .loopFail l => Sys2Proof.Machine.execLoopFail l s
  | .srvUnitOffline p v => Sys2Proof.Machine.execSrvUnitOffline p v s
  | .srvUnitRestore p v => Sys2Proof.Machine.execSrvUnitRestore p v s
  | .srvUnitRestoreDone u pass => Sys2Proof.Machine.execSrvUnitRestoreDone u pass s
  | .speedBandChange => Sys2Proof.Machine.execSpeedBandChange s
  | .tick => Sys2Proof.Machine.execTick s
  | .wedgeBoundary h => Sys2Proof.Machine.execWedgeBoundary h s
  | .wlidDecoded h bits minfo => Sys2Proof.Machine.execWlidDecoded h bits minfo s
  | .tridDecoded h trids => Sys2Proof.Machine.execTridDecoded h trids s
  | .markDecoded h wedge word rate rev => Sys2Proof.Machine.execMarkDecoded h wedge word rate rev s
  | .markEntry h => Sys2Proof.Machine.execMarkEntry h s
  | .slewComplete => Sys2Proof.Machine.execSlewComplete s
  | .markLoss => Sys2Proof.Machine.execMarkLoss s
  | .coarseEntry rate => Sys2Proof.Machine.execCoarseEntry rate s
  | .coarseLoss => Sys2Proof.Machine.execCoarseLoss s
  | .wobbleLock e rate => Sys2Proof.Machine.execWobbleLock e rate s
  | .wobbleLockLoss => Sys2Proof.Machine.execWobbleLockLoss s
  | .wobbleRefSwitch => Sys2Proof.Machine.execWobbleRefSwitch s
  | .rampSettled => Sys2Proof.Machine.execRampSettled s
  | .angAlarmArm p v => Sys2Proof.Machine.execAngAlarmArm p v s
  | .alarm => Sys2Proof.Machine.execAlarm s
  | .measurementWindowEnd m => Sys2Proof.Machine.execMeasurementWindowEnd m s
  | .sktStage p v => Sys2Proof.Machine.execSktStage p v s
  | .sktCancel p v => Sys2Proof.Machine.execSktCancel p v s
  | .sktClear p v => Sys2Proof.Machine.execSktClear p v s
  | .varnishArm p v => Sys2Proof.Machine.execVarnishArm p v s
  | .varnishDistributed => Sys2Proof.Machine.execVarnishDistributed s
  | .varnishFinalCheck => Sys2Proof.Machine.execVarnishFinalCheck s
  | .varnishCommit => Sys2Proof.Machine.execVarnishCommit s
  | .focusAcquisition h => Sys2Proof.Machine.execFocusAcquisition h s
  | .focusSettled h => Sys2Proof.Machine.execFocusSettled h s
  | .focusAttemptFailed h => Sys2Proof.Machine.execFocusAttemptFailed h s
  | .trackCapture h land => Sys2Proof.Machine.execTrackCapture h land s
  | .trackJump h k => Sys2Proof.Machine.execTrackJump h k s
  | .trackJumpDone h g => Sys2Proof.Machine.execTrackJumpDone h g s
  | .layerJump h l g => Sys2Proof.Machine.execLayerJump h l g s
  | .layerJumpDone h us => Sys2Proof.Machine.execLayerJumpDone h us s
  | .focusLoss h => Sys2Proof.Machine.execFocusLoss h s
  | .trackLoss h => Sys2Proof.Machine.execTrackLoss h s
  | .recoveryDone h ok => Sys2Proof.Machine.execRecoveryDone h ok s
  | .tiltSaFailRetry h k => Sys2Proof.Machine.execTiltSaFailRetry h k s
  | .inhibitClear h c => Sys2Proof.Machine.execInhibitClear h c s
  | .srvHctrlWinh p h v => Sys2Proof.Machine.execSrvHctrlWinh p h v s
  | .shockSensorRead axial radial => Sys2Proof.Machine.execShockSensorRead axial radial s
  | .sledStep h => Sys2Proof.Machine.execSledStep h s
  | .classDSeek h g => Sys2Proof.Machine.execClassDSeek h g s
  | .classSSeek h k => Sys2Proof.Machine.execClassSSeek h k s
  | .sldHseek p h v => Sys2Proof.Machine.execSldHseek p h v s
  | .seekComplete h => Sys2Proof.Machine.execSeekComplete h s
  | .sledFollowStep h => Sys2Proof.Machine.execSledFollowStep h s
  | .searchTimeout h => Sys2Proof.Machine.execSearchTimeout h s
  | .pwmPeriod x => Sys2Proof.Machine.execPwmPeriod x s
  | .spindleFault cause => Sys2Proof.Machine.execSpindleFault cause s
  | .spinUpStart => Sys2Proof.Machine.execSpinUpStart s
  | .catchWindowEnd crossings peak rpm => Sys2Proof.Machine.execCatchWindowEnd crossings peak rpm s
  | .alignEnd => Sys2Proof.Machine.execAlignEnd s
  | .spindleHandover => Sys2Proof.Machine.execSpindleHandover s
  | .spinUpAttemptFailed => Sys2Proof.Machine.execSpinUpAttemptFailed s
  | .spindleStopped peak => Sys2Proof.Machine.execSpindleStopped peak s
  | .spnTestWrite p v => Sys2Proof.Machine.execSpnTestWrite p v s
  | .speedrefDecode x => Sys2Proof.Machine.execSpeedrefDecode x s
  | .speedrefAdopt => Sys2Proof.Machine.execSpeedrefAdopt s
  | .laneFailure l => Sys2Proof.Machine.execLaneFailure l s
  | .laneSpare p v => Sys2Proof.Machine.execLaneSpare p v s
  | .laneRestore p v => Sys2Proof.Machine.execLaneRestore p v s
  | .laneEye p v => Sys2Proof.Machine.execLaneEye p v s
  | .laneSelftestDone pass => Sys2Proof.Machine.execLaneSelftestDone pass s
  | .laneAcquired l => Sys2Proof.Machine.execLaneAcquired l s
  | .calShadow l => Sys2Proof.Machine.execCalShadow l s
  | .timingLock l err => Sys2Proof.Machine.execTimingLock l err s
  | .timingLockLoss l err => Sys2Proof.Machine.execTimingLockLoss l err s
  | .eqReload h track o => Sys2Proof.Machine.execEqReload h track o s
  | .eyeSweepDone errs => Sys2Proof.Machine.execEyeSweepDone errs s
  | .qualityUpdate h => Sys2Proof.Machine.execQualityUpdate h s
  | .codewordRelease pba cwix soft => Sys2Proof.Machine.execCodewordRelease pba cwix soft s
  | .decodeComplete d x conv iters => Sys2Proof.Machine.execDecodeComplete d x conv iters s
  | .decoderTimeout d => Sys2Proof.Machine.execDecoderTimeout d s
  | .decoderOffline p v => Sys2Proof.Machine.execDecoderOffline p v s
  | .decoderRestore p v => Sys2Proof.Machine.execDecoderRestore p v s
  | .decoderBistDone d pass => Sys2Proof.Machine.execDecoderBistDone d pass s
  | .windowOpen h act blocks os => Sys2Proof.Machine.execWindowOpen h act blocks os s
  | .windowClose h => Sys2Proof.Machine.execWindowClose h s
  | .levelsSent h => Sys2Proof.Machine.execLevelsSent h s
  | .opcRun h l b => Sys2Proof.Machine.execOpcRun h l b s
  | .opcReadbackDone h r0 r1 => Sys2Proof.Machine.execOpcReadbackDone h r0 r1 s
  | .wrsOpcctl p v => Sys2Proof.Machine.execWrsOpcctl p v s
  | .verifyResult h pba => Sys2Proof.Machine.execVerifyResult h pba s
  | .stripeOpen nsid zone us => Sys2Proof.Machine.execStripeOpen nsid zone us s
  | .gatherTimeout nsid => Sys2Proof.Machine.execGatherTimeout nsid s
  | .stripeWritten stripe => Sys2Proof.Machine.execStripeWritten stripe s
  | .stripeVerified stripe => Sys2Proof.Machine.execStripeVerified stripe s
  | .stripeCommit stripe => Sys2Proof.Machine.execStripeCommit stripe s
  | .stripeVoid stripe => Sys2Proof.Machine.execStripeVoid stripe s
  | .memberArrival stripe member planned tags words => Sys2Proof.Machine.execMemberArrival stripe member planned tags words s
  | .slowMemberDeadline stripe => Sys2Proof.Machine.execSlowMemberDeadline stripe s
  | .rebuildStart => Sys2Proof.Machine.execRebuildStart s
  | .rebuildComplete stripe member => Sys2Proof.Machine.execRebuildComplete stripe member s
  | .checkpoint => Sys2Proof.Machine.execCheckpoint s
  | .checkpointTimer => Sys2Proof.Machine.execCheckpointTimer s
  | .mapDemandLoad nsid page o => Sys2Proof.Machine.execMapDemandLoad nsid page o s
  | .mapPageLoaded nsid page us => Sys2Proof.Machine.execMapPageLoaded nsid page us s
  | .cleaning nsid => Sys2Proof.Machine.execCleaning nsid s
  | .ledgerTimer l => Sys2Proof.Machine.execLedgerTimer l s
  | .readConfirm pba cwix => Sys2Proof.Machine.execReadConfirm pba cwix s
  | .layerFailed l => Sys2Proof.Machine.execLayerFailed l s
  | .patrolLapEnd sec => Sys2Proof.Machine.execPatrolLapEnd sec s
  | .refresh => Sys2Proof.Machine.execRefresh s
  | .hltCtrlRestart p v => Sys2Proof.Machine.execHltCtrlRestart p v s
  | .hltCtrlPause p v => Sys2Proof.Machine.execHltCtrlPause p v s
  | .calDue h l => Sys2Proof.Machine.execCalDue h l s
  | .calSweepDone h l r => Sys2Proof.Machine.execCalSweepDone h l r s
  | .calCtl p v => Sys2Proof.Machine.execCalCtl p v s
  | .fullCalLayerDone h l => Sys2Proof.Machine.execFullCalLayerDone h l s
  | .custodyArbitration => Sys2Proof.Machine.execCustodyArbitration s
  | .namespaceSwapEnd nsid expired => Sys2Proof.Machine.execNamespaceSwapEnd nsid expired s
  | .sqDoorbell p qid tail => Sys2Proof.Machine.execSqDoorbell p qid tail s
  | .deleteIoSq p cid qid => Sys2Proof.Machine.execDeleteIoSq p cid qid s
  | .createIoSq p cid qid size cqid prio => Sys2Proof.Machine.execCreateIoSq p cid qid size cqid prio s
  | .getLogPage p cid lid nsid off len rae => Sys2Proof.Machine.execGetLogPage p cid lid nsid off len rae s
  | .deleteIoCq p cid qid => Sys2Proof.Machine.execDeleteIoCq p cid qid s
  | .createIoCq p cid qid size vec => Sys2Proof.Machine.execCreateIoCq p cid qid size vec s
  | .identify p cid cns csi nsid cntid => Sys2Proof.Machine.execIdentify p cid cns csi nsid cntid s
  | .abort p cid sqid target => Sys2Proof.Machine.execAbort p cid sqid target s
  | .setFeatures p cid fid nsid val sv => Sys2Proof.Machine.execSetFeatures p cid fid nsid val sv s
  | .getFeatures p cid fid nsid sel val => Sys2Proof.Machine.execGetFeatures p cid fid nsid sel val s
  | .asynchronousEventRequest p cid => Sys2Proof.Machine.execAsynchronousEventRequest p cid s
  | .namespaceCreate p cid n => Sys2Proof.Machine.execNamespaceCreate p cid n s
  | .namespaceDelete p cid nsid => Sys2Proof.Machine.execNamespaceDelete p cid nsid s
  | .namespaceAttachment p cid nsid detach ctrls => Sys2Proof.Machine.execNamespaceAttachment p cid nsid detach ctrls s
  | .keyDeliver p cid payload => Sys2Proof.Machine.execKeyDeliver p cid payload s
  | .kekInstall p cid payload => Sys2Proof.Machine.execKekInstall p cid payload s
  | .keyPurge p cid nsid => Sys2Proof.Machine.execKeyPurge p cid nsid s
  | .securityReceive p cid proto spsp => Sys2Proof.Machine.execSecurityReceive p cid proto spsp s
  | .sanitize p cid cdw10 => Sys2Proof.Machine.execSanitize p cid cdw10 s
  | .sanitizeStepDone ok => Sys2Proof.Machine.execSanitizeStepDone ok s
  | .sanitizeResume => Sys2Proof.Machine.execSanitizeResume s
  | .mount p cid cdw10 => Sys2Proof.Machine.execMount p cid cdw10 s
  | .mountStepDone => Sys2Proof.Machine.execMountStepDone s
  | .atticPart1Done => Sys2Proof.Machine.execAtticPart1Done s
  | .atticPart2Done => Sys2Proof.Machine.execAtticPart2Done s
  | .resyncDone => Sys2Proof.Machine.execResyncDone s
  | .mountFailure cause => Sys2Proof.Machine.execMountFailure cause s
  | .unmount p cid cdw10 => Sys2Proof.Machine.execUnmount p cid cdw10 s
  | .unmountStepDone => Sys2Proof.Machine.execUnmountStepDone s
  | .calibrate p cid cdw10 => Sys2Proof.Machine.execCalibrate p cid cdw10 s
  | .patrolQuery p cid => Sys2Proof.Machine.execPatrolQuery p cid s
  | .patrolPause p cid => Sys2Proof.Machine.execPatrolPause p cid s
  | .patrolResume p cid => Sys2Proof.Machine.execPatrolResume p cid s
  | .patrolRestart p cid => Sys2Proof.Machine.execPatrolRestart p cid s
  | .custodyQuery p cid nsid => Sys2Proof.Machine.execCustodyQuery p cid nsid s
  | .custodyRequest p cid nsid target => Sys2Proof.Machine.execCustodyRequest p cid nsid target s
  | .mode p cid cdw10 => Sys2Proof.Machine.execMode p cid cdw10 s
  | .unsupportedOpcode p qid cid op => Sys2Proof.Machine.execUnsupportedOpcode p qid cid op s
  | .flush c => Sys2Proof.Machine.execFlush c s
  | .write c data ls => Sys2Proof.Machine.execWrite c data ls s
  | .read c fua os => Sys2Proof.Machine.execRead c fua os s
  | .writeZeroes c => Sys2Proof.Machine.execWriteZeroes c s
  | .datasetManagement c ad ranges => Sys2Proof.Machine.execDatasetManagement c ad ranges s
  | .verify c => Sys2Proof.Machine.execVerify c s
  | .zoneOpen c all => Sys2Proof.Machine.execZoneOpen c all s
  | .zoneClose c all => Sys2Proof.Machine.execZoneClose c all s
  | .zoneFinish c all => Sys2Proof.Machine.execZoneFinish c all s
  | .zoneReset c all => Sys2Proof.Machine.execZoneReset c all s
  | .reportZones c opt len => Sys2Proof.Machine.execReportZones c opt len s
  | .zoneAppend c data ls => Sys2Proof.Machine.execZoneAppend c data ls s
  | .rangeLockRelease => Sys2Proof.Machine.execRangeLockRelease s
  | .bar2Read p off reach o l => Sys2Proof.Machine.execBar2Read p off reach o l s
  | .bar2Write p off data reach os ls => Sys2Proof.Machine.execBar2Write p off data reach os ls s
  | .sweepComplete pulls => Sys2Proof.Machine.execSweepComplete pulls s
  | .scrubSlot os => Sys2Proof.Machine.execScrubSlot os s
  | .scrubLapEnd lap => Sys2Proof.Machine.execScrubLapEnd lap s
  | .ceBucketLeak => Sys2Proof.Machine.execCeBucketLeak s
  | .memoryErrorWindow n => Sys2Proof.Machine.execMemoryErrorWindow n s
  | .refreshRatePoll rates => Sys2Proof.Machine.execRefreshRatePoll rates s
  | .larderWayFault w line dirty => Sys2Proof.Machine.execLarderWayFault w line dirty s
  | .larderWayCeWindow w k n block => Sys2Proof.Machine.execLarderWayCeWindow w k n block s
  | .larderWayCleaned w => Sys2Proof.Machine.execLarderWayCleaned w s
  | .lrdWayOffline p v => Sys2Proof.Machine.execLrdWayOffline p v s
  | .lrdWayRestore p v => Sys2Proof.Machine.execLrdWayRestore p v s
  | .lrdWayBistDone pass => Sys2Proof.Machine.execLrdWayBistDone pass s
  | .lrdDisable p v => Sys2Proof.Machine.execLrdDisable p v s
  | .lrdEnable p v => Sys2Proof.Machine.execLrdEnable p v s
  | .larderDisabled => Sys2Proof.Machine.execLarderDisabled s
  | .nop q w => Sys2Proof.Machine.execNop q w s
  | .mov q w => Sys2Proof.Machine.execMov q w s
  | .add q w => Sys2Proof.Machine.execAdd q w s
  | .sub q w => Sys2Proof.Machine.execSub q w s
  | .and q w => Sys2Proof.Machine.execAnd q w s
  | .or q w => Sys2Proof.Machine.execOr q w s
  | .xor q w => Sys2Proof.Machine.execXor q w s
  | .shl q w => Sys2Proof.Machine.execShl q w s
  | .shr q w => Sys2Proof.Machine.execShr q w s
  | .cmp q w => Sys2Proof.Machine.execCmp q w s
  | .ld q w => Sys2Proof.Machine.execLd q w s
  | .st q w => Sys2Proof.Machine.execSt q w s
  | .deq q w => Sys2Proof.Machine.execDeq q w s
  | .enq q w => Sys2Proof.Machine.execEnq q w s
  | .waitq q w => Sys2Proof.Machine.execWaitq q w s
  | .waita q w cls owner target len rank exempt => Sys2Proof.Machine.execWaita q w cls owner target len rank exempt s
  | .bar q w => Sys2Proof.Machine.execBar q w s
  | .call q w => Sys2Proof.Machine.execCall q w s
  | .ret q w => Sys2Proof.Machine.execRet q w s
  | .br q w => Sys2Proof.Machine.execBr q w s
  | .mchk q w => Sys2Proof.Machine.execMchk q w s
  | .queueWaitEnd q k desc => Sys2Proof.Machine.execQueueWaitEnd q k desc s
  | .barrierComplete mask => Sys2Proof.Machine.execBarrierComplete mask s
  | .angleGrant idx => Sys2Proof.Machine.execAngleGrant idx s
  | .machineCheck q cause scan => Sys2Proof.Machine.execMachineCheck q cause scan s
  | .romScanLap => Sys2Proof.Machine.execRomScanLap s
  | .dmaStart p c v => Sys2Proof.Machine.execDmaStart p c v s
  | .dmaPause p c v out => Sys2Proof.Machine.execDmaPause p c v out s
  | .dmaResume p c v => Sys2Proof.Machine.execDmaResume p c v s
  | .dmaAbort p c v => Sys2Proof.Machine.execDmaAbort p c v s
  | .dmaHalf c => Sys2Proof.Machine.execDmaHalf c s
  | .dmaDone c => Sys2Proof.Machine.execDmaDone c s
  | .dmaError c err o l => Sys2Proof.Machine.execDmaError c err o l s
  | .dmaFifoPacket c => Sys2Proof.Machine.execDmaFifoPacket c s
  | .fifDrop p v => Sys2Proof.Machine.execFifDrop p v s
  | .fifDataRead p f o => Sys2Proof.Machine.execFifDataRead p f o s
  | .fifTcfgWrite p v => Sys2Proof.Machine.execFifTcfgWrite p v s
  | .telemetrySample => Sys2Proof.Machine.execTelemetrySample s
  | .governorDemand => Sys2Proof.Machine.execGovernorDemand s
  | .thmDemand p v => Sys2Proof.Machine.execThmDemand p v s
  | .dieConversionDone codes us => Sys2Proof.Machine.execDieConversionDone codes us s
  | .sensorSuspect k code => Sys2Proof.Machine.execSensorSuspect k code s
  | .dutyUpdate => Sys2Proof.Machine.execDutyUpdate s
  | .dieBandChange => Sys2Proof.Machine.execDieBandChange s
  | .thermalComparatorTrip => Sys2Proof.Machine.execThermalComparatorTrip s
  | .celRead p v => Sys2Proof.Machine.execCelRead p v s
  | .celProgram p v => Sys2Proof.Machine.execCelProgram p v s
  | .celErase p v => Sys2Proof.Machine.execCelErase p v s
  | .cellarOpComplete ok => Sys2Proof.Machine.execCellarOpComplete ok s
  | .cellarEraseRequest ledger => Sys2Proof.Machine.execCellarEraseRequest ledger s
  | .celUnlock p v recent => Sys2Proof.Machine.execCelUnlock p v recent s
  | .celLock p v => Sys2Proof.Machine.execCelLock p v s
  | .celSetpw p v => Sys2Proof.Machine.execCelSetpw p v s
  | .celSetprot p v => Sys2Proof.Machine.execCelSetprot p v s
  | .dbgUnlock p v recent => Sys2Proof.Machine.execDbgUnlock p v recent s
  | .debugPortOpen => Sys2Proof.Machine.execDebugPortOpen s
  | .idcode => Sys2Proof.Machine.execIdcode s
  | .samplePreload balls cells => Sys2Proof.Machine.execSamplePreload balls cells s
  | .extest balls cells => Sys2Proof.Machine.execExtest balls cells s
  | .clamp => Sys2Proof.Machine.execClamp s
  | .highz => Sys2Proof.Machine.execHighz s
  | .tapUnlock pw recent => Sys2Proof.Machine.execTapUnlock pw recent s
  | .dstat => Sys2Proof.Machine.execDstat s
  | .scanout capture n => Sys2Proof.Machine.execScanout capture n s
  | .fullrst => Sys2Proof.Machine.execFullrst s
  | .tfreeze => Sys2Proof.Machine.execTfreeze s
  | .bypass code => Sys2Proof.Machine.execBypass code s
  | .trst => Sys2Proof.Machine.execTrst s
  | .fltHeadOffline p v => Sys2Proof.Machine.execFltHeadOffline p v s
  | .fltHeadRestore p v => Sys2Proof.Machine.execFltHeadRestore p v s
  | .rampwaitEnd => Sys2Proof.Machine.execRampwaitEnd s
  | .headLeaveDone h => Sys2Proof.Machine.execHeadLeaveDone h s
  | .headJoinDone h => Sys2Proof.Machine.execHeadJoinDone h s
  | .readbackDone => Sys2Proof.Machine.execReadbackDone s
  | .registerWrite p off v whole out recent => Sys2Proof.Machine.execRegisterWrite p off v whole out recent s
  | .loRegisterRead p which viaAlias => Sys2Proof.Machine.execLoRegisterRead p which viaAlias s
  | .angLockRead p => Sys2Proof.Machine.execAngLockRead p s
  | .angEvtRead p => Sys2Proof.Machine.execAngEvtRead p s
  | .angQwinRead p => Sys2Proof.Machine.execAngQwinRead p s
  | .sktCntRead p => Sys2Proof.Machine.execSktCntRead p s
  | .opuHstatRead p h => Sys2Proof.Machine.execOpuHstatRead p h s
  | .opuLinkrspRead p h => Sys2Proof.Machine.execOpuLinkrspRead p h s
  | .opuGstatRead p => Sys2Proof.Machine.execOpuGstatRead p s
  | .srvLstatRead p l => Sys2Proof.Machine.execSrvLstatRead p l s
  | .srvArithRead p l => Sys2Proof.Machine.execSrvArithRead p l s
  | .srvHcntRead p h => Sys2Proof.Machine.execSrvHcntRead p h s
  | .srvTqwinRead p h => Sys2Proof.Machine.execSrvTqwinRead p h s
  | .srvShkstRead p => Sys2Proof.Machine.execSrvShkstRead p s
  | .sldCntRead p h => Sys2Proof.Machine.execSldCntRead p h s
  | .spnDistRead p => Sys2Proof.Machine.execSpnDistRead p s
  | .chnLstatRead p l => Sys2Proof.Machine.execChnLstatRead p l s
  | .detHcntRead p h => Sys2Proof.Machine.execDetHcntRead p h s
  | .detPassRead p h => Sys2Proof.Machine.execDetPassRead p h s
  | .cwdQueueRead p => Sys2Proof.Machine.execCwdQueueRead p s
  | .cwdTagcntRead p => Sys2Proof.Machine.execCwdTagcntRead p s
  | .cwdCntRead p => Sys2Proof.Machine.execCwdCntRead p s
  | .wrsHstatRead p h => Sys2Proof.Machine.execWrsHstatRead p h s
  | .wrsOpcstRead p h => Sys2Proof.Machine.execWrsOpcstRead p h s
  | .wrsVcntRead p h => Sys2Proof.Machine.execWrsVcntRead p h s
  | .strCntRead p => Sys2Proof.Machine.execStrCntRead p s
  | .strReconRead p => Sys2Proof.Machine.execStrReconRead p s
  | .strSlowRead p => Sys2Proof.Machine.execStrSlowRead p s
  | .strRbRead p => Sys2Proof.Machine.execStrRbRead p s
  | .mapDfRead p => Sys2Proof.Machine.execMapDfRead p s
  | .mapDfmaxRead p => Sys2Proof.Machine.execMapDfmaxRead p s
  | .mapCkptRead p => Sys2Proof.Machine.execMapCkptRead p s
  | .mapCleanRead p => Sys2Proof.Machine.execMapCleanRead p s
  | .hltRefqRead p => Sys2Proof.Machine.execHltRefqRead p s
  | .hltCntRead p => Sys2Proof.Machine.execHltCntRead p s
  | .hltLedgRead p => Sys2Proof.Machine.execHltLedgRead p s
  | .calCntRead p => Sys2Proof.Machine.execCalCntRead p s
  | .hstPortRead p x => Sys2Proof.Machine.execHstPortRead p x s
  | .hstInflRead p x => Sys2Proof.Machine.execHstInflRead p x s
  | .hstCustRead p => Sys2Proof.Machine.execHstCustRead p s
  | .hstRlockRead p => Sys2Proof.Machine.execHstRlockRead p s
  | .hstErrcntRead p => Sys2Proof.Machine.execHstErrcntRead p s
  | .memSweepRead p => Sys2Proof.Machine.execMemSweepRead p s
  | .memCeBucketRead p => Sys2Proof.Machine.execMemCeBucketRead p s
  | .memCecntRead p => Sys2Proof.Machine.execMemCecntRead p s
  | .memUecntRead p => Sys2Proof.Machine.execMemUecntRead p s
  | .memBar2Read p => Sys2Proof.Machine.execMemBar2Read p s
  | .lrdHitsRead p => Sys2Proof.Machine.execLrdHitsRead p s
  | .lrdMissesRead p => Sys2Proof.Machine.execLrdMissesRead p s
  | .lrdSeqcntRead p => Sys2Proof.Machine.execLrdSeqcntRead p s
  | .lrdErrRead p => Sys2Proof.Machine.execLrdErrRead p s
  | .seqHitsRead p q => Sys2Proof.Machine.execSeqHitsRead p q s
  | .fifLostRead p f => Sys2Proof.Machine.execFifLostRead p f s
  | .sysModeStRead p => Sys2Proof.Machine.execSysModeStRead p s
  | .pwrVinRead p => Sys2Proof.Machine.execPwrVinRead p s
  | .pwrEvtRead p => Sys2Proof.Machine.execPwrEvtRead p s
  | .thmCntRead p => Sys2Proof.Machine.execThmCntRead p s
  | .fltStatRead p => Sys2Proof.Machine.execFltStatRead p s
  | .celCntRead p => Sys2Proof.Machine.execCelCntRead p s
  | .secCntRead p => Sys2Proof.Machine.execSecCntRead p s
  | .patrolIdleStart => Sys2Proof.Machine.execPatrolIdleStart s
  | .vinSample mv => Sys2Proof.Machine.execVinSample mv s
  | .dmaReadCompletion c n data left => Sys2Proof.Machine.execDmaReadCompletion c n data left s

end Sys2Proof.Machine
end

