-- ==== Sys2Proof/Safety.lean ====
section
/-! DEFINITION. The terms statements use: when a port's access reaches a register, what a command leaves alone, which commands store
into buffer memory. -/

namespace Sys2Proof.Machine

open R

/-- A write of the vendor window by port `p` takes effect (R24, R94, R375): clocks run, the port is enabled or the state is BARE, `p` holds
management custody, and in BARE the register is live. -/
def State.reaches (s : State) (p : Nat) (live : Bool) : Bool :=
  s.on && (s.life == BARE || (s.queueCfg p).enable) && s.mgmt == some p && (s.life != BARE || live)

/-- A read of the register at `off` by port `p` is the custodian's, of a register that is live (R94, R564). -/
def State.reads (s : State) (p off : Nat) : Bool := s.portOn p && s.liveAt off && s.mgmt == some p

/-- `t` differs from `s` in the register file only, and there only in the fields listed. -/
def State.sameBut (s t : State) (l : List Fld) : Prop :=
  t = { s with rf := t.rf } ∧ ∀ f : Fld, (∀ g ∈ l, g.key ≠ f.key) → t.get f = s.get f

/-- The commands that store into buffer memory (host data, DMA, BAR2, tags of codewords), let a waiting Write do so, or lose it with the MEM
domain. -/
def storesMemory : Instr → Bool
  | .bar2Write .. | .dmaReadCompletion .. | .dmaFifoPacket .. => true
  | .codewordRelease .. | .decodeComplete .. | .memberArrival .. | .slowMemberDeadline .. => true
  | .flush .. | .read .. | .verify .. | .write .. | .zoneAppend .. | .writeZeroes .. | .datasetManagement .. => true
  | .zoneOpen .. | .zoneClose .. | .zoneFinish .. | .zoneReset .. | .rangeLockRelease | .mapPageLoaded .. => true
  | .deleteIoSq .. | .abort .. => true
  | .powerGoodFusesLoaded | .regulatorFault _ | .underVoltageLockout | .fullResetComplete => true
  | _ => false

/-- The state in which the I/O command `x` in flight has taken its range-lock entry (R396). -/
def lockIo (x : HCmd) (u : State) : State := syncLocks (updCmd x.seq (fun _ => x) u)

/-- Buffer memory is in its canonical form: addresses rise, no listed byte is 0. -/
def State.memOk (s : State) : Prop := Memory.wf s.mem.bytes = true

/-- The rows that are a write of one vendor register (R24, R402), DBG_UNLOCK's aside: the port that writes and the register's offset. -/
def vendorRow : Instr → Option (Port × Nat)
  | .laneSpare p _ => some (p, CHN_LANECTL_LANE.off)
  | .laneRestore p _ => some (p, CHN_LANECTL_LANE.off)
  | .laneEye p _ => some (p, CHN_LANECTL_LANE.off)
  | .decoderOffline p _ => some (p, CWD_DECCTL_DEC.off)
  | .decoderRestore p _ => some (p, CWD_DECCTL_DEC.off)
  | .opuLinkcmd p h _ => some (p, (OPU_LINKCMD_CMD h).off)
  | .loffWrite p h _ => some (p, (OPU_CTRL_LOFF h).off)
  | .safestop p _ => some (p, SYS_CTRL_SAFESTOP.off)
  | .resume p _ => some (p, SYS_CTRL_RESUME.off)
  | .wrsOpcctl p _ => some (p, WRS_OPCCTL_GO.off)
  | .cnvLoad p _ => some (p, CNV_CTRL_LOAD.off)
  | .cnvApply p _ => some (p, CNV_CTRL_LOAD.off)
  | .cnvAbort p _ => some (p, CNV_CTRL_LOAD.off)
  | .lrdDisable p _ => some (p, LRD_CTL_DISABLE.off)
  | .lrdEnable p _ => some (p, LRD_CTL_DISABLE.off)
  | .lrdWayOffline p _ => some (p, LRD_WAYCTL_WAY.off)
  | .lrdWayRestore p _ => some (p, LRD_WAYCTL_WAY.off)
  | .hltCtrlRestart p _ => some (p, HLT_CTRL_RESTART.off)
  | .hltCtrlPause p _ => some (p, HLT_CTRL_PAUSE.off)
  | .calCtl p _ => some (p, CAL_CTL_GO.off)
  | .fltHeadOffline p _ => some (p, FLT_HEADCTL_HEAD.off)
  | .fltHeadRestore p _ => some (p, FLT_HEADCTL_HEAD.off)
  | .sktStage p _ => some (p, SKT_STAGE_VALUE.off)
  | .sktCancel p _ => some (p, SKT_CTRL_CLEAR.off)
  | .sktClear p _ => some (p, SKT_CTRL_CLEAR.off)
  | .varnishArm p _ => some (p, SKT_VARNISH_HI_TGT.off)
  | .angAlarmArm p _ => some (p, ANG_ALARM_HI_TGT.off)
  | .celRead p _ => some (p, CEL_CMD_OP.off)
  | .celProgram p _ => some (p, CEL_CMD_OP.off)
  | .celErase p _ => some (p, CEL_CMD_OP.off)
  | .celUnlock p _ _ => some (p, CEL_UNLOCK_OP.off)
  | .celLock p _ => some (p, CEL_UNLOCK_OP.off)
  | .celSetpw p _ => some (p, CEL_UNLOCK_OP.off)
  | .celSetprot p _ => some (p, CEL_UNLOCK_OP.off)
  | .sysResetFull p _ => some (p, SYS_RESET_KEY.off)
  | .fifDrop p _ => some (p, FIF_DROP_FIFO.off)
  | .dmaStart p c _ => some (p, (DMA_CTRL_START c).off)
  | .dmaPause p c _ _ => some (p, (DMA_CTRL_START c).off)
  | .dmaResume p c _ => some (p, (DMA_CTRL_START c).off)
  | .dmaAbort p c _ => some (p, (DMA_CTRL_START c).off)
  | .fifTcfgWrite p _ => some (p, FIF_TCFG_EN.off)
  | .srvHctrlWinh p h _ => some (p, (SRV_HCTRL_WINH h).off)
  | .srvUnitOffline p _ => some (p, SRV_UNITCTL_UNIT.off)
  | .srvUnitRestore p _ => some (p, SRV_UNITCTL_UNIT.off)
  | .sldHseek p h _ => some (p, (SLD_HSEEK_GO h).off)
  | .spnTestWrite p _ => some (p, SPN_TEST_EN.off)
  | .thmDemand p _ => some (p, THM_DEMAND_GO.off)
  | .registerWrite p off _ whole _ _ =>
    if whole ∧ off % 4 = 0 ∧ 0x10000 ≤ off ∧ off < 0x2000000 ∧ off ≠ DBG_UNLOCK_PW.off then some (p, off) else none
  | _ => none

/-- The rows that are a read of one vendor register (R20, R564): the port that reads and the register's offset. -/
def readsRow : Instr → Option (Port × Nat)
  | .fifDataRead p f _ => some (p, (FIF_DATA_WORD f).off)
  | .angLockRead p => some (p, (ANG_LOCK_LOSSCNT).off)
  | .angEvtRead p => some (p, (ANG_EVT_LATE).off)
  | .angQwinRead p => some (p, (ANG_QWIN_DISCARD).off)
  | .sktCntRead p => some (p, (SKT_CNT_ABORTS).off)
  | .opuHstatRead p h => some (p, (OPU_HSTAT_LINKERR h).off)
  | .opuLinkrspRead p h => some (p, (OPU_LINKRSP_DONE h).off)
  | .opuGstatRead p => some (p, (OPU_GSTAT_TRIPS).off)
  | .srvLstatRead p l => some (p, (SRV_LSTAT_HOLDS l).off)
  | .srvArithRead p l => some (p, (SRV_ARITH_SATN l).off)
  | .srvHcntRead p h => some (p, (SRV_HCNT_FLOSS h).off)
  | .srvTqwinRead p h => some (p, (SRV_TQWIN_DISCARD h).off)
  | .srvShkstRead p => some (p, (SRV_SHKST_EVENTS).off)
  | .sldCntRead p h => some (p, (SLD_CNT_SLIPS h).off)
  | .spnDistRead p => some (p, (SPN_DIST_OCN).off)
  | .chnLstatRead p l => some (p, (CHN_LSTAT_FAILCHK l).off)
  | .detHcntRead p h => some (p, (DET_HCNT_EQRELOAD h).off)
  | .detPassRead p h => some (p, (DET_PASS_PASS3 h).off)
  | .cwdQueueRead p => some (p, (CWD_QUEUE_PEAK).off)
  | .cwdTagcntRead p => some (p, (CWD_TAGCNT_LOST).off)
  | .cwdCntRead p => some (p, (CWD_CNT_OVF).off)
  | .wrsHstatRead p h => some (p, (WRS_HSTAT_CLAMP h).off)
  | .wrsOpcstRead p h => some (p, (WRS_OPCST_RUNS h).off)
  | .wrsVcntRead p h => some (p, (WRS_VCNT_VFAIL h).off)
  | .strCntRead p => some (p, (STR_CNT_COMMITS).off)
  | .strReconRead p => some (p, (STR_RECON_RECON).off)
  | .strSlowRead p => some (p, (STR_SLOW_SLOW).off)
  | .strRbRead p => some (p, (STR_RB_DONE).off)
  | .mapDfRead p => some (p, (MAP_DF_COUNT).off)
  | .mapDfmaxRead p => some (p, (MAP_DFMAX_US).off)
  | .mapCkptRead p => some (p, (MAP_CKPT_MAPCK).off)
  | .mapCleanRead p => some (p, (MAP_CLEAN_UNITS).off)
  | .hltRefqRead p => some (p, (HLT_REFQ_DROP).off)
  | .hltCntRead p => some (p, (HLT_CNT_REFRESH).off)
  | .hltLedgRead p => some (p, (HLT_LEDG_DELTAS).off)
  | .calCntRead p => some (p, (CAL_CNT_FAILS).off)
  | .hstPortRead p i => some (p, (HST_PORT_LINKDOWNS i).off)
  | .hstInflRead p i => some (p, (HST_INFL_PEAK i).off)
  | .hstCustRead p => some (p, (HST_CUST_DISCARDS).off)
  | .hstRlockRead p => some (p, (HST_RLOCK_STALLS).off)
  | .hstErrcntRead p => some (p, (HST_ERRCNT_UNREC).off)
  | .memSweepRead p => some (p, (MEM_SWEEP_PULLS).off)
  | .memCeBucketRead p => some (p, (MEM_CE_BUCKET_OVFN).off)
  | .memCecntRead p => some (p, (MEM_CECNT_CE).off)
  | .memUecntRead p => some (p, (MEM_UECNT_ADDRN).off)
  | .memBar2Read p => some (p, (MEM_BAR2_DISCARDS).off)
  | .lrdHitsRead p => some (p, (LRD_HITS_HITS).off)
  | .lrdMissesRead p => some (p, (LRD_MISSES_MISSES).off)
  | .lrdSeqcntRead p => some (p, (LRD_SEQCNT_BYPASS).off)
  | .lrdErrRead p => some (p, (LRD_ERR_UE).off)
  | .seqHitsRead p q => some (p, (SEQ_HITS_HITS q).off)
  | .fifLostRead p f => some (p, (FIF_LOST_LOST f).off)
  | .sysModeStRead p => some (p, (SYS_MODE_ST_CHANGES).off)
  | .pwrVinRead p => some (p, (PWR_VIN_MIN).off)
  | .pwrEvtRead p => some (p, (PWR_EVT_HOLDUP).off)
  | .thmCntRead p => some (p, (THM_CNT_SUSPN).off)
  | .fltStatRead p => some (p, (FLT_STAT_UNCOV).off)
  | .celCntRead p => some (p, (CEL_CNT_ERASES).off)
  | .secCntRead p => some (p, (SEC_CNT_GENMIS).off)
  | _ => none

/-- What still acts in FROZEN: the test port, a Cellar pulse begun before the freeze, the debug port's lock, the supply and the pins (R530, R532). -/
def outlivesFreeze : Instr → Bool
  | .scanout .. | .idcode | .samplePreload .. | .extest .. | .clamp | .highz | .tapUnlock .. | .dstat | .fullrst | .tfreeze | .bypass ..
  | .trst | .cellarOpComplete .. | .debugPortOpen | .regulatorFault .. | .underVoltageLockout
  | .lsrEnFall | .lsrEnRise | .cartSeatedAsserted | .cartSeatedDeasserted => true
  | _ => false

/-- What still acts in OFF: the supply's events and the pins (R543). -/
def outlivesOff : Instr → Bool
  | .vinPowerGood | .powerGoodFusesLoaded | .regulatorFault .. | .regulatorRestart | .underVoltageLockout
  | .lsrEnFall | .lsrEnRise | .cartSeatedAsserted | .cartSeatedDeasserted => true
  | _ => false

/-- A write by port `p` of the vendor window, with clocks running and the port served (R94, R375), although the other port, or none, holds custody. -/
def State.notCustodian (s : State) (p : Nat) : Bool :=
  s.on && (s.life == BARE || (s.queueCfg p).enable) && s.mgmt != some p

/-- A read of the register at `off`, live, by a port that does not hold custody (R564). -/
def State.readsAside (s : State) (p off : Nat) : Bool := s.portOn p && s.liveAt off && s.mgmt != some p

end Sys2Proof.Machine
end

