-- ==== Sys2Proof/WellFormed.lean ====
section
/-! DEFINITION. Checks on a command's operands that their types do not make: counts, ranges and uniqueness of what the outside world
supplies. The meanings are total and do not rest on them; a statement or a test that wants operands the outside can send asks for them. -/

namespace Sys2Proof

/-- The servo inputs of a tick: each head and each lane once, eight converter codes a head (Table 6.2), at most eight wobble periods (R57),
each channel bit of a head once, with codes and decisions of its six tracks (R263, R268). -/
def SampleIn.wf (x : SampleIn) : Bool :=
  decide (x.heads.map HeadIn.head).Nodup && decide (x.lanes.map LaneIn.lane).Nodup
    && decide (x.eq.map fun e => (e.head, e.bit)).Nodup && x.heads.all (fun h => h.svi.length == 8 && h.wob.length ≤ 8)
    && x.eq.all fun e => e.adc.length == 6 && e.dec.length == 6

/-- A measurement window: each layer once, with the 55 coefficients of its fit (R271). -/
def WinMeas.wf (m : WinMeas) : Bool :=
  decide (m.layers.map LayerWin.layer).Nodup && m.layers.all fun l => l.h.length == 55

/-- An entry of an I/O queue: its queue is not the admin queue. -/
def IoCmd.wf (c : IoCmd) : Bool := c.qid != 0

/-- What buffer memory returns for a block: each symbol wrong once, none by nothing (R418). -/
def BlockRead.wf (o : BlockRead) : Bool := decide (o.cells.map Prod.fst).Nodup && o.cells.all fun c => c.2 != 0

/-- A command whose operands the outside world can supply. -/
def Instr.wf (i : Instr) : Bool :=
  match i with
  | .canvasFetchDone image _ => decide (image.length < 2 ^ 23)
  | .servoSample x => x.wf
  | .measurementWindowEnd m => m.wf
  | .tridDecoded _ trids => trids.length == 6
  | .codewordRelease _ _ soft => decide (soft.length ≤ 40220)
  | .decodeComplete _ x _ _ => decide (x < 2 ^ 37632)
  | .eyeSweepDone errs => errs.length == 64
  | .dieConversionDone codes _ => codes.length == 16
  | .refreshRatePoll rates => rates.length == 4
  | .bar2Read _ _ _ o _ | .eqReload _ _ o | .mapDemandLoad _ _ o | .dmaError _ _ o _ | .fifDataRead _ _ o => o.wf
  | .windowOpen _ _ _ os | .stripeOpen _ _ os => os.all BlockRead.wf
  | .memberArrival _ _ _ tags words => tags.all BlockRead.wf && words.all BlockRead.wf
  | .bar2Write _ off data _ os _ => !data.isEmpty && decide (off.toNat + data.length ≤ 2 ^ 32) && os.all BlockRead.wf
  | .scrubSlot os => os.all BlockRead.wf
  | .dmaReadCompletion _ n _ _ => decide (0 < n) && n % 4 == 0
  | .registerWrite _ off _ _ _ _ => decide (off < 2 ^ 25)
  | .datasetManagement c _ ranges => c.wf && decide (1 ≤ ranges.length) && decide (ranges.length ≤ 256)
  | .write c data _ | .zoneAppend c data _ => c.wf && data.length == c.nlb.toNat + 1
  | .read c _ os => c.wf && os.all BlockRead.wf
  | .flush c | .verify c | .writeZeroes c | .zoneOpen c _ | .zoneClose c _ | .zoneFinish c _ | .zoneReset c _ | .reportZones c _ _ => c.wf
  | _ => true

end Sys2Proof
end

