-- ==== Sys2Proof/Certificates/Slice0/Obligations.lean ====
section
/-! DEFINITION. The statements for the provers. A clause says, for the commands of one family, when a command completes with its own
effect and what the next state is. Where the effect lies in the register file alone, `sameBut` states the frame: nothing else of the state
changes. Where a clause gives the next state whole, the frame is that equation. Waiting commands are `s.pending`. -/

set_option linter.unusedVariables false

open Sys2Proof Sys2Proof.Machine Sys2Proof.Machine.R

/-- VIN levels: what each supply event does. Each event of the supply monitor answers the next state its rule gives: VIN above power-good from OFF
starts the regulators; hold-up starts an orderly stop with cause 0x22 after write windows close and the spindle coasts; brown-out ends the
Cellar's pulse; 100 ms at 10.6 V lets the Cellar take programs again; a VIN sample moves NOW and the minimum, and one below 10.6 V starts that
time anew; the wait after a regulator fault ends. -/
def Obligations.SupplyLevelEvents : Prop :=
  (∀ (s : State), s.sys.off = true → s.sys.regFault = false →
    exec (.vinPowerGood) s = .next { s.put PWR_STAT_VINLVL 0 with sys := { s.sys with holdUp := false, brownOut := false, regWait := true } }) ∧
  (∀ (s : State), s.sys.off = true → s.sys.regFault = true →
    exec (.regulatorRestart) s = .next { s with sys := { s.sys with regFault := false, regWait := true } }) ∧
  (∀ (s : State), s.on = true → s.sys.holdUp = false →
    exec (.vinHoldUp) s = .next (let t := { s with sys := { s.sys with holdUp := true, vinOk100 := false } }
    let t := ((t.put PWR_STAT_VINLVL (if s.sys.brownOut then 2 else 1)).inc PWR_EVT_HOLDUP).put CEL_STATUS_LOWV 1
    orderlyStop 0x22 0 0 0 (celRefuse (cutWrites (fun _ => true) (spindleCoast t))))) ∧
  (∀ (s : State), s.on = true → s.sys.brownOut = false →
    exec (.vinBrownOut) s = .next (celEndPulse (({ s with sys := { s.sys with brownOut := true, vinOk100 := false } }.put PWR_STAT_VINLVL 2
    |>.inc PWR_EVT_BROWNOUT).put CEL_STATUS_LOWV 1))) ∧
  (∀ (s : State), s.on = true → s.sys.holdUp = false → s.sys.brownOut = false → s.sys.parkHeld = true →
    exec (.vinRecovered) s = .next (parkAll { s.put CEL_STATUS_LOWV 0 with sys := { s.sys with vinOk100 := true, parkHeld := false } })) ∧
  (∀ (mv : BitVec 16) (s : State), s.on = true → mv.toNat < 10600 →
    exec (.vinSample mv) s = .next (let t := (s.put PWR_VIN_NOW mv.toNat).put PWR_VIN_MIN (min (s.get PWR_VIN_MIN) mv.toNat)
    { t with sys := { t.sys with vinOk100 := false } })) ∧
  (∀ (mv : BitVec 16) (s : State), s.on = true → 10600 ≤ mv.toNat →
    ∃ t, exec (.vinSample mv) s = .next t ∧ t.get PWR_VIN_NOW = mv.toNat ∧ t.get PWR_VIN_MIN = min (s.get PWR_VIN_MIN) mv.toNat ∧
      s.sameBut t [PWR_VIN_NOW, PWR_VIN_MIN])

/-- Links, controllers and resets of a port. What each event of a host port does: link up records width and speed and may pass custody; link down,
PERST#, FLR and CC.EN 1 to 0 reset that port's host domain; CC.EN 0 to 1 gives it admin queues of the sizes AQA holds; a normal shutdown begins;
LINKLOSS asks for another custodian of every resource the port holds. -/
def Obligations.PortEvents : Prop :=
  (∀ (p : Port) (width : Fin 8) (speed : Fin 16) (s : State), s.on = true → s.flag (HST_PORT_UP p) = false →
    [1, 2, 4].contains width.val = true → 1 ≤ speed.val → speed.val ≤ 4 →
    exec (.pcieLinkUp p width speed) s = .next (passCustody (s.puts [(HST_PORT_UP p, 1), (HST_PORT_WIDTH p, width.val), (HST_PORT_SPEED p, speed.val)]))) ∧
  (∀ (p : Port) (ltssm : BitVec 24) (s : State), s.on = true → s.flag (HST_PORT_UP p) = true →
    exec (.pcieLinkDown p ltssm) s = .next ((leaveL0 p ltssm.toNat) s)) ∧
  (∀ (p : Port) (s : State), s.on = true → exec (.perst p) s = .next (portReset p s)) ∧
  (∀ (p : Port) (s : State), s.on = true → exec (.functionLevelReset p) s = .next (portReset p s)) ∧
  (∀ (p : Port) (s : State), s.on = true → s.hst.en.getD p false = true → exec (.controllerReset p) s = .next (portReset p s)) ∧
  (∀ (p : Port) (asqs acqs : Fin 4096) (wrr : Bool) (s : State), s.on = true → s.hst.en.getD p false = false →
    exec (.controllerEnable p asqs acqs wrr) s = .next (
      let s := { s with hst := { s.hst with
        en := setAt s.hst.en p true
        wasEn := setAt s.hst.wasEn p true
        ams := setAt s.hst.ams p wrr.toNat
        sqs := s.hst.sqs ++ [{ port := p, qid := 0, cqid := 0, size := asqs.val + 1 }]
        cqs := s.hst.cqs ++ [{ port := p, qid := 0, size := acqs.val + 1 }] } }
      passCustody (syncRdy p s))) ∧
  (∀ (p : Port) (s : State), s.on = true → s.hst.rdy.getD p false = true → s.hst.shst.getD p 0 = 0 →
    exec (.normalShutdown p) s = .next (
      let s := { s with hst := { s.hst with shst := setAt s.hst.shst p 1, shSeq := setAt s.hst.shSeq p s.hst.fetchSeq } }
      completeReady ((s.str.gather.map GUnit.nsid).eraseDups.foldl (fun s n => askShort n s) s))) ∧
  (∀ (p : Port) (s : State), s.applied = true → (!s.flag (HST_PORT_UP p) || (s.hst.wasEn.getD p false && !s.hst.en.getD p false)) = true →
    exec (.linkLossTimeout p) s = .next (
      let o := 1 - p.val
      let target := if s.flag (HST_PORT_UP o) && s.hst.en.getD o false then o + 1 else 3
      forUpTo 65 (fun r s => s.when (s.cust r == p.val + 1) (requestCustody ⟨r, p, target, none⟩)) s))

/-- LSR_EN, CART_SEATED and the laser monitors. LSR_EN falling trips the lasers, counts, and in a state with the Canvas applied before HALTED puts
every pair to IDLE, inhibits the present heads and stops safely with cause 0x33; rising lets LON rise; CART_SEATED falling stops safely with
cause 0x32 while a cartridge may turn; a laser monitor's fault takes the head out of service; the LASER-on stagger goes to the next head. -/
def Obligations.LaserPermitAndCartridgePins : Prop :=
  (∀ (s : State), s.sys.lsrEn = true → s.on = true →
    exec (.lsrEnFall) s = .next (let t := ((syncLonAll { s with sys := { s.sys with lsrEn := false } }).put OPU_GSTAT_LSREN 0).inc OPU_GSTAT_TRIPS
    if t.inLife [PRIMED, MOUNTING, MOUNTED, PARKING] then
      safeStop 0x33 0 0 0 (forUpTo 4 (fun h s => s.when (s.present h) fun s => raiseInhibit h icLASER (laserOff h 0x3F s))
        (forUpTo 4 pairsIdle t))
    else t)) ∧
  (∀ (s : State), s.sys.lsrEn = false → s.on = true →
    exec (.lsrEnRise) s = .next ((syncLonAll { s with sys := { s.sys with lsrEn := true } }).put OPU_GSTAT_LSREN 1)) ∧
  (∀ (s : State), exec (.cartSeatedAsserted) s = .next { s with sys := { s.sys with cartSeated := true } }) ∧
  (∀ (s : State), s.inLife [MOUNTING, MOUNTED, PARKING] = true →
    exec (.cartSeatedDeasserted) s = .next (safeStop 0x32 0 0 0 { s with sys := { s.sys with cartSeated := false } })) ∧
  (∀ (h : Head) (s : State), s.applied = true → s.present h = true → s.inSvc h = true → s.get (OPU_HSTAT_LASERON h) ≠ 0 →
    (64 ≤ (s.opuHead h).lpBad || (s.opuHead h).lpCode == 32767) = true →
    exec (.lpmonFault h) s = .next (
      let s := laserOff h 0x3F s
      let s := logFlt 5 kDEGRADE 0x03 h [ofSigned 16 (s.opuHead h).lpCode] (s.put (OPU_HSTAT_LPERR h) 1)
      headFault h (0x40 + 5) 0x03 s)) ∧
  (∀ (s : State), s.inLife [MOUNTING, MOUNTED] = true → s.sys.stagLeft ≠ [] → s.stagFree = true → exec (.laserStaggerNext) s = .next (staggerNext s))

/-- SYS_CTRL, held triggers and the end of a park. SAFESTOP in a state with the Canvas applied before HALTED acts in the same core cycle and holds a
safe-stop trigger with cause 0x35; RESUME in HALTED with its cause cleared releases the safety block, goes to PRIMED with cause 0x40 and
enumerates; at the tick the best trigger held is taken, the others are discarded, and a stop first settles the writes in progress; a park that
ends after an Unmount goes to PRIMED with the key slots clear, one after an orderly stop to HALTED. -/
def Obligations.StopsResumeAndTriggers : Prop :=
  (∀ (p : Port) (v : Word) (s : State), s.reaches p false = true → v.toNat.testBit 0 = false →
    s.inLife [PRIMED, MOUNTING, MOUNTED, PARKING] = true →
    exec (.safestop p v) s = .next (hold { kind := .safeStop, cause := 0x35 } (safeStopActions s))) ∧
  (∀ (p : Port) (v : Word) (s : State), s.reaches p false = true → v.toNat.testBit 1 = false → s.life = HALTED → s.haltCleared = true →
    s.sys.lsrEn = true →
    exec (.resume p v) s = .next (let t := transition PRIMED 0x40 { s with sys := { s.sys with tripped := false } }
    enumerateAll (syncLonAll (t.when (t.spnPhase == pFAULT) fun t => t.put SPN_STAT_PHASE pCOAST)))) ∧
  (∀ (s : State) (t : Trigger), s.applied = true → bestTrigger s.sys.held = some t →
    exec (.triggerResolution) s = .next (takeTrigger t ((s.sys.held.erase t).foldl (fun s u => discardTrigger u s)
      (State.when { s with sys := { s.sys with held := [] } }
        (t.kind == .safeStop || t.cause == 0x22 || (t.kind == .unmount && s.life == MOUNTING)) settleWrites)))) ∧
  (∀ (s : State), s.parked = true → s.get SYS_STATE_CAUSE = 0x20 →
    exec (.parkComplete) s = .next (completeUnmounts (followTarget ((clearKeys (transition PRIMED 0x20 s)).put SYS_MNTPROG_STEP 0)))) ∧
  (∀ (s : State), s.parked = true → s.get SYS_STATE_CAUSE = 0x22 → exec (.parkComplete) s = .next (completeUnmounts (transition HALTED 0x22 s)))

/-- The Canvas: LOAD, APPLY, ABORT and the four phases. A custodian's write of CNV_CTRL performs its actions; a fetch that ends well stages the image
and reaches LOADED, one that fails fails the Canvas; validation passes to memory training or fails with the first error; training checks the
lanes and the size and fills in the capacities; the commit writes every field the image gives, records ID, CRC and time, and enters PRIMED. -/
def Obligations.CanvasCommandsAndPhases : Prop :=
  (∀ (p : Port) (v : Word) (s : State), s.reaches p true = true → exec (.cnvLoad p v) s = .next (cnvCtrl p (v.toNat ||| 1) s)) ∧
  (∀ (p : Port) (v : Word) (s : State), s.reaches p true = true → exec (.cnvApply p v) s = .next (cnvCtrl p (v.toNat ||| 2) s)) ∧
  (∀ (p : Port) (v : Word) (s : State), s.reaches p true = true → exec (.cnvAbort p v) s = .next (cnvCtrl p (v.toNat ||| 4) s)) ∧
  (∀ (image : List Byte) (ok : Bool) (s : State), s.on = true → s.cnvPhase = cLOADING → ok = true → image.length = s.cnv.fetchLen →
    exec (.canvasFetchDone image ok) s = .next (let t := dmaEnd 0 0 s
    cnvPhaseTo cLOADED 0 { t with cnv := { t.cnv with image, staged := true } })) ∧
  (∀ (image : List Byte) (ok : Bool) (s : State), s.on = true → s.cnvPhase = cLOADING → ok = false →
    exec (.canvasFetchDone image ok) s = .next (cnvFails ⟨eDMA, noRec, 0⟩ (dmaEnd 0 1 s))) ∧
  (∀ (us : Nat) (s : State), s.on = true → s.cnvPhase = cVALIDATING → s.cnv.training = false →
    exec (.canvasValidationDone us) s = .next (
      match (validate s.cnv.image (s.get SYS_ID_STEP) (s.get CNV_LEN_LEN) s.mgmt).2 with
      | some e => (cnvFails e s).put CNV_TIME_US (min us CNV_TIME_US.max)
      | none =>
        { s.puts [(MEM_STAT_PHASE, 1), (SYS_DOMAIN_MEM, 1)] with cnv := { s.cnv with training := true } })) ∧
  (∀ (trained : Fin 16) (gib us : Nat) (s : State), s.on = true → s.cnvPhase = cVALIDATING → s.cnv.training = true →
    exec (.memTrainingDone trained gib us) s = .next (
      let rs := (validate s.cnv.image (s.get SYS_ID_STEP) (s.get CNV_LEN_LEN) s.mgmt).1
      let mem := recOf rs tMEMLAYOUT
      let s := s.puts [(MEM_INFO_TRAINED, trained.val), (MEM_INFO_DENS, if gib == 8 || gib == 16 then gib / 4 else 0)]
      let s := { s with cnv := { s.cnv with training := false } }
      let fails := fun (e : CErr) => (cnvFails e (memOff s)).put CNV_TIME_US (min us CNV_TIME_US.max)
      if trained.val != 15 then fails ⟨eMEM_TRAIN, noRec, 0⟩
      else if gib != rd8 s.cnv.image (mem.off + 8) then fails ⟨eMEM_SIZE, mem.idx, mem.off + 8⟩
      else { s.put CNV_STATUS_PHASE cCOMMITTING with rf := capacities s.cnv.image mem (s.put CNV_STATUS_PHASE cCOMMITTING).rf })) ∧
  (∀ (us : Nat) (s : State), s.on = true → s.cnvPhase = cCOMMITTING →
    exec (.canvasCommitDone us) s = .next (
      let im := s.cnv.image
      let rs := (validate im (s.get SYS_ID_STEP) (s.get CNV_LEN_LEN) s.mgmt).1
      let s := { s with
        rf := canvasRegs im rs s.rf
        cnv := { s.cnv with cfg := cfgOf im rs, shadow := canvasRegs im rs [], image := [], staged := false } }
      let s := s.puts [(CNV_ID_ID, rd32 im 0x18), (CNV_IMGCRC_CRC, rd32 im (im.length - 8)), (CNV_EDITS_COUNT, 0),
        (CNV_TIME_US, min us CNV_TIME_US.max)]
      let ring := fun (q : Fifo × Nat) => { q.1 with ptr := s.get (FIF_CAP_WORDS q.2) - q.1.rd }
      let s := { s with fifos := s.fifos.zipIdx.map ring }
      let s := { s with sec := { s.sec with dbgLock := s.sec.dbgLock || s.cnv.cfg.secFlags.testBit 2 } }
      enterPrimed (cnvPhaseTo cAPPLIED 0 s)))

/-- Power-on, full reset, regulator faults, lockout and freeze. When the fuses are loaded after power-good the device is in the power-on state of
BARE, with cause 2 after a regulator fault; when a full reset completes, the fields R558 keeps stand as before, FULLS counts it, and the device
is in BARE with cause 0x02 and the previous state recorded. A regulator fault and the under-voltage lockout leave the device OFF with the safety
block tripped, every domain but AON in reset and a Cellar pulse cut; a keyed write of SYS_RESET raises a full reset that holds the device;
FREEZE# freezes it, with a state-change record. A write in progress at any of them is settled first. -/
def Obligations.PowerOnAndFullReset : Prop :=
  (∀ (s : State), s.sys.off = true → s.sys.regWait = true →
    exec (.powerGoodFusesLoaded) s = .next (eventRec 0x01 BARE [] true (powerOnState (if s.sys.afterFault then 2 else 1) s))) ∧
  (∀ (s : State), s.sys.resetHold ≠ 0 → s.sys.off = false →
    exec (.fullResetComplete) s = .next (
      let t := powerOnState s.sys.resetHold s
      let t := fullResetKeeps.foldl (fun t f => t.put f (s.get f)) t
      let t := t.put SYS_RSTINFO_FULLS (min (s.get SYS_RSTINFO_FULLS + 1) 255)
      let t := { t with
        sys := { t.sys with holdUp := s.sys.holdUp, brownOut := s.sys.brownOut, vinOk100 := s.sys.vinOk100 }
        cel := s.cel.afterFullReset
        tap := { s.tap with pos := 0 }
        sec := { t.sec with dbgLock := s.sec.dbgLock } }
      let t := ((t.put SYS_STATE_PREV s.life).put SYS_STATE_STATE BARE).put SYS_STATE_CAUSE 0x02
      eventRec 0x01 (0x02 * 256 + s.life * 16 + BARE) [] true t)) ∧
  (∀ (r : Fin 6) (s : State), s.sys.off = false →
    exec (.regulatorFault r) s = .next (let t := turnOff (min (s.get PWR_EVT_REGFAULT + 1) 255) { s with cel := s.cel.cut }
    { t with sys := { t.sys with regFault := true, afterFault := true } })) ∧
  (∀ (s : State), s.sys.off = false → exec (.underVoltageLockout) s = .next (turnOff 0 { s with cel := s.cel.cut })) ∧
  (∀ (p : Port) (v : Word) (s : State), s.reaches p false = true → v.toNat / 65536 = 0x9648 → v.toNat.testBit 0 = true →
    exec (.sysResetFull p v) s = .next (let t := discardHeld (settleWrites s)
    syncLonAll { t with sys := { t.sys with tripped := true, resetHold := 3 } })) ∧
  (∀ (s : State), s.on = true →
    exec (.freezePin) s = .next (let t := discardHeld (settleWrites s)
    let t := eventRec 0x01 (0x50 * 256 + t.life * 16 + FROZEN) [] true
      (((t.put SYS_STATE_PREV t.life).put SYS_STATE_STATE FROZEN).put SYS_STATE_CAUSE 0x50)
    syncLonAll { t.drawn with cel := t.cel.freeze, sys := { t.sys with tripped := true, frzTap := false } }))

/-- The control link of a head: responses, time-outs, enumeration, polls. A response ends the transaction in progress as its CRC-8, prefix and status
say; a missing response is a link error except for the first NOP of an enumeration; the third failure in a row fails the link; NOP retries, the
end of the enumeration's wait, the status poll and the delayed temperature read each answer the next state of their rules. -/
def Obligations.PickupLinkEvents : Prop :=
  (∀ (h : Head) (resp : Word) (s : State), s.on = true → (s.opuHead h).busy = true →
    exec (.pickupResponse h resp) s = .next (
      match (s.opuHead h).queue with
      | [] => s
      | x :: _ =>
        let r := resp.toNat
        let status := r / 2 ^ 24 % 16
        let data := r / 256 % 65536
        let code := r / 2 ^ 28
        let fell := (s.opuHead h).lonFell
        if crc8 (bitsMsb 20 (r / 256)) != r % 256 || (code != 0b0110 && code != 0b1001) then linkError h s
        else if code == 0b0110 then
          let s := s.when (s.enumerating h && x.cmd == cLASER) fun s => s.put (OPU_HSTAT_LASERON h) data
          if s.enumerating h then
            let t := takeStatus h status (popXact h s)
            if t.2 then enumNext h data t.1 else t.1
          else (takeStatus h status (actOnResponse h x status data (popXact h s))).1
        else if x.isLaserOn && fell then (takeStatus h status (popXact h s)).1
        else
          let t := takeStatus h status s
          if t.2 && t.1.present h == s.present h then linkError h t.1 else t.1)) ∧
  (∀ (h : Head) (s : State), s.on = true → (s.opuHead h).busy = true →
    exec (.pickupResponseTimeout h) s = .next (if (s.opuHead h).enumStep == 1 then popXact h (s.inc (OPU_HSTAT_LINKERR h)) else linkError h s)) ∧
  (∀ (h : Head) (s : State), s.on = true → (s.opuHead h).busy = true → ((s.opuHead h).queue.any fun x => x.tries = 2) →
    exec (.pickupLinkError h) s = .next (
      match (s.opuHead h).queue with
      | [] => s
      | x :: _ => linkFails h x (s.inc (OPU_HSTAT_LINKERR h)))) ∧
  (∀ (h : Head) (s : State), s.on = true → (s.opuHead h).enumStep = 1 → (s.opuHead h).busy = false →
    exec (.enumNopRetry h) s = .next ((queueXact h xNOP) s)) ∧
  (∀ (h : Head) (s : State), s.on = true → (s.opuHead h).enumStep = 1 → exec (.enumWaitExpired h) s = .next ((enumFails h eABSENT) s)) ∧
  (∀ (h : Head) (s : State), s.applied = true → s.present h = true → s.enumerating h = false → (s.opuHead h).queue = [] →
    exec (.statusPoll h) s = .next ((queueXact h xPoll) s)) ∧
  (∀ (h : Head) (s : State), s.applied = true → (s.opuHead h).tempWait = true →
    exec (.pickupTempRead h) s = .next (queueXact h xTemp (s.setOpu h fun o => { o with tempWait := false }))) ∧
  (∀ (p : Port) (h : Head) (v : Word) (s : State), s.reaches p false = true → exec (.opuLinkcmd p h v) s = .next (linkCmd h v.toNat s)) ∧
  (∀ (p : Port) (h : Head) (v : Word) (s : State), s.reaches p false = true → exec (.loffWrite p h v) s = .next (loffWrite h v.toNat s))

/-- Servo samples, loop states and multiply units. A servo sample measures the speed, takes the owners' state changes and spare moves, runs the loops
in order, and then applies the unit faults, focus and inhibit checks and lane checks it carries; HOLD, its return and FAIL change the loop;
UNITCTL takes a unit offline or restores it, and a restore ends with the BIST's verdict; the speed band moves with its hysteresis. -/
def Obligations.ControlLoopEvents : Prop :=
  (∀ (i : SampleIn) (s : State), s.applied = true → s.ang.running = true → s.ang.sampleDue = true → s.turn rkSAMPLE = true →
    exec (.servoSample i) s = .next (
      let s := calTick { s with ang := { s.ang with sampleDue := false } }
      let s := recordWindow i (countSettled (measureSpeed i (measureRates i s)))
      let s := moveUnits (forUpTo 17 applyOwner s)
      let s := runLoops i s
      let s := i.faults.foldl (fun s f => unitFails f s) s
      let up := fun (h : Nat) (s : State) => s.present h && s.inSvc h
      let s := forUpTo 4 (fun h s => s.when (up h s) fun s => watchLaser i h (watchHead i h (countCrossings i h (countPeaks i h s)))) s
      let s := forUpTo 4 (fun h s => s.when (up h s) fun s => recordHead i h (inhibits i h s)) s
      let s := forUpTo 4 (fun h s => countWobble i h (candidate i h s)) s
      checkLanes i.lanes (i.eq.foldl (fun s x => eqStep x s) s))) ∧
  (∀ (l : Loop) (s : State), s.applied = true → s.loopState l = lRUN → (s.loopDesc l).supn ≤ s.get (SRV_LSTAT_OOB l) →
    exec (.loopHold l) s = .next ((enterHold l) s)) ∧
  (∀ (l : Loop) (s : State), s.applied = true → s.loopState l = lHOLD → (s.loopDesc l).supm ≤ s.get (SRV_LSTAT_OOB l) →
    exec (.loopResume l) s = .next ((leaveHold l) s)) ∧
  (∀ (l : Loop) (s : State), s.applied = true → s.loopState l = lHOLD → (s.loopDesc l).holdmax ≤ (s.loop l).heldN →
    exec (.loopFail l) s = .next ((enterFail l) s)) ∧
  (∀ (p : Port) (v : Word) (s : State), s.reaches p false = true → exec (.srvUnitOffline p v) s = .next (unitCtl (v.toNat ||| 4) s)) ∧
  (∀ (p : Port) (v : Word) (s : State), s.reaches p false = true → exec (.srvUnitRestore p v) s = .next (unitCtl (v.toNat ||| 8) s)) ∧
  (∀ (u : MUnit) (pass : Bool) (s : State), s.applied = true → s.srv.restoring.contains u.val = true →
    exec (.srvUnitRestoreDone u pass) s = .next (
      let s := { s with srv := { s.srv with restoring := s.srv.restoring.filter (· != u.val) } }
      let s := s.setBit SRV_UNIT_BISTFAIL u (!pass)
      if pass then
        logFlt 4 kCLEAR 0x05 u [2] ((s.setBit SRV_UNIT_INSVC u true).setBit SRV_UNIT_OFFLINE u false)
      else logFlt 4 kINFO 0x05 u [3] s)) ∧
  (∀ (s : State), s.applied = true → bandFor (s.get SRV_SPB_BAND) (s.get SPN_MEAS_RPM) ≠ s.get SRV_SPB_BAND →
    exec (.speedBandChange) s = .next (
      let b := bandFor (s.get SRV_SPB_BAND) (s.get SPN_MEAS_RPM)
      eventRec 0x05 b [] false (s.put SRV_SPB_BAND b)))

/-- The sources of angle-time: marks, coarse, wobble. At a tick the angle advances, pending steps and calibration values take effect, due events fire
in order and the tick's duties run; wedge boundaries, decoded marks, entries to and losses of MARK, COARSE and WOBBLE, the end of a slew and of a
ramp each change the lock as their rules say. -/
def Obligations.AngleSources : Prop :=
  (∀ (s : State), s.on = true → s.ang.running = true →
    exec (.tick) s = .next (tickDuties (fireTick (takeDuty (calApply (fun u => u.late) (takeStep (noteReading (advance s)))))))) ∧
  (∀ (h : Head) (s : State), s.on = true → s.ang.running = true → s.present h = true →
    (passed s.now (s.nextWedge h) || s.beforeTick (s.nextWedge h)) = true →
    exec (.wedgeBoundary h) s = .next (
      let b := s.nextWedge h
      let s := s.setTr h fun t => { t with wedge := b }
      let s := if passed s.now b then s else s.setNow b
      let t := s.when (s.wedgeAt h (b % au24) == 0) (nextRing h)
      wedgeStart h (t.when (t.reading h && t.headBand h != s.headBand h) (headRowLoad h)))) ∧
  (∀ (h : Head) (wedge : Fin 64) (word : BitVec 24) (rate : BitVec 24) (rev : BitVec 24) (s : State), s.applied = true → s.inFocus h = true →
    exec (.markDecoded h wedge word rate rev) s = .next (
      let mism := s.misread h word.toNat wedge
      let s := s.setBit ANG_LOCK_MARKH h true
      let s := s.setTr h fun t => { t with
        markAge := 0, missed := 0
        marks := if follows t.lastMark wedge.val word.toNat then t.marks + 1 else 1
        lastMark := some (wedge.val, word.toNat)
        mismatched := if mism || t.gapMis then t.mismatched else 0 }
      if mism then countMisread h s
      else
        let s := { s with ang := { s.ang with markRate := rate.toNat, revRate := rev.toNat } }
        let s := s.when (s.flag ANG_LOCK_INDEXED && srcMARK ≤ s.src)
          (setOffset h ((word.toNat + au24 - wedge.val * wedgeAu) % au24))
        s.when (s.src == srcMARK) syncRate)) ∧
  (∀ (h : Head) (s : State), s.applied = true → s.ang.running = true → s.src < srcMARK → s.inFocus h = true → 2 ≤ (s.tr h).marks →
    exec (.markEntry h) s = .next (
      let s := s.put ANG_LOCK_SRC srcMARK
      let s := forUpTo 4 (fun k s => s.setTr k fun t => { t with missed := 0, mismatched := 0 }) s
      let s :=
        if s.flag ANG_LOCK_INDEXED then
          correct (toSigned 24 ((s.markAngle h (s.get (ANG_HOFF_OFFSET h)) + au24 - s.get ANG_NOW_LO_ANGLE) % au24)) s
        else indexAngle h s
      syncRate s)) ∧
  (∀ (s : State), s.applied = true → s.flag ANG_LOCK_SLEW = true → s.slewLeft ≤ 256 →
    exec (.slewComplete) s = .next (syncRate { s.put ANG_LOCK_SLEW 0 with ang := { s.ang with err := 0 } })) ∧
  (∀ (s : State), s.applied = true → s.src = srcMARK → ((s.markHeads.all fun h => 2 ≤ (s.tr h).missed || 2 ≤ (s.tr h).mismatched) = true) →
    exec (.markLoss) s = .next (
      let s := forUpTo 4 (fun k s => s.setTr k fun t => { t with marks := 0, lastMark := none, missed := 0, mismatched := 0 }) s
      srcFall (if 600 * 16 < s.rpm16 then srcCOARSE else srcFREE) s)) ∧
  (∀ (rate : BitVec 24) (s : State), s.applied = true → s.src = srcFREE → 600 * 16 < s.rpm16 →
    exec (.coarseEntry rate) s = .next (syncRate { s.put ANG_LOCK_SRC srcCOARSE with ang := { s.ang with obsRate := rate.toNat } })) ∧
  (∀ (s : State), s.applied = true → s.src = srcCOARSE → s.rpm16 < 450 * 16 → exec (.coarseLoss) s = .next ((srcFall srcFREE) s))

/-- Wobble lock, the ramp's end, the alarm and measurement windows. Wobble lock names the lowest candidate as reference and corrects the angle unless
a slew runs; its loss or a switch of reference selects another; a settled ramp clears RAMP and starts a mode change that waits for it; a write of
ANG_ALARM_HI arms the alarm and the alarm fires once at its target; a measurement window either counts its discard or records jitter, the Cramer-
Rao bound and SNR. -/
def Obligations.WobbleAlarmAndWindows : Prop :=
  (∀ (e : Int) (rate : BitVec 24) (s : State), s.applied = true → s.src < srcWOBBLE → s.flag ANG_LOCK_INDEXED = true → s.get ANG_LOCK_CAND ≠ 0 →
    s.get ANG_PLL_LOCKN ≤ (s.tr s.refHead).wobIn →
    exec (.wobbleLock e rate) s = .next (
      let s := s.puts [(ANG_LOCK_REF, s.refHead), (ANG_LOCK_SRC, srcWOBBLE)]
      let s := { s with ang := { s.ang with wobRate := rate.toNat } }
      syncRate (if s.flag ANG_LOCK_SLEW then s else correct e s))) ∧
  (∀ (s : State), s.applied = true → s.src = srcWOBBLE →
    (!s.bit ANG_LOCK_CAND s.refHead || s.get ANG_PLL_LOSSN ≤ (s.tr s.refHead).wobOut) = true →
    exec (.wobbleLockLoss) s = .next (loseReference s)) ∧
  (∀ (s : State), s.applied = true → s.src = srcWOBBLE → s.bit ANG_LOCK_CAND (s.get ANG_LOCK_REF) = false → s.get ANG_LOCK_CAND ≠ 0 →
    exec (.wobbleRefSwitch) s = .next (loseReference s)) ∧
  (∀ (s : State), s.applied = true → s.flag ANG_LOCK_RAMP = true → 4096 ≤ s.spn.settleN →
    exec (.rampSettled) s = .next (checkTrans (s.put ANG_LOCK_RAMP 0))) ∧
  (∀ (p : Port) (v : Word) (s : State), s.reaches p true = true → exec (.angAlarmArm p v) s = .next (armAlarm (s.put ANG_ALARM_HI_TGT v.toNat))) ∧
  (∀ (s : State) (a : Nat), s.alarmTarget = some a → s.on = true → s.ang.running = true → s.beforeTick a = true →
    exec (.alarm) s = .next (fireAlarm false (s.setNow (a % au48)))) ∧
  (∀ (m : WinMeas) (s : State), s.applied = true → s.ang.running = true → passed s.now (s.ang.winAt + 16 * au24) = true →
    exec (.measurementWindowEnd m) s = .next (
      let ok := s.windowOk
      let a := s.ang
      if !ok then
        newWindow (forUpTo 4 (fun h s => s.when (s.present h && s.inSvc h) fun s => s.inc (SRV_TQWIN_DISCARD h)) (s.inc ANG_QWIN_DISCARD))
      else
        let s := (s.inc ANG_QWIN_ACCEPT).put ANG_JIT_JIT (detrendRms a.jitN a.jitS a.jitT a.jitQ)
        let num := a.ampSum * a.ampSum * 65536
        let den := 2 * m.noise * a.jitN * a.jitN
        let s :=
          if num == 0 || den == 0 then
            (s.puts [(ANG_CRB_CRB, s.freeVal 24), (ANG_WSNR_SNR, s.drawn.freeVal 16)]).drawn.drawn
          else
            let s := s.put ANG_CRB_CRB (crbFigure (s.get ANG_PLL_BW) num den)
            if num < den then (s.put ANG_WSNR_SNR (s.freeVal 16)).drawn
            else s.put ANG_WSNR_SNR (dbFigure num den)
        newWindow (m.layers.foldl (fun s w => layerFit w s) (forUpTo 48 layerRate (forUpTo 4 (headWindow a.jitN) s)))))

/-- The Sketch and the Varnish. Staging a value, cancelling, clearing and arming are the custodian's writes; when the distribution ends the entries
are checked and an ASAP commit takes its tick; the final check aborts for an entry whose block is offline; the commit at its tick applies the
entries or aborts. -/
def Obligations.SketchCommands : Prop :=
  (∀ (p : Port) (v : Word) (s : State), s.reaches p false = true → exec (.sktStage p v) s = .next (stage v.toNat s)) ∧
  (∀ (p : Port) (v : Word) (s : State), s.reaches p false = true → exec (.sktCancel p v) s = .next (sktCtrl (v.toNat ||| 2) s)) ∧
  (∀ (p : Port) (v : Word) (s : State), s.reaches p false = true → exec (.sktClear p v) s = .next (sktCtrl (v.toNat ||| 1) s)) ∧
  (∀ (p : Port) (v : Word) (s : State), s.reaches p false = true → exec (.varnishArm p v) s = .next (armVarnish v.toNat s)) ∧
  (∀ (s : State), s.applied = true → s.get SKT_STATUS_PHASE = skDISTRIBUTING →
    exec (.varnishDistributed) s = .next (
      let rf := applyEntries s.skt.entries s.rf
      match s.skt.entries.findIdx? fun e => !entryOk s rf e with
      | some i => varnishAbort vRANGE i s
      | none =>
        if s.skt.asap then
          let t := tickAt (s.now + strobeAu)
          let s := s.put SKT_STATUS_PHASE skWAITING
          { s with
            skt := { s.skt with target := t }
            ang := { s.ang with pend := s.ang.pend.map fun e => if e.cls == .varnish then { e with target := t } else e } }
        else if s.inTime s.skt.target then s.put SKT_STATUS_PHASE skWAITING
        else varnishAbort vLATE 0 s)) ∧
  (∀ (s : State), s.applied = true → s.get SKT_STATUS_PHASE = skWAITING → passed s.now ((s.skt.target + au48 - strobeAu) % au48) = true →
    exec (.varnishFinalCheck) s = .next (
      match offlineEntry s with
      | some i => varnishAbort vOFFLINE i s
      | none => s)) ∧
  (∀ (s t : State) (e : Ev), takeDue .varnish 0 s = some (e, t) → s.applied = true → s.armed = true →
    exec (.varnishCommit) s = .next (if t.get SKT_STATUS_PHASE = skDISTRIBUTING then varnishAbort vLATE 0 t else
      match offlineEntry t with
      | some i => varnishAbort vOFFLINE i t
      | none => commitVarnish t))

/-- Focus acquisition, capture, track jumps and layer jumps. In an effective head that is up, acquisition starts the first focus attempt at the
planned layer's reference, a settled focus moves to CAPTURING, a failed attempt counts and retries until TRIES, capture closes the tracking loops
at the planned track; a track jump of 1 to 12 tracks and a layer jump to another layer of the side start at their due tick and end on the track
or layer reached. -/
def Obligations.FocusAndJumps : Prop :=
  (∀ (h : Head) (s : State), s.headUp h = true → s.effective h = true → s.get (SRV_HSTAT_PHASE h) = hpRETRACTED →
    s.get (OPU_HSTAT_LASERON h) ≠ 0 → s.lpPassed h = true → (s.tr h).sweepAt.isNone = true →
    exec (.focusAcquisition h) s = .next (startFocus h ((s.setTr h fun t => { t with tries := 0, planLayer := refLayer h }).setSl h fun x => { x with searchMoves := 0 }))) ∧
  (∀ (h : Head) (s : State), s.headUp h = true → s.get SRV_JUMP_FSETN ≤ (s.tr h).settle → s.part h = hpFOCUSED →
    exec (.focusSettled h) s = .next (toCapture h (s.setTr h fun t => { t with settledAt := s.now, tridSeen := false }))) ∧
  (∀ (h : Head) (s : State), s.headUp h = true → s.get SRV_JUMP_FSETN ≤ (s.tr h).settle → s.part h = hpLJUMP → s.loopState (4 * h) = lRUN →
    64 ≤ (s.tr h).saOk →
    exec (.focusSettled h) s = .next (toCapture h (s.setTr h fun t => { t with settledAt := s.now, tridSeen := false }))) ∧
  (∀ (h : Head) (s : State), s.headUp h = true → s.get (SRV_HSTAT_PHASE h) ≠ hpRECOVERING → s.focusFails h = true →
    exec (.focusAttemptFailed h) s = .next (
      let n := (s.tr h).tries + 1
      if s.get SRV_FLIM_TRIES ≤ n then headFaultWith h 0 0 [(s.tr h).peaks] s
      else
        let code := s.getI (SRV_OUT_CODE (4 * h) 0)
        (setOverride (4 * h) code (setPart h hpFOCUSING s)).setTr h fun t => { t with tries := n, ramp := true })) ∧
  (∀ (h : Head) (land : Bool) (s : State), s.headUp h = true → s.part h = hpCAPTURING → s.tracking h = false → (s.tr h).crossNow = true →
    ((s.tr h).crossGap.any fun d => s.get SRV_TCAP_CAPT * s.get SPN_MEAS_RPM * au24 ≤ d * 960000000) → land.toNat = onLand (s.tr h).planG →
    exec (.trackCapture h land) s = .next (
      let s := ownerSet (4 * h + 2) lRUN (ownerSet (4 * h + 1) lRUN s)
      takeApp h (s.tr h).app (s.put (SRV_HSTAT_LAND h) land.toNat))) ∧
  (∀ (h : Head) (k : Int) (s : State) (r0 : Ev) (t : State), takeDue .seek h s = some (r0, t) → s.headUp h = true →
    (let fresh := t.part h == hpON_TRACK; (fresh || ((t.part h == hpCAPTURING || t.part h == hpTJUMP) && t.tracking h)) = true) →
    (let fresh := t.part h == hpON_TRACK; let k := if fresh then k else max (-12) (min 12 (t.trackMiss h)); 1 ≤ k.natAbs) →
    (let fresh := t.part h == hpON_TRACK; let k := if fresh then k else max (-12) (min 12 (t.trackMiss h)); k.natAbs ≤ 12) →
    exec (.trackJump h k) s = .next (
      let fresh := t.part h == hpON_TRACK
      let k := if fresh then k else max (-12) (min 12 (t.trackMiss h))
      let g := ((t.get (SRV_HTRK_GTRK h) : Int) + k).toNat
      let t := t.setTr h fun x => { x with
        jumpK := k, planG := if fresh then g else x.planG, corrections := if fresh then 0 else x.corrections }
      setOvr (4 * h + 1) 2 (setPart h hpTJUMP t))) ∧
  (∀ (h : Head) (s : State), s.headUp h = true → s.part h = hpTJUMP → s.tracking h = false →
    exec (.trackJumpDone h none) s = .next ((ownerSet (4 * h + 1) lRUN s).putB (SRV_HSTAT_LAND h) (s.flag (SRV_HSTAT_LAND h) != ((s.tr h).jumpK % 2 != 0)))) ∧
  (∀ (h : Head) (g : Fin 262144) (s : State), s.headUp h = true → s.part h = hpTJUMP → s.tracking h = true →
    exec (.trackJumpDone h (some g)) s = .next (trackSeen h g.val s)) ∧
  (∀ (h : Head) (l : Layer) (g : Fin 262144) (s : State) (e : Ev) (t : State), takeDue .layerJump h s = some (e, t) → s.headUp h = true →
    (let fresh := t.part h == hpON_TRACK; (fresh || (t.part h == hpCAPTURING && l.val == (t.tr h).planLayer)) = true) → l.val / 24 = sideOf h →
    l.val ≠ s.headLayer h →
    exec (.layerJump h l g) s = .next (
      let fresh := t.part h == hpON_TRACK
      let t := t.setTr h fun x => { x with
        jumpFrom := s.headLayer h, planLayer := l, planG := if fresh then g.val else x.planG
        jumpMis := if x.jumping then x.jumpMis + 1 else 0
        peaks := 0, settle := 0, saOk := 0, marks := 0, lastMark := none
        jumping := true, back := false, jumpEnd := (e.target + e.len) % au48 }
      let t := setPart h hpLJUMP (spoilWindow t)
      let code := t.getI (SRV_OUT_CODE (4 * h + 1) 0)
      let t := tiltToPreset h l (t.headBand h) (saToPreset h (t.tr h).jumpFrom (setOverride (4 * h + 1) code t))
      let t := setOvr (4 * h) 2 (t.setBit ANG_LOCK_CAND h false)
      if t.src == srcWOBBLE && t.get ANG_LOCK_REF == h.val then loseReference t else t)) ∧
  (∀ (h : Head) (us : Nat) (s : State), s.headUp h = true → (s.tr h).jumping = true → s.landed h = true →
    exec (.layerJumpDone h us) s = .next (reachTrack h (jumpCount h true (s.put (SRV_HJUMP_US h) (min us (SRV_HJUMP_US h).max))))) ∧
  (∀ (h : Head) (us : Nat) (s : State), s.headUp h = true → (s.tr h).jumping = true → s.landed h = false →
    passed s.now (s.tr h).jumpEnd = true → s.part h = hpLJUMP →
    exec (.layerJumpDone h us) s = .next (jumpFails h s))

/-- Focus and track loss, recovery, WLID and TRID, inhibits and shock. A focus loss or a FAIL of the focus loop loses the head's focus, four samples
of high TE or a FAIL of tracking its track; recovery ends on track or makes the head faulty; WLIDs and TRIDs confirm the layer and track; an
inhibit clears after INHCLR samples without its cause; HCTRL.WINH raises and clears the host's; a shock reading above the limit counts and spoils
the window. -/
def Obligations.LossesAndInhibits : Prop :=
  (∀ (h : Head) (s : State), s.headUp h = true → (s.get SRV_FLIM_FLOSSN ≤ (s.tr h).sumLow ∨ s.loopState (4 * h) = lFAIL) →
    exec (.focusLoss h) s = .next (lose h 1 s)) ∧
  (∀ (h : Head) (s : State), s.headUp h = true → (4 ≤ (s.tr h).teHigh ∨ s.loopState (4 * h + 1) = lFAIL) → exec (.trackLoss h) s = .next (lose h 2 s)) ∧
  (∀ (h : Head) (s : State), s.headUp h = true → s.get (SRV_HSTAT_PHASE h) = hpRECOVERING → s.landed h = true →
    exec (.recoveryDone h true) s = .next (reachTrack h (s.when (s.tr h).jumping (jumpCount h true)))) ∧
  (∀ (h : Head) (s : State), s.headUp h = true → s.get (SRV_HSTAT_PHASE h) = hpRECOVERING →
    exec (.recoveryDone h false) s = .next (headFault h (0x40 + 4) 0x06 s)) ∧
  (∀ (h : Head) (k : Fin 2) (s : State), s.headUp h = true → (s.tr h).failHeld.contains (k.val + 2) = true → s.failOver h (k.val + 2) = true →
    exec (.tiltSaFailRetry h k) s = .next (ownerSet (4 * h + (k.val + 2)) lRUN (s.setTr h fun t => { t with failHeld := t.failHeld.filter (· != k.val + 2) }))) ∧
  (∀ (h : Head) (bits : Word) (minfo : Option Word) (s : State), s.applied = true → s.inFocus h = true →
    (let w := bits.toNat; crc16 (bitsMsb 16 (w / 65536)) = w % 65536) → (let w := bits.toNat; let layer := w / 2 ^ 20 % 64; layer ≤ 47) →
    exec (.wlidDecoded h bits minfo) s = .next (
      let w := bits.toNat
      let wedge := w / 2 ^ 26
      let layer := w / 2 ^ 20 % 64
      let s := s.setTr h fun t => { t with wlids := ((wedge, layer) :: t.wlids).take 64 }
      let s := match minfo with
        | some m => s.when (s.inLife [MOUNTING]) fun s =>
            { s with mnt := { s.mnt with minfo := Sparse.set s.mnt.minfo (64 * sideOf h + wedge) (m.toNat + 1) } }
        | none => s
      let s := s.when (s.misread h (s.get ANG_NOW_LO_ANGLE) wedge) (countMisread h)
      let right := layer == (s.tr h).planLayer
      let s := s.when (right || s.part h == hpCAPTURING) fun s =>
        (s.setTr h fun t => { t with wlidOk := right }).put (SRV_HSTAT_LAYER h) layer
      if right then endCapture h (checkConf h s)
      else if s.part h != hpCAPTURING || s.asked .layerJump h then s
      else if (s.tr h).jumping && (s.tr h).jumpMis != 0 then jumpFails h s
      else
        let p := (s.tr h).planLayer
        submit .layerJump h (tickAfter s.now) (s.layerJumpAu (max layer p - min layer p)) 0 s)) ∧
  (∀ (h : Head) (trids : List (Option Word)) (s : State), s.applied = true → s.inFocus h = true →
    exec (.tridDecoded h trids) s = .next (
      let read := (List.range 6).filterMap (baseOf trids)
      let s := s.setTr h fun t => { t with tridSeen := t.tridSeen || !read.isEmpty }
      let s := s.when ((s.tr h).lpos.natAbs ≤ s.get SLD_FOLLOW_THR) fun s => read.foldl (fun s g => indexSled h g s) s
      match agreed trids with
      | some g => trackSeen h g s
      | none => s)) ∧
  (∀ (h : Head) (c : Fin 7) (s : State), s.applied = true → s.bit (SRV_HSTAT_INHC h) c = true →
    s.get SRV_WINH_INHCLR ≤ (s.tr h).absent.getD c 0 →
    exec (.inhibitClear h c) s = .next ((clearInhibit h c) s)) ∧
  (∀ (p : Port) (h : Head) (v : Word) (s : State), s.reaches p false = true → exec (.srvHctrlWinh p h v) s = .next (winhWrite h v.toNat s)) ∧
  (∀ (axial radial : BitVec 16) (s : State), s.applied = true → s.flag SRV_SHK_EN = true →
    exec (.shockSensorRead axial radial) s = .next (
      let m := max axial.toInt.natAbs radial.toInt.natAbs
      let s := s.put SRV_SHKST_PEAK (max (s.get SRV_SHKST_PEAK) m)
      if s.get SRV_SHK_LIMIT < m then
        forUpTo 4 (fun h s => s.setTr h fun t => { t with shock := true }) (spoilWindow (s.inc SRV_SHKST_EVENTS))
      else s))

/-- The sled: step edges, seeks of both classes, landings, following, search. A step edge moves the position by one in the present direction and
either ends the seek, turns to the target, or loads the next interval; a due class D seek of a sled at rest goes to its target, or counts a
refusal outside the limits; class S seeks start where Table 9.1 lets them; HSEEK asks for a host seek; a seek that ended waits for its capture;
following moves one step; the search moves on until its 96th failure. -/
def Obligations.SledCommands : Prop :=
  (∀ (h : Head) (s : State), s.applied = true → s.sledMoving h = true →
    exec (.sledStep h) s = .next (
      let s := s.putI (SLD_POS_P h) (s.getI (SLD_POS_P h) + s.sledDir h)
      let s := adoptLimits h (takeRequest h s)
      let x := s.sl h
      if s.getI (SLD_POS_P h) = x.back.getD (s.getI (SLD_TGT_TGT h)) then
        if x.back.isSome then seekFromRest h (s.get (SLD_STAT_KIND h)) (s.getI (SLD_TGT_TGT h)) s else sledAtRest h s
      else loadInterval h false s)) ∧
  (∀ (h : Head) (g : Fin 262144) (s t : State) (e : Ev), s.headUp h = true → s.flag (SLD_STAT_EN h) = true → takeDue .seek h s = some (e, t) →
    s.sledMoving h = false →
    exec (.classDSeek h g) s = .next (
      let corr := t.correcting h
      let target := if corr then t.getI (SLD_POS_P h) + correctionSteps (t.trackMiss h) else trackSteps g
      if outside t h target then t.inc (SLD_CNT_REFUSED h)
      else
        let t := if corr then t.setSl h fun x => { x with retries := x.retries + 1 }
          else (t.setTr h fun x => { x with planG := g, corrections := 0 }).setSl h fun x => { x with retries := 0 }
        seekFromRest h sdCLASSD target (toSeek h t))) ∧
  (∀ (h : Head) (g : Fin 262144) (s : State), s.headUp h = true → s.flag (SLD_STAT_EN h) = true → takeDue .seek h s = none →
    s.sledMoving h = true → isClassS (s.get (SLD_STAT_KIND h)) = true →
    exec (.classDSeek h g) s = .next (s.inc (SLD_CNT_REFUSED h))) ∧
  (∀ (h : Head) (k : SeekKind) (s t : State), s.applied = true → s.present h = true → s.flag (SLD_STAT_EN h) = true → startable h k s = some t →
    exec (.classSSeek h k) s = .next (match k with
      | .stop => stopSeek h t
      | .park => askSeek h sdPARK (clampTarget h (t.getI SLD_MISC_PARK) t) t
      | .search => searchMove h t
      | .host v => askSeek h sdHOST (clampTarget h v.toInt t) t
      | .shock => askSeek h sdSHOCK (clampTarget h (trackSteps (t.tr h).planG) t) (toSeek h t)
      | .preempt g => trackSeek h sdPREEMPT g t
      | .cal g => trackSeek h sdCAL g t)) ∧
  (∀ (p : Port) (h : Head) (v : Word) (s : State), s.reaches p false = true → exec (.sldHseek p h v) s = .next (hseek h (v.toNat ||| 2 ^ 24) s)) ∧
  (∀ (h : Head) (s : State), s.applied = true → s.sledMoving h = false → (s.sl h).ended ≠ 0 →
    exec (.seekComplete h) s = .next (
      let kind := (s.sl h).ended
      let s := s.setSl h fun x => { x with ended := 0 }
      if s.headUp h && s.part h == hpSEEK then
        if kind == sdSEARCH then startFocus h s
        else toCapture h s
      else s)) ∧
  (∀ (h : Head) (s : State), s.applied = true → s.present h = true → s.inSvc h = true → s.sledMoving h = false → 2 ≤ (s.sl h).wedges →
    s.gapTick h = true → (s.get (SRV_HSTAT_PHASE h) == hpON_TRACK || s.get (SRV_HSTAT_PHASE h) == hpCAPTURING) = true →
    exec (.sledFollowStep h) s = .next (
      let outward := (s.sl h).outward
      let s := s.putI (SLD_POS_P h) (s.getI (SLD_POS_P h) + if outward then 1 else -1)
      (s.putB (SLD_STAT_DIR h) outward).setSl h fun x => { x with wedges := 0 })) ∧
  (∀ (h : Head) (s : State), s.searchDue h = true → exec (.searchTimeout h) s = .next ((searchMove h) s))

/-- The spindle: starts, running and the angle reference. A spin-up starts in CATCH with the target recorded and RAMP set; the catch window leads to
RUN, OPENLOOP, ALIGN or SHORTBRAKE by crossings, speed and peak; ALIGN ends in OPENLOOP; the hand-over to RUN happens between 600 and 900 rpm; a
failed attempt coasts until TRIES, then faults with cause 4. A PWM period samples the legs, checks them, and ramps the reference in RUN or
brakes; a fault cause that holds faults the spindle; a back-EMF below BEMFMIN at the end of braking or coasting is a stop; SPN_TEST sets the test
target; a decoded speed reference is shown with its validity, an invalid one falls back to the Canvas target; an adopted one is followed. -/
def Obligations.SpindleStarts : Prop :=
  (∀ (s : State), s.applied = true → s.sys.tripped = false → s.sys.holdUp = false → s.spnTarget ≠ 0 →
    (s.spnPhase = pSTOPPED ∨ s.spnPhase = pCOAST) →
    exec (.spinUpStart) s = .next (setRamp (s.puts [(SPN_TGT_TARGET, s.spnTarget), (SPN_STAT_PHASE, pCATCH)]))) ∧
  (∀ (crossings peak rpm : Nat) (s : State), s.applied = true → s.sys.tripped = false →
    (s.spnPhase == pCATCH || s.spnPhase == pSHORTBRAKE) = true →
    exec (.catchWindowEnd crossings peak rpm) s = .next (
      let weak := peak < s.get SPN_CHECK_BEMFMIN
      if s.spnPhase == pSHORTBRAKE then s.when weak fun s => s.put SPN_STAT_PHASE pALIGN
      else
        let note := fun (r : Nat) (s : State) => s.puts [(SPN_CATCH_RESULT, r), (SPN_CATCH_RPM, min rpm 65535)]
        if 4 ≤ crossings && 500 ≤ rpm then enterRun (min rpm 65535) (note 2 s)
        else if 4 ≤ crossings then enterOpenLoop rpm (note 1 s)
        else if weak then (note 0 s).put SPN_STAT_PHASE pALIGN
        else (note 3 s).put SPN_STAT_PHASE pSHORTBRAKE)) ∧
  (∀ (s : State), s.applied = true → s.spnPhase = pALIGN → exec (.alignEnd) s = .next ((enterOpenLoop 0) s)) ∧
  (∀ (s : State), s.applied = true → s.spnPhase = pOPENLOOP → 600 * 16 ≤ s.spn.obsRpm → 32 ≤ s.spn.agree →
    exec (.spindleHandover) s = .next (enterRun (s.spn.obsRpm / 16) s)) ∧
  (∀ (s : State), s.applied = true → s.spnPhase = pOPENLOOP → 900 * 1000000 ≤ s.spn.forced →
    exec (.spinUpAttemptFailed) s = .next (
      let n := s.spn.tries + 1
      if s.get SPN_START_TRIES ≤ n then spindleFault 4 s
      else (s.put SPN_STAT_PHASE pCOAST).setSpn fun x => { x with tries := n })) ∧
  (∀ (i : PwmIn) (s : State), s.applied = true → s.sys.tripped = false → s.driven = true →
    exec (.pwmPeriod i) s = .next (
      let s := driveBridge i (checkPeriod i (sampleLegs i s))
      if s.spnPhase == pRUN then rampRef (s.get SPN_TGT_TARGET) s
      else if s.spnPhase == pBRAKING && !s.spn.shortBrake then brakePeriod i s
      else if s.spnPhase == pOPENLOOP then openLoopPeriod i s
      else s)) ∧
  (∀ (cause : Fin 5) (s : State), s.applied = true → s.spnPhase ≠ pFAULT → s.spindleCause (cause.val + 1) = true →
    exec (.spindleFault cause) s = .next ((spindleFault (cause.val + 1)) s)) ∧
  (∀ (peak : Nat) (s : State), s.applied = true → (s.spnPhase = pBRAKING ∧ s.spn.shortBrake = true ∨ s.spnPhase = pCOAST) →
    peak < s.get SPN_CHECK_BEMFMIN →
    exec (.spindleStopped peak) s = .next (checkTrans ((s.puts [(SPN_STAT_PHASE, pSTOPPED), (SPN_TGT_REF, 0), (SPN_STAT_VINLIM, 0), (ANG_LOCK_RAMP, 0)]).setSpn fun x =>
      { x with tries := 0, shortBrake := false, refFrac := 0 }))) ∧
  (∀ (p : Port) (v : Word) (s : State), s.reaches p false = true → exec (.spnTestWrite p v) s = .next (spnTest v.toNat s)) ∧
  (∀ (x : Option Nat) (s : State), s.applied = true →
    exec (.speedrefDecode x) s = .next (
      match speedRef (s.get SPN_SREF_ENC) x with
      | some r =>
        (s.puts [(SPN_SREFIN_RPM, r), (SPN_SREFIN_VALID, 1), (SPN_STAT_SREFVALID, 1)]).setSpn fun y =>
          { y with srefCand := r / s.get SPN_SREF_STEP * s.get SPN_SREF_STEP }
      | none =>
        followTarget ((s.puts [(SPN_SREFIN_VALID, 0), (SPN_STAT_SREFVALID, 0)]).setSpn fun y => { y with srefFollow := true }))) ∧
  (∀ (s : State), s.applied = true → s.flag SPN_SREFIN_VALID = true →
    exec (.speedrefAdopt) s = .next (followTarget (s.setSpn fun y => { y with srefS := some y.srefCand, srefFollow := false })))

/-- Lanes: failure, LANECTL, self test, acquisition, calibration shadows, timing lock. A lane whose second failing check closed a span fails as its
state says; LANECTL requests a spare, a restore or an eye sweep; a self test restores the lane or marks it failed; an acquired lane switches; a
calibration shadow takes an idle spare; timing lock closes a cover's bypass interval and ends zero confidence, its loss clears LOCK; an equalizer
reload is counted and logged; an eye sweep stores the width; a quality update stores SNR and error figures. -/
def Obligations.LaneCommands : Prop :=
  (∀ (l : Lane) (s : State), s.applied = true → s.chn.fail2.contains l.val = true →
    exec (.laneFailure l) s = .next (
      let first := !(s.chn.fail2.any fun x => laneHead x == laneHead l && x < l.val && s.lane x == laneACTIVE)
      let s := s.setChn fun c => { c with fail2 := c.fail2.filter (· != l.val) }
      if isSpare l then spareFails l s
      else if s.lane l == laneACTIVE then activeFails l first s
      else
        let s := s.when (s.lane l == laneACQUIRING && s.actOn l) abandonAct
        (logFlt 8 kDEGRADE (s.freeVal 8) l [s.get (CHN_LSTAT_CAUSE l)] (laneFail l s)).drawn)) ∧
  (∀ (p : Port) (v : Word) (s : State), s.reaches p false = true → exec (.laneSpare p v) s = .next (laneCtl (v.toNat % 256 + 256 * 1) s)) ∧
  (∀ (p : Port) (v : Word) (s : State), s.reaches p false = true → exec (.laneRestore p v) s = .next (laneCtl (v.toNat % 256 + 256 * 2) s)) ∧
  (∀ (p : Port) (v : Word) (s : State), s.reaches p false = true → exec (.laneEye p v) s = .next (laneCtl (v.toNat % 256 + 256 * 3) s)) ∧
  (∀ (pass : Bool) (s : State) (l : Nat), s.chn.act = some (2, l, 0) → s.applied = true →
    exec (.laneSelftestDone pass) s = .next (if !pass then endLaneAct 4 (laneFail l s)
      else if isSpare l then laneRec l (laneRestored l (spareIdle l s))
      else laneAcquire l (if s.cnv.cfg.bind.getD l 0xFF < 24 then s.cnv.cfg.bind.getD l 0xFF else 0x1F) 0x1F
        (s.setChn fun c => { c with act := some (2, l, 1) }))) ∧
  (∀ (l : Lane) (s : State), s.applied = true → s.lane l = laneACQUIRING →
    (2 ≤ s.chn.ok.getD l 0 ∨ isSpare l = true ∧ s.reading (laneHead l) = false) →
    exec (.laneAcquired l) s = .next (switchLane l s)) ∧
  (∀ (l : Lane) (s : State), s.inLife [MOUNTING, MOUNTED] = true →
    (let h := laneHead l; let due := s.cal.rows.contains (8 * ((48 * h + s.headLayer h) * 32 + s.headBand h) + s.laneSpot l); due = true) →
    isSpare l = false → s.lane l = laneACTIVE → s.calSpare (laneHead l) = true → s.lane (spareOf (laneHead l)) = laneIDLE →
    exec (.calShadow l) s = .next (laneAcquire (spareOf (laneHead l)) (s.laneInput l) l (s.setChn fun c => { c with shadows := c.shadows ++ [l.val] }))) ∧
  (∀ (l : Lane) (err : List Int) (s : State), s.applied = true → s.carries l = true → s.phaseSeen l = true → err.length = 256 →
    sumSq err ≤ 256 * 32 * 32 →
    exec (.timingLock l err) s = .next (
      let s := s.put (CHN_LSTAT_LOCK l) 1
      if s.lane l == laneCOVER then
        closeBypass 8 (s.get (CHN_LANEMAP_FOR l)) (zeroConf (laneHead l) (s.laneSpot l) false s)
      else if s.lane l == laneACTIVE then zeroConf (laneHead l) (s.laneSpot l) false s
      else syncGaps (laneHead l) s)) ∧
  (∀ (l : Lane) (err : List Int) (s : State), s.applied = true → s.carries l = true →
    ((s.phaseSeen l && err.length == 1024 && 1024 * 64 * 64 < sumSq err)
      || 2000 < (s.getI (CHN_TR_FOFF l)).natAbs) = true →
    exec (.timingLockLoss l err) s = .next (syncGaps (laneHead l) (unlock l s))) ∧
  (∀ (h : Head) (track : Fin 6) (o : BlockRead) (s : State), s.applied = true → s.present h = true → s.flag (DET_HSTAT_RUN h) = true →
    2 ≤ Sparse.get s.det.refOver (8 * h.val + track.val) →
    exec (.eqReload h track o) s = .next (
      let s := { s with det := { s.det with refOver := (List.range 6).foldl (fun m o => Sparse.set m (8 * h.val + o) 0) s.det.refOver } }
      logFlt 9 kINFO 0x01 h [track.val] ((eqLoadAs h o s).inc (DET_HCNT_EQRELOAD h)))) ∧
  (∀ (errs : List Nat) (s : State) (l : Nat) (n : Nat), s.chn.act = some (3, l, n) → s.applied = true → 512 < n → errs.length = 64 →
    exec (.eyeSweepDone errs) s = .next (endLaneAct 1 (s.puts [(CHN_EYE_EYEW l, eyeWidth errs), (CHN_EYE_VALID l, 1)]))) ∧
  (∀ (h : Head) (s : State), s.applied = true → s.present h = true → 16 * au24 ≤ Sparse.get s.det.readAu h →
    exec (.qualityUpdate h) s = .next (
      let s := forUpTo 6 (laneSnr h) s
      let d := s.det
      let n := Sparse.get d.itN h
      let s := s.puts [(DET_PBERR_ERR h, min (Sparse.get d.pbErr h) (DET_PBERR_ERR h).max),
        (DET_PBBITS_BITS h, min (Sparse.get d.pbBits h / 1024) (DET_PBBITS_BITS h).max)]
      let s := if n == 0 then (s.put (DET_ITER_MEAN h) (s.freeVal 16)).drawn
        else s.put (DET_ITER_MEAN h) (min ((2 * 256 * Sparse.get d.itSum h + n) / (2 * n)) (DET_ITER_MEAN h).max)
      let clear := fun (m : Sparse) => Sparse.set m h 0
      let clears := fun (m : Sparse) => (List.range 6).foldl (fun m o => Sparse.set m (8 * h.val + o) 0) m
      { s with det := { s.det with
        readAu := clear d.readAu, pbErr := clear d.pbErr, pbBits := clear d.pbBits, itSum := clear d.itSum, itN := clear d.itN
        snrT := clears d.snrT, snrE := clears d.snrE } }))

/-- Codewords enter the pool, decode, time out; decoders leave and return. A released codeword takes its decisions and its group, and is tagged
ERASED, LOST or queued; a decode that ends is tagged by its convergence, address and decisions, and a convergence whose syndrome is not zero is a
fault of the decoder; a decode that does not end is fault 2; DECCTL takes a decoder offline or restores it, and the BIST's verdict ends the
restore. -/
def Obligations.CodewordCommands : Prop :=
  (∀ (pba : BitVec 32) (cwix : Fin 16) (soft : List Int) (s : State) (e : Expect),
    ((s.cwd.expect.find? fun e => e.pba == pba.toNat && e.left.contains cwix.val) = some e) → s.inLife [MOUNTING, MOUNTED, PARKING] = true →
    s.readOver e cwix = true →
    exec (.codewordRelease pba cwix soft) s = .next ((releaseCodeword e cwix soft) s)) ∧
  (∀ (d : Dec) (x : Nat) (conv : Bool) (iters : Nat) (s : State) (i : CwItem) (lim : Nat), s.cwd.busy.getD d none = some (i, lim) →
    s.applied = true →
    exec (.decodeComplete d x conv iters) s = .next (
      let x := x % 2 ^ 37632
      if conv && !syndromeZero x then decoderFault d 1 s
      else
        let i := { i with iters := i.iters + if conv then min iters lim else lim }
        let s := decIdle d s
        let s :=
          if !conv then unconverged i s
          else
            let cond :=
              if !addressOk x i.pba i.cwix i.kind then cLOST
              else if x == i.hard && i.missing == 0 then cCLEAN else cCORR
            groupStep i false (tagCodeword i cond x s)
        dispatch s)) ∧
  (∀ (d : Dec) (s : State), s.applied = true → exec (.decoderTimeout d) s = .next ((decoderFault d 2) s)) ∧
  (∀ (p : Port) (v : Word) (s : State), s.reaches p false = true → exec (.decoderOffline p v) s = .next (decCtl (v.toNat ||| 8) s)) ∧
  (∀ (p : Port) (v : Word) (s : State), s.reaches p false = true → exec (.decoderRestore p v) s = .next (decCtl (v.toNat ||| 16) s)) ∧
  (∀ (d : Dec) (pass : Bool) (s : State), s.applied = true → s.cwd.bist.contains d.val = true →
    exec (.decoderBistDone d pass) s = .next (
      let s := s.setCwd fun c => { c with bist := c.bist.filter (· != d.val) }
      let s := s.setBit CWD_POOL_BISTFAIL d (!pass)
      if pass then
        let s := (s.setBit CWD_POOL_INSVC d true).setBit CWD_POOL_OFFLINE d false
        dispatch (decAction d 2 s)
      else decAction d 3 s))

/-- Write windows, levels, verify verdicts and the OPC. A due window opens with the plan the event carries, and one whose end is passed or that is
cut closes with what it wrote; LVLPEND falls when no level change waits; sixteen codewords of a written member settle its verify; an OPC run
takes its powers and its wear, and its read-back accepts, retries or fails by the rules of the pairs; OPCCTL requests one. -/
def Obligations.WritingCommands : Prop :=
  (∀ (h : Head) (l : Layer) (b : Band) (s : State), s.inLife [MOUNTING, MOUNTED] = true → s.opcReach h l b = true →
    (((s.wh h).opc == some (l.val, b.val, false) || ((s.wh h).opc == some (l.val, b.val, true)
        && (s.wh h).opcPairs.any fun p => p.2.1 && p.2.2.isNone)) = true) →
    exec (.opcRun h l b) s = .next (
      let regs := (s.spotTracks h).map fun t => pba l b t (dataBlocks b) false
      let ds := s.deltas regs
      let valid := s.flag (WRS_OPC_VALID h (opcIdx l b))
      let start := (s.writeSpots h).zipIdx.map fun p =>
        (if valid then s.opcPeak h l b p.2 else s.get WRS_PDEF_PEAK, false, (none : Option Nat))
      let pairs := if (s.wh h).opcPairs.isEmpty then start else (s.wh h).opcPairs
      let begun := (s.inc (WRS_OPCST_RUNS h)).setWh h fun w => { w with opc := some (l.val, b.val, true), opcPairs := pairs, opcHurt := false }
      if pairs.any fun p => p.2.2.isNone && (opcPowers p.1).any fun x => s.peakMax h < x then opcFails h 4 begun
      else if !ds.isEmpty then askDeltas ds s
      else
        let s := begun.setWh h fun w => { w with
          opcAt := (w.opcAt.filter fun x => !(x.1 == l.val && x.2.1 == b.val)) ++ [(l.val, b.val, s.now)] }
        let s := (List.range 8).foldl (fun s k =>
          sendLevels h (pairs.zipIdx.flatMap fun p =>
            if p.1.2.2.isSome then []
            else (s.ratios ((opcPowers p.1.1).getD k 0)).zipIdx.map fun q => (4 * (s.writeSpots h).getD p.2 0 + 1 + q.2, q.1)) s) s
        let s := (s.opcBlocks h l b).foldl (fun s p => recordOpc p s) s
        regs.foldl (fun s p =>
          let was := s.hlt.retired.contains (regionKey p)
          let s := wearOne p s
          s.when (!was && s.hlt.retired.contains (regionKey p)) (replaceOpc l b (pbaTrack p))) s)) ∧
  (∀ (h : Head) (r0 r1 : List Nat) (s : State) (l : Nat) (b : Nat), (s.wh h).opc = some (l, b, true) → s.applied = true →
    exec (.opcReadbackDone h r0 r1) s = .next (
      let x := opcIdx l b
      let valid := s.flag (WRS_OPC_VALID h x)
      let errs := fun (i : Nat) => (List.range 8).map fun k =>
        let p := (s.opcBlocks h l b).getD i 0
        let r := if i == 0 then r0 else r1
        opcErrors p (2 * k) (r.getD (2 * k) 0) + opcErrors p (2 * k + 1) (r.getD (2 * k + 1) 0)
      let ends := (s.wh h).opcPairs.zipIdx.map fun p =>
        match p.1.2.2 with
        | some v => OpcEnd.ok v
        | none => opcJudge p.1.1 p.1.2.1 (errs p.2) valid (s.opcPeak h l b p.2) (s.peakMax h)
            (s.get WRS_OPCCFG_MAXBER) (s.get WRS_OPCCFG_OPCM)
      if (s.wh h).opcHurt then opcBroken h s
      else match ends.filterMap OpcEnd.code with
      | c :: _ => opcFails h c s
      | [] =>
        if ends.any fun r => match r with | .again _ => true | _ => false then
          s.setWh h fun w => { w with opcPairs := ends.map fun r =>
            match r with
            | .ok v => (v, false, some v)
            | .again p => (p, true, none)
            | .fail _ => (0, false, none) }
        else
          let v := fun i => match ends.getD i (.ok 0) with | .ok v => v | _ => 0
          let s := s.puts [(WRS_OPC_PEAK0 h x, v 0), (WRS_OPC_PEAK1 h x, v 1), (WRS_OPC_VALID h x, 1),
            (WRS_OPC_TBAND h x, s.thm.pkBand.getD h 0), (WRS_OPCST_LASTERR h, 0)]
          let s := fullEnd h l 6 b 0 (calAccept 6 h l s)
          s.setWh h fun w => { w with opc := none, opcPairs := [], opcBad := w.opcBad.filter (· != (l, b)) })) ∧
  (∀ (p : Port) (v : Word) (s : State), s.reaches p false = true → exec (.wrsOpcctl p v) s = .next (opcCtl (v.toNat ||| 2 ^ 24) s)) ∧
  (∀ (h : Head) (act : Fin 9) (blocks : List (BitVec 32)) (os : List BlockRead) (s t : State) (e : Ev), s.applied = true →
    takeDue .writeWin h s = some (e, t) →
    exec (.windowOpen h act blocks os) s = .next (openWrite e act (blocks.map BitVec.toNat) os t)) ∧
  (∀ (h : Head) (act : Fin 9) (blocks : List (BitVec 32)) (os : List BlockRead) (s t : State) (e : Ev), s.applied = true →
    takeDue .writeWin h s = none → takeDue .readWin h s = some (e, t) →
    exec (.windowOpen h act blocks os) s = .next (openRead e act (blocks.map BitVec.toNat) t)) ∧
  (∀ (h : Head) (act : Fin 9) (blocks : List (BitVec 32)) (os : List BlockRead) (s t : State) (e : Ev), s.applied = true →
    takeDue .writeWin h s = none → takeDue .readWin h s = none → takeDue .calWin h s = some (e, t) →
    exec (.windowOpen h act blocks os) s = .next (openCal e t)) ∧
  (∀ (h : Head) (act : Fin 9) (blocks : List (BitVec 32)) (os : List BlockRead) (s t : State) (e : Ev), s.applied = true →
    takeDue .writeWin h s = none → takeDue .readWin h s = none → takeDue .calWin h s = none → takeDue .patrol h s = some (e, t) →
    exec (.windowOpen h act blocks os) s = .next (openRead e 5 (blocks.map BitVec.toNat) (lapTake t))) ∧
  (∀ (h : Head) (s : State) (w : Win), ((s.wins.find? fun w => w.head == h.val) = some w) → s.applied = true → passed s.now w.stop = true →
    s.turn rkCLOSE = true →
    exec (.windowClose h) s = .next (
      let s := { s with wins := s.wins.erase w }
      match w.cls with
      | .writeWin => closeWrite w s
      | .calWin => closeCal w s
      | _ => closeRead w s)) ∧
  (∀ (h : Head) (s : State), s.applied = true → s.flag (WRS_HSTAT_LVLPEND h) = true →
    ((s.opuHead h).queue.all fun x => !(x.cmd == cWR && x.cls == 2) = true) →
    ∃ t, exec (.levelsSent h) s = .next t ∧ t.get (WRS_HSTAT_LVLPEND h) = 0 ∧ s.sameBut t [WRS_HSTAT_LVLPEND h]) ∧
  (∀ (h : Head) (pba : BitVec 32) (s : State), s.applied = true → (let p := pba.toNat; s.unverifiedAt p = true) →
    ((let p := pba.toNat; let mine := fun (c : CwOut) => c.pba == p && c.act == 7; let l := s.cwd.out.filter mine; let whole := (List.range 16).all fun i => l.any fun c => c.cwix == i; whole = true)) →
    exec (.verifyResult h pba) s = .next (
      let p := pba.toNat
      let mine := fun (c : CwOut) => c.pba == p && c.act == 7
      let l := s.cwd.out.filter mine
      let s := s.setCwd fun c => { c with out := c.out.filter fun o => !mine o }
      let w := (s.blockWords p).headD (0, 0, 0)
      let v := verdict s (s.marginAt p) w.1 w.2.1 l
      let s := s.when (v == .inconclusive) fun s => s.inc (WRS_VCNT_INCONCL h)
      let n := s.rereadsAt p
      if v == .inconclusive && n < s.get WRS_VFY_REREAD then askReread h [p] (retry p (n + 1) false s)
      else if v == .pass then leaveProgress h (settleSpans h (blockVerified p s))
      else leaveProgress h (verifyFails h p s)))

/-- Stripe transactions from opening to commit or void. A stripe opens for a namespace's gathered units in one of its zones once full or short, its
zone dirty in the journal and a WSEQ reserved; a stripe whose members are all written is WRITTEN, all verified VERIFIED; a VERIFIED stripe
commits when no earlier stripe of its zone is open; one whose member cannot be placed is voided; a gather time-out asks for a short stripe. -/
def Obligations.StripeTransactions : Prop :=
  (∀ (zone : Nat) (us : List BlockRead) (s : State), s.mayOpenSys = true → s.str.stripes.length < s.get STR_CFG_MAXOPEN →
    exec (.stripeOpen sysNs zone us) s = .next (openSystem zone s)) ∧
  (∀ (nsid zone : Nat) (us : List BlockRead) (s : State) (n : Ns), nsid ≠ sysNs → s.nsOf nsid = some n → s.mayOpen = true →
    n.zones.contains zone = true → s.str.stripes.length < s.get STR_CFG_MAXOPEN →
    exec (.stripeOpen nsid zone us) s = .next (
      let v := s.vzone nsid zone
      let busy := s.openIn zone
      let avail := s.openable n zone
      let dm := s.dataMembers
      let base := v.fill + busy.length
      let part := if busy.isEmpty then v.part else 0
      let inZone := fun (g : GUnit) => g.unit % s.zoneUnits
      let first := if n.zoned then (avail.map inZone).headD 0 % dm else part
      let num := 1024 * zone + (if n.zoned then (avail.map inZone).headD 0 / dm else base)
      let units := if n.zoned then (avail.filter fun g => inZone g / dm == num % 1024) else avail.take (dm - part)
      let idx := if n.zoned then units.map fun g => inZone g % dm else (List.range units.length).map (part + ·)
      let full := first + units.length == dm
      let ready := !units.isEmpty && (n.zoned || !s.str.pagesLeft.any fun p => p.1 == nsid) && (full || s.str.short.contains nsid) && num / 1024 == zone
        && busy.all (fun t => t.mems.length == s.volWidth) && !(s.str.stripes.any fun t => t.num == num)
        && !(s.str.rebuild.any fun r => r.stripe == num && r.running)
        && (n.zoned || v.st == 1 || !(s.str.zones.any fun w => w.owner == nsid && w.st == 1)) && v.st ≤ 1
      let alone := num % 1024 == v.fill && 0 < part && v.held.isEmpty
      if !ready then s
      else if alone || units.any (s.needsBase n) then
        let s := s.when alone (askSome 0 num ((List.range part).map fun j => (j, List.range 16)))
        (units.filter (s.needsBase n)).foldl (fun s g => askBase n g s) s
      else
        let r := prepareZone nsid zone s
        if !r.1 || r.2.str.wres ≤ r.2.str.wseq then r.2
        else
          let f := fetchUnits n us units r.2
          if f.1 then openStripe n zone num units idx f.2 else f.2)) ∧
  (∀ (nsid : Nat) (s : State), s.on = true → exec (.gatherTimeout nsid) s = .next ((askShort nsid) s)) ∧
  (∀ (stripe : Nat) (s : State) (t : Stripe), s.stripeOf stripe = some t → s.on = true → t.st = 0 → t.voiding = false →
    ((t.mems.all fun m => m.st == 1 || m.st == 2) = true) →
    exec (.stripeWritten stripe) s = .next ((setStripe stripe fun t => { t with st := 1 }) s)) ∧
  (∀ (stripe : Nat) (s : State) (t : Stripe), s.stripeOf stripe = some t → s.on = true → t.st = 1 → (t.mems.all (fun m => m.st == 2) = true) →
    exec (.stripeVerified stripe) s = .next ((setStripe stripe fun t => { t with st := 2 }) s)) ∧
  (∀ (stripe : Nat) (s : State) (t : Stripe), s.stripeOf stripe = some t → s.on = true → t.st = 2 →
    ((let first := t.kind == 3 || t.kind == 1 || t.kind == 2 || (s.openIn (stripe / 1024)).all fun u => stripe ≤ u.num; first = true)) →
    ((let durable := t.mems.all fun m => !s.remapWaits (s.locate stripe m.idx); durable = true)) →
    exec (.stripeCommit stripe) s = .next (
      let s := closeStripe stripe (noteCommit stripe s)
      if t.kind == 3 then s.inc HLT_CNT_REFRESH
      else if t.kind == 2 then s
      else if t.kind == 1 then commitPages t s
      else
        match s.nsOf t.nsid with
        | none => s
        | some n =>
          let data := (List.range s.dataMembers).filter fun j => t.mems.any fun m => m.idx == j
          let s := (t.units.zip data).foldl (fun s p => commitUnit n stripe p.2 p.1 s) s
          let s := setCkpt (fun c => { c with since := c.since ++ [stripe / 1024] }) s
          completeReady (touchNs n.nsid (advanceFill t s)))) ∧
  (∀ (stripe : Nat) (s : State) (t : Stripe), s.stripeOf stripe = some t → s.on = true → t.voiding = true →
    exec (.stripeVoid stripe) s = .next (
      let s := eventRec 0x07 1 [stripe] false (logFlt 12 kINFO 0x01 0 [stripe, stripe / au24] (s.inc STR_CNT_VOIDS))
      if t.kind == 3 then
        let s := closeStripe stripe s
        if t.again then s else queueRefresh t.key stripe true s
      else if t.kind == 2 then closeStripe stripe s
      else if t.kind == 1 then
        let v := s.vzone sysNs (stripe / 1024)
        setVzone { v with fill := max v.fill (stripe % 1024 + 1) } (closeStripe stripe s)
      else
        match s.nsOf t.nsid with
        | none => closeStripe stripe s
        | some n =>
          if n.zoned then
            let stuck := (t.mems.filter fun m => m.st == 3).any fun m => (s.replacement stripe (s.locate stripe m.idx)).isNone
            if !stuck then reopenStripe t s
            else
              let i := ((t.units.map fun g => g.unit / s.zoneUnits).headD 0)
              let s := failZone n i (i * s.zoneLbas n + stripe % 1024 * s.dataMembers * n.unitLbas) (closeStripe stripe (failUnits t scWriteFault s))
              zoneChanged n.nsid i { s with hst := { s.hst with zones := s.hst.zones.map fun z =>
                  if z.nsid == n.nsid && z.idx == i then { z with st := 0xD } else z } }
          else
            let s := closeStripe stripe s
            let s := s.setStr fun x => { x with gather := t.units ++ x.gather }
            let v := s.vzone n.nsid (stripe / 1024)
            askShort n.nsid (setVzone { v with fill := max v.fill (stripe % 1024 + 1), part := 0, held := [] } s)))

/-- Member arrival, slow members, rebuilds, checkpoints, demand loads, cleaning. Sixteen codewords of a member make it arrive; the last member, or
the slow-member deadline, releases the stripe; rebuild jobs start by priority, and a completed one retires the old block and records the
replacement; checkpoints happen at a Flush, at a zone's end or by the timer; a map page is loaded on demand; cleaning moves the units of the zone
with fewest mapped ones. -/
def Obligations.StripeReadsAndRebuild : Prop :=
  (∀ (stripe : Nat) (member : Fin 20) (planned : Nat) (tags words : List BlockRead) (s : State),
    (s.str.asm.find? (fun a => a.stripe == stripe) = none) → s.on = true →
    exec (.memberArrival stripe member planned tags words) s = .next (s.setCwd fun c => { c with out := c.out.filter fun o => !(o.mem == some (stripe, member.val) && [0, 1, 3, 4].contains o.act) })) ∧
  (∀ (stripe : Nat) (member : Fin 20) (planned : Nat) (tags words : List BlockRead) (s : State) (a : Asm),
    (s.str.asm.find? (fun a => a.stripe == stripe) = some a) → s.on = true → (a.due member).isEmpty = false →
    ((a.due member).all (fun c => s.cwd.out.any fun o => o.mem == some (stripe, member.val) && [0, 1, 3, 4].contains o.act && o.cwix == c) = true) →
    exec (.memberArrival stripe member planned tags words) s = .next (
      let j := member.val
      let mine := fun (o : CwOut) => o.mem == some (stripe, j) && [0, 1, 3, 4].contains o.act
      let l := s.cwd.out.filter mine
      let drop := fun (s : State) => s.setCwd fun c => { c with out := c.out.filter fun o => !mine o }
      let due := a.due j
      let take := due.filterMap fun c => l.find? fun o => o.cwix == c
      let r := take.zipIdx.foldl (fun (r : List AsmMem × State) p =>
        let f := fetchCw (tags.getD p.2 {}) (words.getD p.2 {}) p.1 r.2
        (asmPut j p.1.cwix f.1 r.1, f.2)) (a.got, drop s)
      let fixed := (planned + (s.modeCfg s.mode).slowtmo * au24) % au48
      settleAsm stripe (putAsm { a with got := r.1, deadline := some (a.deadline.getD fixed) } r.2))) ∧
  (∀ (stripe : Nat) (s : State) (a : Asm), ((s.str.asm.find? fun a => a.stripe == stripe) = some a) → s.on = true →
    a.deadline.any (passed s.now) = true →
    exec (.slowMemberDeadline stripe) s = .next (
      let miss := a.missing
      let s := miss.foldl (fun s j =>
        let kind := s.coveredKind
        let s := logFlt 12 kind (s.freeVal 8) j [stripe, stripe / au24] (openBypass 12 j s)
        s.drawn) (s.addSat STR_SLOW_SLOW miss.length)
      let bad := miss.map fun j => (j, a.due j)
      let b := { a with want := a.want.filter fun p => !miss.contains p.1 }
      let s := dropReads stripe (putAsm b s)
      let s := if a.whole || !a.idx.isEmpty then releaseStripe b s
        else settleAsm stripe (widen { b with deadline := none } bad s)
      miss.foldl (fun s j => closeBypass 12 j s) s)) ∧
  (∀ (s : State), s.inLife [MOUNTED] = true →
    ((let running := ((s.str.rebuild.filter fun r => r.running).map fun r => r.stripe).eraseDups; running.length < 64)) →
    exec (.rebuildStart) s = .next (
      let running := ((s.str.rebuild.filter fun r => r.running).map fun r => r.stripe).eraseDups
      let idle := s.str.rebuild.filter fun r => !r.running && !(s.str.stripes.any fun t => t.num == r.stripe)
      let best := idle.foldl (fun (b : Option Nat) r =>
        match b with
        | none => some r.stripe
        | some x => if s.rebuildFirst r.stripe x then some r.stripe else some x) none
      match best with
      | none => s
      | some x =>
        let s := s.setStr fun y => { y with rebuild := y.rebuild.map fun r =>
          if r.stripe == x && !r.running then { r with running := true, repl := s.replacement x (s.locate x r.member) } else r }
        askWhole 1 [x] s)) ∧
  (∀ (stripe : Nat) (member : Fin 20) (s : State) (r : Rebuild),
    ((s.str.rebuild.find? fun r => r.stripe == stripe && r.member == member.val && r.running) = some r) → s.on = true → r.st = 3 →
    r.repl = some (s.locate stripe member) →
    exec (.rebuildComplete stripe member) s = .next (
      let s := s.setStr fun x => { x with rebuild := x.rebuild.filter fun y => !(y.stripe == stripe && y.member == member.val) }
      syncHealth (syncRebuild (s.inc STR_RB_DONE)))) ∧
  (∀ (s : State), s.mayCheckpoint = true → exec (.checkpoint) s = .next (checkpoint s)) ∧
  (∀ (s : State), s.inLife [MOUNTED] = true → s.str.changed.isEmpty = false → exec (.checkpointTimer) s = .next (checkpoint s)) ∧
  (∀ (nsid page : Nat) (o : BlockRead) (s : State), s.inLife [MOUNTED] = true → s.str.pageWait.contains (nsid, page) = false →
    s.str.pagesLeft.contains (nsid, page) = true →
    exec (.mapDemandLoad nsid page o) s = .next (demandPage nsid page s)) ∧
  (∀ (nsid page : Nat) (o : BlockRead) (s : State), s.inLife [MOUNTED] = true → s.str.pageWait.contains (nsid, page) = false →
    s.str.pagesLeft.contains (nsid, page) = false → (s.hst.ns.any (fun n => n.nsid == nsid && !n.zoned && page < n.pages) = true) →
    exec (.mapDemandLoad nsid page o) s = .next (let r := memLoad srcMAP (s.pageAddr nsid page / 64) o .clean s
      if r.1 then r.2 else syncMapPhase (demandPage nsid page (losePage nsid page r.2)))) ∧
  (∀ (nsid : Nat) (s : State) (n : Ns), s.nsOf nsid = some n → s.inLife [MOUNTED] = true → n.zoned = false → (s.idleZones n).length < 2 →
    ((let used := (s.str.zones.filter fun v => v.owner == nsid && (v.st == 1 || v.st == 2)); used.isEmpty = false)) →
    exec (.cleaning nsid) s = .next (
      let used := (s.str.zones.filter fun v => v.owner == nsid && (v.st == 1 || v.st == 2))
      let best := used.foldl (fun (b : Option VZone) v =>
        match b with
        | none => some v
        | some x => if (s.mappedIn nsid v.z).length < (s.mappedIn nsid x.z).length then some v else some x) none
      match best with
      | none => s
      | some v =>
        let had := fun (u : Nat) => s.str.gather.any fun g => g.nsid == nsid && g.unit == u && g.move
        let us := (((s.mappedIn nsid v.z).filter fun u => !had u).zipIdx).map fun p =>
          ({ nsid, unit := p.1, move := true, slot := s.str.wslot + p.2 } : GUnit)
        let s := setVzone { v with st := 3 } s
        let s := s.setStr fun x => { x with gather := x.gather ++ us, wslot := x.wslot + us.length }
        touchNs nsid (askShort nsid s)))

/-- The wear ledger, confirming reads, failed layers, patrol laps, refreshes. A changed layer's ledger is written when its time comes; a second
failed read of a codeword within CONFIRM revolutions retires its block and queues a rebuild; a layer found bad is recorded failed and its members
rebuilt; a lap's end publishes each layer's margin; a refresh of the stripe with least margin opens a transaction; HLT_CTRL restarts or pauses
the patrol, which runs when no host I/O is in flight. -/
def Obligations.HealthCommands : Prop :=
  (∀ (l : Layer) (s : State), s.inLife [MOUNTING, MOUNTED] = true → s.hlt.changed.contains l.val = true →
    exec (.ledgerTimer l) s = .next ((writeLedger l) s)) ∧
  (∀ (pba : BitVec 32) (cwix : Fin 16) (s : State), s.inLife [MOUNTING, MOUNTED] = true →
    (let p := pba.toNat; s.hlt.confirmed.contains (p, cwix.val) = true) →
    exec (.readConfirm pba cwix) s = .next (
      let p := pba.toNat
      let s := s.setHlt fun h => { h with
        suspects := h.suspects.filter fun q => q.1 != p, confirmed := h.confirmed.filter fun q => q.1 != p }
      let s := addChecks ((besideLayers (pbaLayer p)).flatMap fun l => areaOf l p) s
      if s.blockRetired p then s
      else
        let m := s.memberAt p
        let s := retireBlock p 2 none s
        match m with
        | some m => if s.committed m.1 then queueRebuild m.1 m.2 s else s
        | none => s)) ∧
  (∀ (l : Layer) (s : State), s.inLife [MOUNTING, MOUNTED] = true → s.hlt.failedLayers.contains l.val = false → s.layerBad l = true →
    exec (.layerFailed l) s = .next (
      let s := s.setHlt fun h => { h with failedLayers := h.failedLayers ++ [l.val] }
      let s := (addDefect ⟨pba l 0 0 0 false, 0xFFFFFFFF, 4, s.freeVal 8, 0, 0, false⟩ s).drawn
      let s := s.str.zones.foldl (fun s z =>
        (List.range (z.fill + if 0 < z.part then 1 else 0)).foldl (fun s i =>
          let st := 1024 * z.z + i
          (List.range s.volWidth).foldl (fun s j =>
            s.when (pbaLayer (s.locate st j) == l.val) (queueRebuild st j)) s) s) s
      syncHealth s)) ∧
  (∀ (sec : Nat) (s : State), s.lapOver = true →
    exec (.patrolLapEnd sec) s = .next (
      let s := s.puts [(HLT_LAP_SEC, min sec HLT_LAP_SEC.max), (HLT_STAT_DUE, 0)]
      let s := forUpTo 48 (fun l s =>
        if !s.hlt.lapSeen.contains l then s.put (HLT_LSTAT_MARGIN l) 0xFF
        else
          let d := Sparse.get s.hlt.lapMin l
          if d == 0 then (s.put (HLT_LSTAT_MARGIN l) (s.freeVal 8)).drawn else s.put (HLT_LSTAT_MARGIN l) (256 - d)) s
      let s := lapAnew (s.setHlt fun h => { h with lapAge := h.startAge })
      eventRec 0x0D 1 [min sec HLT_LAP_SEC.max] false s)) ∧
  (∀ (s : State) (e : Nat × Nat × Bool) (l : List (Nat × Nat × Bool)), s.hlt.refresh = e :: l → s.inLife [MOUNTED] = true →
    s.committed e.2.1 = true → (s.str.stripes.any (fun t => t.num == e.2.1) = false) → (s.str.rebuild.any (fun r => r.stripe == e.2.1) = false) →
    (s.hlt.refData.find? (fun d => d.1 == e.2.1) = none) → s.hlt.refWant.contains e.2.1 = false →
    exec (.refresh) s = .next (askWhole 3 [e.2.1] (s.setHlt fun h => { h with refWant := h.refWant ++ [e.2.1] }))) ∧
  (∀ (s : State) (e : Nat × Nat × Bool) (l : List (Nat × Nat × Bool)) (d : Nat × List (Nat × List Nat)), s.hlt.refresh = e :: l →
    s.inLife [MOUNTED] = true → s.committed e.2.1 = true → (s.str.stripes.any (fun t => t.num == e.2.1) = false) →
    (s.str.rebuild.any (fun r => r.stripe == e.2.1) = false) → (s.hlt.refData.find? (fun d => d.1 == e.2.1) = some d) →
    s.str.dirty.contains (e.2.1 / 1024) = true → s.str.wseq < s.str.wres → s.str.stripes.length < s.get STR_CFG_MAXOPEN →
    exec (.refresh) s = .next (
      let t : Stripe := { num := e.2.1, wseq := s.str.wseq, nsid := ((s.str.zones.find? fun v => v.z == e.2.1 / 1024).map VZone.owner).getD 0
                          kind := 3, key := e.1, again := e.2.2, mems := d.2.map fun m => { idx := m.1 }, data := d.2 }
      syncOpen ((takeWseq (dropRefresh e.2.1 (dropAhead e.2.1 s))).setStr fun x => { x with stripes := x.stripes ++ [t] }))) ∧
  (∀ (p : Port) (v : Word) (s : State), s.reaches p false = true → exec (.hltCtrlRestart p v) s = .next (hltCtrl (v.toNat ||| 1) s)) ∧
  (∀ (p : Port) (v : Word) (s : State), s.reaches p false = true → exec (.hltCtrlPause p v) s = .next (hltCtrl v.toNat s)) ∧
  (∀ (s : State), s.inLife [MOUNTED] = true → (s.modeCfg s.mode).patrol = 1 → s.flag HLT_CTRL_PAUSE = false →
    ((s.hst.cmds.all fun c => c.qid == 0 || c.drop) = true) →
    exec (.patrolIdleStart) s = .next ({ s with hlt := { s.hlt with patrolRead := true } }))

/-- Calibration: due layers, CAL_CTL, full calibration and sweeps. A layer becomes due on a head in service when its interval ends; CAL_CTL requests
a calibration; the end of a layer of a full calibration writes its record, counts it and ends the request with its last layer; a sweep or item
that ends is judged by its limits. -/
def Obligations.CalibrationCommands : Prop :=
  (∀ (h : Head) (l : Layer) (s : State), s.inLife [MOUNTED] = true → s.present h = true → s.inSvc h = true → l.val / 24 = sideOf h →
    s.cal.due.contains (layerKey h l) = false →
    exec (.calDue h l) s = .next (becomeDue h l (s.put (CAL_HL_MINUTES h l) (s.modeCfg s.mode).calint))) ∧
  (∀ (p : Port) (v : Word) (s : State), s.reaches p false = true → exec (.calCtl p v) s = .next (calCtl v.toNat s)) ∧
  (∀ (h : Head) (l : Layer) (s : State) (r : CalReq),
    ((s.cal.reqs.find? fun r => r.head == h.val && r.kind != 0 && r.layers.contains l.val) = some r) → s.inLife [MOUNTING, MOUNTED] = true →
    r.layers.head? = some l.val → (s.fullLeft h l).isEmpty = true →
    exec (.fullCalLayerDone h l) s = .next (
      let s := writeCalib h l ((calibrated h l s).inc CAL_PROG_DONE)
      let s := s.setCal fun c => { c with fullN := Sparse.set c.fullN h (Sparse.get c.fullN h + 1) }
      let rest := r.layers.filter (· != l.val)
      if rest.isEmpty then endReq h s
      else s.setCal fun c => { c with reqs := c.reqs.map fun q => if q.head == h.val then { q with layers := rest, ended := [] } else q })) ∧
  (∀ (h : Head) (l : Layer) (r : CalResult) (s : State),
    ((let win := s.on && s.wins.any fun w => w.head == h.val && w.cls == .calWin && w.lane.isNone && !w.cut; (s.inLife [MOUNTING, MOUNTED] || win) = true)) →
    s.present h = true → s.inSvc h = true → s.headLayer h = l.val →
    ((let i := calItem r; let win := s.on && s.wins.any fun w => w.head == h.val && w.cls == .calWin && w.lane.isNone && !w.cut; (!i.2 || win) = true)) →
    s.rowFree h r = true → (let i := calItem r; (s.get (CAL_HL_FAILMASK h l)).testBit i.1 = false) →
    exec (.calSweepDone h l r) s = .next (
      let win := s.on && s.wins.any fun w => w.head == h.val && w.cls == .calWin && w.lane.isNone && !w.cut
      let dark := decide ((s.tr h).calSum < (s.get SRV_FACQ_SUMTHR * 64 : Nat))
      if win && dark then s.put CAL_STAT_LASTERR 7 else judge h l r s))

/-- Doorbells and the admin commands on queues, features and events. A submission doorbell moves the tail of its queue; each of Create and Delete I/O
Queue, Abort, Set and Get Features and Asynchronous Event Request is fetched from the admin queue and completes with the status its checks give,
or with its effect. -/
def Obligations.QueueAdminCommands : Prop :=
  (∀ (p : Port) (qid tail : BitVec 16) (s : State), s.on = true → s.hst.rdy.getD p false = true →
    exec (.sqDoorbell p qid tail) s = .next (
      { s with hst := { s.hst with sqs := s.hst.sqs.map fun q =>
          if q.port == p.val && q.qid == qid.toNat && tail.toNat < q.size then { q with tail := tail.toNat } else q } })) ∧
  (∀ (p : Port) (cid qid size vec : BitVec 16) (s : State) (t : State), fetch (adm p cid.toNat 5) s = some t →
    exec (.createIoCq p cid qid size vec) s = .next (
      let s := t
      match s.queueRefusal p qid.toNat size.toNat (s.cqOf p qid.toNat).isSome with
      | some st => endAdm p cid.toNat st 0 s
      | none =>
        if (s.queueCfg p).vectors ≤ vec.toNat then endAdm p cid.toNat scVector 0 s
        else endAdm p cid.toNat scSuccess 0 { s with hst := { s.hst with
          cqs := s.hst.cqs ++ [{ port := p, qid := qid.toNat, size := size.toNat + 1, vec := vec.toNat }] } })) ∧
  (∀ (p : Port) (cid qid size cqid : BitVec 16) (prio : Fin 4) (s : State) (t : State), fetch (adm p cid.toNat 1) s = some t →
    exec (.createIoSq p cid qid size cqid prio) s = .next (
      let s := t
      match s.queueRefusal p qid.toNat size.toNat (s.sqOf p qid.toNat).isSome with
      | some st => endAdm p cid.toNat st 0 s
      | none =>
        if cqid == 0 || (s.cqOf p cqid.toNat).isNone then endAdm p cid.toNat scCqInvalid 0 s
        else endAdm p cid.toNat scSuccess 0 { s with hst := { s.hst with
          sqs := s.hst.sqs ++ [{ port := p, qid := qid.toNat, cqid := cqid.toNat, size := size.toNat + 1, prio := prio.val }] } })) ∧
  (∀ (p : Port) (cid qid : BitVec 16) (s : State) (t : State), fetch (adm p cid.toNat 4) s = some t →
    exec (.deleteIoCq p cid qid) s = .next (
      let s := t
      if qid == 0 || (s.cqOf p qid.toNat).isNone then endAdm p cid.toNat scQidInvalid 0 s
      else if s.hst.sqs.any fun q => q.port == p.val && q.cqid == qid.toNat && q.qid != 0 then endAdm p cid.toNat scQdeletion 0 s
      else
        let rest := s.hst.cqs.filter fun q => !(q.port == p.val && q.qid == qid.toNat)
        endAdm p cid.toNat scSuccess 0 { s with hst := { s.hst with cqs := rest } })) ∧
  (∀ (p : Port) (cid qid : BitVec 16) (s : State) (t : State), fetch (adm p cid.toNat 0) s = some t →
    exec (.deleteIoSq p cid qid) s = .next (
      let s := t
      if qid == 0 || (s.sqOf p qid.toNat).isNone then endAdm p cid.toNat scQidInvalid 0 s
      else
        let s := completeAll (fun c => c.port == p.val && c.qid == qid.toNat && !c.drop) scSqDeleted 0 s
        let rest := s.hst.sqs.filter fun q => !(q.port == p.val && q.qid == qid.toNat)
        endAdm p cid.toNat scSuccess 0 (pump { s with hst := { s.hst with sqs := rest } }))) ∧
  (∀ (p : Port) (cid sqid target : BitVec 16) (s : State) (t : State), fetch (adm p cid.toNat 8) s = some t →
    exec (.abort p cid sqid target) s = .next (
      let s := t
      match s.hst.cmds.find? fun c => c.port == p.val && c.qid == sqid.toNat && c.cid == target.toNat && !c.drop
          && !(c.qid == 0 && c.cid == cid.toNat) with
      | none => endAdm p cid.toNat scSuccess 1 s
      | some c =>
        if s.notBegun c then endAdm p cid.toNat scSuccess 0 (pump (completeCmd p c.qid c.cid scAbortReq 0 (withdrawCmd c s)))
        else endAdm p cid.toNat scSuccess 1 s)) ∧
  (∀ (p : Port) (cid : BitVec 16) (fid : BitVec 8) (nsid : BitVec 32) (val : Word) (sv : Bool) (s : State) (t : State),
    fetch (adm p cid.toNat 9) s = some t →
    exec (.setFeatures p cid fid nsid val sv) s = .next (
      let s := t
      let f := fid.toNat
      let v := val.toNat
      let n := nsid.toNat
      if !featList.contains f then endAdm p cid.toNat scInvalidField 0 s
      else if sv then endAdm p cid.toNat scNotSaveable 0 s
      else if !s.featOk p f v then endAdm p cid.toNat scInvalidField 0 s
      else if f == 5 && n == 0xFFFFFFFF then
        endAdm p cid.toNat scSuccess 0 (s.hst.ns.foldl (fun s m => setFeat p 5 m.nsid v s) s)
      else if f == 5 && (s.nsOf n).isNone then endAdm p cid.toNat scInvalidNs 0 s
      else if f == 7 then endAdm p cid.toNat scSuccess (s.featDefault p 7 0) s
      else endAdm p cid.toNat scSuccess 0
        (setFeat p f (featSub f n v) (if f == 4 then v % 2 ^ 16 else if f == 6 then v % 2 else v) s))) ∧
  (∀ (p : Port) (cid : BitVec 16) (fid : BitVec 8) (nsid : BitVec 32) (sel : Fin 8) (val : Word) (s : State) (t : State),
    fetch (adm p cid.toNat 0xA) s = some t →
    exec (.getFeatures p cid fid nsid sel val) s = .next (
      let s := t
      let f := fid.toNat
      let sub := featSub f nsid.toNat val.toNat
      if !featList.contains f || !s.featOk p f (if f == 4 || f == 9 then val.toNat else 0) then
        endAdm p cid.toNat scInvalidField 0 s
      else if f == 5 && (s.nsOf nsid.toNat).isNone then endAdm p cid.toNat scInvalidNs 0 s
      else
        match sel.val with
        | 0 => endAdm p cid.toNat scSuccess (s.feat p f sub (s.featDefault p f sub)) s
        | 1 => endAdm p cid.toNat scSuccess (s.featDefault p f sub) s
        | 3 => endAdm p cid.toNat scSuccess (if f == 5 then 6 else 4) s
        | _ => endAdm p cid.toNat scInvalidField 0 s)) ∧
  (∀ (p : Port) (cid : BitVec 16) (s : State) (t : State), fetch (adm p cid.toNat 0xC) s = some t →
    exec (.asynchronousEventRequest p cid) s = .next (
      let s := t
      if 4 ≤ (s.hst.aer.filter fun a => a.1 == p.val).length then endAdm p cid.toNat scAerLimit 0 s
      else
        match s.hst.aen.find? fun a => a.1 == p.val with
        | some a => endAdm p cid.toNat scSuccess a.2 { s with hst := { s.hst with aen := s.hst.aen.erase a } }
        | none => { s with hst := { s.hst with aer := s.hst.aer ++ [(p.val, cid.toNat)] } }))

/-- Identify, log pages, queries, Unmount, unsupported opcodes. Identify and Get Log Page return their page's bytes or refuse; the Patrol and Custody
queries answer their DW0; Unmount is the management custodian's and is held for the tick, joins a park in progress or is refused with the state's
cause; an opcode that Table 15.1 or 15.7 lacks completes with Invalid Command Opcode. -/
def Obligations.AdminDataCommands : Prop :=
  (∀ (p : Port) (cid : BitVec 16) (cns csi : BitVec 8) (nsid : BitVec 32) (cntid : BitVec 16) (s : State) (t : State),
    fetch (adm p cid.toNat 6) s = some t →
    exec (.identify p cid cns csi nsid cntid) s = .next (
      let s := t
      match identifyPage p cns.toNat csi.toNat nsid.toNat cntid.toNat s with
      | .ok b => endData p cid.toNat b (s.when (cns == 1) State.drawn)
      | .error st => endAdm p cid.toNat st 0 s)) ∧
  (∀ (p : Port) (cid : BitVec 16) (lid : BitVec 8) (nsid : BitVec 32) (off len : Nat) (rae : Bool) (s : State) (t : State),
    fetch (adm p cid.toNat 2) s = some t →
    exec (.getLogPage p cid lid nsid off len rae) s = .next (
      let s := t
      match logPage p lid.toNat nsid.toNat s with
      | none => endAdm p cid.toNat scInvalidField 0 s
      | some b =>
        if b.length < off then endAdm p cid.toNat scInvalidField 0 s
        else
          let s := if rae then s else readLog p lid.toNat nsid.toNat s
          let n := if lid == 2 then 4 else if lid == 0xC1 then 192 else 0
          endData p cid.toNat ((b.drop off).take len) (forUpTo n (fun _ s => s.drawn) s))) ∧
  (∀ (p : Port) (cid : BitVec 16) (s : State) (t : State), fetch (adm p cid.toNat 0xCC) s = some t →
    exec (.patrolQuery p cid) s = .next (
      let s := t
      endAdm p cid.toNat scSuccess s.patrolDw0 s)) ∧
  (∀ (p : Port) (cid : BitVec 16) (nsid : BitVec 32) (s : State) (t : State), fetch (adm p cid.toNat 0xD0) s = some t →
    exec (.custodyQuery p cid nsid) s = .next (
      let s := t
      if 64 < nsid.toNat then endAdm p cid.toNat scInvalidField 0 s
      else endAdm p cid.toNat scSuccess (s.custDw0 nsid.toNat) s)) ∧
  (∀ (p : Port) (cid : BitVec 16) (cdw10 : Word) (s : State) (t : State), fetch (adm p cid.toNat 0xC4) s = some t → t.mgmt = some p.val →
    exec (.unmount p cid cdw10) s = .next (if cdw10 != 0 then endAdm p cid.toNat scInvalidField 0 t
      else if t.life == MOUNTING || t.life == MOUNTED then hold { kind := .unmount, cause := 0x20, port := p, cid := cid.toNat } t
      else if t.life == PARKING then { t with sys := { t.sys with unmountWait := t.sys.unmountWait ++ [(p.val, cid.toNat)] } }
      else endAdm p cid.toNat scState (t.get SYS_STATE_CAUSE) t)) ∧
  (∀ (p : Port) (cid : BitVec 16) (op : BitVec 8) (s t : State), adminOps.contains op.toNat = false →
    fetch { port := p, qid := 0, cid := cid.toNat, op := op.toNat } s = some t →
    exec (.unsupportedOpcode p 0 cid op) s = .next (endAdm p cid.toNat scInvalidOpcode 0 t)) ∧
  (∀ (p : Port) (qid cid : BitVec 16) (op : BitVec 8) (s t : State), qid ≠ 0 → ioOps.contains op.toNat = false →
    fetch { port := p, qid := qid.toNat, cid := cid.toNat, op := op.toNat } s = some t →
    exec (.unsupportedOpcode p qid cid op) s = .next (completeCmd p qid.toNat cid.toNat (if t.life = MOUNTED then scInvalidOpcode else scNotReady) 0 t))

/-- Namespaces, custody, Mount, Calibrate, Patrol and Mode begin. Namespace Management and Attachment by the management custodian and a Custody
request begin at their fetch when no long-running admin command executes or waits; at a tick each contested resource is arbitrated and the
waiting admin commands begin; the end of a namespace's swap hands it to its target. Mount, Calibrate, the three Patrol actions and Mode, sent by
the management custodian when no long-running admin command executes or waits, begin at their fetch. -/
def Obligations.NamespaceAndCustodyCommands : Prop :=
  (∀ (p : Port) (cid : BitVec 16) (n : NsCreate) (s : State) (t : State), fetch (adm p cid.toNat 0x0D) s = some t → t.hst.long = none →
    t.hst.longWait = [] → t.mgmt = some p.val →
    exec (.namespaceCreate p cid n) s = .next (createNs p cid.toNat n ({ t with hst := { t.hst with long := some { kind := 0x0D, port := p, cid := cid.toNat, arg := 0, args := nsCreateArgs n } } }))) ∧
  (∀ (p : Port) (cid : BitVec 16) (nsid : BitVec 32) (s : State) (t : State), fetch (adm p cid.toNat 0x0D) s = some t → t.hst.long = none →
    t.hst.longWait = [] → t.mgmt = some p.val →
    exec (.namespaceDelete p cid nsid) s = .next (deleteNs p cid.toNat nsid.toNat ({ t with hst := { t.hst with long := some { kind := 0x0D, port := p, cid := cid.toNat, arg := 1, nsid := nsid.toNat } } }))) ∧
  (∀ (p : Port) (cid : BitVec 16) (nsid : BitVec 32) (detach : Bool) (ctrls : BitVec 2) (s : State) (t : State),
    fetch (adm p cid.toNat 0x15) s = some t → t.hst.long = none → t.hst.longWait = [] → t.mgmt = some p.val →
    exec (.namespaceAttachment p cid nsid detach ctrls) s = .next (attachNs p cid.toNat nsid.toNat detach ctrls.toNat ({ t with hst := { t.hst with long := some { kind := 0x15, port := p, cid := cid.toNat, arg := 4 * detach.toNat + ctrls.toNat, nsid := nsid.toNat } } }))) ∧
  (∀ (p : Port) (cid : BitVec 16) (nsid : BitVec 32) (target : Fin 4) (s : State) (t : State), fetch (adm p cid.toNat 0xD0) s = some t →
    t.hst.long = none → t.hst.longWait = [] →
    exec (.custodyRequest p cid nsid target) s = .next (beginCustody p cid.toNat nsid.toNat target ({ t with hst := { t.hst with long := some { kind := 0xD0, port := p, cid := cid.toNat, arg := target, nsid := nsid.toNat } } }))) ∧
  (∀ (s : State), s.applied = true →
    exec (.custodyArbitration) s = .next (
      let s := forUpTo 65 arbitrate s
      pumpAdmin (s.hst.longWait.length + 1) s)) ∧
  (∀ (nsid : Fin 65) (expired : Bool) (s : State) (w : Swap), ((s.hst.swaps.find? fun w => w.nsid == nsid.val) = some w) → s.on = true →
    expired = true →
    exec (.namespaceSwapEnd nsid expired) s = .next (
      let mine := fun (c : HCmd) => c.qid != 0 && c.nsid == nsid.val && !c.drop && c.port + 1 == s.cust nsid
      let s := completeAll (fun c => mine c && !dataTaken c) scAnaTransition 0 s
      let s := (s.puts [(HST_NSCUST_CUST nsid, w.target), (HST_NSCUST_SWAP nsid, 0)])
      let s := { s with hst := { s.hst with swaps := s.hst.swaps.filter fun x => x.nsid != nsid.val } }
      completeCust nsid w.cmds (forUpTo 2 (fun p => asyncEvent p 7 1 0xC3) (anaChanged s)))) ∧
  (∀ (p : Port) (cid : BitVec 16) (cdw10 : Word) (s : State) (t : State), fetch (adm p cid.toNat 0xC0) s = some t → t.hst.long = none →
    t.hst.longWait = [] → t.mgmt = some p.val →
    exec (.mount p cid cdw10) s = .next (beginMount p cid.toNat cdw10.toNat ({ t with hst := { t.hst with long := some { kind := 0xC0, port := p, cid := cid.toNat, arg := cdw10.toNat } } }))) ∧
  (∀ (p : Port) (cid : BitVec 16) (cdw10 : Word) (s : State) (t : State), fetch (adm p cid.toNat 0xC8) s = some t → t.hst.long = none →
    t.hst.longWait = [] → t.mgmt = some p.val →
    exec (.calibrate p cid cdw10) s = .next (beginCalibrate p cid.toNat cdw10.toNat ({ t with hst := { t.hst with long := some { kind := 0xC8, port := p, cid := cid.toNat, arg := cdw10.toNat } } }))) ∧
  (∀ (p : Port) (cid : BitVec 16) (s : State) (t : State), fetch (adm p cid.toNat 0xCC) s = some t → t.hst.long = none → t.hst.longWait = [] →
    t.mgmt = some p.val →
    exec (.patrolPause p cid) s = .next (beginPatrol p cid.toNat 1 ({ t with hst := { t.hst with long := some { kind := 0xCC, port := p, cid := cid.toNat, arg := 1 } } }))) ∧
  (∀ (p : Port) (cid : BitVec 16) (s : State) (t : State), fetch (adm p cid.toNat 0xCC) s = some t → t.hst.long = none → t.hst.longWait = [] →
    t.mgmt = some p.val →
    exec (.patrolResume p cid) s = .next (beginPatrol p cid.toNat 2 ({ t with hst := { t.hst with long := some { kind := 0xCC, port := p, cid := cid.toNat, arg := 2 } } }))) ∧
  (∀ (p : Port) (cid : BitVec 16) (s : State) (t : State), fetch (adm p cid.toNat 0xCC) s = some t → t.hst.long = none → t.hst.longWait = [] →
    t.mgmt = some p.val →
    exec (.patrolRestart p cid) s = .next (beginPatrol p cid.toNat 3 ({ t with hst := { t.hst with long := some { kind := 0xCC, port := p, cid := cid.toNat, arg := 3 } } }))) ∧
  (∀ (p : Port) (cid : BitVec 16) (cdw10 : Word) (s : State) (t : State), fetch (adm p cid.toNat 0xD4) s = some t → t.hst.long = none →
    t.hst.longWait = [] → t.mgmt = some p.val →
    exec (.mode p cid cdw10) s = .next (beginMode p cid.toNat cdw10.toNat ({ t with hst := { t.hst with long := some { kind := 0xD4, port := p, cid := cid.toNat, arg := cdw10.toNat } } })))

/-- Keys, the KEK, Security Receive, Sanitize. Key delivery, KEK installation, purge and Security Receive begin at their fetch when no long-running
admin command executes or waits, Sanitize if its sender holds management custody; a sanitize goes from step to step, or ends with the failure of
its step; a mount resumes an unfinished sanitize of its cartridge. -/
def Obligations.SecurityAndSanitizeCommands : Prop :=
  (∀ (p : Port) (cid : BitVec 16) (payload : List Byte) (s : State) (t : State), fetch (adm p cid.toNat 0x81) s = some t → t.hst.long = none →
    t.hst.longWait = [] →
    exec (.keyDeliver p cid payload) s = .next (deliverKey p cid.toNat payload ({ t with hst := { t.hst with long := some { kind := 0x81, port := p, cid := cid.toNat, arg := 1, args := payload.map BitVec.toNat } } }))) ∧
  (∀ (p : Port) (cid : BitVec 16) (payload : List Byte) (s : State) (t : State), fetch (adm p cid.toNat 0x81) s = some t → t.hst.long = none →
    t.hst.longWait = [] →
    exec (.kekInstall p cid payload) s = .next (installKek p cid.toNat payload ({ t with hst := { t.hst with long := some { kind := 0x81, port := p, cid := cid.toNat, arg := 2, args := payload.map BitVec.toNat } } }))) ∧
  (∀ (p : Port) (cid : BitVec 16) (nsid : BitVec 32) (s : State) (t : State), fetch (adm p cid.toNat 0x81) s = some t → t.hst.long = none →
    t.hst.longWait = [] →
    exec (.keyPurge p cid nsid) s = .next (purgeKeys p cid.toNat nsid.toNat ({ t with hst := { t.hst with long := some { kind := 0x81, port := p, cid := cid.toNat, arg := 3, nsid := nsid.toNat } } }))) ∧
  (∀ (p : Port) (cid : BitVec 16) (proto : BitVec 8) (spsp : BitVec 16) (s : State) (t : State), fetch (adm p cid.toNat 0x82) s = some t →
    t.hst.long = none → t.hst.longWait = [] →
    exec (.securityReceive p cid proto spsp) s = .next (securityReceive p cid.toNat proto.toNat spsp.toNat ({ t with hst := { t.hst with long := some { kind := 0x82, port := p, cid := cid.toNat, arg := proto.toNat * 65536 + spsp.toNat } } }))) ∧
  (∀ (p : Port) (cid : BitVec 16) (cdw10 : Word) (s : State) (t : State), fetch (adm p cid.toNat 0x84) s = some t → t.hst.long = none →
    t.hst.longWait = [] → t.mgmt = some p.val →
    exec (.sanitize p cid cdw10) s = .next (beginSanitize p cid.toNat cdw10.toNat ({ t with hst := { t.hst with long := some { kind := 0x84, port := p, cid := cid.toNat, arg := cdw10.toNat } } }))) ∧
  (∀ (ok : Bool) (s : State), s.inLife [MOUNTED] = true →
    (let waits := s.atticPending || (s.sec.sanStep == 5 && s.str.ckpt.isSome); (ok && 3 ≤ s.sec.sanStep && waits) = false) →
    exec (.sanitizeStepDone ok) s = .next (
      match s.sec.sanStep, ok with
      | 1, true => sanNext (sanStart s)
      | 2, true => sanNext (sanKeys s)
      | 3, true => sanNext (sanData s)
      | 4, true => sanNext s
      | 5, true =>
        let s := sanDone s
        endSanitize 1 { s.put SEC_SAN_SPROG 0xFFFF with sec := { s.sec with globalErased := true } }
      | 2, false => endSanitize 3 s
      | 3, false => endSanitize 3 s
      | _, _ => s)) ∧
  (∀ (s : State), s.inLife [MOUNTED] = true → s.sec.sanLook = true →
    exec (.sanitizeResume) s = .next (
      let s := { s with sec := { s.sec with sanLook := false } }
      match s.sanRec with
      | some r => if r.done then s else runSanitize (if r.seq == s.newestSeq atNAMESPACES 0 then 2 else 3) r.cdw10 s
      | none => s))

/-- The steps of Mount and Unmount. Part 1 of the Attic read adopts a usable copy, reads again once or fails the mount; part 2 after the mount
settles which copies are stale; resynchronisation places the write points and queues the failed members; each finished step of a mount leads to
the next, and of an unmount to the drain, the records and the park; a mount failure that its step found gives its cause. -/
def Obligations.MountSteps : Prop :=
  (∀ (s : State), s.inLife [MOUNTING] = true → (let step := s.get SYS_MNTPROG_STEP; (step == 4 || step == 5) = true) → s.attReadDone = true →
    exec (.atticPart1Done) s = .next (
      let step := s.get SYS_MNTPROG_STEP
      let ok := (List.range 6).map s.factoryOk
      let bad := s.primaryFails 0 || s.primaryFails 3
      let s := s.puts [(SYS_MEDIUM_ATTOK, maskOf ((List.range 6).filter fun c => ok.getD c false)),
        (SYS_MNTPROG_ATTPEND, if step == 4 then 0x36 else 0)]
      if !((ok.take 3).any id) || !((ok.drop 3).any id) then mountFails 0x13 s
      else if step == 4 && bad then s.put SYS_MNTPROG_STEP 5
      else adoptAttic (if step == 4 then [0, 3] else List.range 6) s)) ∧
  (∀ (s : State), s.inLife [MOUNTED] = true → s.attReadDone = true →
    exec (.atticPart2Done) s = .next (
      let copies := (List.range 6).filter fun c => s.bit SYS_MNTPROG_ATTPEND c
      let s := takeRecords copies (s.attRecords copies) (s.put SYS_MNTPROG_ATTPEND 0)
      let s := s.put SYS_MEDIUM_ATTSTALE (Nat.lor (s.get SYS_MEDIUM_ATTSTALE) (maskOf (copies.filter s.attStale)))
      repairCopies copies s)) ∧
  (∀ (s : State), s.inLife [MOUNTING] = true → s.get SYS_MNTPROG_STEP = 6 → s.flag STR_STAT_RESYNC = true → s.mnt.at'.isNone = true →
    s.str.stripes.isEmpty = true →
    exec (.resyncDone) s = .next ({ s.put STR_STAT_RESYNC 0 with hst := { s.hst with resyncRan := true } })) ∧
  (∀ (s : State), s.inLife [MOUNTING] = true →
    exec (.mountStepDone) s = .next (
      match s.get SYS_MNTPROG_STEP with
      | 1 =>
        if s.spnPhase != pRUN then s
        else
          let s := clearCal (s.put SYS_MNTPROG_STEP 2)
          staggerNext { s with sys := { s.sys with stagLeft := (List.range 4).filter s.effective } }
      | 2 => if s.sys.stagLeft.isEmpty then s.put SYS_MNTPROG_STEP 3 else s
      | 3 =>
        match s.minfoEnd with
        | some (some a) => (takeMinfo a s).put SYS_MNTPROG_STEP 4
        | some none => mountFails 0x12 s
        | none => s
      | 6 => if s.flag STR_STAT_RESYNC then s else loadCalib s.mnt.calib (s.put SYS_MNTPROG_STEP 7)
      | 7 => if s.cal.reqs.any fun r => r.mount then s else s.put SYS_MNTPROG_STEP 8
      | 8 => if s.atticPending then s else finishMount s
      | _ => s)) ∧
  (∀ (s : State), s.inLife [MOUNTING] = true → s.get SYS_MNTPROG_STEP = 3 → s.minfoEnd = some none →
    exec (.mountFailure 0) s = .next (mountFails 0x12 s)) ∧
  (∀ (s : State), s.inLife [MOUNTING] = true → (s.get SYS_MNTPROG_STEP = 4 ∨ s.get SYS_MNTPROG_STEP = 5) → s.attReadDone = true →
    ((([0, 1, 2].all fun c => !s.factoryOk c) = true ∨ ([3, 4, 5].all fun c => !s.factoryOk c) = true)) →
    exec (.mountFailure 1) s = .next (mountFails 0x13 s)) ∧
  (∀ (s : State), s.inLife [MOUNTING] = true → (s.sideUsable 0 = false ∨ s.sideUsable 1 = false) → exec (.mountFailure 2) s = .next (mountFails 0x14 s)) ∧
  (∀ (s : State), s.inLife [PARKING] = true →
    exec (.unmountStepDone) s = .next (
      match s.get SYS_MNTPROG_STEP with
      | 0xA =>
        if s.str.stripes.isEmpty && s.str.gather.isEmpty then
          (s.setHlt fun h => { h with refresh := [], refWant := [], refData := [] }).puts [(HLT_REFQ_LEN, 0), (SYS_MNTPROG_STEP, 0xB)]
        else s
      | 0xB =>
        if s.mnt.stage == 3 && !(s.cel.ops.any fun o => o.client == 1 || o.client == 2) then
          parkAll (retractHeads (endMedium (s.put SYS_MNTPROG_STEP 0xC)))
        else unmountRecords s
      | 0xC => if s.parked then parkDone s else s
      | _ => s))

/-- Flush, Read, Verify, Write, Write Zeroes and Dataset Management. An I/O command of an I/O queue that is fetched, that no check refuses and that
neither waits on an earlier conflicting range nor on a map page runs at once with its range-lock entry: its data and its range in 64 KiB units
are those of its operands, and a Write has moved its zone's write point; what it does then is `runIo` of its entry. -/
def Obligations.IoCommands : Prop :=
  (∀ (c : IoCmd) (s : State) (t : State), c.qid ≠ 0 → ((s.hst.cmds.filter fun d => d.locked).length < 4096) → fetch (ioCmd c 0) s = some t →
    t.ioRefusal (ioCmd c 0) 0 = none →
    (let h : HCmd := { ioCmd c 0 with seq := s.hst.fetchSeq }; let y := patrolYield t; let u := y; let x : HCmd := { h with locked := true }; let v := lockIo x u; v.conflicted x = false ∧ v.pagesWait x = false) →
    exec (.flush c) s = .next (
      let h : HCmd := { ioCmd c 0 with seq := s.hst.fetchSeq }
      let y := patrolYield t
      let u := y
      let x : HCmd := { h with locked := true }
      let v := lockIo x u
      runIo x v)) ∧
  (∀ (c : IoCmd) (fua : Bool) (os : List BlockRead) (s : State) (t : State) (n : Ns), c.qid ≠ 0 →
    ((s.hst.cmds.filter fun d => d.locked).length < 4096) → fetch ({ ioCmd c 2 with fua, os }) s = some t →
    t.ioRefusal { ioCmd c 2 with fua, os } (c.nlb.toNat + 1) = none → (patrolYield t).nsOf c.nsid.toNat = some n →
    (let h : HCmd := { { ioCmd c 2 with fua, os } with seq := s.hst.fetchSeq }; let y := patrolYield t; let r := rangeOf n h.slba h.nlb; let u := y; let x : HCmd := { { h with lo := r.1, hi := r.2 } with locked := true }; let v := lockIo x u; v.conflicted x = false ∧ v.pagesWait x = false) →
    exec (.read c fua os) s = .next (
      let h : HCmd := { { ioCmd c 2 with fua, os } with seq := s.hst.fetchSeq }
      let y := patrolYield t
      let r := rangeOf n h.slba h.nlb
      let u := y
      let x : HCmd := { { h with lo := r.1, hi := r.2 } with locked := true }
      let v := lockIo x u
      runIo x v)) ∧
  (∀ (c : IoCmd) (s : State) (t : State) (n : Ns), c.qid ≠ 0 → ((s.hst.cmds.filter fun d => d.locked).length < 4096) →
    fetch (ioCmd c 0xC) s = some t → t.ioRefusal (ioCmd c 0xC) (c.nlb.toNat + 1) = none → (patrolYield t).nsOf c.nsid.toNat = some n →
    (let h : HCmd := { ioCmd c 0xC with seq := s.hst.fetchSeq }; let y := patrolYield t; let r := rangeOf n h.slba h.nlb; let u := y; let x : HCmd := { { h with lo := r.1, hi := r.2, modify := false, data := [] } with locked := true }; let v := lockIo x u; v.conflicted x = false ∧ v.pagesWait x = false) →
    exec (.verify c) s = .next (
      let h : HCmd := { ioCmd c 0xC with seq := s.hst.fetchSeq }
      let y := patrolYield t
      let r := rangeOf n h.slba h.nlb
      let u := y
      let x : HCmd := { { h with lo := r.1, hi := r.2, modify := false, data := [] } with locked := true }
      let v := lockIo x u
      runIo x v)) ∧
  (∀ (c : IoCmd) (data : List Nat) (ls : List LineOutcome) (s : State) (t : State) (n : Ns), c.qid ≠ 0 →
    ((s.hst.cmds.filter fun d => d.locked).length < 4096) → fetch ({ ioCmd c 1 with ls }) s = some t →
    t.writeRefusal { ioCmd c 1 with ls } = none → (patrolYield t).nsOf c.nsid.toNat = some n →
    (let h : HCmd := { { ioCmd c 1 with ls } with seq := s.hst.fetchSeq }; let y := patrolYield t; let r := rangeOf n h.slba h.nlb; let u := y.when n.zoned (acceptZoneWrite (y.zoneSt n.nsid (h.slba / y.zoneLbas n)) h.nlb); let x : HCmd := { { h with lo := r.1, hi := r.2, modify := true, data } with locked := true }; let v := lockIo x u; v.conflicted x = false ∧ v.pagesWait x = false) →
    exec (.write c data ls) s = .next (
      let h : HCmd := { { ioCmd c 1 with ls } with seq := s.hst.fetchSeq }
      let y := patrolYield t
      let r := rangeOf n h.slba h.nlb
      let u := y.when n.zoned (acceptZoneWrite (y.zoneSt n.nsid (h.slba / y.zoneLbas n)) h.nlb)
      let x : HCmd := { { h with lo := r.1, hi := r.2, modify := true, data } with locked := true }
      let v := lockIo x u
      runIo x v)) ∧
  (∀ (c : IoCmd) (s : State) (t : State) (n : Ns), c.qid ≠ 0 → ((s.hst.cmds.filter fun d => d.locked).length < 4096) →
    fetch (ioCmd c 8) s = some t → t.ioRefusal (ioCmd c 8) (c.nlb.toNat + 1) = none → (patrolYield t).nsOf c.nsid.toNat = some n →
    (let h : HCmd := { ioCmd c 8 with seq := s.hst.fetchSeq }; let y := patrolYield t; let r := rangeOf n h.slba h.nlb; let u := y; let x : HCmd := { { h with lo := r.1, hi := r.2, modify := true, data := [] } with locked := true }; let v := lockIo x u; v.conflicted x = false ∧ v.pagesWait x = false) →
    exec (.writeZeroes c) s = .next (
      let h : HCmd := { ioCmd c 8 with seq := s.hst.fetchSeq }
      let y := patrolYield t
      let r := rangeOf n h.slba h.nlb
      let u := y
      let x : HCmd := { { h with lo := r.1, hi := r.2, modify := true, data := [] } with locked := true }
      let v := lockIo x u
      runIo x v)) ∧
  (∀ (c : IoCmd) (ad : Bool) (ranges : List (Nat × Nat)) (s : State) (t : State) (n : Ns), c.qid ≠ 0 →
    ((s.hst.cmds.filter fun d => d.locked).length < 4096) → fetch ({ ioCmd c 9 with slba := 0, nlb := 0 }) s = some t →
    (t.ioRefusal { ioCmd c 9 with slba := 0, nlb := 0 } (ranges.foldl (fun m r => max m (r.1 + r.2)) 0) = none) →
    (patrolYield t).nsOf c.nsid.toNat = some n →
    ((let h : HCmd := { { ioCmd c 9 with slba := 0, nlb := 0 } with seq := s.hst.fetchSeq }; let y := patrolYield t; let top := ranges.foldl (fun m r => max m (r.1 + r.2)) 0; let low := ranges.foldl (fun m r => min m r.1) top; let r := rangeOf n low (top - low); let u := y; let x : HCmd := { { h with lo := r.1, hi := r.2, modify := true, data := if ad then ranges.flatMap (fun (q : Nat × Nat) => [q.1, q.2]) else [] } with locked := true }; let v := lockIo x u; v.conflicted x = false ∧ v.pagesWait x = false)) →
    exec (.datasetManagement c ad ranges) s = .next (
      let h : HCmd := { { ioCmd c 9 with slba := 0, nlb := 0 } with seq := s.hst.fetchSeq }
      let y := patrolYield t
      let top := ranges.foldl (fun m r => max m (r.1 + r.2)) 0
      let low := ranges.foldl (fun m r => min m r.1) top
      let r := rangeOf n low (top - low)
      let u := y
      let x : HCmd := { { h with lo := r.1, hi := r.2, modify := true, data := if ad then ranges.flatMap (fun (q : Nat × Nat) => [q.1, q.2]) else [] } with locked := true }
      let v := lockIo x u
      runIo x v))

/-- Zone Append, Zone Management Send, Report Zones, range locks, map pages. Zone Append writes at the zone's write point; the four Zone Management
Send actions run on the zone or zones they select; Report Zones returns the number of matching zones and their descriptors; released range locks
let waiting commands run in order, and a loaded map page fills in its entries, counts, and lets commands that waited run. -/
def Obligations.ZoneCommands : Prop :=
  (∀ (c : IoCmd) (data : List Nat) (ls : List LineOutcome) (s : State) (t : State) (n : Ns), c.qid ≠ 0 →
    ((s.hst.cmds.filter fun d => d.locked).length < 4096) → fetch ({ ioCmd c 0x7D with ls }) s = some t →
    t.ioRefusal { ioCmd c 0x7D with ls } 1 = none → t.nsOf c.nsid.toNat = some n → c.slba.toNat % t.zoneLbas n = 0 →
    (c.nlb.toNat + 1) * n.lba ≤ mdtsBytes →
    t.zoneWriteRefusal n (t.zoneSt n.nsid (c.slba.toNat / t.zoneLbas n)) (t.zoneSt n.nsid (c.slba.toNat / t.zoneLbas n)).swp (c.nlb.toNat + 1) = none →
    (patrolYield t).nsOf c.nsid.toNat = some n →
    (let h : HCmd := { { ioCmd c 0x7D with ls } with seq := s.hst.fetchSeq }; let y := patrolYield t; let k := h.slba / y.zoneLbas n; let z := y.zoneSt n.nsid k; let slba := k * y.zoneLbas n + z.swp; let r := rangeOf n slba h.nlb; let u := acceptZoneWrite z h.nlb y; let x : HCmd := { { h with slba, lo := r.1, hi := r.2, modify := true, data } with locked := true }; let v := lockIo x u; v.conflicted x = false ∧ v.pagesWait x = false) →
    exec (.zoneAppend c data ls) s = .next (
      let h : HCmd := { { ioCmd c 0x7D with ls } with seq := s.hst.fetchSeq }
      let y := patrolYield t
      let k := h.slba / y.zoneLbas n
      let z := y.zoneSt n.nsid k
      let slba := k * y.zoneLbas n + z.swp
      let r := rangeOf n slba h.nlb
      let u := acceptZoneWrite z h.nlb y
      let x : HCmd := { { h with slba, lo := r.1, hi := r.2, modify := true, data } with locked := true }
      let v := lockIo x u
      runIo x v)) ∧
  (∀ (c : IoCmd) (all : Bool) (s : State) (t : State) (n : Ns), c.qid ≠ 0 → ((s.hst.cmds.filter fun d => d.locked).length < 4096) →
    fetch ({ ioCmd c 0x79 with arg := 3, nlb := 0 }) s = some t →
    t.ioRefusal ({ ioCmd c 0x79 with arg := 3, nlb := 0 }) (if all then 0 else 1) = none → t.nsOf c.nsid.toNat = some n →
    (all = true ∨ c.slba.toNat % t.zoneLbas n = 0) → (patrolYield t).nsOf c.nsid.toNat = some n →
    ((let h : HCmd := { { ioCmd c 0x79 with arg := 3, nlb := 0 } with seq := s.hst.fetchSeq }; let y := patrolYield t; let k := h.slba / y.zoneLbas n; let u := y; let x : HCmd := { { h with data := if all then (List.range n.zones.length).filter (fun j => zoneSelect 3 (y.zoneSt n.nsid j).st) else [k], lo := if all then 0 else k * y.zoneUnits, hi := if all then n.zones.length * y.zoneUnits else (k + 1) * y.zoneUnits, modify := true } with locked := true }; let v := lockIo x u; v.conflicted x = false ∧ v.pagesWait x = false)) →
    exec (.zoneOpen c all) s = .next (
      let h : HCmd := { { ioCmd c 0x79 with arg := 3, nlb := 0 } with seq := s.hst.fetchSeq }
      let y := patrolYield t
      let k := h.slba / y.zoneLbas n
      let u := y
      let x : HCmd := { { h with data := if all then (List.range n.zones.length).filter (fun j => zoneSelect 3 (y.zoneSt n.nsid j).st) else [k], lo := if all then 0 else k * y.zoneUnits, hi := if all then n.zones.length * y.zoneUnits else (k + 1) * y.zoneUnits, modify := true } with locked := true }
      let v := lockIo x u
      runIo x v)) ∧
  (∀ (c : IoCmd) (all : Bool) (s : State) (t : State) (n : Ns), c.qid ≠ 0 → ((s.hst.cmds.filter fun d => d.locked).length < 4096) →
    fetch ({ ioCmd c 0x79 with arg := 1, nlb := 0 }) s = some t →
    t.ioRefusal ({ ioCmd c 0x79 with arg := 1, nlb := 0 }) (if all then 0 else 1) = none → t.nsOf c.nsid.toNat = some n →
    (all = true ∨ c.slba.toNat % t.zoneLbas n = 0) → (patrolYield t).nsOf c.nsid.toNat = some n →
    ((let h : HCmd := { { ioCmd c 0x79 with arg := 1, nlb := 0 } with seq := s.hst.fetchSeq }; let y := patrolYield t; let k := h.slba / y.zoneLbas n; let u := y; let x : HCmd := { { h with data := if all then (List.range n.zones.length).filter (fun j => zoneSelect 1 (y.zoneSt n.nsid j).st) else [k], lo := if all then 0 else k * y.zoneUnits, hi := if all then n.zones.length * y.zoneUnits else (k + 1) * y.zoneUnits, modify := true } with locked := true }; let v := lockIo x u; v.conflicted x = false ∧ v.pagesWait x = false)) →
    exec (.zoneClose c all) s = .next (
      let h : HCmd := { { ioCmd c 0x79 with arg := 1, nlb := 0 } with seq := s.hst.fetchSeq }
      let y := patrolYield t
      let k := h.slba / y.zoneLbas n
      let u := y
      let x : HCmd := { { h with data := if all then (List.range n.zones.length).filter (fun j => zoneSelect 1 (y.zoneSt n.nsid j).st) else [k], lo := if all then 0 else k * y.zoneUnits, hi := if all then n.zones.length * y.zoneUnits else (k + 1) * y.zoneUnits, modify := true } with locked := true }
      let v := lockIo x u
      runIo x v)) ∧
  (∀ (c : IoCmd) (all : Bool) (s : State) (t : State) (n : Ns), c.qid ≠ 0 → ((s.hst.cmds.filter fun d => d.locked).length < 4096) →
    fetch ({ ioCmd c 0x79 with arg := 2, nlb := 0 }) s = some t →
    t.ioRefusal ({ ioCmd c 0x79 with arg := 2, nlb := 0 }) (if all then 0 else 1) = none → t.nsOf c.nsid.toNat = some n →
    (all = true ∨ c.slba.toNat % t.zoneLbas n = 0) → (patrolYield t).nsOf c.nsid.toNat = some n →
    ((let h : HCmd := { { ioCmd c 0x79 with arg := 2, nlb := 0 } with seq := s.hst.fetchSeq }; let y := patrolYield t; let k := h.slba / y.zoneLbas n; let u := y; let x : HCmd := { { h with data := if all then (List.range n.zones.length).filter (fun j => zoneSelect 2 (y.zoneSt n.nsid j).st) else [k], lo := if all then 0 else k * y.zoneUnits, hi := if all then n.zones.length * y.zoneUnits else (k + 1) * y.zoneUnits, modify := true } with locked := true }; let v := lockIo x u; v.conflicted x = false ∧ v.pagesWait x = false)) →
    exec (.zoneFinish c all) s = .next (
      let h : HCmd := { { ioCmd c 0x79 with arg := 2, nlb := 0 } with seq := s.hst.fetchSeq }
      let y := patrolYield t
      let k := h.slba / y.zoneLbas n
      let u := y
      let x : HCmd := { { h with data := if all then (List.range n.zones.length).filter (fun j => zoneSelect 2 (y.zoneSt n.nsid j).st) else [k], lo := if all then 0 else k * y.zoneUnits, hi := if all then n.zones.length * y.zoneUnits else (k + 1) * y.zoneUnits, modify := true } with locked := true }
      let v := lockIo x u
      runIo x v)) ∧
  (∀ (c : IoCmd) (all : Bool) (s : State) (t : State) (n : Ns), c.qid ≠ 0 → ((s.hst.cmds.filter fun d => d.locked).length < 4096) →
    fetch ({ ioCmd c 0x79 with arg := 4, nlb := 0 }) s = some t →
    t.ioRefusal ({ ioCmd c 0x79 with arg := 4, nlb := 0 }) (if all then 0 else 1) = none → t.nsOf c.nsid.toNat = some n →
    (all = true ∨ c.slba.toNat % t.zoneLbas n = 0) → (patrolYield t).nsOf c.nsid.toNat = some n →
    ((let h : HCmd := { { ioCmd c 0x79 with arg := 4, nlb := 0 } with seq := s.hst.fetchSeq }; let y := patrolYield t; let k := h.slba / y.zoneLbas n; let u := y; let x : HCmd := { { h with data := if all then (List.range n.zones.length).filter (fun j => zoneSelect 4 (y.zoneSt n.nsid j).st) else [k], lo := if all then 0 else k * y.zoneUnits, hi := if all then n.zones.length * y.zoneUnits else (k + 1) * y.zoneUnits, modify := true } with locked := true }; let v := lockIo x u; v.conflicted x = false ∧ v.pagesWait x = false)) →
    exec (.zoneReset c all) s = .next (
      let h : HCmd := { { ioCmd c 0x79 with arg := 4, nlb := 0 } with seq := s.hst.fetchSeq }
      let y := patrolYield t
      let k := h.slba / y.zoneLbas n
      let u := y
      let x : HCmd := { { h with data := if all then (List.range n.zones.length).filter (fun j => zoneSelect 4 (y.zoneSt n.nsid j).st) else [k], lo := if all then 0 else k * y.zoneUnits, hi := if all then n.zones.length * y.zoneUnits else (k + 1) * y.zoneUnits, modify := true } with locked := true }
      let v := lockIo x u
      runIo x v)) ∧
  (∀ (c : IoCmd) (opt : Fin 8) (len : Nat) (s t : State) (n : Ns), c.qid ≠ 0 → fetch { ioCmd c 0x7A with nlb := 0 } s = some t →
    t.ioRefusal { ioCmd c 0x7A with nlb := 0 } 1 = none → t.nsOf c.nsid.toNat = some n →
    exec (.reportZones c opt len) s = .next (
      let l := ((List.range n.zones.length).filter fun i => c.slba.toNat / t.zoneLbas n ≤ i).map (t.zoneSt n.nsid)
      let l := l.filter fun z => zoneOpt opt z.st
      let bytes := leBytes 8 l.length ++ List.replicate 56 0 ++ l.flatMap (zoneDescriptor t n)
      completeCmd c.port c.qid.toNat c.cid.toNat scSuccess 0
        { t with hst := { t.hst with dataIn := (c.port.val, c.cid.toNat, bytes.take len) :: t.hst.dataIn } })) ∧
  (∀ (s : State), s.on = true → exec (.rangeLockRelease) s = .next (pump s)) ∧
  (∀ (nsid page us : Nat) (s : State), s.on = true → s.str.pagesLeft.contains (nsid, page) = true →
    ((let got := s.str.pageGot.find? fun g => g.1 == nsid && g.2.1 == page; let never := Sparse.get s.str.dir (mapKey nsid page) == 0; (never || got.isSome) = true)) →
    exec (.mapPageLoaded nsid page us) s = .next (
      let got := s.str.pageGot.find? fun g => g.1 == nsid && g.2.1 == page
      let entries := (got.map fun g => g.2.2).getD []
      let waited := s.str.pageWait.contains (nsid, page)
      let moved := (List.range 512).filter fun i => Sparse.get s.str.delta (mapKey nsid (512 * page + i)) != 0
      let s := s.setStr fun x => { x with
        map := entries.zipIdx.foldl (fun m e => Sparse.set m (mapKey nsid (512 * page + e.2)) (mapEntry e.1)) x.map
        pagesLeft := x.pagesLeft.filter (· != (nsid, page))
        pageWait := x.pageWait.filter (· != (nsid, page))
        pageGot := x.pageGot.filter fun g => !(g.1 == nsid && g.2.1 == page) }
      let s := partFrom nsid (entries.map mapEntry) s
      let s := moved.foldl (fun s i =>
        let v := Sparse.get s.str.delta (mapKey nsid (512 * page + i))
        setMap nsid (512 * page + i) (v / 2 ^ 40) (v % 2 ^ 32) (v / 2 ^ 32 % 32) s) s
      let s := s.when (!moved.isEmpty) (touchNs nsid)
      let s := (s.inc MAP_PROG_LOADED).when waited fun s => s.put MAP_DFMAX_US (min (max (s.get MAP_DFMAX_US) us) MAP_DFMAX_US.max)
      askNextPage (pump (syncMapPhase s))))

/-- The microcode's moves, arithmetic and logic. A microword whose fetch succeeds and whose fields are legal runs: NOP only goes on; MOV, ADD, SUB,
AND, OR, XOR, SHL and SHR put their result in rd, the arithmetic ones with Z, N and C, the logic ones with Z and N, modulo 2^24; CMP only sets
the flags; the PC then goes on. -/
def Obligations.SequencerArithmetic : Prop :=
  (∀ (q : Seq) (w : Microword) (s : State) (t : State) (a : Nat), fetchMicro q 0x00 w s = some (a, t) → a < 2 ^ 14 + 256 → w.cond.val = 0 →
    exec (.nop q w) s = .next (goOn q a t)) ∧
  (∀ (q : Seq) (w : Microword) (s : State) (t : State) (a : Nat), fetchMicro q 0x01 w s = some (a, t) → a < 2 ^ 14 + 256 → w.cond.val = 0 →
    exec (.mov q w) s = .next (
      let s := t
      goOn q a (s.setSeq q fun x => x.setReg w.rd.val (s.opB q w)))) ∧
  (∀ (q : Seq) (w : Microword) (s : State) (t : State) (a : Nat), fetchMicro q 0x02 w s = some (a, t) → a < 2 ^ 14 + 256 → w.cond.val = 0 →
    exec (.add q w) s = .next (goOn q a (t.setSeq q fun x => { (x.setReg w.rd.val ((t.opA q w + t.opB q w) % 2 ^ 24)).setZN ((t.opA q w + t.opB q w) % 2 ^ 24) with c := decide (2 ^ 24 ≤ t.opA q w + t.opB q w) }))) ∧
  (∀ (q : Seq) (w : Microword) (s : State) (t : State) (a : Nat), fetchMicro q 0x03 w s = some (a, t) → a < 2 ^ 14 + 256 → w.cond.val = 0 →
    exec (.sub q w) s = .next (goOn q a (t.setSeq q fun x => { (x.setReg w.rd.val ((t.opA q w + 2 ^ 24 - t.opB q w) % 2 ^ 24)).setZN ((t.opA q w + 2 ^ 24 - t.opB q w) % 2 ^ 24) with c := decide (t.opB q w ≤ t.opA q w) }))) ∧
  (∀ (q : Seq) (w : Microword) (s : State) (t : State) (a : Nat), fetchMicro q 0x04 w s = some (a, t) → a < 2 ^ 14 + 256 → w.cond.val = 0 →
    exec (.and q w) s = .next (goOn q a (t.setSeq q fun x => (x.setReg w.rd.val (Nat.land (t.opA q w) (t.opB q w))).setZN (Nat.land (t.opA q w) (t.opB q w))))) ∧
  (∀ (q : Seq) (w : Microword) (s : State) (t : State) (a : Nat), fetchMicro q 0x05 w s = some (a, t) → a < 2 ^ 14 + 256 → w.cond.val = 0 →
    exec (.or q w) s = .next (goOn q a (t.setSeq q fun x => (x.setReg w.rd.val (Nat.lor (t.opA q w) (t.opB q w))).setZN (Nat.lor (t.opA q w) (t.opB q w))))) ∧
  (∀ (q : Seq) (w : Microword) (s : State) (t : State) (a : Nat), fetchMicro q 0x06 w s = some (a, t) → a < 2 ^ 14 + 256 → w.cond.val = 0 →
    exec (.xor q w) s = .next (goOn q a (t.setSeq q fun x => (x.setReg w.rd.val (Nat.xor (t.opA q w) (t.opB q w))).setZN (Nat.xor (t.opA q w) (t.opB q w))))) ∧
  (∀ (q : Seq) (w : Microword) (s : State) (t : State) (a : Nat), fetchMicro q 0x07 w s = some (a, t) → a < 2 ^ 14 + 256 → w.cond.val = 0 →
    exec (.shl q w) s = .next (goOn q a (t.setSeq q fun x => (x.setReg w.rd.val (t.opA q w * 2 ^ (t.opB q w % 32))).setZN (t.opA q w * 2 ^ (t.opB q w % 32))))) ∧
  (∀ (q : Seq) (w : Microword) (s : State) (t : State) (a : Nat), fetchMicro q 0x08 w s = some (a, t) → a < 2 ^ 14 + 256 → w.cond.val = 0 →
    exec (.shr q w) s = .next (goOn q a (t.setSeq q fun x => (x.setReg w.rd.val (t.opA q w / 2 ^ (t.opB q w % 32))).setZN (t.opA q w / 2 ^ (t.opB q w % 32))))) ∧
  (∀ (q : Seq) (w : Microword) (s : State) (t : State) (a : Nat), fetchMicro q 0x09 w s = some (a, t) → a < 2 ^ 14 + 256 → w.cond.val = 0 →
    exec (.cmp q w) s = .next (goOn q a (t.setSeq q fun x => { x.setZN ((t.opA q w + 2 ^ 24 - t.opB q w) % 2 ^ 24) with c := decide (t.opB q w ≤ t.opA q w) })))

/-- The microcode's loads, stores, queues, waits, barriers and branches. LD and ST act on a register of the sequencer's access set or are a machine
check; DEQ takes a descriptor or sets Z; ENQ appends one or waits on a full queue; WAITQ and WAITA wait; BAR waits at a barrier whose mask names
the sequencer; CALL, RET and BR change the PC where their condition holds, with a check on the stack's depth; MCHK is a machine check. -/
def Obligations.SequencerAccessAndFlow : Prop :=
  (∀ (q : Seq) (w : Microword) (s : State) (t : State) (a : Nat), fetchMicro q 0x0A w s = some (a, t) → a < 2 ^ 14 + 256 → w.cond.val = 0 →
    exec (.ld q w) s = .next (
      let s := t
      match accessOff q w false with
      | none => machineCheck q a mcACCESS s
      | some off =>
        let v := s.regRead off
        goOn q a ((readSide off (readDraw off s)).setSeq q fun x => x.setReg w.rd.val v))) ∧
  (∀ (q : Seq) (w : Microword) (s : State) (t : State) (a : Nat), fetchMicro q 0x0B w s = some (a, t) → a < 2 ^ 14 + 256 → w.cond.val = 0 →
    exec (.st q w) s = .next (
      let s := t
      match accessOff q w true with
      | none => machineCheck q a mcACCESS s
      | some off => goOn q a (writeReg 0 off (s.opA q w % au24) 0 false s))) ∧
  (∀ (q : Seq) (w : Microword) (s : State) (t : State) (a : Nat), fetchMicro q 0x0C w s = some (a, t) → a < 2 ^ 14 + 256 → w.cond.val = 0 →
    exec (.deq q w) s = .next (
      let s := t
      flowQueues (goOn q a (s.setSeq q fun x =>
          match x.inAt w.q.val with
          | [] => { x with z := true }
          | d :: ds => { ((List.range 4).foldl (fun x k => x.setReg (w.rd.val + k) (d.getD k 0)) (x.setIn w.q.val ds)) with z := false })))) ∧
  (∀ (q : Seq) (w : Microword) (s : State) (t : State) (a : Nat), fetchMicro q 0x0D w s = some (a, t) → a < 2 ^ 14 + 256 → w.cond.val = 0 →
    exec (.enq q w) s = .next (
      let s := t
      let d := (List.range 4).map fun k => (s.seq q).reg (w.ra.val + k)
      let l := (s.seq q).outAt w.q.val
      if l.length < queueMax then flowQueues (goOn q a (s.setSeq q fun x => x.setOut w.q.val (l ++ [d])))
      else (waitAt q a sqWAIT 1 (w.q.val % 8) s).setSeq q fun x => { x with waitDesc := d })) ∧
  (∀ (q : Seq) (w : Microword) (s : State) (t : State) (a : Nat), fetchMicro q 0x0E w s = some (a, t) → a < 2 ^ 14 + 256 → w.cond.val = 0 →
    exec (.waitq q w) s = .next (
      let s := t
      if ((s.seq q).inAt w.q.val).isEmpty then waitAt q a sqWAIT 2 (w.q.val % 8) s else goOn q a s)) ∧
  (∀ (q : Seq) (w : Microword) (cls : EvClass) (owner : Fin 28) (target len : Nat) (rank : Fin 7) (exempt : Bool) (s : State) (t : State) (a : Nat),
    fetchMicro q 0x0F w s = some (a, t) → a < 2 ^ 14 + 256 → w.cond.val = 0 →
    exec (.waita q w cls owner target len rank exempt) s = .next (
      let s := t
      let r : Req := ⟨{ askedEv cls owner target len with exempt }, rank, q⟩
      ask r ((waitAt q a sqWAIT 3 0 s).setSeq q fun x => { x with waitRd := w.rd.val }))) ∧
  (∀ (q : Seq) (w : Microword) (s : State) (t : State) (a : Nat), fetchMicro q 0x10 w s = some (a, t) → a < 2 ^ 14 + 256 → w.cond.val = 0 →
    exec (.bar q w) s = .next (
      let s := t
      let mask := w.q.val % 64
      if mask.testBit q then waitAt q a sqBARRIER 4 mask s else machineCheck q a mcILLEGAL s)) ∧
  (∀ (q : Seq) (w : Microword) (s : State) (t : State) (a : Nat), fetchMicro q 0x11 w s = some (a, t) → a < 2 ^ 14 + 256 → w.cond.val < 6 →
    exec (.call q w) s = .next (
      let s := t
      if !s.seqCond q w then goOn q a s
      else if 8 ≤ (s.seq q).stack.length then machineCheck q a mcSTACK s
      else (s.put (SEQ_STAT_PC q) w.tgt).setSeq q fun x => { x with stack := nextPc a :: x.stack })) ∧
  (∀ (q : Seq) (w : Microword) (s : State) (t : State) (a : Nat), fetchMicro q 0x12 w s = some (a, t) → a < 2 ^ 14 + 256 → w.cond.val < 6 →
    exec (.ret q w) s = .next (
      let s := t
      if !s.seqCond q w then goOn q a s
      else
        match (s.seq q).stack with
        | [] => machineCheck q a mcSTACK s
        | t :: ts => (s.put (SEQ_STAT_PC q) t).setSeq q fun x => { x with stack := ts })) ∧
  (∀ (q : Seq) (w : Microword) (s : State) (t : State) (a : Nat), fetchMicro q 0x13 w s = some (a, t) → a < 2 ^ 14 + 256 → w.cond.val < 6 →
    exec (.br q w) s = .next (
      let s := t
      if s.seqCond q w then s.put (SEQ_STAT_PC q) w.tgt else goOn q a s)) ∧
  (∀ (q : Seq) (w : Microword) (s : State) (t : State) (a : Nat), fetchMicro q 0x14 w s = some (a, t) → a < 2 ^ 14 + 256 → w.cond.val = 0 →
    exec (.mchk q w) s = .next (
      let s := t
      machineCheck q a mcASSERT s))

/-- Waits that end, barriers, machine checks, the ROM scan, grants of the angle scheduler. A wait on a queue ends with the queue's change and the
sequencer runs on; a barrier completes when every sequencer it names waits at it; a parity error found by the scan is a machine check at its
address, one found at a fetch or an illegal microword one at the PC; a lap of the ROM scan is counted; the angle scheduler grants or refuses the
request it considers. -/
def Obligations.SequencerEvents : Prop :=
  (∀ (q : Seq) (i : Fin 8) (desc : List (BitVec 24)) (s : State), s.applied = true → s.get (SEQ_STAT_STATE q) = sqWAIT → (s.seq q).wait = 1 →
    (s.seq q).waitQ = i.val → ((s.seq q).outAt i).length < queueMax →
    exec (.queueWaitEnd q i desc) s = .next (
      let l := (s.feeds q i).elim (((s.seq q).outAt i).drop 1) fun _ => (s.seq q).outAt i
      flowQueues (resumeSeq q (s.setSeq q fun x => x.setOut i (l ++ [x.waitDesc]))))) ∧
  (∀ (q : Seq) (i : Fin 8) (desc : List (BitVec 24)) (s : State), s.applied = true →
    (s.get (SEQ_STAT_STATE q) = sqWAIT ∨ s.get (SEQ_STAT_STATE q) = sqBARRIER) → ((s.seq q).wait ≠ 1 ∨ (s.seq q).waitQ ≠ i.val) →
    ((s.seq q).inAt i).length < queueMax →
    exec (.queueWaitEnd q i desc) s = .next (
      let d := (List.range 4).map fun k => (desc.map BitVec.toNat).getD k 0
      let t := if s.fed q i then s else s.setSeq q fun x => x.setIn i (x.inAt i ++ [d])
      if (s.seq q).wait == 2 && (s.seq q).waitQ == i.val && !((t.seq q).inAt i).isEmpty then resumeSeq q t else t)) ∧
  (∀ (mask : BitVec 6) (s : State), s.applied = true →
    ((let named := (List.range 6).filter fun q => mask.toNat.testBit q; named.all (s.atBarrier mask.toNat) = true)) →
    exec (.barrierComplete mask) s = .next (
      let named := (List.range 6).filter fun q => mask.toNat.testBit q
      (named.filter fun q => s.get (SEQ_STAT_STATE q) == sqBARRIER).foldl (fun s q => resumeSeq q s) s)) ∧
  (∀ (q : Seq) (a : BitVec 14) (s : State), s.applied = true → exec (.machineCheck q 0 (some a)) s = .next (machineCheck q a.toNat mcPARITY s)) ∧
  (∀ (q : Seq) (cause : Fin 2) (scan : Option (BitVec 14)) (s : State), s.applied = true → s.get (SEQ_STAT_STATE q) = sqRUN →
    (cause = 1 ∨ scan = none) →
    exec (.machineCheck q cause scan) s = .next (machineCheck q (if s.get (SEQ_STAT_PC q) < 2 ^ 14 then ((s.redirect q (s.get (SEQ_STAT_PC q))).map fun i => 2 ^ 14 + i).getD (s.get (SEQ_STAT_PC q))
      else s.get (SEQ_STAT_PC q)) (cause.val + 1) s)) ∧
  (∀ (s : State), s.applied = true → exec (.romScanLap) s = .next (s.inc SEQ_ROMSCAN_LAPS)) ∧
  (∀ (idx : Nat) (s : State) (r : Req), s.applied = true → s.ang.subm[idx]? = some r →
    exec (.angleGrant idx) s = .next (
      let out := { s with ang := { s.ang with subm := s.ang.subm.eraseIdx idx } }
      if s.givesBack r.ev.cls then decideReq r out
      else if !s.srcPermits r.ev.cls || !s.mayGrant r idx then s
      else decideReq r out))

/-- BAR2, the sweep, the scrub, error windows and the refresh poll. A BAR2 read returns the word behind its window, 0 outside it; a BAR2 write by the
management custodian sweeps ahead and stores, one by the other port only counts a discard; the sweep ends in phase 3; scrub slots read blocks
while scrubbing is enabled, a lap records its time; the correctable-error bucket leaks; an error window above its limit stops safely with cause
0x34; the refresh poll records four rates. -/
def Obligations.Bar2AndScrub : Prop :=
  (∀ (p : Port) (off : BitVec 32) (reach : Fin 16385) (o : BlockRead) (l : LineOutcome) (s : State), s.portOn p = true →
    exec (.bar2Read p off reach o l) s = .next (
      let s := sweepTo reach s
      match s.diagAddr (off.toNat / 4 * 4) with
      | none => { s with rdata := 0 }
      | some ba => bar2Read ba o l s)) ∧
  (∀ (p : Port) (off : BitVec 32) (data : List Byte) (reach : Fin 16385) (os : List BlockRead) (ls : List LineOutcome) (s : State),
    s.portOn p = true → s.applied = true →
    exec (.bar2Write p off data reach os ls) s = .next (
      if s.mgmt != some p.val then s.inc MEM_BAR2_DISCARDS
      else bar2Write off.toNat data os ls (sweepTo reach s))) ∧
  (∀ (pulls : Nat) (s : State), s.applied = true → s.get MEM_STAT_PHASE = 2 →
    exec (.sweepComplete pulls) s = .next (
      let s := (s.setMem fun m => { m with reach := s.sweepSteps, ahead := [] }).addSat MEM_SWEEP_PULLS pulls
      askScrub (tickAfter s.now) (eventRec 0x09 0 [] false (s.puts [(MEM_STAT_PHASE, 3), (MEM_SWEEP_DONE, s.sweepSteps)])))) ∧
  (∀ (os : List BlockRead) (s : State) (e : Ev), s.scrubs = true → s.turn (dueRank .scrub) = true →
    (s.ang.due.find? (fun e => e.cls == .scrub) = some e) →
    exec (.scrubSlot os) s = .next (askScrub ((e.target + e.len) % au48)
      (os.foldl (fun s o => scrubBlock o s) { s with ang := { s.ang with due := s.ang.due.erase e } }))) ∧
  (∀ (lap : Nat) (s : State), s.applied = true → s.get MEM_STAT_PHASE = 3 → s.get MEM_SCRPROG_BLOCK = s.blocks →
    exec (.scrubLapEnd lap) s = .next (
      let s := s.puts [(MEM_SCRLAP_LAP, min lap MEM_SCRLAP_LAP.max), (MEM_SCRPROG_BLOCK, 0)]
      eventRec 0x0A 0 [s.get MEM_SCRLAP_LAP] false s)) ∧
  (∀ (s : State), s.applied = true → exec (.ceBucketLeak) s = .next (bucketCheck (s.put MEM_CE_BUCKET_LEVEL (s.get MEM_CE_BUCKET_LEVEL - 1)))) ∧
  (∀ (n : Nat) (s : State), s.applied = true →
    ((let l := s.mem.errs.take n; let addrs := ((l.filter fun e => e.1 == oADDR).map Prod.snd).eraseDups.length; (s.get FLT_CFG_UELIM ≤ l.length || s.get FLT_CFG_ADDRLIM ≤ addrs) = true)) →
    exec (.memoryErrorWindow n) s = .next (
      let l := s.mem.errs.take n
      let addrs := ((l.filter fun e => e.1 == oADDR).map Prod.snd).eraseDups.length
      let s := logFlt 24 kSTOP 0x03 0 [l.length, addrs] (s.setMem fun m => { m with errs := [] })
      safeStop 0x34 (0x40 + 24) 0x03 0 ((s.put FLT_ACTIVE2_MEMLIM 1).inc FLT_STAT_UNCOV))) ∧
  (∀ (rates : List (BitVec 8)) (s : State), s.applied = true → rates.length = 4 →
    exec (.refreshRatePoll rates) s = .next (s.setMem fun m => { m with refresh := rates.map BitVec.toNat }))

/-- The Larder's ways, LRD_CTL and LRD_WAYCTL. A way's uncorrectable error drops its line, poisoned where it was dirty, and takes the way out of
service; so does WAYCE correctable errors in a window; LRD_CTL disables and enables; LRD_WAYCTL takes a way offline or restores it; a cleaned way
is empty and offline; the BIST's verdict ends a restore; a disabled Larder holds no line. -/
def Obligations.LarderCommands : Prop :=
  (∀ (w : Way) (line : BitVec 26) (dirty : Bool) (s : State), s.applied = true → s.bit LRD_WAYS_INSVC w = true →
    exec (.larderWayFault w line dirty) s = .next (
      let s := dropLine line.toNat w (s.inc LRD_ERR_UE)
      if dirty then wayFault w 2 (poisonLine line.toNat s) else wayFault w 1 s)) ∧
  (∀ (w : Way) (k n : Nat) (block : BitVec 28) (s : State), s.applied = true → s.bit LRD_WAYS_INSVC w = true → k ≤ Sparse.get s.lrd.ces w →
    s.get LRD_WCFG_WAYCE ≤ k + n →
    exec (.larderWayCeWindow w k n block) s = .next (
      let s := s.setLrd fun l => { l with ces := Sparse.set l.ces w 0 }
      wayFault w 3 (forUpTo n (fun _ s => noteCe 0xC block.toNat (s.inc LRD_ERR_CE)) s))) ∧
  (∀ (p : Port) (v : Word) (s : State), s.reaches p false = true → exec (.lrdDisable p v) s = .next (lrdCtl (v.toNat ||| 1) s)) ∧
  (∀ (p : Port) (v : Word) (s : State), s.reaches p false = true → exec (.lrdEnable p v) s = .next (lrdCtl (v.toNat / 2 * 2) s)) ∧
  (∀ (p : Port) (v : Word) (s : State), s.reaches p false = true → exec (.lrdWayOffline p v) s = .next (lrdWayCtl (v.toNat ||| 16) s)) ∧
  (∀ (p : Port) (v : Word) (s : State), s.reaches p false = true → exec (.lrdWayRestore p v) s = .next (lrdWayCtl (v.toNat ||| 32) s)) ∧
  (∀ (w : Way) (s : State), s.applied = true → s.lrd.cleaning.contains w.val = true →
    exec (.larderWayCleaned w) s = .next (
      let s := (emptyWay w s).setBit LRD_WAYS_OFFLINE w true
      if s.lrd.act == some (1, w.val) then actEnds 1 kINFO 1 w s else syncLrd s)) ∧
  (∀ (pass : Bool) (s : State) (w : Nat), s.lrd.act = some (2, w) → s.applied = true →
    exec (.lrdWayBistDone pass) s = .next (
      let s := s.setBit LRD_WAYST_BISTFAIL w (!pass)
      if !pass then actEnds 4 kINFO 3 w s
      else
        let s := s.when (!s.lrd.offWait) fun s =>
          (s.setBit LRD_WAYS_OFFLINE w false).setBit LRD_WAYS_INSVC w (s.cnv.cfg.ways.testBit w)
        actEnds 1 kCLEAR 2 w s)) ∧
  (∀ (s : State), s.applied = true → s.lrdState = lDISABLING →
    exec (.larderDisabled) s = .next (
      let s := s.lrd.lines.foldl (fun s e => writeBack (s.lineIn (e.1 / 16) (e.1 % 16)) (e.1 % 16) s) s
      let s := s.lrd.cleaning.foldl (fun s w => s.setBit LRD_WAYS_OFFLINE w true) s
      let s := s.puts [(LRD_STAT_STATE, lDISABLED), (LRD_WAYS_INSVC, 0), (LRD_DIRTY_LINES, 0)]
      let s := syncLrd (s.setLrd fun l => { l with lines := [], cleaning := [] })
      let s := eventRec 0x0B 0 [] false s
      if s.lrd.onWait then larderOn s else s))

/-- DMA channels, event FIFOs and telemetry. START, PAUSE, RESUME and ABORT are the custodian's writes of DMA_CTRL; a read completion that fits what
is outstanding delivers its data; a packet of a FIFO source moves whole; HALF is set once past the middle of the pass; DONE ends a pass and
restarts a circular one; an error ends the channel with its code. FIF_DROP drops the rest of the named FIFO's started packet, FIF_TCFG configures
telemetry, both as the custodian's writes in every state with clocks; a telemetry sample enters at its time while EN is 1 and the next is PERIOD
ticks on. -/
def Obligations.DmaCommands : Prop :=
  (∀ (p : Port) (c : Chan) (v : Word) (s : State), s.reaches p true = true →
    exec (.dmaStart p c v) s = .next (dmaCtrl p c (v.toNat ||| 1) (s.dmaSt c).issued s)) ∧
  (∀ (p : Port) (c : Chan) (v : Word) (out : Nat) (s : State), s.reaches p true = true →
    exec (.dmaPause p c v out) s = .next (dmaCtrl p c (v.toNat ||| 4) (min out (min (s.get (DMA_LEN_LEN c)) dmaAhead)) s)) ∧
  (∀ (p : Port) (c : Chan) (v : Word) (s : State), s.reaches p true = true →
    exec (.dmaResume p c v) s = .next (dmaCtrl p c (v.toNat - v.toNat / 4 % 2 * 4) 0 s)) ∧
  (∀ (p : Port) (c : Chan) (v : Word) (s : State), s.reaches p true = true →
    exec (.dmaAbort p c v) s = .next (dmaCtrl p c (v.toNat ||| 2) (s.dmaSt c).issued s)) ∧
  (∀ (c : Chan) (n : Nat) (data : List Byte) (left : Nat) (s : State), s.dmaRuns c = true → s.flag (DMA_STAT_PAUSED c) = false →
    s.get (DMA_CTRL_SSPACE c) ≠ spFIFO → 0 < n → n % 4 = 0 → n + left ≤ min (s.get (DMA_LEN_LEN c)) dmaAhead →
    (let host := s.get (DMA_CTRL_SSPACE c) == spHOST; (!host || data.length == n) = true) →
    (!s.flag (DMA_CTRL_PAUSE c) || n + left == (s.dmaSt c).issued) = true →
    exec (.dmaReadCompletion c n data left) s = .next (
      let host := s.get (DMA_CTRL_SSPACE c) == spHOST
      let src := s.dmaSrc c
      let r := if host then (some data, s) else dmaLoad src n s
      match r with
      | (none, s) => dmaEnd c dERR_MEMORY s
      | (some bytes, s) =>
        let s := dmaDeliver c bytes (setSrc c (src + n) (s.setDma c fun d => { d with issued := left }))
        s.when (s.flag (DMA_STAT_BUSY c) && s.flag (DMA_CTRL_PAUSE c) && left == 0 && 0 < s.get (DMA_LEN_LEN c)) fun s =>
          s.put (DMA_STAT_PAUSED c) 1)) ∧
  (∀ (c : Chan) (s : State), s.dmaRuns c = true → s.flag (DMA_CTRL_PAUSE c) = false → s.get (DMA_CTRL_SSPACE c) = spFIFO →
    (let pkt := s.dmaPacket c; pkt.isEmpty = false) →
    ((let pkt := s.dmaPacket c; let data := pkt.flatMap fun w => (List.range 4).map fun i => BitVec.ofNat 8 (w.toNat / 256 ^ i); let circ := s.flag (DMA_CTRL_CIRC c); (decide (data.length ≤ s.get (DMA_LEN_LEN c)) || (circ && data.length ≤ (s.dmaSt c).len0)) = true)) →
    exec (.dmaFifoPacket c) s = .next (
      let pkt := s.dmaPacket c
      let data := pkt.flatMap fun w => (List.range 4).map fun i => BitVec.ofNat 8 (w.toNat / 256 ^ i)
      let i := s.dmaSrc c % 4
      let s := { s with fifos := setAt s.fifos i (s.fifo i).next }
      if data.length ≤ s.get (DMA_LEN_LEN c) then dmaDeliver c data s else dmaWrap c data s)) ∧
  (∀ (c : Chan) (s : State), s.dmaRuns c = true → (s.dmaSt c).halfDone = false → s.dmaHalfway c = true →
    exec (.dmaHalf c) s = .next (
      let s := (s.setDma c fun d => { d with halfDone := true }).put (DMA_STAT_HALF c) 1
      s.when (s.flag (DMA_CTRL_HALFIE c)) (raiseIrq (8 + c)))) ∧
  (∀ (c : Chan) (s : State), s.dmaRuns c = true → s.dmaOver c = true → ((s.dmaSt c).halfDone || !s.dmaHalfway c) = true →
    exec (.dmaDone c) s = .next (
      let d := s.dmaSt c
      let s := s.put (DMA_STAT_DONE c) 1
      let s :=
        if !s.flag (DMA_CTRL_CIRC c) then s.puts [(DMA_STAT_BUSY c, 0), (DMA_STAT_PAUSED c, 0)]
        else
          let s := s.when (!d.wrapDue) fun s => (setDst c d.dst0 s).put (DMA_LEN_LEN c) d.len0
          s.setDma c fun d => { d with halfDone := false, wrapDue := false }
      s.when (s.flag (DMA_CTRL_DONEIE c)) (raiseIrq (8 + c)))) ∧
  (∀ (c : Chan) (err : Fin 3) (o : BlockRead) (l : LineOutcome) (s : State), s.dmaRuns c = true →
    (let r := memLoad srcDMA (s.dmaSrc c / 64) o l s; (if err.val == 2 then s.get (DMA_CTRL_SSPACE c) == spBUFFER && !r.1 else s.get (DMA_CTRL_SSPACE c) == spHOST || s.get (DMA_CTRL_DSPACE c) == spHOST) = true) →
    exec (.dmaError c err o l) s = .next (
      let r := memLoad srcDMA (s.dmaSrc c / 64) o l s
      dmaEnd c (err.val + 1) (if err.val == 2 then r.2 else s))) ∧
  (∀ (p : Port) (v : Word) (s : State), s.reaches p true = true → exec (.fifDrop p v) s = .next (fifDrop v.toNat s)) ∧
  (∀ (p : Port) (v : Word) (s : State), s.reaches p true = true → exec (.fifTcfgWrite p v) s = .next (fifTcfg v.toNat s)) ∧
  (∀ (s : State), s.applied = true → s.ang.running = true → s.flag FIF_TCFG_EN = true → passed s.now s.telAt = true →
    exec (.telemetrySample) s = .next (
      let regs := s.telRegs
      let s := pushSample s
      let s := regs.foldl (fun s off => readDraw off s) s
      { s with telAt := (tickAt s.now + max 1 (s.get FIF_TCFG_PERIOD) * tickAu) % au48 }))

/-- The governor, host demands, sensors, the duty and the comparator. At its time the governor asks every die sensor and, each PKDIV-th demand, the
pickups; a host demand asks the sensors it names; a sensor out of its grid's reach becomes suspect; a conversion's codes are stored and governed;
the duty takes effect at angle word 0; the die's rate band follows its temperature; the comparator's trip stops safely with cause 0x30. -/
def Obligations.ThermalCommands : Prop :=
  (∀ (s : State), s.applied = true → s.ang.running = true → passed s.now s.thm.nextGov = true → s.turn (dueRank .tempDemand) = true →
    exec (.governorDemand) s = .next (
      let d := (s.now + au48 - s.thm.nextGov) % au48
      let p := max 1 (s.get THM_PERIOD_PERIOD)
      let s := s.when (tickAu ≤ d) fun s => s.inc ANG_EVT_LATE
      let hs := if (s.thm.govN + 1) % s.get THM_CFG_PKDIV == 0 then (List.range 4).filter s.present else []
      (askPickups hs s).setThm fun t => { t with
        nextGov := (t.nextGov + (d / p + 1) * p) % au48
        govN := t.govN + 1, govDue := true, conv := 0xFFFF
        govPick := t.govPick ++ hs.filter fun h => !t.govPick.contains h })) ∧
  (∀ (p : Port) (v : Word) (s : State), s.reaches p false = true → exec (.thmDemand p v) s = .next (thmDemand (v.toNat ||| 2 ^ 24) s)) ∧
  (∀ (k : Fin 16) (code : BitVec 16) (s : State), s.applied = true → s.thm.govDue = true → s.bit THM_SUSPECT_MASK k = false →
    (2 ≤ (gridSum (s.get THM_SUSPECT_MASK) ((List.range 16).map fun j => s.getI (THM_DIE_TEMP j)) k).2) →
    ((outOfRange code.toInt = true ∨ (2 ≤ s.thm.outN.getD k 0 ∧ departs (s.get THM_CFG_XDEV) (gridSum (s.get THM_SUSPECT_MASK) ((List.range 16).map fun j => s.getI (THM_DIE_TEMP j)) k) code.toInt = true))) →
    exec (.sensorSuspect k code) s = .next (
      let v := code.toInt
      (markSuspect k v) s)) ∧
  (∀ (codes : List (BitVec 16)) (us : Nat) (s : State), s.applied = true → s.thm.conv ≠ 0 → codes.length = 16 →
    (s.thm.hist.all fun x => x.1 ≤ us) →
    exec (.dieConversionDone codes us) s = .next (
      let conv := s.thm.conv
      let vals := (List.range 16).map fun k =>
        if conv.testBit k then (codes.getD k 0).toInt else s.getI (THM_DIE_TEMP k)
      let gov := s.thm.govDue
      let s := storeDie conv vals ((judgeRange conv vals s).when gov (judgeAll vals))
      let s := s.when s.dieHot spoilWindow
      let s := s.setThm fun t => { t with conv := 0, govDue := false, dieWait := false }
      hostDemandEnds (s.when gov (govern us)))) ∧
  (∀ (s : State), s.applied = true → s.ang.running = true → exec (.dutyUpdate) s = .next (takeDuty s)) ∧
  (∀ (s : State), s.applied = true → s.now % tickAu = 0 → s.dieBandNow ≠ s.get THM_RATE_DIEBAND →
    exec (.dieBandChange) s = .next (s.put THM_RATE_DIEBAND s.dieBandNow)) ∧
  (∀ (s : State), s.on = true → exec (.thermalComparatorTrip) s = .next (safeStop 0x30 0 0 0 (tripSafety (s.put THM_STAT_ATRIP 1))))

/-- The Cellar: commands, their end, erase requests, the password. CEL_CMD reads, programs or erases as the custodian writes it; the operation in
progress ends, its owner sees it and the log counts follow; a log region with at most two erased sectors ahead has its oldest re-appended and
erased; CEL_UNLOCK unlocks, locks, sets the password or the protection. -/
def Obligations.CellarCommands : Prop :=
  (∀ (p : Port) (v : Word) (s : State), s.reaches p false = true → exec (.celRead p v) s = .next (celCmd (v.toNat / 4 * 4 + 1) s)) ∧
  (∀ (p : Port) (v : Word) (s : State), s.reaches p false = true → exec (.celProgram p v) s = .next (celCmd (v.toNat / 4 * 4 + 2) s)) ∧
  (∀ (p : Port) (v : Word) (s : State), s.reaches p false = true → exec (.celErase p v) s = .next (celCmd (v.toNat / 4 * 4 + 3) s)) ∧
  (∀ (ok : Bool) (s : State), s.celServes = true →
    exec (.cellarOpComplete ok) s = .next (
      match s.cel.ops with
      | [] => s
      | o :: os =>
        match s.cel.target o with
        | none => { s with cel := { s.cel with ops := os ++ [o] } }
        | some w => celOwner o (syncCelLog (celAct o w ok { s with cel := { s.cel with ops := os } })))) ∧
  (∀ (ledger : Bool) (s : State), s.on = true → s.cel.freeAhead (if ledger then sectLEDGER else sectJOURNAL) ≤ 2 →
    s.flag (if ledger then CEL_LOG_LREQ else CEL_LOG_JREQ) = false → s.flag CEL_STATUS_LOWV = false →
    exec (.cellarEraseRequest ledger) s = .next (celQueue { client := if ledger then 2 else 1, kind := 3, word := 2048 * s.cel.oldest (if ledger then sectLEDGER else sectJOURNAL) }
      ((if ledger then reappendLedger else reappendJournal) (s.put (if ledger then CEL_LOG_LREQ else CEL_LOG_JREQ) 1)))) ∧
  (∀ (p : Port) (v : Word) (recent : Bool) (s : State), s.reaches p false = true →
    exec (.celUnlock p v recent) s = .next (celUnlock recent (v.toNat / 8 * 8 + 1) s)) ∧
  (∀ (p : Port) (v : Word) (s : State), s.reaches p false = true → exec (.celLock p v) s = .next (celUnlock false (v.toNat / 8 * 8 + 2) s)) ∧
  (∀ (p : Port) (v : Word) (s : State), s.reaches p false = true → exec (.celSetpw p v) s = .next (celUnlock false (v.toNat / 8 * 8 + 3) s)) ∧
  (∀ (p : Port) (v : Word) (s : State), s.reaches p false = true → exec (.celSetprot p v) s = .next (celUnlock false (v.toNat / 8 * 8 + 4) s))

/-- The debug password, the TAP's instructions, freeze and full reset through it. DBG_UNLOCK and TAP UNLOCK attempt the password; the port opens when
the Seal's sectors are erased; while any supply is on each TAP instruction loads its code and its data: IDCODE, SAMPLE, EXTEST, CLAMP and HIGHZ
(in FROZEN or from BARE, which freezes, else as BYPASS), DSTAT, FULLRST, which raises a full reset, TFREEZE, SCANOUT only with the port open in
FROZEN, and BYPASS for the rest; TRST returns to IDCODE. -/
def Obligations.DebugAndTap : Prop :=
  (∀ (p : Port) (v : Word) (recent : Bool) (s : State), (dbgRefused p s).reaches p false = true →
    exec (.dbgUnlock p v recent) s = .next (dbgUnlock recent v.toNat (dbgRefused p s))) ∧
  (∀ (s : State), s.sys.off = false → s.sec.dbgStep = 1 → ((s.cel.ops.any fun o => o.client == 4) = false) → s.cel.sectorErased 120 = true →
    s.cel.sectorErased 121 = true →
    exec (.debugPortOpen) s = .next ({ s.puts [(SEC_STAT_DBGOPEN, 1), (DBG_STAT_RESULT, 1), (DBG_STAT_BUSY, 0)] with sec := { s.sec with dbgStep := 0 } })) ∧
  (∀ (capture : Bool) (n : Nat) (s : State), s.tapOn = true →
    exec (.scanout capture n) s = .next (
      let from0 := if capture then 0 else s.tap.pos
      if s.life == FROZEN && s.flag SEC_STAT_DBGOPEN then
        let out := (List.range n).map fun k => s.chainAt ((from0 + k) % chainLen)
        s.setTap fun t => { t with ir := 0x12, pos := (from0 + n) % chainLen, tdo := out }
      else s.setTap fun t => { t with ir := 0x12, pos := 0, tdo := List.replicate n false })) ∧
  (∀ (s : State), s.tapOn = true → exec (.idcode) s = .next (s.setTap fun t => { t with ir := 1, tdo := bitsLsb 32 idcode })) ∧
  (∀ (balls cells : List Bool) (s : State), s.tapOn = true →
    exec (.samplePreload balls cells) s = .next (s.setTap fun t => { t with ir := 2, tdo := balls, cells })) ∧
  (∀ (balls cells : List Bool) (s : State), s.tapOn = true →
    exec (.extest balls cells) s = .next (if s.life = FROZEN then s.setTap (fun t => { t with ir := 3, tdo := balls, cells }) else if s.life = BARE ∧ s.on = true then (freeze true s).setTap (fun t => { t with ir := 3, tdo := balls, cells }) else s.setTap fun t => { t with ir := 0xFF, tdo := [false] })) ∧
  (∀ (s : State), s.tapOn = true →
    exec (.clamp) s = .next (if s.life = FROZEN then s.setTap (fun t => { t with ir := 4, tdo := [false] }) else if s.life = BARE ∧ s.on = true then (freeze true s).setTap (fun t => { t with ir := 4, tdo := [false] }) else s.setTap fun t => { t with ir := 0xFF, tdo := [false] })) ∧
  (∀ (s : State), s.tapOn = true →
    exec (.highz) s = .next (if s.life = FROZEN then s.setTap (fun t => { t with ir := 5, tdo := [false] }) else if s.life = BARE ∧ s.on = true then (freeze true s).setTap (fun t => { t with ir := 5, tdo := [false] }) else s.setTap fun t => { t with ir := 0xFF, tdo := [false] })) ∧
  (∀ (pw : BitVec 64) (recent : Bool) (s : State), s.tapOn = true →
    exec (.tapUnlock pw recent) s = .next (dbgAttempt recent pw.toNat (s.setTap fun t => { t with ir := 0x10 }))) ∧
  (∀ (s : State), s.tapOn = true → exec (.dstat) s = .next (s.setTap fun t => { t with ir := 0x11, tdo := bitsLsb 32 (s.regRead DBG_STAT_RESULT.off) })) ∧
  (∀ (s : State), s.tapOn = true → exec (.fullrst) s = .next (raiseFullReset 4 (s.setTap fun t => { t with ir := 0x13, tdo := [false] }))) ∧
  (∀ (s : State), s.tapOn = true → exec (.tfreeze) s = .next ((s.setTap fun t => { t with ir := 0x14, tdo := [false] }).when s.on (freeze true))) ∧
  (∀ (code : BitVec 8) (s : State), s.tapOn = true →
    exec (.bypass code) s = .next (
      let c := if [0x01, 0x02, 0x03, 0x04, 0x05, 0x10, 0x11, 0x12, 0x13, 0x14].contains code.toNat then 0xFF else code.toNat
      s.setTap fun t => { t with ir := c, tdo := [false] })) ∧
  (∀ (s : State), s.tapOn = true → exec (.trst) s = .next (s.setTap fun t => { t with ir := 1, pos := 0, tdo := [] }))

/-- Mode transitions, heads leaving and joining, any register's write. RAMPWAIT ends when no write window is open, a leaving head that is retracted
and still has left, a joining head on track has joined, a read-back with nothing unverified has ended; FLT_HEADCTL takes a head offline or
restores it; a whole aligned write of any offset of the register window by a custodian writes that register. -/
def Obligations.ModesHeadsAndRegisterWrites : Prop :=
  (∀ (s : State), s.inLife [MOUNTED] = true → s.flag SYS_MODE_ST_RAMPWAIT = true → s.writing = false →
    exec (.rampwaitEnd) s = .next (checkTrans (followTarget (s.put SYS_MODE_ST_RAMPWAIT 0)))) ∧
  (∀ (h : Head) (s : State), s.inLife [MOUNTED] = true → s.bit SYS_MODE_ST_LEAVE h = true → (s.opuHead h).leaving = 2 → s.sledMoving h = false →
    exec (.headLeaveDone h) s = .next (
      let s := (s.setBit SYS_MODE_ST_LEAVE h false).setOpu h fun o => { o with leaving := 0 }
      let s := s.when (s.flag FLT_ACTST_BUSY && s.flt.actHead == h.val && !s.enumerating h) fun s =>
        endHeadAction 1 (setPhase h hpOUT (syncLon h (s.put (OPU_HSTAT_INSVC h) 0)))
      checkTrans s)) ∧
  (∀ (h : Head) (s : State), s.inLife [MOUNTED] = true → s.bit SYS_MODE_ST_JOIN h = true → s.get (SRV_HSTAT_PHASE h) = hpON_TRACK →
    exec (.headJoinDone h) s = .next (checkTrans (s.setBit SYS_MODE_ST_JOIN h false))) ∧
  (∀ (s : State), s.inLife [MOUNTED] = true → s.flag SYS_MODE_ST_READBACK = true → s.unverified = false →
    exec (.readbackDone) s = .next (checkTrans (s.put SYS_MODE_ST_READBACK 0))) ∧
  (∀ (p : Port) (v : Word) (s : State), s.reaches p false = true → exec (.fltHeadOffline p v) s = .next (headCtl (v.toNat ||| 4) s)) ∧
  (∀ (p : Port) (v : Word) (s : State), s.reaches p false = true → exec (.fltHeadRestore p v) s = .next (headCtl (v.toNat ||| 8) s)) ∧
  (∀ (p : Port) (off : Nat) (v : Word) (out : Nat) (recent : Bool) (s : State), off % 4 = 0 → 0x10000 ≤ off → off < 0x2000000 →
    (if off = DBG_UNLOCK_PW.off then dbgRefused p s else s).reaches p (s.bareLive off) = true →
    exec (.registerWrite p off v true out recent) s = .next (writeReg p off v.toNat out recent (if off = DBG_UNLOCK_PW.off then dbgRefused p s else s))) ∧
  (∀ (p : Port) (off : Nat) (v : Word) (whole : Bool) (out : Nat) (recent : Bool) (s : State), (whole = false ∨ off % 4 ≠ 0) →
    exec (.registerWrite p off v whole out recent) s = .next s)

/-- Clearing reads of the angle, servo, motor, channel and writing registers. The management custodian's read of each of these registers, live and
with clocks on, completes with the register's value as it was before the read, returns every read-to-clear field of that register to its reset
value, and changes no other field of any register and nothing else of the state. -/
def Obligations.ReadsClearTheirCounters1 : Prop :=
  (∀ (p : Port) (s : State), s.reads p (ANG_LOCK_LOSSCNT).off = true →
    ∃ t, exec (.angLockRead p) s = .next t ∧ t.rdata = BitVec.ofNat 32 (s.regRead (ANG_LOCK_LOSSCNT).off) ∧ t.get ANG_LOCK_LOSSCNT = 0 ∧
      ({ s with rdata := t.rdata } : State).sameBut t [ANG_LOCK_LOSSCNT]) ∧
  (∀ (p : Port) (s : State), s.reads p (ANG_EVT_LATE).off = true →
    ∃ t, exec (.angEvtRead p) s = .next t ∧ t.rdata = BitVec.ofNat 32 (s.regRead (ANG_EVT_LATE).off) ∧ t.get ANG_EVT_LATE = 0 ∧
      ({ s with rdata := t.rdata } : State).sameBut t [ANG_EVT_LATE]) ∧
  (∀ (p : Port) (s : State), s.reads p (ANG_QWIN_DISCARD).off = true →
    ∃ t, exec (.angQwinRead p) s = .next t ∧ t.rdata = BitVec.ofNat 32 (s.regRead (ANG_QWIN_DISCARD).off) ∧ t.get ANG_QWIN_DISCARD = 0 ∧
      t.get ANG_QWIN_ACCEPT = 0 ∧ ({ s with rdata := t.rdata } : State).sameBut t [ANG_QWIN_DISCARD, ANG_QWIN_ACCEPT]) ∧
  (∀ (p : Port) (s : State), s.reads p (SKT_CNT_ABORTS).off = true →
    ∃ t, exec (.sktCntRead p) s = .next t ∧ t.rdata = BitVec.ofNat 32 (s.regRead (SKT_CNT_ABORTS).off) ∧ t.get SKT_CNT_ABORTS = 0 ∧
      t.get SKT_CNT_COMMITS = 0 ∧ ({ s with rdata := t.rdata } : State).sameBut t [SKT_CNT_ABORTS, SKT_CNT_COMMITS]) ∧
  (∀ (p : Port) (h : Head) (s : State), s.reads p (OPU_HSTAT_LINKERR h).off = true →
    ∃ t, exec (.opuHstatRead p h) s = .next t ∧ t.rdata = BitVec.ofNat 32 (s.regRead (OPU_HSTAT_LINKERR h).off) ∧
      t.get (OPU_HSTAT_LINKERR h) = 0 ∧ ({ s with rdata := t.rdata } : State).sameBut t [OPU_HSTAT_LINKERR h]) ∧
  (∀ (p : Port) (h : Head) (s : State), s.reads p (OPU_LINKRSP_DONE h).off = true →
    ∃ t, exec (.opuLinkrspRead p h) s = .next t ∧ t.rdata = BitVec.ofNat 32 (s.regRead (OPU_LINKRSP_DONE h).off) ∧
      t.get (OPU_LINKRSP_DONE h) = 0 ∧ ({ s with rdata := t.rdata } : State).sameBut t [OPU_LINKRSP_DONE h]) ∧
  (∀ (p : Port) (s : State), s.reads p (OPU_GSTAT_TRIPS).off = true →
    ∃ t, exec (.opuGstatRead p) s = .next t ∧ t.rdata = BitVec.ofNat 32 (s.regRead (OPU_GSTAT_TRIPS).off) ∧ t.get OPU_GSTAT_TRIPS = 0 ∧
      ({ s with rdata := t.rdata } : State).sameBut t [OPU_GSTAT_TRIPS]) ∧
  (∀ (p : Port) (l : Loop) (s : State), s.reads p (SRV_LSTAT_HOLDS l).off = true →
    ∃ t, exec (.srvLstatRead p l) s = .next t ∧ t.rdata = BitVec.ofNat 32 (s.regRead (SRV_LSTAT_HOLDS l).off) ∧ t.get (SRV_LSTAT_HOLDS l) = 0 ∧
      ({ s with rdata := t.rdata } : State).sameBut t [SRV_LSTAT_HOLDS l]) ∧
  (∀ (p : Port) (l : Loop) (s : State), s.reads p (SRV_ARITH_SATN l).off = true →
    ∃ t, exec (.srvArithRead p l) s = .next t ∧ t.rdata = BitVec.ofNat 32 (s.regRead (SRV_ARITH_SATN l).off) ∧ t.get (SRV_ARITH_SATN l) = 0 ∧
      t.get (SRV_ARITH_LOSTN l) = 0 ∧ ({ s with rdata := t.rdata } : State).sameBut t [SRV_ARITH_SATN l, SRV_ARITH_LOSTN l]) ∧
  (∀ (p : Port) (h : Head) (s : State), s.reads p (SRV_HCNT_FLOSS h).off = true →
    ∃ t, exec (.srvHcntRead p h) s = .next t ∧ t.rdata = BitVec.ofNat 32 (s.regRead (SRV_HCNT_FLOSS h).off) ∧ t.get (SRV_HCNT_FLOSS h) = 0 ∧
      t.get (SRV_HCNT_TLOSS h) = 0 ∧ t.get (SRV_HCNT_INHN h) = 0 ∧ t.get (SRV_HCNT_JFAIL h) = 0 ∧
      ({ s with rdata := t.rdata } : State).sameBut t [SRV_HCNT_FLOSS h, SRV_HCNT_TLOSS h, SRV_HCNT_INHN h, SRV_HCNT_JFAIL h]) ∧
  (∀ (p : Port) (h : Head) (s : State), s.reads p (SRV_TQWIN_DISCARD h).off = true →
    ∃ t, exec (.srvTqwinRead p h) s = .next t ∧ t.rdata = BitVec.ofNat 32 (s.regRead (SRV_TQWIN_DISCARD h).off) ∧
      t.get (SRV_TQWIN_DISCARD h) = 0 ∧ t.get (SRV_TQWIN_ACCEPT h) = 0 ∧
      ({ s with rdata := t.rdata } : State).sameBut t [SRV_TQWIN_DISCARD h, SRV_TQWIN_ACCEPT h]) ∧
  (∀ (p : Port) (s : State), s.reads p (SRV_SHKST_EVENTS).off = true →
    ∃ t, exec (.srvShkstRead p) s = .next t ∧ t.rdata = BitVec.ofNat 32 (s.regRead (SRV_SHKST_EVENTS).off) ∧ t.get SRV_SHKST_EVENTS = 0 ∧
      t.get SRV_SHKST_PEAK = 0 ∧ ({ s with rdata := t.rdata } : State).sameBut t [SRV_SHKST_EVENTS, SRV_SHKST_PEAK]) ∧
  (∀ (p : Port) (h : Head) (s : State), s.reads p (SLD_CNT_SLIPS h).off = true →
    ∃ t, exec (.sldCntRead p h) s = .next t ∧ t.rdata = BitVec.ofNat 32 (s.regRead (SLD_CNT_SLIPS h).off) ∧ t.get (SLD_CNT_SLIPS h) = 0 ∧
      t.get (SLD_CNT_PREEMPT h) = 0 ∧ t.get (SLD_CNT_RETGT h) = 0 ∧ t.get (SLD_CNT_REFUSED h) = 0 ∧
      ({ s with rdata := t.rdata } : State).sameBut t [SLD_CNT_SLIPS h, SLD_CNT_PREEMPT h, SLD_CNT_RETGT h, SLD_CNT_REFUSED h]) ∧
  (∀ (p : Port) (s : State), s.reads p (SPN_DIST_OCN).off = true →
    ∃ t, exec (.spnDistRead p) s = .next t ∧ t.rdata = BitVec.ofNat 32 (s.regRead (SPN_DIST_OCN).off) ∧ t.get SPN_DIST_OCN = 0 ∧
      t.get SPN_DIST_NARROWW = 0 ∧ t.get SPN_DIST_NARROWV = 0 ∧ t.get SPN_DIST_NARROWU = 0 ∧
      ({ s with rdata := t.rdata } : State).sameBut t [SPN_DIST_OCN, SPN_DIST_NARROWW, SPN_DIST_NARROWV, SPN_DIST_NARROWU]) ∧
  (∀ (p : Port) (l : Lane) (s : State), s.reads p (CHN_LSTAT_FAILCHK l).off = true →
    ∃ t, exec (.chnLstatRead p l) s = .next t ∧ t.rdata = BitVec.ofNat 32 (s.regRead (CHN_LSTAT_FAILCHK l).off) ∧
      t.get (CHN_LSTAT_FAILCHK l) = 0 ∧ ({ s with rdata := t.rdata } : State).sameBut t [CHN_LSTAT_FAILCHK l]) ∧
  (∀ (p : Port) (h : Head) (s : State), s.reads p (DET_HCNT_EQRELOAD h).off = true →
    ∃ t, exec (.detHcntRead p h) s = .next t ∧ t.rdata = BitVec.ofNat 32 (s.regRead (DET_HCNT_EQRELOAD h).off) ∧
      t.get (DET_HCNT_EQRELOAD h) = 0 ∧ t.get (DET_HCNT_REPROFULL h) = 0 ∧
      ({ s with rdata := t.rdata } : State).sameBut t [DET_HCNT_EQRELOAD h, DET_HCNT_REPROFULL h]) ∧
  (∀ (p : Port) (h : Head) (s : State), s.reads p (DET_PASS_PASS3 h).off = true →
    ∃ t, exec (.detPassRead p h) s = .next t ∧ t.rdata = BitVec.ofNat 32 (s.regRead (DET_PASS_PASS3 h).off) ∧ t.get (DET_PASS_PASS3 h) = 0 ∧
      t.get (DET_PASS_PASS2 h) = 0 ∧ ({ s with rdata := t.rdata } : State).sameBut t [DET_PASS_PASS3 h, DET_PASS_PASS2 h]) ∧
  (∀ (p : Port) (s : State), s.reads p (CWD_QUEUE_PEAK).off = true →
    ∃ t, exec (.cwdQueueRead p) s = .next t ∧ t.rdata = BitVec.ofNat 32 (s.regRead (CWD_QUEUE_PEAK).off) ∧ t.get CWD_QUEUE_PEAK = 0 ∧
      ({ s with rdata := t.rdata } : State).sameBut t [CWD_QUEUE_PEAK]) ∧
  (∀ (p : Port) (s : State), s.reads p (CWD_TAGCNT_LOST).off = true →
    ∃ t, exec (.cwdTagcntRead p) s = .next t ∧ t.rdata = BitVec.ofNat 32 (s.regRead (CWD_TAGCNT_LOST).off) ∧ t.get CWD_TAGCNT_LOST = 0 ∧
      t.get CWD_TAGCNT_ERASED = 0 ∧ t.get CWD_TAGCNT_CORR = 0 ∧ t.get CWD_TAGCNT_CLEAN = 0 ∧
      ({ s with rdata := t.rdata } : State).sameBut t [CWD_TAGCNT_LOST, CWD_TAGCNT_ERASED, CWD_TAGCNT_CORR, CWD_TAGCNT_CLEAN]) ∧
  (∀ (p : Port) (s : State), s.reads p (CWD_CNT_OVF).off = true →
    ∃ t, exec (.cwdCntRead p) s = .next t ∧ t.rdata = BitVec.ofNat 32 (s.regRead (CWD_CNT_OVF).off) ∧ t.get CWD_CNT_OVF = 0 ∧
      t.get CWD_CNT_BUSY = 0 ∧ ({ s with rdata := t.rdata } : State).sameBut t [CWD_CNT_OVF, CWD_CNT_BUSY]) ∧
  (∀ (p : Port) (h : Head) (s : State), s.reads p (WRS_HSTAT_CLAMP h).off = true →
    ∃ t, exec (.wrsHstatRead p h) s = .next t ∧ t.rdata = BitVec.ofNat 32 (s.regRead (WRS_HSTAT_CLAMP h).off) ∧ t.get (WRS_HSTAT_CLAMP h) = 0 ∧
      ({ s with rdata := t.rdata } : State).sameBut t [WRS_HSTAT_CLAMP h]) ∧
  (∀ (p : Port) (h : Head) (s : State), s.reads p (WRS_OPCST_RUNS h).off = true →
    ∃ t, exec (.wrsOpcstRead p h) s = .next t ∧ t.rdata = BitVec.ofNat 32 (s.regRead (WRS_OPCST_RUNS h).off) ∧ t.get (WRS_OPCST_RUNS h) = 0 ∧
      t.get (WRS_OPCST_FAILS h) = 0 ∧ ({ s with rdata := t.rdata } : State).sameBut t [WRS_OPCST_RUNS h, WRS_OPCST_FAILS h]) ∧
  (∀ (p : Port) (h : Head) (s : State), s.reads p (WRS_VCNT_VFAIL h).off = true →
    ∃ t, exec (.wrsVcntRead p h) s = .next t ∧ t.rdata = BitVec.ofNat 32 (s.regRead (WRS_VCNT_VFAIL h).off) ∧ t.get (WRS_VCNT_VFAIL h) = 0 ∧
      t.get (WRS_VCNT_INCONCL h) = 0 ∧ t.get (WRS_VCNT_REWRITE h) = 0 ∧ t.get (WRS_VCNT_WFAIL h) = 0 ∧
      ({ s with rdata := t.rdata } : State).sameBut t [WRS_VCNT_VFAIL h, WRS_VCNT_INCONCL h, WRS_VCNT_REWRITE h, WRS_VCNT_WFAIL h])

/-- Clearing reads of the stripe, map, health, host, memory, system, thermal, Cellar and security registers. The management custodian's read of each
of these registers, live and with clocks on, completes with the register's value as it was before the read, returns every read-to-clear field of
that register to its reset value, and changes no other field of any register and nothing else of the state. -/
def Obligations.ReadsClearTheirCounters2 : Prop :=
  (∀ (p : Port) (s : State), s.reads p (STR_CNT_COMMITS).off = true →
    ∃ t, exec (.strCntRead p) s = .next t ∧ t.rdata = BitVec.ofNat 32 (s.regRead (STR_CNT_COMMITS).off) ∧ t.get STR_CNT_COMMITS = 0 ∧
      t.get STR_CNT_VOIDS = 0 ∧ ({ s with rdata := t.rdata } : State).sameBut t [STR_CNT_COMMITS, STR_CNT_VOIDS]) ∧
  (∀ (p : Port) (s : State), s.reads p (STR_RECON_RECON).off = true →
    ∃ t, exec (.strReconRead p) s = .next t ∧ t.rdata = BitVec.ofNat 32 (s.regRead (STR_RECON_RECON).off) ∧ t.get STR_RECON_RECON = 0 ∧
      t.get STR_RECON_UNREC = 0 ∧ ({ s with rdata := t.rdata } : State).sameBut t [STR_RECON_RECON, STR_RECON_UNREC]) ∧
  (∀ (p : Port) (s : State), s.reads p (STR_SLOW_SLOW).off = true →
    ∃ t, exec (.strSlowRead p) s = .next t ∧ t.rdata = BitVec.ofNat 32 (s.regRead (STR_SLOW_SLOW).off) ∧ t.get STR_SLOW_SLOW = 0 ∧
      t.get STR_SLOW_DEGRD = 0 ∧ ({ s with rdata := t.rdata } : State).sameBut t [STR_SLOW_SLOW, STR_SLOW_DEGRD]) ∧
  (∀ (p : Port) (s : State), s.reads p (STR_RB_DONE).off = true →
    ∃ t, exec (.strRbRead p) s = .next t ∧ t.rdata = BitVec.ofNat 32 (s.regRead (STR_RB_DONE).off) ∧ t.get STR_RB_DONE = 0 ∧
      ({ s with rdata := t.rdata } : State).sameBut t [STR_RB_DONE]) ∧
  (∀ (p : Port) (s : State), s.reads p (MAP_DF_COUNT).off = true →
    ∃ t, exec (.mapDfRead p) s = .next t ∧ t.rdata = BitVec.ofNat 32 (s.regRead (MAP_DF_COUNT).off) ∧ t.get MAP_DF_COUNT = 0 ∧
      ({ s with rdata := t.rdata } : State).sameBut t [MAP_DF_COUNT]) ∧
  (∀ (p : Port) (s : State), s.reads p (MAP_DFMAX_US).off = true →
    ∃ t, exec (.mapDfmaxRead p) s = .next t ∧ t.rdata = BitVec.ofNat 32 (s.regRead (MAP_DFMAX_US).off) ∧ t.get MAP_DFMAX_US = 0 ∧
      ({ s with rdata := t.rdata } : State).sameBut t [MAP_DFMAX_US]) ∧
  (∀ (p : Port) (s : State), s.reads p (MAP_CKPT_MAPCK).off = true →
    ∃ t, exec (.mapCkptRead p) s = .next t ∧ t.rdata = BitVec.ofNat 32 (s.regRead (MAP_CKPT_MAPCK).off) ∧ t.get MAP_CKPT_MAPCK = 0 ∧
      t.get MAP_CKPT_ZONECK = 0 ∧ ({ s with rdata := t.rdata } : State).sameBut t [MAP_CKPT_MAPCK, MAP_CKPT_ZONECK]) ∧
  (∀ (p : Port) (s : State), s.reads p (MAP_CLEAN_UNITS).off = true →
    ∃ t, exec (.mapCleanRead p) s = .next t ∧ t.rdata = BitVec.ofNat 32 (s.regRead (MAP_CLEAN_UNITS).off) ∧ t.get MAP_CLEAN_UNITS = 0 ∧
      ({ s with rdata := t.rdata } : State).sameBut t [MAP_CLEAN_UNITS]) ∧
  (∀ (p : Port) (s : State), s.reads p (HLT_REFQ_DROP).off = true →
    ∃ t, exec (.hltRefqRead p) s = .next t ∧ t.rdata = BitVec.ofNat 32 (s.regRead (HLT_REFQ_DROP).off) ∧ t.get HLT_REFQ_DROP = 0 ∧
      ({ s with rdata := t.rdata } : State).sameBut t [HLT_REFQ_DROP]) ∧
  (∀ (p : Port) (s : State), s.reads p (HLT_CNT_REFRESH).off = true →
    ∃ t, exec (.hltCntRead p) s = .next t ∧ t.rdata = BitVec.ofNat 32 (s.regRead (HLT_CNT_REFRESH).off) ∧ t.get HLT_CNT_REFRESH = 0 ∧
      t.get HLT_CNT_RETIRE = 0 ∧ ({ s with rdata := t.rdata } : State).sameBut t [HLT_CNT_REFRESH, HLT_CNT_RETIRE]) ∧
  (∀ (p : Port) (s : State), s.reads p (HLT_LEDG_DELTAS).off = true →
    ∃ t, exec (.hltLedgRead p) s = .next t ∧ t.rdata = BitVec.ofNat 32 (s.regRead (HLT_LEDG_DELTAS).off) ∧ t.get HLT_LEDG_DELTAS = 0 ∧
      ({ s with rdata := t.rdata } : State).sameBut t [HLT_LEDG_DELTAS]) ∧
  (∀ (p : Port) (s : State), s.reads p (CAL_CNT_FAILS).off = true →
    ∃ t, exec (.calCntRead p) s = .next t ∧ t.rdata = BitVec.ofNat 32 (s.regRead (CAL_CNT_FAILS).off) ∧ t.get CAL_CNT_FAILS = 0 ∧
      t.get CAL_CNT_RUNS = 0 ∧ ({ s with rdata := t.rdata } : State).sameBut t [CAL_CNT_FAILS, CAL_CNT_RUNS]) ∧
  (∀ (p : Port) (i : Port) (s : State), s.reads p (HST_PORT_LINKDOWNS i).off = true →
    ∃ t, exec (.hstPortRead p i) s = .next t ∧ t.rdata = BitVec.ofNat 32 (s.regRead (HST_PORT_LINKDOWNS i).off) ∧
      t.get (HST_PORT_LINKDOWNS i) = 0 ∧ ({ s with rdata := t.rdata } : State).sameBut t [HST_PORT_LINKDOWNS i]) ∧
  (∀ (p : Port) (i : Port) (s : State), s.reads p (HST_INFL_PEAK i).off = true →
    ∃ t, exec (.hstInflRead p i) s = .next t ∧ t.rdata = BitVec.ofNat 32 (s.regRead (HST_INFL_PEAK i).off) ∧ t.get (HST_INFL_PEAK i) = 0 ∧
      ({ s with rdata := t.rdata } : State).sameBut t [HST_INFL_PEAK i]) ∧
  (∀ (p : Port) (s : State), s.reads p (HST_CUST_DISCARDS).off = true →
    ∃ t, exec (.hstCustRead p) s = .next t ∧ t.rdata = BitVec.ofNat 32 (s.regRead (HST_CUST_DISCARDS).off) ∧ t.get HST_CUST_DISCARDS = 0 ∧
      ({ s with rdata := t.rdata } : State).sameBut t [HST_CUST_DISCARDS]) ∧
  (∀ (p : Port) (s : State), s.reads p (HST_RLOCK_STALLS).off = true →
    ∃ t, exec (.hstRlockRead p) s = .next t ∧ t.rdata = BitVec.ofNat 32 (s.regRead (HST_RLOCK_STALLS).off) ∧ t.get HST_RLOCK_STALLS = 0 ∧
      ({ s with rdata := t.rdata } : State).sameBut t [HST_RLOCK_STALLS]) ∧
  (∀ (p : Port) (s : State), s.reads p (HST_ERRCNT_UNREC).off = true →
    ∃ t, exec (.hstErrcntRead p) s = .next t ∧ t.rdata = BitVec.ofNat 32 (s.regRead (HST_ERRCNT_UNREC).off) ∧ t.get HST_ERRCNT_UNREC = 0 ∧
      t.get HST_ERRCNT_ERRLOG = 0 ∧ ({ s with rdata := t.rdata } : State).sameBut t [HST_ERRCNT_UNREC, HST_ERRCNT_ERRLOG]) ∧
  (∀ (p : Port) (s : State), s.reads p (MEM_SWEEP_PULLS).off = true →
    ∃ t, exec (.memSweepRead p) s = .next t ∧ t.rdata = BitVec.ofNat 32 (s.regRead (MEM_SWEEP_PULLS).off) ∧ t.get MEM_SWEEP_PULLS = 0 ∧
      ({ s with rdata := t.rdata } : State).sameBut t [MEM_SWEEP_PULLS]) ∧
  (∀ (p : Port) (s : State), s.reads p (MEM_CE_BUCKET_OVFN).off = true →
    ∃ t, exec (.memCeBucketRead p) s = .next t ∧ t.rdata = BitVec.ofNat 32 (s.regRead (MEM_CE_BUCKET_OVFN).off) ∧ t.get MEM_CE_BUCKET_OVFN = 0 ∧
      ({ s with rdata := t.rdata } : State).sameBut t [MEM_CE_BUCKET_OVFN]) ∧
  (∀ (p : Port) (s : State), s.reads p (MEM_CECNT_CE).off = true →
    ∃ t, exec (.memCecntRead p) s = .next t ∧ t.rdata = BitVec.ofNat 32 (s.regRead (MEM_CECNT_CE).off) ∧ t.get MEM_CECNT_CE = 0 ∧
      ({ s with rdata := t.rdata } : State).sameBut t [MEM_CECNT_CE]) ∧
  (∀ (p : Port) (s : State), s.reads p (MEM_UECNT_ADDRN).off = true →
    ∃ t, exec (.memUecntRead p) s = .next t ∧ t.rdata = BitVec.ofNat 32 (s.regRead (MEM_UECNT_ADDRN).off) ∧ t.get MEM_UECNT_ADDRN = 0 ∧
      t.get MEM_UECNT_UEN = 0 ∧ ({ s with rdata := t.rdata } : State).sameBut t [MEM_UECNT_ADDRN, MEM_UECNT_UEN]) ∧
  (∀ (p : Port) (s : State), s.reads p (MEM_BAR2_DISCARDS).off = true →
    ∃ t, exec (.memBar2Read p) s = .next t ∧ t.rdata = BitVec.ofNat 32 (s.regRead (MEM_BAR2_DISCARDS).off) ∧ t.get MEM_BAR2_DISCARDS = 0 ∧
      ({ s with rdata := t.rdata } : State).sameBut t [MEM_BAR2_DISCARDS]) ∧
  (∀ (p : Port) (s : State), s.reads p (LRD_HITS_HITS).off = true →
    ∃ t, exec (.lrdHitsRead p) s = .next t ∧ t.rdata = BitVec.ofNat 32 (s.regRead (LRD_HITS_HITS).off) ∧ t.get LRD_HITS_HITS = 0 ∧
      ({ s with rdata := t.rdata } : State).sameBut t [LRD_HITS_HITS]) ∧
  (∀ (p : Port) (s : State), s.reads p (LRD_MISSES_MISSES).off = true →
    ∃ t, exec (.lrdMissesRead p) s = .next t ∧ t.rdata = BitVec.ofNat 32 (s.regRead (LRD_MISSES_MISSES).off) ∧ t.get LRD_MISSES_MISSES = 0 ∧
      ({ s with rdata := t.rdata } : State).sameBut t [LRD_MISSES_MISSES]) ∧
  (∀ (p : Port) (s : State), s.reads p (LRD_SEQCNT_BYPASS).off = true →
    ∃ t, exec (.lrdSeqcntRead p) s = .next t ∧ t.rdata = BitVec.ofNat 32 (s.regRead (LRD_SEQCNT_BYPASS).off) ∧ t.get LRD_SEQCNT_BYPASS = 0 ∧
      ({ s with rdata := t.rdata } : State).sameBut t [LRD_SEQCNT_BYPASS]) ∧
  (∀ (p : Port) (s : State), s.reads p (LRD_ERR_UE).off = true →
    ∃ t, exec (.lrdErrRead p) s = .next t ∧ t.rdata = BitVec.ofNat 32 (s.regRead (LRD_ERR_UE).off) ∧ t.get LRD_ERR_UE = 0 ∧
      t.get LRD_ERR_CE = 0 ∧ ({ s with rdata := t.rdata } : State).sameBut t [LRD_ERR_UE, LRD_ERR_CE]) ∧
  (∀ (p : Port) (q : Seq) (s : State), s.reads p (SEQ_HITS_HITS q).off = true →
    ∃ t, exec (.seqHitsRead p q) s = .next t ∧ t.rdata = BitVec.ofNat 32 (s.regRead (SEQ_HITS_HITS q).off) ∧ t.get (SEQ_HITS_HITS q) = 0 ∧
      ({ s with rdata := t.rdata } : State).sameBut t [SEQ_HITS_HITS q]) ∧
  (∀ (p : Port) (f : FifoId) (s : State), s.reads p (FIF_LOST_LOST f).off = true →
    ∃ t, exec (.fifLostRead p f) s = .next t ∧ t.rdata = BitVec.ofNat 32 (s.regRead (FIF_LOST_LOST f).off) ∧ t.get (FIF_LOST_LOST f) = 0 ∧
      ({ s with rdata := t.rdata } : State).sameBut t [FIF_LOST_LOST f]) ∧
  (∀ (p : Port) (s : State), s.reads p (SYS_MODE_ST_CHANGES).off = true →
    ∃ t, exec (.sysModeStRead p) s = .next t ∧ t.rdata = BitVec.ofNat 32 (s.regRead (SYS_MODE_ST_CHANGES).off) ∧ t.get SYS_MODE_ST_CHANGES = 0 ∧
      ({ s with rdata := t.rdata } : State).sameBut t [SYS_MODE_ST_CHANGES]) ∧
  (∀ (p : Port) (s : State), s.reads p (PWR_VIN_MIN).off = true →
    ∃ t, exec (.pwrVinRead p) s = .next t ∧ t.rdata = BitVec.ofNat 32 (s.regRead (PWR_VIN_MIN).off) ∧ t.get PWR_VIN_MIN = 65535 ∧
      ({ s with rdata := t.rdata } : State).sameBut t [PWR_VIN_MIN]) ∧
  (∀ (p : Port) (s : State), s.reads p (PWR_EVT_HOLDUP).off = true →
    ∃ t, exec (.pwrEvtRead p) s = .next t ∧ t.rdata = BitVec.ofNat 32 (s.regRead (PWR_EVT_HOLDUP).off) ∧ t.get PWR_EVT_HOLDUP = 0 ∧
      t.get PWR_EVT_BROWNOUT = 0 ∧ ({ s with rdata := t.rdata } : State).sameBut t [PWR_EVT_HOLDUP, PWR_EVT_BROWNOUT]) ∧
  (∀ (p : Port) (s : State), s.reads p (THM_CNT_SUSPN).off = true →
    ∃ t, exec (.thmCntRead p) s = .next t ∧ t.rdata = BitVec.ofNat 32 (s.regRead (THM_CNT_SUSPN).off) ∧ t.get THM_CNT_SUSPN = 0 ∧
      t.get THM_CNT_HOSTDEM = 0 ∧ t.get THM_CNT_THROTS = 0 ∧
      ({ s with rdata := t.rdata } : State).sameBut t [THM_CNT_SUSPN, THM_CNT_HOSTDEM, THM_CNT_THROTS]) ∧
  (∀ (p : Port) (s : State), s.reads p (FLT_STAT_UNCOV).off = true →
    ∃ t, exec (.fltStatRead p) s = .next t ∧ t.rdata = BitVec.ofNat 32 (s.regRead (FLT_STAT_UNCOV).off) ∧ t.get FLT_STAT_UNCOV = 0 ∧
      t.get FLT_STAT_BYPASSN = 0 ∧ t.get FLT_STAT_ENTRIES = 0 ∧
      ({ s with rdata := t.rdata } : State).sameBut t [FLT_STAT_UNCOV, FLT_STAT_BYPASSN, FLT_STAT_ENTRIES]) ∧
  (∀ (p : Port) (s : State), s.reads p (CEL_CNT_ERASES).off = true →
    ∃ t, exec (.celCntRead p) s = .next t ∧ t.rdata = BitVec.ofNat 32 (s.regRead (CEL_CNT_ERASES).off) ∧ t.get CEL_CNT_ERASES = 0 ∧
      t.get CEL_CNT_ERRWORDS = 0 ∧ ({ s with rdata := t.rdata } : State).sameBut t [CEL_CNT_ERASES, CEL_CNT_ERRWORDS]) ∧
  (∀ (p : Port) (s : State), s.reads p (SEC_CNT_GENMIS).off = true →
    ∃ t, exec (.secCntRead p) s = .next t ∧ t.rdata = BitVec.ofNat 32 (s.regRead (SEC_CNT_GENMIS).off) ∧ t.get SEC_CNT_GENMIS = 0 ∧
      t.get SEC_CNT_REFUSED = 0 ∧ t.get SEC_CNT_DELIVERED = 0 ∧
      ({ s with rdata := t.rdata } : State).sameBut t [SEC_CNT_GENMIS, SEC_CNT_REFUSED, SEC_CNT_DELIVERED])

/-- A step runs the command at the front of the queue. For every command c, queue q and state s, a step of s with c in front of q is exec of c on s
with the queue q; on an empty queue the block idles and the state stays. That an empty queue idles is the model's choice (log entry 6). -/
def Obligations.StepRunsTheFrontCommand : Prop :=
  (∀ (c : Instr) (q : List Instr) (s : State), step { s with pending := c :: q } = exec c { s with pending := q }) ∧
  (∀ s : State, s.pending = [] → step s = .next s)

/-- Every command answers a next state and leaves the queue alone. Whatever the command and the state, exec answers a next state: no command of the
block stops it, since every access, refusal and error of the spec has an effect on registers, completions or records; and no command touches the
queue of waiting commands (R24, R50, R94). -/
def Obligations.EveryCommandCompletes : Prop :=
  ∀ (c : Instr) (s : State), ∃ t, exec c s = .next t ∧ t.pending = s.pending

/-- Every step keeps buffer memory in its canonical form. If buffer memory lists its nonzero bytes at strictly rising addresses and a step answers a
next state, the next state's buffer memory does too, so that equal contents stay equal data. -/
def Obligations.EveryStepKeepsMemoryCanonical : Prop :=
  ∀ s t : State, s.memOk → step s = .next t → t.memOk

/-- The state right after reset. At reset buffer memory is empty and canonical, no command waits, the device is in BARE with the safety block
tripped, every LON low and the angle at 0, and the telemetry and fault FIFOs are empty (R42, R52, R545, Table 23.2). -/
def Obligations.ResetState : Prop :=
  State.reset.memOk ∧ State.reset.mem.bytes = [] ∧ State.reset.pending = [] ∧ State.reset.life = BARE ∧ State.reset.on = true ∧
  State.reset.sys.tripped = true ∧ (∀ h : Head, State.reset.get (OPU_HSTAT_LON h) = 0) ∧ State.reset.now = 0 ∧
  State.reset.fifo 1 = {} ∧ State.reset.fifo 2 = {} ∧ State.reset.skt.entries = [] ∧ State.reset.cnv.staged = false

/-- Only the storing commands change buffer memory. A command leaves every byte of buffer memory as it was unless it is a BAR2 write, a delivery of
DMA data, one that stores the tag of a codeword or completes a stripe that waits (a release, a decode, the arrival or the deadline of a member, a
map page), an I/O command or the end of a wait that lets a held Write store its data, or one of the events that reset the MEM domain (R28, R416,
R417, R443). -/
def Obligations.OnlyStoresChangeBufferMemory : Prop :=
  ∀ (c : Instr) (s t : State), storesMemory c = false → exec c s = .next t → t.mem.bytes = s.mem.bytes

/-- A BAR2 write stores its bytes and no other. A BAR2 write leaves every byte of buffer memory alone that is not the target of one of its offsets;
from the custodian port, with no poisoned block and every block and Larder line read clean, it stores byte k at the buffer address of its offset
plus k, for every offset the DIAG region holds. -/
def Obligations.Bar2WriteStoresItsBytes : Prop :=
  (∀ (p : Port) (off : BitVec 32) (data : List Byte) (reach : Fin 16385) (os : List BlockRead) (ls : List LineOutcome) (s t : State),
    exec (.bar2Write p off data reach os ls) s = .next t →
    ∀ a, (∀ k < data.length, s.diagAddr (off.toNat + k) ≠ some a) → Memory.read t.mem.bytes a = Memory.read s.mem.bytes a) ∧
  (∀ (p : Port) (off : BitVec 32) (data : List Byte) (reach : Fin 16385) (s : State), s.portOn p = true → s.applied = true → s.mgmt = some p.val →
    s.mem.poison = [] →
    ∃ t, exec (.bar2Write p off data reach [] []) s = .next t ∧
      ∀ k < data.length, ∀ a, s.diagAddr (off.toNat + k) = some a → Memory.read t.mem.bytes a = data.getD k 0)

/-- A DMA delivery changes no byte outside its destination. A read completion of n bytes changes only the n bytes at the channel's destination
address, and none when the destination is host memory; a packet from a FIFO changes only the bytes from the destination address on that it fits,
and on a circular channel those of the buffer from its start. -/
def Obligations.DmaStoresItsBytesOnly : Prop :=
  (∀ (c : Chan) (n : Nat) (data : List Byte) (left : Nat) (s t : State), exec (.dmaReadCompletion c n data left) s = .next t →
    ∀ a, (a < s.dmaDst c ∨ s.dmaDst c + n ≤ a ∨ s.get (DMA_CTRL_DSPACE c) = spHOST) → Memory.read t.mem.bytes a = Memory.read s.mem.bytes a) ∧
  (∀ (c : Chan) (s t : State), exec (.dmaFifoPacket c) s = .next t →
    ∀ a, ((a < s.dmaDst c ∨ s.dmaDst c + 4 * (s.dmaPacket c).length ≤ a) ∧
        (s.flag (DMA_CTRL_CIRC c) = true → a < (s.dmaSt c).dst0 ∨ (s.dmaSt c).dst0 + 4 * (s.dmaPacket c).length ≤ a) ∨
        s.get (DMA_CTRL_DSPACE c) = spHOST) →
      Memory.read t.mem.bytes a = Memory.read s.mem.bytes a)

/-- A packet enters a FIFO whole, after the oldest packets it displaces. A packet no longer than the FIFO's capacity is appended whole; it discards
the k oldest packets, no more than it needs, and LOST counts them; the level stays within the capacity; a partly read packet that is discarded
sets TORN and the read pointer starts at the oldest survivor; with k = 0 the read pointer stays (R453). -/
def Obligations.FifoPacketsEnterWhole : Prop :=
  ∀ (n : Nat) (pkt : List Word) (urgent : Bool) (s : State), n < 3 → n < s.fifos.length →
    pkt.length ≤ s.get (FIF_CAP_WORDS n) → (s.fifo n).rd ≤ (((s.fifo n).pkts.map List.length).sum) →
    let t := pushPkt n pkt urgent s
    ∃ k ≤ (s.fifo n).pkts.length,
      (t.fifo n).pkts = (s.fifo n).pkts.drop k ++ [pkt] ∧ (t.fifo n).level ≤ s.get (FIF_CAP_WORDS n) ∧
      t.get (FIF_LOST_LOST n) = min (s.get (FIF_LOST_LOST n) + k) 16777215 ∧
      (t.fifo n).rd = (if k = 0 then (s.fifo n).rd else 0) ∧
      t.get (FIF_STAT_TORN n) = (if k ≠ 0 ∧ (s.fifo n).rd ≠ 0 then 1 else s.get (FIF_STAT_TORN n)) ∧
      (∀ j < k, s.get (FIF_CAP_WORDS n) < (((s.fifo n).pkts.drop j).map List.length).sum - (if j = 0 then (s.fifo n).rd else 0) + pkt.length) ∧
      ∀ m, m ≠ n → t.fifo m = s.fifo m

/-- A vendor write from a port without custody is discarded, counted and recorded. Every command that writes a vendor register, sent by a port that
does not hold management custody while clocks run and the port is served, in BARE as in any other state, changes nothing but the three fields of
the discard: DISCARDS counts it up to 255, DISCADDR holds the offset and the port. It sets no STRAY and completes no host command. A discarded
DBG_UNLOCK sets its RESULT 6 besides. HST_CUST and HST_DISCADDR read as those fields. -/
def Obligations.NonCustodianWritesAreDiscarded : Prop :=
  (∀ (c : Instr) (p : Port) (off : Nat) (s : State), vendorRow c = some (p, off) → s.notCustodian p = true →
    ∃ t, exec c s = .next t ∧ t.get HST_CUST_DISCARDS = min (s.get HST_CUST_DISCARDS + 1) 255 ∧ t.get HST_DISCADDR_PORT = p.val ∧
      t.get HST_DISCADDR_OFFSET = off % 2 ^ 25 ∧ s.sameBut t [HST_CUST_DISCARDS, HST_DISCADDR_PORT, HST_DISCADDR_OFFSET]) ∧
  (∀ (p : Port) (v : Word) (recent : Bool) (s : State), s.notCustodian p = true →
    ∃ t, exec (.dbgUnlock p v recent) s = .next t ∧ t.get HST_CUST_DISCARDS = min (s.get HST_CUST_DISCARDS + 1) 255 ∧
      t.get HST_DISCADDR_PORT = p.val ∧ t.get HST_DISCADDR_OFFSET = DBG_UNLOCK_PW.off ∧ t.get DBG_STAT_RESULT = 6 ∧
      s.sameBut t [HST_CUST_DISCARDS, HST_DISCADDR_PORT, HST_DISCADDR_OFFSET, DBG_STAT_RESULT]) ∧
  (∀ s : State, s.regRead HST_DISCADDR_PORT.off = s.get HST_DISCADDR_PORT * 2 ^ 31 + s.get HST_DISCADDR_OFFSET ∧
    s.regRead HST_CUST_DISCARDS.off / 2 ^ 24 = s.get HST_CUST_DISCARDS)

/-- An orderly stop for low VIN runs to its end, and a resume from it needs VIN back for 100 ms. In PARKING with cause 0x22, the recovery of VIN
changes neither the state nor the cause, its good level alone changes only the level's own fields, and the park still ends in HALTED with cause
0x22. VIN back for 100 ms, with neither the hold-up nor the brown-out level standing, sets the condition that the halt cause has cleared; either
level as it comes, and a sample below 10.6 V, take it back. In HALTED with cause 0x22 and LSR_EN high a resume is accepted exactly when it holds;
otherwise, and while LSR_EN is low (R170), RSMREJ is all that changes. -/
def Obligations.HoldUpStopAndRecovery : Prop :=
  (∀ s : State, s.on = true → s.life = PARKING → s.get SYS_STATE_CAUSE = 0x22 →
    (∃ t, exec .vinPowerGood s = .next t ∧ t = { s with rf := t.rf, sys := { s.sys with holdUp := false, brownOut := false, regWait := s.sys.off } } ∧
      ∀ f : Fld, f.key ≠ PWR_STAT_VINLVL.key → t.get f = s.get f) ∧
    (∃ t, exec .vinRecovered s = .next t ∧ t.life = PARKING ∧ t.get SYS_STATE_CAUSE = 0x22)) ∧
  (∀ s : State, s.parked = true → s.get SYS_STATE_CAUSE = 0x22 →
    ∃ t, exec .parkComplete s = .next t ∧ t.life = HALTED ∧ t.get SYS_STATE_CAUSE = 0x22) ∧
  (∀ s : State, s.on = true →
    (s.sys.holdUp = false → s.sys.brownOut = false → ∃ t, exec .vinRecovered s = .next t ∧ t.sys.vinOk100 = true) ∧
    (s.sys.holdUp = true ∨ s.sys.brownOut = true → exec .vinRecovered s = .next s) ∧
    (s.sys.holdUp = false → ∃ t, exec .vinHoldUp s = .next t ∧ t.sys.vinOk100 = false) ∧
    (s.sys.brownOut = false → ∃ t, exec .vinBrownOut s = .next t ∧ t.sys.vinOk100 = false) ∧
    (∀ mv : BitVec 16, ∃ t, exec (.vinSample mv) s = .next t ∧ t.sys.vinOk100 = (s.sys.vinOk100 && decide (10600 ≤ mv.toNat)))) ∧
  (∀ (p : Port) (v : Word) (s : State), s.reaches p false = true → s.life = HALTED → s.get SYS_STATE_CAUSE = 0x22 → v.toNat.testBit 1 = false →
    (s.sys.vinOk100 = true → s.sys.lsrEn = true → ∃ t, exec (.resume p v) s = .next t ∧ t.life = PRIMED) ∧
    (s.sys.vinOk100 = false ∨ s.sys.lsrEn = false → exec (.resume p v) s = .next (s.put SYS_STATE_RSMREJ 1)))

/-- FROZEN and OFF hold the state. In FROZEN, outside a reset, no command changes anything but those of the test port, the supply, the pins, a Cellar
pulse begun before and the debug port's lock; in OFF none but those of the supply and the pins (R530, R543). -/
def Obligations.NothingRunsInFrozenOrOff : Prop :=
  (∀ (c : Instr) (s : State), s.life = FROZEN → s.sys.off = false → s.sys.resetHold = 0 → outlivesFreeze c = false → exec c s = .next s) ∧
  (∀ (c : Instr) (s : State), s.sys.off = true → outlivesOff c = false → exec c s = .next s)

/-- A read of a low half latches the high half. The custodian's read of ANG_NOW_LO, SKT_COMMIT_LO or STR_WSEQ_LO returns the low half and latches the
matching high half, which a later read of the high half returns as long as nothing latches anew; the latch is the only change. The same read
through the alias latches the alias's pair alone. -/
def Obligations.LoHighPairs : Prop :=
  (∀ (p : Port) (s : State), s.reads p ANG_NOW_LO_ANGLE.off = true →
    ∃ t, exec (.loRegisterRead p 0 false) s = .next t ∧ t.rdata = BitVec.ofNat 32 (s.regRead ANG_NOW_LO_ANGLE.off) ∧
      t = { s with rdata := t.rdata, ang := { s.ang with latchHi := s.get ANG_NOW_HI_REV } } ∧
      ∀ u : State, u.ang.latchHi = t.ang.latchHi → u.regRead ANG_NOW_HI_REV.off = s.get ANG_NOW_HI_REV % 2 ^ 24) ∧
  (∀ (p : Port) (s : State), s.reads p SKT_COMMIT_LO_ANGLE.off = true →
    ∃ t, exec (.loRegisterRead p 1 false) s = .next t ∧ t.rdata = BitVec.ofNat 32 (s.regRead SKT_COMMIT_LO_ANGLE.off) ∧
      t = { s with rdata := t.rdata, skt := { s.skt with commitHiLatch := s.get SKT_COMMIT_HI_REV } } ∧
      ∀ u : State, u.skt.commitHiLatch = t.skt.commitHiLatch → u.regRead SKT_COMMIT_HI_REV.off = s.get SKT_COMMIT_HI_REV % 2 ^ 24) ∧
  (∀ (p : Port) (s : State), s.reads p STR_WSEQ_LO_WSEQ.off = true →
    ∃ t, exec (.loRegisterRead p 2 false) s = .next t ∧ t.rdata = BitVec.ofNat 32 (s.str.wseq % 2 ^ 32) ∧
      t.get STR_WSEQ_HI_WSEQ = s.str.wseq / 2 ^ 32 % 2 ^ 16 ∧ ({ s with rdata := t.rdata } : State).sameBut t [STR_WSEQ_HI_WSEQ]) ∧
  (∀ (p : Port) (which : Fin 3) (s : State), s.portOn p = true → s.liveAt (loReg which.val) = true →
    ∃ t, exec (.loRegisterRead p which true) s = .next t ∧ t.rdata = BitVec.ofNat 32 (s.aliasRead (loReg which.val)) ∧
      t = { s with rdata := t.rdata, ang := { s.ang with aliasHi := t.ang.aliasHi }, skt := { s.skt with aliasHi := t.skt.aliasHi }, str := { s.str with aliasHi := t.str.aliasHi } } ∧
      (which = 0 → t.ang.aliasHi = s.get ANG_NOW_HI_REV) ∧ (which = 1 → t.skt.aliasHi = s.get SKT_COMMIT_HI_REV) ∧
      (which = 2 → t.str.aliasHi = s.str.wseq / 2 ^ 32))

/-- FIF_DATA and FIF_DROP. The custodian's read of FIF_DATA of a FIFO that no DMA channel drains returns the next word and advances the read pointer,
at once in BARE and after the load of its block from buffer memory in any other state; a packet whose block cannot be loaded is lost first (Table
16.2). Of an empty FIFO it returns 0 and changes nothing; FIF_DROP moves the read pointer past the rest of the packet that the consumer has
started, does nothing when none is started or the FIFO is empty, and counts nothing in FIF_LOST. The load and what a failed one loses are the
model's reading of Table 16.2 (log entry 218). -/
def Obligations.FifoReads : Prop :=
  (∀ (p : Port) (f : FifoId) (o : BlockRead) (pkt : List Word) (ps : List (List Word)) (s : State), s.reads p (FIF_DATA_WORD f).off = true → s.fifoOwned f = false →
    s.applied = false → (s.fifo f).pkts = pkt :: ps → (s.fifo f).rd < pkt.length →
    exec (.fifDataRead p f o) s = .next { s with rdata := pkt.getD (s.fifo f).rd 0, fifos := s.fifos.set f (if (s.fifo f).rd + 1 < pkt.length then { s.fifo f with rd := (s.fifo f).rd + 1 } else (s.fifo f).next) }) ∧
  (∀ (p : Port) (f : FifoId) (o : BlockRead) (pkt : List Word) (ps : List (List Word)) (s t : State), s.reads p (FIF_DATA_WORD f).off = true → s.fifoOwned f = false →
    s.applied = true → (s.fifo f).pkts ≠ [] → memLoad srcFIF (s.fifoAddr f / 64) o .clean s = (true, t) →
    t.reads p (FIF_DATA_WORD f).off = true → t.fifoOwned f = false → (t.fifo f).pkts = pkt :: ps → (t.fifo f).rd < pkt.length →
    exec (.fifDataRead p f o) s = .next { t with rdata := pkt.getD (t.fifo f).rd 0, fifos := t.fifos.set f (if (t.fifo f).rd + 1 < pkt.length then { t.fifo f with rd := (t.fifo f).rd + 1 } else (t.fifo f).next) }) ∧
  (∀ (p : Port) (f : FifoId) (o : BlockRead) (s t : State), s.reads p (FIF_DATA_WORD f).off = true → s.fifoOwned f = false →
    s.applied = true → (s.fifo f).pkts ≠ [] → memLoad srcFIF (s.fifoAddr f / 64) o .clean s = (false, t) →
    exec (.fifDataRead p f o) s = readRow p (FIF_DATA_WORD f).off (loseItem f t)) ∧
  (∀ (p : Port) (f : FifoId) (o : BlockRead) (s : State), s.reads p (FIF_DATA_WORD f).off = true → s.fifoOwned f = false → (s.fifo f).pkts = [] →
    exec (.fifDataRead p f o) s = .next { s with rdata := 0 }) ∧
  (∀ (p : Port) (v : Word) (s : State), s.reaches p true = true →
    exec (.fifDrop p v) s = .next (if (s.fifo (v.toNat % 4)).rd = 0 then s else
      { s with fifos := s.fifos.set (v.toNat % 4) (s.fifo (v.toNat % 4)).next }))

/-- SYS_RSTINFO at a power-on reset and at a full reset. When power-on ends, LAST holds 1, or 2 after a regulator fault, and FULLS and BADKEY are
clear; when a full reset ends, LAST holds the code of what raised it and FULLS is one more than before. -/
def Obligations.ResetInfo : Prop :=
  (∀ s : State, s.sys.off = true → s.sys.regWait = true → ∃ t, exec .powerGoodFusesLoaded s = .next t ∧
    t.get SYS_RSTINFO_LAST = (if s.sys.afterFault then 2 else 1) ∧ t.get SYS_RSTINFO_FULLS = 0 ∧ t.get SYS_RSTINFO_BADKEY = 0) ∧
  (∀ s : State, s.sys.off = false → s.sys.resetHold ≠ 0 → s.sys.resetHold < 16 → s.get SYS_RSTINFO_FULLS < 255 →
    ∃ t, exec .fullResetComplete s = .next t ∧ t.get SYS_RSTINFO_LAST = s.sys.resetHold ∧
      t.get SYS_RSTINFO_FULLS = s.get SYS_RSTINFO_FULLS + 1)

/-- Of the triggers held for a tick, the highest in rank is taken. The trigger taken at a tick is one of those held, and none held ranks above it, in
the order safe stop, orderly stop, Unmount, Mount; a safe stop reaches HALTED at that tick with its cause, an orderly stop PARKING. -/
def Obligations.BestTriggerWins : Prop :=
  (∀ (l : List Trigger) (x : Trigger), bestTrigger l = some x → x ∈ l ∧ ∀ y ∈ l, trigRank x.kind ≤ trigRank y.kind) ∧
  (∀ (l : List Trigger), l ≠ [] → ∃ x, bestTrigger l = some x) ∧
  (∀ (s : State) (x : Trigger), s.applied = true → bestTrigger s.sys.held = some x → x.kind = .safeStop → s.life ≠ HALTED → x.cause < 256 →
    ∃ t, exec .triggerResolution s = .next t ∧ t.life = HALTED ∧ t.get SYS_STATE_CAUSE = x.cause)

/-- LON is high only under the laser permit. Recomputing the laser permits sets LON of a head exactly when LSR_EN is high, the safety block is not
tripped, the head is present and in service and its LOFF is 0; after LSR_EN falls, after FREEZE# and after a keyed SYS_RESET every LON is low. -/
def Obligations.LaserPermit : Prop :=
  (∀ (s : State) (h : Head), (syncLonAll s).get (OPU_HSTAT_LON h) =
    (s.sys.lsrEn && !s.sys.tripped && s.present h && s.inSvc h && !s.flag (OPU_CTRL_LOFF h)).toNat) ∧
  (∀ s t : State, s.on = true → s.sys.lsrEn = true → exec .lsrEnFall s = .next t → ∀ h : Head, t.get (OPU_HSTAT_LON h) = 0) ∧
  (∀ s t : State, s.on = true → exec .freezePin s = .next t → ∀ h : Head, t.get (OPU_HSTAT_LON h) = 0) ∧
  (∀ (p : Port) (v : Word) (s t : State), s.reaches p false = true → v.toNat / 65536 = 0x9648 → v.toNat.testBit 0 = true →
    exec (.sysResetFull p v) s = .next t → ∀ h : Head, t.get (OPU_HSTAT_LON h) = 0)

/-- Register r0 of a sequencer reads as zero and discards writes. A write of a sequencer's register stores the value modulo 2^24 in that register and
leaves the other registers alone; a write of r0 changes nothing, and r0 reads as 0. -/
def Obligations.SequencerRegisterZero : Prop :=
  ∀ (x : SeqSt) (k v j : Nat), x.reg 0 = 0 ∧ x.setReg 0 v = x ∧
    (x.setReg k v).reg j = (if k % 32 ≠ 0 ∧ j % 32 = k % 32 then v % 2 ^ 24 else x.reg j)

/-- A read by the port without custody is a read of the alias. Every read of a live vendor register by a port that does not hold management custody
returns what the register's alias holds, and clears no field, takes no word of a FIFO and latches no high half of the custodian's pairs (R537,
R564). -/
def Obligations.ReadsOfOtherPortNeverClear : Prop :=
  ∀ (c : Instr) (p : Port) (off : Nat) (s : State), readsRow c = some (p, off) → s.readsAside p off = true →
    ∃ t, exec c s = .next t ∧ t.rdata = BitVec.ofNat 32 (s.aliasRead off) ∧ t.rf = s.rf ∧ t.fifos = s.fifos ∧
      t.ang.latchHi = s.ang.latchHi ∧ t.skt.commitHiLatch = s.skt.commitHiLatch

/-- A long-running admin command waits while another executes. Each long-running admin command that is fetched while one executes or waits goes to
the end of the waiting commands and has no other effect yet, so that they execute one at a time in fetch order (R380); a waiting command that
begins without the custody it needs completes with the custody status. -/
def Obligations.LongAdminCommandsWait : Prop :=
  (∀ (p : Port) (cid : BitVec 16) (n : NsCreate) (s : State) (t : State), fetch (adm p cid.toNat 0x0D) s = some t → (t.hst.long ≠ none ∨ t.hst.longWait ≠ []) →
    exec (.namespaceCreate p cid n) s = .next { t with hst := { t.hst with longWait := t.hst.longWait ++ [{ kind := 0x0D, port := p, cid := cid.toNat, arg := 0, args := nsCreateArgs n }] } }) ∧
  (∀ (p : Port) (cid : BitVec 16) (nsid : BitVec 32) (s : State) (t : State), fetch (adm p cid.toNat 0x0D) s = some t → (t.hst.long ≠ none ∨ t.hst.longWait ≠ []) →
    exec (.namespaceDelete p cid nsid) s = .next { t with hst := { t.hst with longWait := t.hst.longWait ++ [{ kind := 0x0D, port := p, cid := cid.toNat, arg := 1, nsid := nsid.toNat }] } }) ∧
  (∀ (p : Port) (cid : BitVec 16) (nsid : BitVec 32) (detach : Bool) (ctrls : BitVec 2) (s : State) (t : State), fetch (adm p cid.toNat 0x15) s = some t → (t.hst.long ≠ none ∨ t.hst.longWait ≠ []) →
    exec (.namespaceAttachment p cid nsid detach ctrls) s = .next { t with hst := { t.hst with longWait := t.hst.longWait ++ [{ kind := 0x15, port := p, cid := cid.toNat, arg := 4 * detach.toNat + ctrls.toNat, nsid := nsid.toNat }] } }) ∧
  (∀ (p : Port) (cid : BitVec 16) (payload : List Byte) (s : State) (t : State), fetch (adm p cid.toNat 0x81) s = some t → (t.hst.long ≠ none ∨ t.hst.longWait ≠ []) →
    exec (.keyDeliver p cid payload) s = .next { t with hst := { t.hst with longWait := t.hst.longWait ++ [{ kind := 0x81, port := p, cid := cid.toNat, arg := 1, args := payload.map BitVec.toNat }] } }) ∧
  (∀ (p : Port) (cid : BitVec 16) (payload : List Byte) (s : State) (t : State), fetch (adm p cid.toNat 0x81) s = some t → (t.hst.long ≠ none ∨ t.hst.longWait ≠ []) →
    exec (.kekInstall p cid payload) s = .next { t with hst := { t.hst with longWait := t.hst.longWait ++ [{ kind := 0x81, port := p, cid := cid.toNat, arg := 2, args := payload.map BitVec.toNat }] } }) ∧
  (∀ (p : Port) (cid : BitVec 16) (nsid : BitVec 32) (s : State) (t : State), fetch (adm p cid.toNat 0x81) s = some t → (t.hst.long ≠ none ∨ t.hst.longWait ≠ []) →
    exec (.keyPurge p cid nsid) s = .next { t with hst := { t.hst with longWait := t.hst.longWait ++ [{ kind := 0x81, port := p, cid := cid.toNat, arg := 3, nsid := nsid.toNat }] } }) ∧
  (∀ (p : Port) (cid : BitVec 16) (proto : BitVec 8) (spsp : BitVec 16) (s : State) (t : State), fetch (adm p cid.toNat 0x82) s = some t → (t.hst.long ≠ none ∨ t.hst.longWait ≠ []) →
    exec (.securityReceive p cid proto spsp) s = .next { t with hst := { t.hst with longWait := t.hst.longWait ++ [{ kind := 0x82, port := p, cid := cid.toNat, arg := proto.toNat * 65536 + spsp.toNat }] } }) ∧
  (∀ (p : Port) (cid : BitVec 16) (cdw10 : Word) (s : State) (t : State), fetch (adm p cid.toNat 0x84) s = some t → (t.hst.long ≠ none ∨ t.hst.longWait ≠ []) →
    exec (.sanitize p cid cdw10) s = .next { t with hst := { t.hst with longWait := t.hst.longWait ++ [{ kind := 0x84, port := p, cid := cid.toNat, arg := cdw10.toNat }] } }) ∧
  (∀ (p : Port) (cid : BitVec 16) (cdw10 : Word) (s : State) (t : State), fetch (adm p cid.toNat 0xC0) s = some t → (t.hst.long ≠ none ∨ t.hst.longWait ≠ []) →
    exec (.mount p cid cdw10) s = .next { t with hst := { t.hst with longWait := t.hst.longWait ++ [{ kind := 0xC0, port := p, cid := cid.toNat, arg := cdw10.toNat }] } }) ∧
  (∀ (p : Port) (cid : BitVec 16) (cdw10 : Word) (s : State) (t : State), fetch (adm p cid.toNat 0xC8) s = some t → (t.hst.long ≠ none ∨ t.hst.longWait ≠ []) →
    exec (.calibrate p cid cdw10) s = .next { t with hst := { t.hst with longWait := t.hst.longWait ++ [{ kind := 0xC8, port := p, cid := cid.toNat, arg := cdw10.toNat }] } }) ∧
  (∀ (p : Port) (cid : BitVec 16) (s : State) (t : State), fetch (adm p cid.toNat 0xCC) s = some t → (t.hst.long ≠ none ∨ t.hst.longWait ≠ []) →
    exec (.patrolPause p cid) s = .next { t with hst := { t.hst with longWait := t.hst.longWait ++ [{ kind := 0xCC, port := p, cid := cid.toNat, arg := 1 }] } }) ∧
  (∀ (p : Port) (cid : BitVec 16) (s : State) (t : State), fetch (adm p cid.toNat 0xCC) s = some t → (t.hst.long ≠ none ∨ t.hst.longWait ≠ []) →
    exec (.patrolResume p cid) s = .next { t with hst := { t.hst with longWait := t.hst.longWait ++ [{ kind := 0xCC, port := p, cid := cid.toNat, arg := 2 }] } }) ∧
  (∀ (p : Port) (cid : BitVec 16) (s : State) (t : State), fetch (adm p cid.toNat 0xCC) s = some t → (t.hst.long ≠ none ∨ t.hst.longWait ≠ []) →
    exec (.patrolRestart p cid) s = .next { t with hst := { t.hst with longWait := t.hst.longWait ++ [{ kind := 0xCC, port := p, cid := cid.toNat, arg := 3 }] } }) ∧
  (∀ (p : Port) (cid : BitVec 16) (nsid : BitVec 32) (target : Fin 4) (s : State) (t : State), fetch (adm p cid.toNat 0xD0) s = some t → (t.hst.long ≠ none ∨ t.hst.longWait ≠ []) →
    exec (.custodyRequest p cid nsid target) s = .next { t with hst := { t.hst with longWait := t.hst.longWait ++ [{ kind := 0xD0, port := p, cid := cid.toNat, arg := target, nsid := nsid.toNat }] } }) ∧
  (∀ (p : Port) (cid : BitVec 16) (cdw10 : Word) (s : State) (t : State), fetch (adm p cid.toNat 0xD4) s = some t → (t.hst.long ≠ none ∨ t.hst.longWait ≠ []) →
    exec (.mode p cid cdw10) s = .next { t with hst := { t.hst with longWait := t.hst.longWait ++ [{ kind := 0xD4, port := p, cid := cid.toNat, arg := cdw10.toNat }] } }) ∧
  (∀ (l : LongCmd) (s : State), markedM.contains l.kind = true → s.mgmt ≠ some l.port →
    beginAdmin l s = endAdm l.port l.cid scCustody 0 { s with hst := { s.hst with long := some l } })
end

