-- ==== Sys2Proof/Laws/Fetch.lean ====
section
/-! SUPPORT. What the fetch of an I/O command can do, said once (R379, R396). -/

namespace Sys2Proof.Machine

/-- An entry that is fetched, not refused and held up by nothing runs at once, with the range-lock entry that its acceptance gives it. -/
theorem ioFetch_runs {c : HCmd} {refusal : State → Option (Nat × Nat × Bool)} {accept : HCmd → State → HCmd × State} {s t : State}
    (hl : (s.hst.cmds.filter fun d => d.locked).length < 4096) (hf : fetch c s = some t) (hr : refusal t = none)
    (hc : (lockIo { (accept { c with seq := s.hst.fetchSeq } (patrolYield t)).1 with locked := true }
      (accept { c with seq := s.hst.fetchSeq } (patrolYield t)).2).conflicted
        { (accept { c with seq := s.hst.fetchSeq } (patrolYield t)).1 with locked := true } = false)
    (hp : (lockIo { (accept { c with seq := s.hst.fetchSeq } (patrolYield t)).1 with locked := true }
      (accept { c with seq := s.hst.fetchSeq } (patrolYield t)).2).pagesWait
        { (accept { c with seq := s.hst.fetchSeq } (patrolYield t)).1 with locked := true } = false) :
    ioFetch c refusal accept s = .next (runIo { (accept { c with seq := s.hst.fetchSeq } (patrolYield t)).1 with locked := true }
      (lockIo { (accept { c with seq := s.hst.fetchSeq } (patrolYield t)).1 with locked := true }
        (accept { c with seq := s.hst.fetchSeq } (patrolYield t)).2)) := by
  unfold lockIo at hc hp
  simp only [ioFetch, if_neg (Nat.not_le.mpr hl), hf, hr, hc, hp, lockIo]
  rfl

/-- An entry that is refused completes with its refusal. -/
theorem ioFetch_refused {c : HCmd} {refusal : State → Option (Nat × Nat × Bool)} {accept : HCmd → State → HCmd × State} {s t : State}
    {st : Nat × Nat × Bool} (hl : (s.hst.cmds.filter fun d => d.locked).length < 4096) (hf : fetch c s = some t)
    (hr : refusal t = some st) : ioFetch c refusal accept s = .next (finishIo { c with seq := s.hst.fetchSeq } st t) := by
  simp only [ioFetch, if_neg (Nat.not_le.mpr hl), hf, hr]

/-- Where none is fetched, nothing happens. -/
theorem ioFetch_none {c : HCmd} {refusal : State → Option (Nat × Nat × Bool)} {accept : HCmd → State → HCmd × State} {s : State}
    (hf : fetch c s = none) : ioFetch c refusal accept s = .next s := by
  simp only [ioFetch, hf, ite_self]

end Sys2Proof.Machine
end

