-- ==== Sys2Proof/Laws/Keep.lean ====
section
/-! SUPPORT. What an operation leaves alone: buffer memory and the queue of waiting commands, in one pair, so that one lemma per
operation says it. -/

namespace Sys2Proof.Machine

/-- The bytes of buffer memory and the waiting commands. -/
def State.kept (s : State) : Memory × List Instr := (s.mem.bytes, s.pending)

@[simp] theorem kept_eta (s : State) : (s.mem.bytes, s.pending) = s.kept := (rfl)

theorem kept_mem {s t : State} (h : t.kept = s.kept) : t.mem.bytes = s.mem.bytes := congrArg Prod.fst h
theorem kept_pending {s t : State} (h : t.kept = s.kept) : t.pending = s.pending := congrArg Prod.snd h

@[simp] theorem kept_mk (a0 a1 a2 a3 a4 a5 a6 a7 a8 a9 a10 a11 a12 a13 a14 a15 a16 a17 a18 a19 a20 a21 a22 a23 a24 a25 a26 a27 a28 a29 a30 a31 a32 a33 a34 a35) : (State.mk a0 a1 a2 a3 a4 a5 a6 a7 a8 a9 a10 a11 a12 a13 a14 a15 a16 a17 a18 a19 a20 a21 a22 a23 a24 a25 a26 a27 a28 a29 a30 a31 a32 a33 a34 a35).kept = (a30.bytes, a35) := (rfl)

/-- A record update that names neither keeps both. -/
theorem kept_of {s t : State} (hm : t.mem.bytes = s.mem.bytes) (hp : t.pending = s.pending) : t.kept = s.kept := by
  show (t.mem.bytes, t.pending) = (s.mem.bytes, s.pending)
  rw [hm, hp]

theorem foldl_kept {α : Type} (l : List α) (k : State → α → State) (h : ∀ s x, (k s x).kept = s.kept) :
    ∀ s, (l.foldl k s).kept = s.kept := by
  induction l with
  | nil => exact fun _ => rfl
  | cons x l ih => exact fun s => (ih _).trans (h s x)

theorem foldl_snd_kept {α β : Type} (l : List α) (k : β × State → α → β × State) (h : ∀ x c, (k x c).2.kept = x.2.kept) :
    ∀ x, (l.foldl k x).2.kept = x.2.kept := by
  induction l with
  | nil => exact fun _ => rfl
  | cons c l ih => exact fun x => (ih _).trans (h x c)

theorem when_kept (s : State) (b : Bool) (k : State → State) (h : (k s).kept = s.kept) : (s.when b k).kept = s.kept := by
  unfold State.when; split
  · exact h
  · rfl

theorem forUpTo_kept (n : Nat) (k : Nat → State → State) (s : State) (h : ∀ i s, (k i s).kept = s.kept) :
    (forUpTo n k s).kept = s.kept := foldl_kept _ _ (fun s i => h i s) s

/-- A meaning answers a next state that keeps both. -/
def Keeps (s : State) (r : Res) : Prop := ∃ t, r = .next t ∧ t.kept = s.kept

theorem next_keeps {s t : State} (h : t.kept = s.kept) : Keeps s (.next t) := ⟨t, rfl, h⟩

theorem doIf_keeps {s u : State} {b : Bool} {k : State → State} (h0 : u.kept = s.kept) (h : (k u).kept = s.kept) :
    Keeps s (u.doIf b k) := by
  refine next_keeps ?_
  split
  · exact h
  · exact h0

end Sys2Proof.Machine
end

