-- ==== Sys2Proof/Laws/KeepBase.lean ====
section
/-! SUPPORT. What each operation leaves alone, the shared operations: one lemma per function that answers a state (it keeps buffer memory and
the queue), one per row (it answers a next state that keeps both). -/

set_option linter.unusedSimpArgs false

namespace Sys2Proof.Machine
open R

/-! ### Ops -/

theorem storeEv_kept {e : Ev} {s t : State} (h : storeEv e s = some t) : t.kept = s.kept := by
  unfold storeEv at h
  split at h
  · cases h; rfl
  · cases h

@[simp] theorem State_put_kept (s : State) (f : Fld) (v : Nat) : (State.put s f v).kept = s.kept := by
  simp [State.put]

@[simp] theorem State_addSat_kept (s : State) (f : Fld) (n : Nat) : (State.addSat s f n).kept = s.kept := by
  simp [State.addSat]

@[simp] theorem State_inc_kept (s : State) (f : Fld) : (State.inc s f).kept = s.kept := by
  simp [State.inc]

@[simp] theorem State_setBit_kept (s : State) (f : Fld) (i : Nat) (b : Bool) : (State.setBit s f i b).kept = s.kept := by
  simp [State.setBit]

@[simp] theorem State_putB_kept (s : State) (f : Fld) (b : Bool) : (State.putB s f b).kept = s.kept := by
  simp [State.putB]

@[simp] theorem State_puts_kept (s : State) (l : List (Fld × Nat)) : (State.puts s l).kept = s.kept := by
  unfold State.puts
  repeat' (first | with_reducible rfl | (simp only [State_put_kept, kept_mk, kept_eta]; done) | split
                 | (with_reducible refine (foldl_kept _ _ ?_ _).trans ?_)
                 | (with_reducible refine (foldl_snd_kept _ _ ?_ _).trans ?_) | intro _ | simp)

@[simp] theorem State_putI_kept (s : State) (f : Fld) (v : Int) : (State.putI s f v).kept = s.kept := by
  simp [State.putI]

@[simp] theorem State_drawn_kept (s : State) : (State.drawn s).kept = s.kept := by
  simp [State.drawn]

@[simp] theorem State_setNow_kept (s : State) (n : Nat) : (State.setNow s n).kept = s.kept := by
  simp [State.setNow]

@[simp] theorem sendMsix_kept (s : State) : (sendMsix s).kept = s.kept := by
  unfold sendMsix
  repeat' (first | with_reducible rfl | split | simp)

@[simp] theorem raiseIrq_kept (b : Nat) (s : State) : (raiseIrq b s).kept = s.kept := by
  unfold raiseIrq
  repeat' (first | with_reducible rfl | split | simp)

@[simp] theorem dmaEnd_kept (c : Nat) (err : Nat) (s : State) : (dmaEnd c err s).kept = s.kept := by
  unfold dmaEnd
  repeat' (first | with_reducible rfl | split | simp)

@[simp] theorem pushPkt_kept (i : Nat) (pkt : List Word) (urgent : Bool) (s : State) : (pushPkt i pkt urgent s).kept = s.kept := by
  unfold pushPkt
  repeat' (first | with_reducible rfl | (simp only [State_addSat_kept, State_put_kept, raiseIrq_kept, kept_mk, kept_eta]; done)
                 | split | (with_reducible refine (when_kept _ _ _ ?_).trans ?_) | intro _ | simp)

@[simp] theorem eventRec_kept (tag : Nat) (detail : Nat) (args : List Nat) (urgent : Bool) (s : State) : (eventRec tag detail
    args urgent s).kept = s.kept := by
  simp [eventRec]

@[simp] theorem logFlt_kept (src : Nat) (kind : Nat) (code : Nat) (unit : Nat) (args : List Nat) (s : State) : (logFlt src kind
    code unit args s).kept = s.kept := by
  unfold logFlt
  repeat' (first | with_reducible rfl | (simp only [State_inc_kept, pushPkt_kept, kept_mk, kept_eta]; done) | split
                 | (with_reducible refine (when_kept _ _ _ ?_).trans ?_) | intro _ | simp)

@[simp] theorem syncInfl_kept (p : Nat) (s : State) : (syncInfl p s).kept = s.kept := by
  simp [syncInfl]

@[simp] theorem syncLocks_kept (s : State) : (syncLocks s).kept = s.kept := by
  simp [syncLocks]

@[simp] theorem noteError_kept (p : Nat) (qid : Nat) (cid : Nat) (st : Nat × Nat × Bool) (s : State) : (noteError p qid cid st
    s).kept = s.kept := by
  unfold noteError
  repeat' (first | with_reducible rfl | (simp only [State_inc_kept, kept_mk, kept_eta]; done) | split
                 | (with_reducible refine (when_kept _ _ _ ?_).trans ?_) | intro _ | simp)

@[simp] theorem postCpl_kept (p : Nat) (qid : Nat) (cid : Nat) (st : Nat × Nat × Bool) (dw0 : Nat) (s : State) : (postCpl p qid
    cid st dw0 s).kept = s.kept := by
  simp [postCpl]

@[simp] theorem completeCmd_kept (p : Nat) (qid : Nat) (cid : Nat) (st : Nat × Nat × Bool) (dw0 : Nat) (s : State) : (completeCmd
    p qid cid st dw0 s).kept = s.kept := by
  unfold completeCmd
  repeat' (first | with_reducible rfl | split | simp)

@[simp] theorem completeAll_kept (sel : HCmd → Bool) (st : Nat × Nat × Bool) (dw0 : Nat) (s : State) : (completeAll sel st dw0
    s).kept = s.kept := by
  unfold completeAll
  repeat' (first | with_reducible rfl | (simp only [completeCmd_kept, kept_mk, kept_eta]; done) | split
                 | (with_reducible refine (foldl_kept _ _ ?_ _).trans ?_)
                 | (with_reducible refine (foldl_snd_kept _ _ ?_ _).trans ?_) | intro _ | simp)

@[simp] theorem arbTake_kept (p : Nat) (q : Nat) (s : State) : (arbTake p q s).kept = s.kept := by
  unfold arbTake
  repeat' (first | with_reducible rfl | split | simp)

@[simp] theorem withdraw_kept (cls : EvClass) (s : State) : (withdraw cls s).kept = s.kept := by
  simp [withdraw]

@[simp] theorem submitReq_kept (r : Req) (s : State) : (submitReq r s).kept = s.kept := by
  unfold submitReq
  repeat' (first | with_reducible rfl | split | simp)

@[simp] theorem submit_kept (cls : EvClass) (owner : Nat) (target : Nat) (len : Nat) (rank : Nat) (s : State) : (submit cls owner
    target len rank s).kept = s.kept := by
  simp [submit]

@[simp] theorem submitVerify_kept (owner : Nat) (target : Nat) (len : Nat) (rank : Nat) (s : State) : (submitVerify owner target
    len rank s).kept = s.kept := by
  simp [submitVerify]

@[simp] theorem spoilWindow_kept (s : State) : (spoilWindow s).kept = s.kept := by
  simp [spoilWindow]

@[simp] theorem setRamp_kept (s : State) : (setRamp s).kept = s.kept := by
  simp [setRamp]

@[simp] theorem varnishResult_kept (code : Nat) (entry : Nat) (s : State) : (varnishResult code entry s).kept = s.kept := by
  simp [varnishResult]

@[simp] theorem completeMode_kept (code : Nat) (s : State) : (completeMode code s).kept = s.kept := by
  unfold completeMode
  repeat' (first | with_reducible rfl | split | simp)

@[simp] theorem clearSketch_kept (s : State) : (clearSketch s).kept = s.kept := by
  simp [clearSketch]

@[simp] theorem varnishAbort_kept (code : Nat) (entry : Nat) (s : State) : (varnishAbort code entry s).kept = s.kept := by
  unfold varnishAbort
  repeat' (first | with_reducible rfl | split | simp)

@[simp] theorem State_setOpu_kept (s : State) (h : Nat) (k : OpuHead → OpuHead) : (State.setOpu s h k).kept = s.kept := by
  simp [State.setOpu]

@[simp] theorem syncLon_kept (h : Nat) (s : State) : (syncLon h s).kept = s.kept := by
  simp [syncLon]

@[simp] theorem syncLonAll_kept (s : State) : (syncLonAll s).kept = s.kept := by
  unfold syncLonAll
  repeat' (first | with_reducible rfl | (simp only [syncLon_kept, kept_mk, kept_eta]; done) | split
                 | (with_reducible refine (forUpTo_kept _ _ _ ?_).trans ?_) | intro _ | simp)

@[simp] theorem beginXact_kept (h : Nat) (s : State) : (beginXact h s).kept = s.kept := by
  unfold beginXact
  repeat' (first | with_reducible rfl | (simp only [State_put_kept, State_setOpu_kept, kept_mk, kept_eta]; done) | split
                 | (with_reducible refine (when_kept _ _ _ ?_).trans ?_) | intro _ | simp)

@[simp] theorem queueXact_kept (h : Nat) (x : Xact) (s : State) : (queueXact h x s).kept = s.kept := by
  unfold queueXact
  repeat' (first | with_reducible rfl | split | simp)

@[simp] theorem laserOff_kept (h : Nat) (spots : Nat) (s : State) : (laserOff h spots s).kept = s.kept := by
  simp [laserOff]

@[simp] theorem State_setLoop_kept (s : State) (l : Nat) (k : LoopSt → LoopSt) : (State.setLoop s l k).kept = s.kept := by
  simp [State.setLoop]

@[simp] theorem setLoopNext_kept (l : Nat) (st : Nat) (s : State) : (setLoopNext l st s).kept = s.kept := by
  simp [setLoopNext]

@[simp] theorem loopOff_kept (l : Nat) (s : State) : (loopOff l s).kept = s.kept := by
  unfold loopOff
  repeat' (first | with_reducible rfl | (simp only [State_puts_kept, State_setLoop_kept, kept_mk, kept_eta]; done) | split
                 | (with_reducible refine (when_kept _ _ _ ?_).trans ?_) | intro _ | simp)

@[simp] theorem headLoopsOff_kept (h : Nat) (s : State) : (headLoopsOff h s).kept = s.kept := by
  unfold headLoopsOff
  repeat' (first | with_reducible rfl | (simp only [loopOff_kept, kept_mk, kept_eta]; done) | split
                 | (with_reducible refine (forUpTo_kept _ _ _ ?_).trans ?_) | intro _ | simp)

@[simp] theorem headLoopsNext_kept (h : Nat) (s : State) : (headLoopsNext h s).kept = s.kept := by
  unfold headLoopsNext
  repeat' (first | with_reducible rfl | (simp only [setLoopNext_kept, kept_mk, kept_eta]; done) | split
                 | (with_reducible refine (forUpTo_kept _ _ _ ?_).trans ?_) | intro _ | simp)

@[simp] theorem pairsIdleFor_kept (cause : Nat) (h : Nat) (s : State) : (pairsIdleFor cause h s).kept = s.kept := by
  simp [pairsIdleFor]

@[simp] theorem pairsIdle_kept (h : Nat) (s : State) : (pairsIdle h s).kept = s.kept := by
  simp [pairsIdle]

@[simp] theorem cutWrites_kept (sel : Win → Bool) (s : State) : (cutWrites sel s).kept = s.kept := by
  simp [cutWrites]

@[simp] theorem cutReads_kept (sel : Win → Bool) (s : State) : (cutReads sel s).kept = s.kept := by
  simp [cutReads]

@[simp] theorem formEffective_kept (s : State) : (formEffective s).kept = s.kept := by
  unfold formEffective
  repeat' (first | with_reducible rfl | (simp only [State_putB_kept, State_put_kept, kept_mk, kept_eta]; done) | split
                 | (with_reducible refine (when_kept _ _ _ ?_).trans ?_) | intro _ | simp)

@[simp] theorem celGone_kept (o : CelOp) (s : State) : (celGone o s).kept = s.kept := by
  unfold celGone
  repeat' (first | with_reducible rfl | split | simp)

@[simp] theorem celQueue_kept (o : CelOp) (s : State) : (celQueue o s).kept = s.kept := by
  unfold celQueue
  repeat' (first | with_reducible rfl | split | simp)

@[simp] theorem celRefuse_kept (s : State) : (celRefuse s).kept = s.kept := by
  unfold celRefuse
  repeat' (first | with_reducible rfl | (simp only [State_put_kept, celGone_kept, kept_mk, kept_eta]; done) | split
                 | (with_reducible refine (foldl_kept _ _ ?_ _).trans ?_)
                 | (with_reducible refine (foldl_snd_kept _ _ ?_ _).trans ?_) | intro _ | simp)

@[simp] theorem celEndPulse_kept (s : State) : (celEndPulse s).kept = s.kept := by
  unfold celEndPulse
  repeat' (first | with_reducible rfl | split | simp)

/-! ### Motion -/

@[simp] theorem State_setSl_kept (s : State) (h : Nat) (k : Sled → Sled) : (State.setSl s h k).kept = s.kept := by
  simp [State.setSl]

@[simp] theorem loadInterval_kept (h : Nat) (first : Bool) (s : State) : (loadInterval h first s).kept = s.kept := by
  simp [loadInterval]

@[simp] theorem sledAtRest_kept (h : Nat) (s : State) : (sledAtRest h s).kept = s.kept := by
  simp [sledAtRest]

@[simp] theorem seekFromRest_kept (h : Nat) (kind : Nat) (target : Int) (s : State) : (seekFromRest h kind target s).kept =
    s.kept := by
  unfold seekFromRest
  repeat' (first | with_reducible rfl | split | simp)

@[simp] theorem askSeek_kept (h : Nat) (kind : Nat) (target : Int) (s : State) : (askSeek h kind target s).kept = s.kept := by
  unfold askSeek
  repeat' (first | with_reducible rfl | split | simp)

@[simp] theorem stopSeek_kept (h : Nat) (s : State) : (stopSeek h s).kept = s.kept := by
  unfold stopSeek
  repeat' (first | with_reducible rfl | split | simp)

@[simp] theorem parkSeek_kept (h : Nat) (s : State) : (parkSeek h s).kept = s.kept := by
  unfold parkSeek
  repeat' (first | with_reducible rfl | split | simp)

@[simp] theorem spindleCoast_kept (s : State) : (spindleCoast s).kept = s.kept := by
  unfold spindleCoast
  repeat' (first | with_reducible rfl | split | simp)

@[simp] theorem brake_kept (s : State) : (brake s).kept = s.kept := by
  unfold brake
  repeat' (first | with_reducible rfl | split | simp)

@[simp] theorem followTarget_kept (s : State) : (followTarget s).kept = s.kept := by
  unfold followTarget
  repeat' (first | with_reducible rfl | split | simp)

@[simp] theorem parkAll_kept (s : State) : (parkAll s).kept = s.kept := by
  unfold parkAll
  repeat' (first | with_reducible rfl | (simp only [brake_kept, parkSeek_kept, kept_mk, kept_eta]; done) | split
                 | (with_reducible refine (forUpTo_kept _ _ _ ?_).trans ?_) | intro _ | simp)

/-! ### Stops -/

@[simp] theorem startSeq_kept (q : Nat) (s : State) : (startSeq q s).kept = s.kept := by
  simp [startSeq]

@[simp] theorem syncTrackSeqs_kept (heads : Nat) (s : State) : (syncTrackSeqs heads s).kept = s.kept := by
  unfold syncTrackSeqs
  repeat' (first | with_reducible rfl | (simp only [State_puts_kept, startSeq_kept, kept_mk, kept_eta]; done) | split
                 | (with_reducible refine (when_kept _ _ _ ?_).trans ?_)
                 | (with_reducible refine (forUpTo_kept _ _ _ ?_).trans ?_) | intro _ | simp)

@[simp] theorem gateDecoders_kept (s : State) : (gateDecoders s).kept = s.kept := by
  simp [gateDecoders]

@[simp] theorem setDomains_kept (s : State) : (setDomains s).kept = s.kept := by
  unfold setDomains
  repeat' (first | with_reducible rfl | split | simp)

@[simp] theorem transition_kept (next : Nat) (cause : Nat) (s : State) : (transition next cause s).kept = s.kept := by
  unfold transition
  repeat' (first | with_reducible rfl
                 | (simp only [State_put_kept, eventRec_kept, setDomains_kept, spoilWindow_kept, varnishAbort_kept, kept_mk, kept_eta]; done)
                 | split | (with_reducible refine (when_kept _ _ _ ?_).trans ?_) | intro _ | simp)

@[simp] theorem discardStop_kept (cause : Nat) (s : State) : (discardStop cause s).kept = s.kept := by
  simp [discardStop]

@[simp] theorem discardTrigger_kept (t : Trigger) (s : State) : (discardTrigger t s).kept = s.kept := by
  unfold discardTrigger
  repeat' (first | with_reducible rfl | split | simp)

@[simp] theorem discardHeld_kept (s : State) : (discardHeld s).kept = s.kept := by
  unfold discardHeld
  repeat' (first | with_reducible rfl | (simp only [discardTrigger_kept, kept_mk, kept_eta]; done) | split
                 | (with_reducible refine (foldl_kept _ _ ?_ _).trans ?_)
                 | (with_reducible refine (foldl_snd_kept _ _ ?_ _).trans ?_) | intro _ | simp)

@[simp] theorem hold_kept (t : Trigger) (s : State) : (hold t s).kept = s.kept := by
  simp [hold]

@[simp] theorem tripSafety_kept (s : State) : (tripSafety s).kept = s.kept := by
  simp [tripSafety]

@[simp] theorem safeStopActions_kept (s : State) : (safeStopActions s).kept = s.kept := by
  unfold safeStopActions
  repeat' (first | with_reducible rfl
                 | (simp only [loopOff_kept, pairsIdle_kept, stopSeek_kept, tripSafety_kept, kept_mk, kept_eta]; done) | split
                 | (with_reducible refine (forUpTo_kept _ _ _ ?_).trans ?_) | intro _ | simp)

@[simp] theorem safeStop_kept (cause : Nat) (tag : Nat) (code : Nat) (unit : Nat) (s : State) : (safeStop cause tag code unit
    s).kept = s.kept := by
  unfold safeStop
  repeat' (first | with_reducible rfl | split | simp)

@[simp] theorem orderlyStop_kept (cause : Nat) (tag : Nat) (code : Nat) (unit : Nat) (s : State) : (orderlyStop cause tag code
    unit s).kept = s.kept := by
  unfold orderlyStop
  repeat' (first | with_reducible rfl | split | simp)

@[simp] theorem raiseInhibits_kept (h : Nat) (causes : List Nat) (s : State) : (raiseInhibits h causes s).kept = s.kept := by
  unfold raiseInhibits
  repeat' (first | with_reducible rfl
                 | (simp only [State_inc_kept, State_put_kept, State_setBit_kept, logFlt_kept, pairsIdleFor_kept, kept_mk, kept_eta]; done)
                 | split | (with_reducible refine (foldl_kept _ _ ?_ _).trans ?_)
                 | (with_reducible refine (foldl_snd_kept _ _ ?_ _).trans ?_) | intro _ | simp)

@[simp] theorem raiseInhibit_kept (h : Nat) (cause : Nat) (s : State) : (raiseInhibit h cause s).kept = s.kept := by
  simp [raiseInhibit]

@[simp] theorem clearInhibit_kept (h : Nat) (cause : Nat) (s : State) : (clearInhibit h cause s).kept = s.kept := by
  simp [clearInhibit]

@[simp] theorem openBypass_kept (src : Nat) (unit : Nat) (s : State) : (openBypass src unit s).kept = s.kept := by
  unfold openBypass
  repeat' (first | with_reducible rfl | (simp only [State_inc_kept, kept_mk, kept_eta]; done) | split
                 | (with_reducible refine (when_kept _ _ _ ?_).trans ?_) | intro _ | simp)

@[simp] theorem closeBypass_kept (src : Nat) (unit : Nat) (s : State) : (closeBypass src unit s).kept = s.kept := by
  simp [closeBypass]

@[simp] theorem laneOff_kept (l : Nat) (s : State) : (laneOff l s).kept = s.kept := by
  simp [laneOff]

@[simp] theorem headLanesOff_kept (h : Nat) (s : State) : (headLanesOff h s).kept = s.kept := by
  unfold headLanesOff
  repeat' (first | with_reducible rfl | (simp only [laneOff_kept, kept_mk, kept_eta]; done) | split
                 | (with_reducible refine (forUpTo_kept _ _ _ ?_).trans ?_) | intro _ | simp)

@[simp] theorem headLanesOn_kept (h : Nat) (s : State) : (headLanesOn h s).kept = s.kept := by
  unfold headLanesOn
  repeat' (first | with_reducible rfl | (simp only [State_puts_kept, kept_mk, kept_eta]; done) | split
                 | (with_reducible refine (forUpTo_kept _ _ _ ?_).trans ?_) | intro _ | simp)

@[simp] theorem setPhase_kept (h : Nat) (ph : Nat) (s : State) : (setPhase h ph s).kept = s.kept := by
  unfold setPhase
  repeat' (first | with_reducible rfl | split | simp)

@[simp] theorem dropHeadEvents_kept (h : Nat) (s : State) : (dropHeadEvents h s).kept = s.kept := by
  simp [dropHeadEvents]

@[simp] theorem queueRead_kept (h : Nat) (r : RdReq) (s : State) : (queueRead h r s).kept = s.kept := by
  simp [queueRead]

@[simp] theorem replanReads_kept (h : Nat) (l : List Nat) (s : State) : (replanReads h l s).kept = s.kept := by
  unfold replanReads
  repeat' (first | with_reducible rfl | (simp only [queueRead_kept, kept_mk, kept_eta]; done) | split
                 | (with_reducible refine (foldl_kept _ _ ?_ _).trans ?_)
                 | (with_reducible refine (foldl_snd_kept _ _ ?_ _).trans ?_) | intro _ | simp)

@[simp] theorem reform_kept (s : State) : (reform s).kept = s.kept := by
  unfold reform
  repeat' (first | with_reducible rfl
                 | (simp only [formEffective_kept, headLanesOn_kept, transition_kept, kept_mk, kept_eta]; done) | split
                 | (with_reducible refine (when_kept _ _ _ ?_).trans ?_)
                 | (with_reducible refine (forUpTo_kept _ _ _ ?_).trans ?_) | intro _ | simp)

@[simp] theorem leaveProgress_kept (h : Nat) (s : State) : (leaveProgress h s).kept = s.kept := by
  unfold leaveProgress
  repeat' (first | with_reducible rfl | split | simp)

@[simp] theorem leaveRest_kept (h : Nat) (s : State) : (leaveRest h s).kept = s.kept := by
  unfold leaveRest
  repeat' (first | with_reducible rfl
                 | (simp only [State_put_kept, State_setOpu_kept, headLanesOff_kept, headLoopsNext_kept, parkSeek_kept, raiseInhibit_kept, setPhase_kept, syncLon_kept, kept_mk, kept_eta]; done)
                 | split | (with_reducible refine (when_kept _ _ _ ?_).trans ?_) | intro _ | simp)

@[simp] theorem checkTrans_kept (s : State) : (checkTrans s).kept = s.kept := by
  unfold checkTrans
  repeat' (first | with_reducible rfl | split | simp)

@[simp] theorem dropCal_kept (h : Nat) (s : State) : (dropCal h s).kept = s.kept := by
  unfold dropCal
  repeat' (first | with_reducible rfl | split | simp)

@[simp] theorem headOut_kept (h : Nat) (s : State) : (headOut h s).kept = s.kept := by
  simp [headOut]

@[simp] theorem spindleFault_kept (cause : Nat) (s : State) : (spindleFault cause s).kept = s.kept := by
  simp [spindleFault]

@[simp] theorem headFaultWith_kept (h : Nat) (tag : Nat) (code : Nat) (more : List Nat) (s : State) : (headFaultWith h tag code
    more s).kept = s.kept := by
  unfold headFaultWith
  repeat' (first | with_reducible rfl | split | simp)

@[simp] theorem headFault_kept (h : Nat) (tag : Nat) (code : Nat) (s : State) : (headFault h tag code s).kept = s.kept := by
  simp [headFault]

end Sys2Proof.Machine
end

