-- ==== Sys2Proof/Laws/KeepUnits.lean ====
section
/-! SUPPORT. What each operation leaves alone, units below the stripe level: one lemma per function that answers a state (it keeps buffer memory and
the queue), one per row (it answers a next state that keeps both). -/

set_option linter.unusedSimpArgs false

namespace Sys2Proof.Machine
open R

/-! ### Access -/

theorem fetch_kept {c : HCmd} {s t : State} (h : fetch c s = some t) : t.kept = s.kept := by
  unfold fetch at h
  split at h
  · dsimp only at h
    split at h
    · cases h
    · split at h
      · cases h
      · cases h; simp
  · cases h

theorem vendorWrite_keeps {p off : Nat} {b : Bool} {k : State → State} {s u : State} (h0 : u.kept = s.kept) (h : (k u).kept =
    s.kept) :
    Keeps s (vendorWrite p off b k u) := by
  refine next_keeps ?_
  repeat' (first | exact h0 | split | exact h | exact (custodyDiscard_kept ..).trans h0 | exact (State_put_kept ..).trans h0)

@[simp] theorem custodyDiscard_kept (p : Nat) (off : Nat) (s : State) : (custodyDiscard p off s).kept = s.kept := by
  simp [custodyDiscard]

@[simp] theorem asyncEvent_kept (p : Nat) (ty : Nat) (info : Nat) (page : Nat) (s : State) : (asyncEvent p ty info page s).kept =
    s.kept := by
  unfold asyncEvent
  repeat' (first | with_reducible rfl | split | simp)

@[simp] theorem moveMgmt_kept (who : Nat) (s : State) : (moveMgmt who s).kept = s.kept := by
  unfold moveMgmt
  repeat' (first | with_reducible rfl
                 | (simp only [State_put_kept, asyncEvent_kept, clearSketch_kept, varnishAbort_kept, kept_mk, kept_eta]; done)
                 | split | (with_reducible refine (forUpTo_kept _ _ _ ?_).trans ?_) | intro _ | simp)

@[simp] theorem passCustody_kept (s : State) : (passCustody s).kept = s.kept := by
  unfold passCustody
  repeat' (first | with_reducible rfl | split | simp)

@[simp] theorem decideMount_kept (p : Nat) (cid : Nat) (mode : Nat) (s : State) : (decideMount p cid mode s).kept = s.kept := by
  unfold decideMount
  repeat' (first | with_reducible rfl | split | simp)

/-! ### AngBase -/

theorem takeDue_kept {c : EvClass} {o : Nat} {s t : State} {e : Ev} (h : takeDue c o s = some (e, t)) : t.kept = s.kept := by
  unfold takeDue at h
  split at h
  · simp only [Option.map_eq_some_iff, Prod.mk.injEq] at h
    obtain ⟨_, _, _, rfl⟩ := h
    rfl
  · cases h

@[simp] theorem takeDueOr_kept (c : EvClass) (o : Nat) (s : State) : (((takeDue c o s).map Prod.snd).getD s).kept = s.kept := by
  cases h : takeDue c o s with
  | none => rfl
  | some x => exact takeDue_kept (e := x.1) h

@[simp] theorem State_setTr_kept (s : State) (h : Nat) (k : Trk → Trk) : (State.setTr s h k).kept = s.kept := by
  simp [State.setTr]

@[simp] theorem State_setWh_kept (s : State) (h : Nat) (k : WrsHead → WrsHead) : (State.setWh s h k).kept = s.kept := by
  simp [State.setWh]

@[simp] theorem countMisread_kept (h : Nat) (s : State) : (countMisread h s).kept = s.kept := by
  unfold countMisread
  repeat' (first | with_reducible rfl | split | simp)

@[simp] theorem fireAlarm_kept (late : Bool) (s : State) : (fireAlarm late s).kept = s.kept := by
  unfold fireAlarm
  repeat' (first | with_reducible rfl
                 | (simp only [State_put_kept, State_puts_kept, eventRec_kept, withdraw_kept, kept_mk, kept_eta]; done) | split
                 | (with_reducible refine (when_kept _ _ _ ?_).trans ?_) | intro _ | simp)

@[simp] theorem startAngle_kept (s : State) : (startAngle s).kept = s.kept := by
  unfold startAngle
  repeat' (first | with_reducible rfl | split | simp)

@[simp] theorem armAlarm_kept (s : State) : (armAlarm s).kept = s.kept := by
  unfold armAlarm
  repeat' (first | with_reducible rfl
                 | (simp only [State_put_kept, fireAlarm_kept, storeEv_kept, withdraw_kept, kept_mk, kept_eta]; done) | split
                 | (with_reducible refine (storeEv_kept (by assumption)).trans ?_) | intro _ | simp)

@[simp] theorem moveEv_kept (base : Nat) (e : Ev) (s : State) : (moveEv base e s).kept = s.kept := by
  unfold moveEv
  repeat' (first | with_reducible rfl | split | simp)

@[simp] theorem missEv_kept (base : Nat) (e : Ev) (s : State) : (missEv base e s).kept = s.kept := by
  unfold missEv
  repeat' (first | with_reducible rfl | split | simp)

@[simp] theorem stepForward_kept (d : Nat) (s : State) : (stepForward d s).kept = s.kept := by
  unfold stepForward
  repeat' (first | with_reducible rfl | (simp only [State_setNow_kept, missEv_kept, kept_mk, kept_eta]; done) | split
                 | (with_reducible refine (foldl_kept _ _ ?_ _).trans ?_)
                 | (with_reducible refine (foldl_snd_kept _ _ ?_ _).trans ?_) | intro _ | simp)

@[simp] theorem fireTick_kept (s : State) : (fireTick s).kept = s.kept := by
  unfold fireTick
  repeat' (first | with_reducible rfl | (simp only [missEv_kept, kept_mk, kept_eta]; done) | split
                 | (with_reducible refine (foldl_kept _ _ ?_ _).trans ?_)
                 | (with_reducible refine (foldl_snd_kept _ _ ?_ _).trans ?_) | intro _ | simp)

@[simp] theorem setRate_kept (rate : Nat) (s : State) : (setRate rate s).kept = s.kept := by
  simp [setRate]

@[simp] theorem syncRate_kept (s : State) : (syncRate s).kept = s.kept := by
  simp [syncRate]

@[simp] theorem srcFall_kept (new : Nat) (s : State) : (srcFall new s).kept = s.kept := by
  unfold srcFall
  repeat' (first | with_reducible rfl
                 | (simp only [State_inc_kept, State_put_kept, cutReads_kept, cutWrites_kept, logFlt_kept, raiseInhibit_kept, setRate_kept, spoilWindow_kept, kept_mk, kept_eta]; done)
                 | split | (with_reducible refine (when_kept _ _ _ ?_).trans ?_)
                 | (with_reducible refine (forUpTo_kept _ _ _ ?_).trans ?_) | intro _ | simp)

@[simp] theorem setOffset_kept (h : Nat) (off : Nat) (s : State) : (setOffset h off s).kept = s.kept := by
  simp [setOffset]

@[simp] theorem loseReference_kept (s : State) : (loseReference s).kept = s.kept := by
  unfold loseReference
  repeat' (first | with_reducible rfl | split | simp)

/-! ### Memory -/

@[simp] theorem State_setMem_kept (s : State) (k : MemSt → MemSt) : (s.setMem k).kept = ((k s.mem).bytes, s.pending) := rfl

@[simp] theorem State_setLrd_kept (s : State) (k : LrdSt → LrdSt) : (State.setLrd s k).kept = s.kept := by
  simp [State.setLrd]

@[simp] theorem bucketCheck_kept (s : State) : (bucketCheck s).kept = s.kept := by
  unfold bucketCheck
  repeat' (first | with_reducible rfl | split | simp)

@[simp] theorem noteCe_kept (src : Nat) (block : Nat) (s : State) : (noteCe src block s).kept = s.kept := by
  simp [noteCe]

@[simp] theorem noteUe_kept (src : Nat) (block : Nat) (k : Nat) (s : State) : (noteUe src block k s).kept = s.kept := by
  unfold noteUe
  repeat' (first | with_reducible rfl
                 | (simp only [State_inc_kept, State_put_kept, State_puts_kept, State_setMem_kept, logFlt_kept, kept_mk, kept_eta]; done)
                 | split | (with_reducible refine (when_kept _ _ _ ?_).trans ?_) | intro _ | simp)

@[simp] theorem readBlock_snd_kept (src : Nat) (block : Nat) (o : BlockRead) (s : State) : (readBlock src block o s).2.kept =
    s.kept := by
  unfold readBlock
  repeat' (first | with_reducible rfl | split | simp)

theorem readBlock_kept {src : Nat} {block : Nat} {o : BlockRead} {s : State} {x : Bool} {t : State} (hEq : readBlock src block o
    s = (x, t)) : t.kept = s.kept := by
  have e := readBlock_snd_kept src block o s
  rw [hEq] at e
  exact e

@[simp] theorem poisonBlock_kept (block : Nat) (s : State) : (poisonBlock block s).kept = s.kept := by
  simp [poisonBlock]

@[simp] theorem sweepTo_kept (n : Nat) (s : State) : (sweepTo n s).kept = s.kept := by
  unfold sweepTo
  repeat' (first | with_reducible rfl | split | simp)

@[simp] theorem pullAhead_kept (ba : Nat) (s : State) : (pullAhead ba s).kept = s.kept := by
  unfold pullAhead
  repeat' (first | with_reducible rfl | split | simp)

@[simp] theorem syncLrdDirty_kept (s : State) : (syncLrdDirty s).kept = s.kept := by
  simp [syncLrdDirty]

@[simp] theorem setLine_kept (line : Nat) (way : Nat) (v : Nat) (s : State) : (setLine line way v s).kept = s.kept := by
  simp [setLine]

@[simp] theorem dropLine_kept (line : Nat) (way : Nat) (s : State) : (dropLine line way s).kept = s.kept := by
  simp [dropLine]

@[simp] theorem syncLrd_kept (s : State) : (syncLrd s).kept = s.kept := by
  simp [syncLrd]

@[simp] theorem wayFault_kept (w : Nat) (why : Nat) (s : State) : (wayFault w why s).kept = s.kept := by
  unfold wayFault
  repeat' (first | with_reducible rfl
                 | (simp only [State_inc_kept, State_setBit_kept, State_setLrd_kept, logFlt_kept, syncLrd_kept, kept_mk, kept_eta]; done)
                 | split | (with_reducible refine (when_kept _ _ _ ?_).trans ?_) | intro _ | simp)

@[simp] theorem poisonLine_kept (line : Nat) (s : State) : (poisonLine line s).kept = s.kept := by
  unfold poisonLine
  repeat' (first | with_reducible rfl | (simp only [poisonBlock_kept, kept_mk, kept_eta]; done) | split
                 | (with_reducible refine (forUpTo_kept _ _ _ ?_).trans ?_) | intro _ | simp)

@[simp] theorem hitLine_snd_kept (line : Nat) (block : Nat) (way : Nat) (o : LineOutcome) (s : State) : (hitLine line block way o
    s).2.kept = s.kept := by
  unfold hitLine
  repeat' (first | with_reducible rfl | split | simp)

theorem hitLine_kept {line : Nat} {block : Nat} {way : Nat} {o : LineOutcome} {s : State} {x : Option Bool} {t : State} (hEq :
    hitLine line block way o s = (x, t)) : t.kept = s.kept := by
  have e := hitLine_snd_kept line block way o s
  rw [hEq] at e
  exact e

@[simp] theorem lookup_snd_kept (line : Nat) (s : State) : (lookup line s).2.kept = s.kept := by
  unfold lookup
  repeat' (first | with_reducible rfl | split | simp)

theorem lookup_kept {line : Nat} {s : State} {x : Option Nat} {t : State} (hEq : lookup line s = (x, t)) : t.kept = s.kept := by
  have e := lookup_snd_kept line s
  rw [hEq] at e
  exact e

@[simp] theorem writeBack_kept (line : Nat) (way : Nat) (s : State) : (writeBack line way s).kept = s.kept := by
  unfold writeBack
  repeat' (first | with_reducible rfl | (simp only [State_setMem_kept, kept_mk, kept_eta]; done) | split
                 | (with_reducible refine (forUpTo_kept _ _ _ ?_).trans ?_) | intro _ | simp)

@[simp] theorem allocate_kept (line : Nat) (way : Nat) (dirty : Bool) (s : State) : (allocate line way dirty s).kept = s.kept := by
  unfold allocate
  repeat' (first | with_reducible rfl | split | simp)

@[simp] theorem fillLine_snd_kept (line : Nat) (block : Nat) (o : BlockRead) (s : State) : (fillLine line block o s).2.kept =
    s.kept := by
  unfold fillLine
  repeat' (first | with_reducible rfl | (simp only [readBlock_snd_kept, kept_mk, kept_eta]; done) | split
                 | (with_reducible refine (foldl_kept _ _ ?_ _).trans ?_)
                 | (with_reducible refine (foldl_snd_kept _ _ ?_ _).trans ?_)
                 | (with_reducible refine (readBlock_kept (by assumption)).trans ?_) | intro _ | simp)

theorem fillLine_kept {line : Nat} {block : Nat} {o : BlockRead} {s : State} {x : Bool} {t : State} (hEq : fillLine line block o
    s = (x, t)) : t.kept = s.kept := by
  have e := fillLine_snd_kept line block o s
  rw [hEq] at e
  exact e

@[simp] theorem missLoad_snd_kept (src : Nat) (block : Nat) (o : BlockRead) (s : State) : (missLoad src block o s).2.kept =
    s.kept := by
  unfold missLoad
  repeat' (first | with_reducible rfl | split | simp)

theorem missLoad_kept {src : Nat} {block : Nat} {o : BlockRead} {s : State} {x : Bool} {t : State} (hEq : missLoad src block o s
    = (x, t)) : t.kept = s.kept := by
  have e := missLoad_snd_kept src block o s
  rw [hEq] at e
  exact e

@[simp] theorem memLoad_snd_kept (src : Nat) (block : Nat) (o : BlockRead) (l : LineOutcome) (s : State) : (memLoad src block o l
    s).2.kept = s.kept := by
  unfold memLoad
  repeat' (first | with_reducible rfl
                 | (simp only [hitLine_snd_kept, lookup_snd_kept, missLoad_snd_kept, pullAhead_kept, kept_mk, kept_eta]; done)
                 | split | (with_reducible refine (hitLine_kept (by assumption)).trans ?_)
                 | (with_reducible refine (lookup_kept (by assumption)).trans ?_) | intro _ | simp)

theorem memLoad_kept {src : Nat} {block : Nat} {o : BlockRead} {l : LineOutcome} {s : State} {x : Bool} {t : State} (hEq :
    memLoad src block o l s = (x, t)) : t.kept = s.kept := by
  have e := memLoad_snd_kept src block o l s
  rw [hEq] at e
  exact e

@[simp] theorem bar2Fetch_snd_kept (ba : Nat) (o : BlockRead) (l : LineOutcome) (s : State) : (bar2Fetch ba o l s).2.kept =
    s.kept := by
  unfold bar2Fetch
  repeat' (first | with_reducible rfl
                 | (simp only [hitLine_snd_kept, lookup_snd_kept, pullAhead_kept, readBlock_snd_kept, kept_mk, kept_eta]; done)
                 | split | (with_reducible refine (readBlock_kept (by assumption)).trans ?_)
                 | (with_reducible refine (hitLine_kept (by assumption)).trans ?_)
                 | (with_reducible refine (lookup_kept (by assumption)).trans ?_) | intro _ | simp)

theorem bar2Fetch_kept {ba : Nat} {o : BlockRead} {l : LineOutcome} {s : State} {x : Bool} {t : State} (hEq : bar2Fetch ba o l s
    = (x, t)) : t.kept = s.kept := by
  have e := bar2Fetch_snd_kept ba o l s
  rw [hEq] at e
  exact e

@[simp] theorem bar2Read_kept (ba : Nat) (o : BlockRead) (l : LineOutcome) (s : State) : (bar2Read ba o l s).kept = s.kept := by
  simp [bar2Read]

theorem execBar2Read_keeps (p : Port) (off : BitVec 32) (reach : Fin 16385) (o : BlockRead) (l : LineOutcome) (s : State) : Keeps
    s (execBar2Read p off reach o l s) := by
  unfold execBar2Read
  repeat' (first | refine doIf_keeps ?_ ?_ | with_reducible rfl | split | simp)

@[simp] theorem askScrub_kept (from' : Nat) (s : State) : (askScrub from' s).kept = s.kept := by
  unfold askScrub
  repeat' (first | with_reducible rfl | split | simp)

theorem execSweepComplete_keeps (pulls : Nat) (s : State) : Keeps s (execSweepComplete pulls s) := by
  unfold execSweepComplete; refine doIf_keeps ?_ ?_ <;> simp

@[simp] theorem scrubBlock_kept (o : BlockRead) (s : State) : (scrubBlock o s).kept = s.kept := by
  unfold scrubBlock
  repeat' (first | with_reducible rfl | split | simp)

theorem execScrubSlot_keeps (os : List BlockRead) (s : State) : Keeps s (execScrubSlot os s) := by
  unfold execScrubSlot
  repeat' (first | refine doIf_keeps ?_ ?_ | with_reducible rfl
                 | (simp only [askScrub_kept, scrubBlock_kept, kept_mk, kept_eta]; done) | split
                 | (with_reducible refine (foldl_kept _ _ ?_ _).trans ?_)
                 | (with_reducible refine (foldl_snd_kept _ _ ?_ _).trans ?_) | intro _ | simp)

theorem execScrubLapEnd_keeps (lap : Nat) (s : State) : Keeps s (execScrubLapEnd lap s) := by
  unfold execScrubLapEnd; refine doIf_keeps ?_ ?_ <;> simp

theorem execCeBucketLeak_keeps (s : State) : Keeps s (execCeBucketLeak s) := by
  unfold execCeBucketLeak; refine doIf_keeps ?_ ?_ <;> simp

theorem execMemoryErrorWindow_keeps (n : Nat) (s : State) : Keeps s (execMemoryErrorWindow n s) := by
  unfold execMemoryErrorWindow; refine doIf_keeps ?_ ?_ <;> simp

theorem execRefreshRatePoll_keeps (rates : List (BitVec 8)) (s : State) : Keeps s (execRefreshRatePoll rates s) := by
  unfold execRefreshRatePoll; refine doIf_keeps ?_ ?_ <;> simp

theorem execLarderWayFault_keeps (w : Way) (line : BitVec 26) (dirty : Bool) (s : State) : Keeps s (execLarderWayFault w line
    dirty s) := by
  unfold execLarderWayFault
  repeat' (first | refine doIf_keeps ?_ ?_ | with_reducible rfl | split | simp)

theorem execLarderWayCeWindow_keeps (w : Way) (k : Nat) (n : Nat) (block : BitVec 28) (s : State) : Keeps s
    (execLarderWayCeWindow w k n block s) := by
  unfold execLarderWayCeWindow
  repeat' (first | refine doIf_keeps ?_ ?_ | with_reducible rfl
                 | (simp only [State_inc_kept, State_setLrd_kept, noteCe_kept, wayFault_kept, kept_mk, kept_eta]; done) | split
                 | (with_reducible refine (forUpTo_kept _ _ _ ?_).trans ?_) | intro _ | simp)

@[simp] theorem startDisable_kept (s : State) : (startDisable s).kept = s.kept := by
  simp [startDisable]

@[simp] theorem larderOn_kept (s : State) : (larderOn s).kept = s.kept := by
  simp [larderOn]

@[simp] theorem lrdCtl_kept (v : Nat) (s : State) : (lrdCtl v s).kept = s.kept := by
  unfold lrdCtl
  repeat' (first | with_reducible rfl | split | simp)

theorem execLrdDisable_keeps (p : Port) (v : Word) (s : State) : Keeps s (execLrdDisable p v s) := by
  unfold execLrdDisable; refine vendorWrite_keeps ?_ ?_ <;> simp

theorem execLrdEnable_keeps (p : Port) (v : Word) (s : State) : Keeps s (execLrdEnable p v s) := by
  unfold execLrdEnable; refine vendorWrite_keeps ?_ ?_ <;> simp

@[simp] theorem actEnds_kept (result : Nat) (kind : Nat) (arg : Nat) (w : Nat) (s : State) : (actEnds result kind arg w s).kept =
    s.kept := by
  unfold actEnds
  repeat' (first | with_reducible rfl | split | simp)

@[simp] theorem lrdWayCtl_kept (v : Nat) (s : State) : (lrdWayCtl v s).kept = s.kept := by
  unfold lrdWayCtl
  repeat' (first | with_reducible rfl | split | simp)

theorem execLrdWayOffline_keeps (p : Port) (v : Word) (s : State) : Keeps s (execLrdWayOffline p v s) := by
  unfold execLrdWayOffline; refine vendorWrite_keeps ?_ ?_ <;> simp

theorem execLrdWayRestore_keeps (p : Port) (v : Word) (s : State) : Keeps s (execLrdWayRestore p v s) := by
  unfold execLrdWayRestore; refine vendorWrite_keeps ?_ ?_ <;> simp

@[simp] theorem emptyWay_kept (w : Nat) (s : State) : (emptyWay w s).kept = s.kept := by
  unfold emptyWay
  repeat' (first | with_reducible rfl
                 | (simp only [State_setLrd_kept, syncLrdDirty_kept, writeBack_kept, kept_mk, kept_eta]; done) | split
                 | (with_reducible refine (foldl_kept _ _ ?_ _).trans ?_)
                 | (with_reducible refine (foldl_snd_kept _ _ ?_ _).trans ?_) | intro _ | simp)

theorem execLarderWayCleaned_keeps (w : Way) (s : State) : Keeps s (execLarderWayCleaned w s) := by
  unfold execLarderWayCleaned
  repeat' (first | refine doIf_keeps ?_ ?_ | with_reducible rfl | split | simp)

theorem execLrdWayBistDone_keeps (pass : Bool) (s : State) : Keeps s (execLrdWayBistDone pass s) := by
  unfold execLrdWayBistDone
  repeat' (first | refine doIf_keeps ?_ ?_ | refine next_keeps ?_ | with_reducible rfl
                 | (simp only [State_setBit_kept, actEnds_kept, kept_mk, kept_eta]; done) | split
                 | (with_reducible refine (when_kept _ _ _ ?_).trans ?_) | intro _ | simp)

theorem execLarderDisabled_keeps (s : State) : Keeps s (execLarderDisabled s) := by
  unfold execLarderDisabled
  repeat' (first | refine doIf_keeps ?_ ?_ | with_reducible rfl
                 | (simp only [State_puts_kept, State_setBit_kept, State_setLrd_kept, eventRec_kept, larderOn_kept, syncLrd_kept, writeBack_kept, kept_mk, kept_eta]; done)
                 | split | (with_reducible refine (foldl_kept _ _ ?_ _).trans ?_)
                 | (with_reducible refine (foldl_snd_kept _ _ ?_ _).trans ?_) | intro _ | simp)

/-! ### Channel -/

@[simp] theorem State_setChn_kept (s : State) (k : Chn → Chn) : (State.setChn s k).kept = s.kept := by
  simp [State.setChn]

@[simp] theorem rowLoad_kept (l : Nat) (s : State) : (rowLoad l s).kept = s.kept := by
  simp [rowLoad]

@[simp] theorem eqLoadAs_kept (h : Nat) (o : BlockRead) (s : State) : (eqLoadAs h o s).kept = s.kept := by
  unfold eqLoadAs
  repeat' (first | with_reducible rfl | (simp only [State_puts_kept, memLoad_snd_kept, kept_mk, kept_eta]; done) | split
                 | (with_reducible refine (forUpTo_kept _ _ _ ?_).trans ?_) | intro _ | simp)

@[simp] theorem eqLoad_kept (h : Nat) (s : State) : (eqLoad h s).kept = s.kept := by
  simp [eqLoad]

@[simp] theorem detLoad_kept (h : Nat) (s : State) : (detLoad h s).kept = s.kept := by
  unfold detLoad
  repeat' (first | with_reducible rfl | (simp only [State_put_kept, eqLoad_kept, kept_mk, kept_eta]; done) | split
                 | (with_reducible refine (forUpTo_kept _ _ _ ?_).trans ?_) | intro _ | simp)

@[simp] theorem headRowLoad_kept (h : Nat) (s : State) : (headRowLoad h s).kept = s.kept := by
  unfold headRowLoad
  repeat' (first | with_reducible rfl | (simp only [detLoad_kept, rowLoad_kept, kept_mk, kept_eta]; done) | split
                 | (with_reducible refine (when_kept _ _ _ ?_).trans ?_)
                 | (with_reducible refine (forUpTo_kept _ _ _ ?_).trans ?_) | intro _ | simp)

@[simp] theorem reloadStale_kept (h : Nat) (s : State) : (reloadStale h s).kept = s.kept := by
  unfold reloadStale
  repeat' (first | with_reducible rfl | (simp only [detLoad_kept, rowLoad_kept, kept_mk, kept_eta]; done) | split
                 | (with_reducible refine (foldl_kept _ _ ?_ _).trans ?_)
                 | (with_reducible refine (foldl_snd_kept _ _ ?_ _).trans ?_) | intro _ | simp)

@[simp] theorem rowChanged_kept (layer : Nat) (band : Nat) (s : State) : (rowChanged layer band s).kept = s.kept := by
  simp [rowChanged]

@[simp] theorem syncGap_kept (h : Nat) (spot : Nat) (s : State) : (syncGap h spot s).kept = s.kept := by
  simp [syncGap]

@[simp] theorem syncGaps_kept (h : Nat) (s : State) : (syncGaps h s).kept = s.kept := by
  unfold syncGaps
  repeat' (first | with_reducible rfl | (simp only [syncGap_kept, kept_mk, kept_eta]; done) | split
                 | (with_reducible refine (forUpTo_kept _ _ _ ?_).trans ?_) | intro _ | simp)

@[simp] theorem zeroConf_kept (h : Nat) (spot : Nat) (b : Bool) (s : State) : (zeroConf h spot b s).kept = s.kept := by
  simp [zeroConf]

@[simp] theorem noteCarrier_kept (h : Nat) (spot : Nat) (old : Nat) (stamp : Nat) (s : State) : (noteCarrier h spot old stamp
    s).kept = s.kept := by
  simp [noteCarrier]

@[simp] theorem spanMissing_kept (l : Nat) (s : State) : (spanMissing l s).kept = s.kept := by
  simp [spanMissing]

@[simp] theorem judgedTo_kept (l : Nat) (t : Nat) (s : State) : (judgedTo l t s).kept = s.kept := by
  simp [judgedTo]

@[simp] theorem laneRec_kept (l : Nat) (s : State) : (laneRec l s).kept = s.kept := by
  simp [laneRec]

@[simp] theorem unlock_kept (l : Nat) (s : State) : (unlock l s).kept = s.kept := by
  simp [unlock]

@[simp] theorem laneAcquire_kept (l : Nat) (input : Nat) (for' : Nat) (s : State) : (laneAcquire l input for' s).kept = s.kept := by
  simp [laneAcquire]

@[simp] theorem spareIdle_kept (l : Nat) (s : State) : (spareIdle l s).kept = s.kept := by
  simp [spareIdle]

@[simp] theorem endLaneAct_kept (result : Nat) (s : State) : (endLaneAct result s).kept = s.kept := by
  simp [endLaneAct]

@[simp] theorem eyeBroken_kept (h : Nat) (s : State) : (eyeBroken h s).kept = s.kept := by
  unfold eyeBroken
  repeat' (first | with_reducible rfl | (simp only [State_setChn_kept, kept_mk, kept_eta]; done) | split
                 | (with_reducible refine (when_kept _ _ _ ?_).trans ?_) | intro _ | simp)

@[simp] theorem abandonAct_kept (s : State) : (abandonAct s).kept = s.kept := by
  unfold abandonAct
  repeat' (first | with_reducible rfl | split | simp)

@[simp] theorem laneFail_kept (l : Nat) (s : State) : (laneFail l s).kept = s.kept := by
  simp [laneFail]

@[simp] theorem loseTrack_kept (h : Nat) (spot : Nat) (s : State) : (loseTrack h spot s).kept = s.kept := by
  simp [loseTrack]

@[simp] theorem abandonCal_kept (c : Nat) (s : State) : (abandonCal c s).kept = s.kept := by
  simp [abandonCal]

@[simp] theorem takeOver_kept (l : Nat) (s : State) : (takeOver l s).kept = s.kept := by
  simp [takeOver]

@[simp] theorem failLost_kept (l : Nat) (s : State) : (failLost l s).kept = s.kept := by
  simp [failLost]

@[simp] theorem activeFails_kept (l : Nat) (first : Bool) (s : State) : (activeFails l first s).kept = s.kept := by
  unfold activeFails
  repeat' (first | with_reducible rfl
                 | (simp only [State_setChn_kept, abandonAct_kept, abandonCal_kept, failLost_kept, takeOver_kept, kept_mk, kept_eta]; done)
                 | split | (with_reducible refine (when_kept _ _ _ ?_).trans ?_) | intro _ | simp)

@[simp] theorem spareFails_kept (sp : Nat) (s : State) : (spareFails sp s).kept = s.kept := by
  unfold spareFails
  repeat' (first | with_reducible rfl
                 | (simp only [State_puts_kept, State_setChn_kept, abandonAct_kept, abandonCal_kept, laneFail_kept, logFlt_kept, loseTrack_kept, kept_mk, kept_eta]; done)
                 | split | (with_reducible refine (when_kept _ _ _ ?_).trans ?_) | intro _ | simp)

theorem execLaneFailure_keeps (l : Lane) (s : State) : Keeps s (execLaneFailure l s) := by
  unfold execLaneFailure
  repeat' (first | refine doIf_keeps ?_ ?_ | with_reducible rfl
                 | (simp only [State_drawn_kept, State_setChn_kept, abandonAct_kept, activeFails_kept, laneFail_kept, logFlt_kept, spareFails_kept, kept_mk, kept_eta]; done)
                 | split | (with_reducible refine (when_kept _ _ _ ?_).trans ?_) | intro _ | simp)

@[simp] theorem laneCtl_kept (v : Nat) (s : State) : (laneCtl v s).kept = s.kept := by
  unfold laneCtl
  repeat' (first | with_reducible rfl | split | simp)

theorem laneCtlAct_keeps (act : Nat) (p : Port) (v : Word) (s : State) : Keeps s (laneCtlAct act p v s) := by
  unfold laneCtlAct; refine vendorWrite_keeps ?_ ?_ <;> simp

theorem execLaneSpare_keeps (p : Port) (v : Word) (s : State) : Keeps s (execLaneSpare p v s) := by
  unfold execLaneSpare; exact laneCtlAct_keeps .. <;> simp

theorem execLaneRestore_keeps (p : Port) (v : Word) (s : State) : Keeps s (execLaneRestore p v s) := by
  unfold execLaneRestore; exact laneCtlAct_keeps .. <;> simp

theorem execLaneEye_keeps (p : Port) (v : Word) (s : State) : Keeps s (execLaneEye p v s) := by
  unfold execLaneEye; exact laneCtlAct_keeps .. <;> simp

@[simp] theorem laneRestored_kept (l : Nat) (s : State) : (laneRestored l s).kept = s.kept := by
  simp [laneRestored]

theorem execLaneSelftestDone_keeps (pass : Bool) (s : State) : Keeps s (execLaneSelftestDone pass s) := by
  unfold execLaneSelftestDone
  repeat' (first | refine doIf_keeps ?_ ?_ | refine next_keeps ?_ | with_reducible rfl | split | simp)

theorem execCalShadow_keeps (l : Lane) (s : State) : Keeps s (execCalShadow l s) := by
  unfold execCalShadow; refine doIf_keeps ?_ ?_ <;> simp

@[simp] theorem endShadow_kept (l : Nat) (s : State) : (endShadow l s).kept = s.kept := by
  unfold endShadow
  repeat' (first | with_reducible rfl | split | simp)

theorem execTimingLock_keeps (l : Lane) (err : List Int) (s : State) : Keeps s (execTimingLock l err s) := by
  unfold execTimingLock
  repeat' (first | refine doIf_keeps ?_ ?_ | with_reducible rfl | split | simp)

theorem execTimingLockLoss_keeps (l : Lane) (err : List Int) (s : State) : Keeps s (execTimingLockLoss l err s) := by
  unfold execTimingLockLoss; refine doIf_keeps ?_ ?_ <;> simp

/-! ### Layout -/

@[simp] theorem askReread_kept (h : Nat) (l : List Nat) (s : State) : (askReread h l s).kept = s.kept := by
  unfold askReread
  repeat' (first | with_reducible rfl | (simp only [submitVerify_kept, kept_mk, kept_eta]; done) | split
                 | (with_reducible refine (foldl_kept _ _ ?_ _).trans ?_)
                 | (with_reducible refine (foldl_snd_kept _ _ ?_ _).trans ?_) | intro _ | simp)

@[simp] theorem readBack_kept (h : Nat) (sel : Span → Bool) (s : State) : (readBack h sel s).kept = s.kept := by
  simp [readBack]

/-! ### Detector -/

@[simp] theorem laneCheck_kept (i : LaneIn) (s : State) : (laneCheck i s).kept = s.kept := by
  unfold laneCheck
  repeat' (first | with_reducible rfl
                 | (simp only [State_inc_kept, State_put_kept, State_puts_kept, State_setChn_kept, judgedTo_kept, spanMissing_kept, kept_mk, kept_eta]; done)
                 | split | (with_reducible refine (when_kept _ _ _ ?_).trans ?_) | intro _ | simp)

@[simp] theorem checkLanes_kept (l : List LaneIn) (s : State) : (checkLanes l s).kept = s.kept := by
  unfold checkLanes
  repeat' (first | with_reducible rfl | (simp only [laneCheck_kept, kept_mk, kept_eta]; done) | split
                 | (with_reducible refine (foldl_kept _ _ ?_ _).trans ?_)
                 | (with_reducible refine (foldl_snd_kept _ _ ?_ _).trans ?_) | intro _ | simp)

@[simp] theorem switchLane_kept (l : Nat) (s : State) : (switchLane l s).kept = s.kept := by
  unfold switchLane
  repeat' (first | with_reducible rfl
                 | (simp only [State_put_kept, State_puts_kept, State_setBit_kept, State_setChn_kept, endLaneAct_kept, laneRec_kept, laneRestored_kept, noteCarrier_kept, spareIdle_kept, zeroConf_kept, kept_mk, kept_eta]; done)
                 | split | (with_reducible refine (when_kept _ _ _ ?_).trans ?_) | intro _ | simp)

theorem execLaneAcquired_keeps (l : Lane) (s : State) : Keeps s (execLaneAcquired l s) := by
  unfold execLaneAcquired; refine doIf_keeps ?_ ?_ <;> simp

@[simp] theorem adaptTrack_kept (x : EqIn) (o : Nat) (s : State) : (adaptTrack x o s).kept = s.kept := by
  unfold adaptTrack
  repeat' (first | with_reducible rfl | (simp only [State_puts_kept, kept_mk, kept_eta]; done) | split
                 | (with_reducible refine (foldl_kept _ _ ?_ _).trans ?_)
                 | (with_reducible refine (foldl_snd_kept _ _ ?_ _).trans ?_) | intro _ | simp)

@[simp] theorem noteRef_kept (x : EqIn) (o : Nat) (s : State) : (noteRef x o s).kept = s.kept := by
  simp [noteRef]

@[simp] theorem eqStep_kept (x : EqIn) (s : State) : (eqStep x s).kept = s.kept := by
  unfold eqStep
  repeat' (first | with_reducible rfl | (simp only [adaptTrack_kept, noteRef_kept, kept_mk, kept_eta]; done) | split
                 | (with_reducible refine (foldl_kept _ _ ?_ _).trans ?_)
                 | (with_reducible refine (foldl_snd_kept _ _ ?_ _).trans ?_) | intro _ | simp)

@[simp] theorem judgeRef_kept (h : Nat) (s : State) : (judgeRef h s).kept = s.kept := by
  unfold judgeRef
  repeat' (first | with_reducible rfl | (simp only [kept_mk, kept_eta]; done) | split
                 | (with_reducible refine (foldl_kept _ _ ?_ _).trans ?_)
                 | (with_reducible refine (foldl_snd_kept _ _ ?_ _).trans ?_) | intro _ | simp)

theorem execEqReload_keeps (h : Head) (track : Fin 6) (o : BlockRead) (s : State) : Keeps s (execEqReload h track o s) := by
  unfold execEqReload; refine doIf_keeps ?_ ?_ <;> simp

@[simp] theorem eyeGap_kept (h : Nat) (s : State) : (eyeGap h s).kept = s.kept := by
  unfold eyeGap
  repeat' (first | with_reducible rfl | (simp only [State_setChn_kept, kept_mk, kept_eta]; done) | split
                 | (with_reducible refine (when_kept _ _ _ ?_).trans ?_) | intro _ | simp)

@[simp] theorem detWedge_kept (h : Nat) (s : State) : (detWedge h s).kept = s.kept := by
  simp [detWedge]

theorem execEyeSweepDone_keeps (errs : List Nat) (s : State) : Keeps s (execEyeSweepDone errs s) := by
  unfold execEyeSweepDone
  repeat' (first | refine doIf_keeps ?_ ?_ | refine next_keeps ?_ | with_reducible rfl | split | simp)

@[simp] theorem noteReading_kept (s : State) : (noteReading s).kept = s.kept := by
  unfold noteReading
  repeat' (first | with_reducible rfl | (simp only [kept_mk, kept_eta]; done) | split
                 | (with_reducible refine (foldl_kept _ _ ?_ _).trans ?_)
                 | (with_reducible refine (foldl_snd_kept _ _ ?_ _).trans ?_)
                 | (with_reducible refine (when_kept _ _ _ ?_).trans ?_) | intro _ | simp)

@[simp] theorem laneSnr_kept (h : Nat) (o : Nat) (s : State) : (laneSnr h o s).kept = s.kept := by
  unfold laneSnr
  repeat' (first | with_reducible rfl | split | simp)

theorem execQualityUpdate_keeps (h : Head) (s : State) : Keeps s (execQualityUpdate h s) := by
  unfold execQualityUpdate
  repeat' (first | refine doIf_keeps ?_ ?_ | with_reducible rfl
                 | (simp only [State_drawn_kept, State_put_kept, State_puts_kept, laneSnr_kept, kept_mk, kept_eta]; done)
                 | split | (with_reducible refine (foldl_kept _ _ ?_ _).trans ?_)
                 | (with_reducible refine (foldl_snd_kept _ _ ?_ _).trans ?_)
                 | (with_reducible refine (forUpTo_kept _ _ _ ?_).trans ?_) | intro _ | simp)

/-! ### Codeword -/

@[simp] theorem State_setCwd_kept (s : State) (k : Cwd → Cwd) : (State.setCwd s k).kept = s.kept := by
  simp [State.setCwd]

@[simp] theorem State_setHlt_kept (s : State) (k : Hlt → Hlt) : (State.setHlt s k).kept = s.kept := by
  simp [State.setHlt]

@[simp] theorem State_setStr_kept (s : State) (k : Str → Str) : (State.setStr s k).kept = s.kept := by
  simp [State.setStr]

@[simp] theorem cntTag_kept (cond : Nat) (s : State) : (cntTag cond s).kept = s.kept := by
  unfold cntTag
  repeat' (first | with_reducible rfl | split | simp)

@[simp] theorem syncRefq_kept (s : State) : (syncRefq s).kept = s.kept := by
  simp [syncRefq]

@[simp] theorem queueRefresh_kept (key : Nat) (stripe : Nat) (again : Bool) (s : State) : (queueRefresh key stripe again s).kept
    = s.kept := by
  unfold queueRefresh
  repeat' (first | with_reducible rfl | split | simp)

@[simp] theorem dropRefresh_kept (stripe : Nat) (s : State) : (dropRefresh stripe s).kept = s.kept := by
  simp [dropRefresh]

@[simp] theorem syncRebuild_kept (s : State) : (syncRebuild s).kept = s.kept := by
  simp [syncRebuild]

@[simp] theorem queueRebuild_kept (stripe : Nat) (member : Nat) (s : State) : (queueRebuild stripe member s).kept = s.kept := by
  unfold queueRebuild
  repeat' (first | with_reducible rfl | split | simp)

@[simp] theorem copyFails_kept (p : Nat) (s : State) : (copyFails p s).kept = s.kept := by
  unfold copyFails
  repeat' (first | with_reducible rfl | split | simp)

@[simp] theorem failedRead_kept (i : CwItem) (s : State) : (failedRead i s).kept = s.kept := by
  unfold failedRead
  repeat' (first | with_reducible rfl
                 | (simp only [State_setHlt_kept, copyFails_kept, queueRebuild_kept, kept_mk, kept_eta]; done) | split
                 | (with_reducible refine (when_kept _ _ _ ?_).trans ?_) | intro _ | simp)

@[simp] theorem goodRead_kept (i : CwItem) (s : State) : (goodRead i s).kept = s.kept := by
  simp [goodRead]

@[simp] theorem healthOf_kept (i : CwItem) (cond : Nat) (s : State) : (healthOf i cond s).kept = s.kept := by
  unfold healthOf
  repeat' (first | with_reducible rfl
                 | (simp only [State_setHlt_kept, failedRead_kept, goodRead_kept, queueRefresh_kept, kept_mk, kept_eta]; done)
                 | split | (with_reducible refine (foldl_kept _ _ ?_ _).trans ?_)
                 | (with_reducible refine (foldl_snd_kept _ _ ?_ _).trans ?_)
                 | (with_reducible refine (when_kept _ _ _ ?_).trans ?_) | intro _ | simp)

@[simp] theorem frameRead_kept (pba : Nat) (mem : Option (Nat × Nat)) (s : State) : (frameRead pba mem s).kept = s.kept := by
  unfold frameRead
  repeat' (first | with_reducible rfl | split | simp)

@[simp] theorem goodBits_kept (pba : Nat) (cond : Nat) (s : State) : (goodBits pba cond s).kept = s.kept := by
  unfold goodBits
  repeat' (first | with_reducible rfl | split | simp)

@[simp] theorem noteQuality_kept (i : CwItem) (cond : Nat) (x : Nat) (s : State) : (noteQuality i cond x s).kept = s.kept := by
  unfold noteQuality
  repeat' (first | with_reducible rfl | split | simp)

@[simp] theorem syncOcc_kept (s : State) : (syncOcc s).kept = s.kept := by
  simp [syncOcc]

@[simp] theorem dispatchOne_kept (d : Nat) (s : State) : (dispatchOne d s).kept = s.kept := by
  unfold dispatchOne
  repeat' (first | with_reducible rfl | (simp only [State_inc_kept, State_setCwd_kept, syncOcc_kept, kept_mk, kept_eta]; done)
                 | split | (with_reducible refine (when_kept _ _ _ ?_).trans ?_) | intro _ | simp)

@[simp] theorem dispatch_kept (s : State) : (dispatch s).kept = s.kept := by
  unfold dispatch
  repeat' (first | with_reducible rfl | (simp only [dispatchOne_kept, kept_mk, kept_eta]; done) | split
                 | (with_reducible refine (forUpTo_kept _ _ _ ?_).trans ?_) | intro _ | simp)

@[simp] theorem crossingLost_kept (h : Nat) (s : State) : (crossingLost h s).kept = s.kept := by
  simp [crossingLost]

@[simp] theorem decOut_kept (d : Nat) (s : State) : (decOut d s).kept = s.kept := by
  simp [decOut]

@[simp] theorem decAction_kept (d : Nat) (result : Nat) (s : State) : (decAction d result s).kept = s.kept := by
  simp [decAction]

@[simp] theorem decIdle_kept (d : Nat) (s : State) : (decIdle d s).kept = s.kept := by
  unfold decIdle
  repeat' (first | with_reducible rfl | split | simp)

@[simp] theorem decoderFault_kept (d : Nat) (cause : Nat) (s : State) : (decoderFault d cause s).kept = s.kept := by
  unfold decoderFault
  repeat' (first | with_reducible rfl | split | simp)

theorem execDecoderTimeout_keeps (d : Dec) (s : State) : Keeps s (execDecoderTimeout d s) := by
  unfold execDecoderTimeout; refine doIf_keeps ?_ ?_ <;> simp

@[simp] theorem decCtl_kept (v : Nat) (s : State) : (decCtl v s).kept = s.kept := by
  unfold decCtl
  repeat' (first | with_reducible rfl | split | simp)

theorem execDecoderOffline_keeps (p : Port) (v : Word) (s : State) : Keeps s (execDecoderOffline p v s) := by
  unfold execDecoderOffline; refine vendorWrite_keeps ?_ ?_ <;> simp

theorem execDecoderRestore_keeps (p : Port) (v : Word) (s : State) : Keeps s (execDecoderRestore p v s) := by
  unfold execDecoderRestore; refine vendorWrite_keeps ?_ ?_ <;> simp

theorem execDecoderBistDone_keeps (d : Dec) (pass : Bool) (s : State) : Keeps s (execDecoderBistDone d pass s) := by
  unfold execDecoderBistDone
  repeat' (first | refine doIf_keeps ?_ ?_ | with_reducible rfl | split | simp)

/-! ### Attic -/

@[simp] theorem State_setAtt_kept (s : State) (k : Att → Att) : (State.setAtt s k).kept = s.kept := by
  simp [State.setAtt]

@[simp] theorem setAttCur_kept (side : Nat) (c : Option AttWr) (s : State) : (setAttCur side c s).kept = s.kept := by
  simp [setAttCur]

@[simp] theorem newJob_snd_kept (type : Nat) (inst : Nat) (body : List Nat) (cont : AttCont) (s : State) : (newJob type inst body
    cont s).2.kept = s.kept := by
  simp [newJob]

theorem newJob_kept {type : Nat} {inst : Nat} {body : List Nat} {cont : AttCont} {s : State} {x : AttJob} {t : State} (hEq :
    newJob type inst body cont s = (x, t)) : t.kept = s.kept := by
  have e := newJob_snd_kept type inst body cont s
  rw [hEq] at e
  exact e

@[simp] theorem beginCopy_kept (side : Nat) (copy : Nat) (j : AttJob) (s : State) : (beginCopy side copy j s).kept = s.kept := by
  simp [beginCopy]

@[simp] theorem atticNext_kept (side : Nat) (s : State) : (atticNext side s).kept = s.kept := by
  unfold atticNext
  repeat' (first | with_reducible rfl | split | simp)

@[simp] theorem atticWrite_kept (type : Nat) (inst : Nat) (body : List Nat) (cont : AttCont) (s : State) : (atticWrite type inst
    body cont s).kept = s.kept := by
  simp [atticWrite]

@[simp] theorem repairCopies_kept (copies : List Nat) (s : State) : (repairCopies copies s).kept = s.kept := by
  simp [repairCopies]

@[simp] theorem attVerified_snd_kept (side : Nat) (c : AttWr) (s : State) : (attVerified side c s).2.kept = s.kept := by
  unfold attVerified
  repeat' (first | with_reducible rfl
                 | (simp only [State_setAtt_kept, State_setBit_kept, atticNext_kept, setAttCur_kept, kept_mk, kept_eta]; done)
                 | split | (with_reducible refine (when_kept _ _ _ ?_).trans ?_) | intro _ | simp)

theorem attVerified_kept {side : Nat} {c : AttWr} {s : State} {x : Option AttCont} {t : State} (hEq : attVerified side c s = (x,
    t)) : t.kept = s.kept := by
  have e := attVerified_snd_kept side c s
  rw [hEq] at e
  exact e

@[simp] theorem attFails_kept (side : Nat) (c : AttWr) (s : State) : (attFails side c s).kept = s.kept := by
  unfold attFails
  repeat' (first | with_reducible rfl | split | simp)

@[simp] theorem writeVolume_kept (cont : AttCont) (s : State) : (writeVolume cont s).kept = s.kept := by
  simp [writeVolume]

/-! ### CelBase -/

@[simp] theorem syncCelLog_kept (s : State) : (syncCelLog s).kept = s.kept := by
  simp [syncCelLog]

/-! ### HealthBase -/

@[simp] theorem appendJournal_kept (type : Nat) (arg : Nat) (val : Nat) (s : State) : (appendJournal type arg val s).kept =
    s.kept := by
  simp [appendJournal]

@[simp] theorem appendLedger_kept (type : Nat) (n : Nat) (body : List Nat) (s : State) : (appendLedger type n body s).kept =
    s.kept := by
  simp [appendLedger]

@[simp] theorem appendDeltas_kept : ∀ (l : List (Nat × Nat)) (s : State), (appendDeltas l s).kept = s.kept
  | [], _ => rfl
  | [a], s => by simp only [appendDeltas, appendLedger_kept, State_addSat_kept]
  | a :: b :: l, s => by simp only [appendDeltas, appendDeltas_kept l, appendLedger_kept, State_addSat_kept]

@[simp] theorem syncHealth_kept (s : State) : (syncHealth s).kept = s.kept := by
  unfold syncHealth
  repeat' (first | with_reducible rfl | (simp only [State_putB_kept, State_puts_kept, kept_mk, kept_eta]; done) | split
                 | (with_reducible refine (foldl_kept _ _ ?_ _).trans ?_)
                 | (with_reducible refine (foldl_snd_kept _ _ ?_ _).trans ?_)
                 | (with_reducible refine (forUpTo_kept _ _ _ ?_).trans ?_) | intro _ | simp)

@[simp] theorem addDefect_kept (d : Defect) (s : State) : (addDefect d s).kept = s.kept := by
  simp [addDefect]

@[simp] theorem defectsLive_kept (layer : Nat) (n : Nat) (s : State) : (defectsLive layer n s).kept = s.kept := by
  simp [defectsLive]

@[simp] theorem retireBlock_kept (p : Nat) (cause : Nat) (repl : Option Nat) (s : State) : (retireBlock p cause repl s).kept =
    s.kept := by
  simp [retireBlock]

@[simp] theorem askDeltas_kept (l : List (Nat × Nat)) (s : State) : (askDeltas l s).kept = s.kept := by
  unfold askDeltas
  repeat' (first | with_reducible rfl
                 | (simp only [State_setHlt_kept, appendDeltas_kept, appendLedger_kept, kept_mk, kept_eta]; done) | split
                 | (with_reducible refine (when_kept _ _ _ ?_).trans ?_) | intro _ | simp)

@[simp] theorem writeLedger_kept (layer : Nat) (s : State) : (writeLedger layer s).kept = s.kept := by
  simp [writeLedger]

@[simp] theorem ledgerDurable_kept (s : State) : (ledgerDurable s).kept = s.kept := by
  unfold ledgerDurable
  repeat' (first | with_reducible rfl | split | simp)

@[simp] theorem regionWorn_kept (k : Nat) (s : State) : (regionWorn k s).kept = s.kept := by
  simp [regionWorn]

@[simp] theorem retireRegion_kept (p : Nat) (s : State) : (retireRegion p s).kept = s.kept := by
  unfold retireRegion
  repeat' (first | with_reducible rfl
                 | (simp only [State_addSat_kept, State_setHlt_kept, addDefect_kept, queueRebuild_kept, writeLedger_kept, kept_mk, kept_eta]; done)
                 | split | (with_reducible refine (foldl_kept _ _ ?_ _).trans ?_)
                 | (with_reducible refine (foldl_snd_kept _ _ ?_ _).trans ?_) | intro _ | simp)

@[simp] theorem wearOne_kept (p : Nat) (s : State) : (wearOne p s).kept = s.kept := by
  unfold wearOne
  repeat' (first | with_reducible rfl
                 | (simp only [State_setHlt_kept, regionWorn_kept, retireRegion_kept, kept_mk, kept_eta]; done) | split
                 | (with_reducible refine (when_kept _ _ _ ?_).trans ?_) | intro _ | simp)

/-! ### Pickup -/

@[simp] theorem ageOn_kept (s : State) : (ageOn s).kept = s.kept := by
  unfold ageOn
  repeat' (first | with_reducible rfl | (simp only [State_put_kept, kept_mk, kept_eta]; done) | split
                 | (with_reducible refine (when_kept _ _ _ ?_).trans ?_) | intro _ | simp)

@[simp] theorem tempReading_kept (h : Nat) (data : Nat) (s : State) : (tempReading h data s).kept = s.kept := by
  unfold tempReading
  repeat' (first | with_reducible rfl
                 | (simp only [State_inc_kept, State_putB_kept, State_put_kept, State_puts_kept, ageOn_kept, orderlyStop_kept, kept_mk, kept_eta]; done)
                 | split | (with_reducible refine (when_kept _ _ _ ?_).trans ?_) | intro _ | simp)

@[simp] theorem tempLost_kept (h : Nat) (s : State) : (tempLost h s).kept = s.kept := by
  unfold tempLost
  repeat' (first | with_reducible rfl | split | simp)

@[simp] theorem startEnum_kept (h : Nat) (restore : Bool) (s : State) : (startEnum h restore s).kept = s.kept := by
  simp [startEnum]

@[simp] theorem enumerateAll_kept (s : State) : (enumerateAll s).kept = s.kept := by
  unfold enumerateAll
  repeat' (first | with_reducible rfl | (simp only [startEnum_kept, kept_mk, kept_eta]; done) | split
                 | (with_reducible refine (when_kept _ _ _ ?_).trans ?_)
                 | (with_reducible refine (forUpTo_kept _ _ _ ?_).trans ?_) | intro _ | simp)

@[simp] theorem endHeadAction_kept (result : Nat) (s : State) : (endHeadAction result s).kept = s.kept := by
  simp [endHeadAction]

@[simp] theorem computeLoads_kept (s : State) : (computeLoads s).kept = s.kept := by
  unfold computeLoads
  repeat' (first | with_reducible rfl | (simp only [State_put_kept, State_setBit_kept, kept_mk, kept_eta]; done) | split
                 | (with_reducible refine (forUpTo_kept _ _ _ ?_).trans ?_) | intro _ | simp)

@[simp] theorem afterEnum_kept (s : State) : (afterEnum s).kept = s.kept := by
  unfold afterEnum
  repeat' (first | with_reducible rfl | split | simp)

@[simp] theorem enumFails_kept (h : Nat) (code : Nat) (s : State) : (enumFails h code s).kept = s.kept := by
  unfold enumFails
  repeat' (first | with_reducible rfl
                 | (simp only [State_puts_kept, State_setOpu_kept, afterEnum_kept, endHeadAction_kept, logFlt_kept, setDomains_kept, syncLon_kept, tempLost_kept, kept_mk, kept_eta]; done)
                 | split | (with_reducible refine (when_kept _ _ _ ?_).trans ?_) | intro _ | simp)

@[simp] theorem enumPresent_kept (h : Nat) (s : State) : (enumPresent h s).kept = s.kept := by
  unfold enumPresent
  repeat' (first | with_reducible rfl | split | simp)

@[simp] theorem enumNext_kept (h : Nat) (data : Nat) (s : State) : (enumNext h data s).kept = s.kept := by
  unfold enumNext
  repeat' (first | with_reducible rfl | split | simp)

@[simp] theorem popXact_kept (h : Nat) (s : State) : (popXact h s).kept = s.kept := by
  simp [popXact]

@[simp] theorem sendLevels_kept (h : Nat) (l : List (Nat × Nat)) (s : State) : (sendLevels h l s).kept = s.kept := by
  unfold sendLevels
  repeat' (first | with_reducible rfl | (simp only [State_setOpu_kept, queueXact_kept, kept_mk, kept_eta]; done) | split
                 | (with_reducible refine (foldl_kept _ _ ?_ _).trans ?_)
                 | (with_reducible refine (foldl_snd_kept _ _ ?_ _).trans ?_) | intro _ | simp)

@[simp] theorem laserOn_kept (h : Nat) (spots : Nat) (s : State) : (laserOn h spots s).kept = s.kept := by
  unfold laserOn
  repeat' (first | with_reducible rfl | split | simp)

@[simp] theorem rewriteLevels_kept (h : Nat) (on : Nat) (s : State) : (rewriteLevels h on s).kept = s.kept := by
  unfold rewriteLevels
  repeat' (first | with_reducible rfl | (simp only [laserOn_kept, queueXact_kept, kept_mk, kept_eta]; done) | split
                 | (with_reducible refine (forUpTo_kept _ _ _ ?_).trans ?_) | intro _ | simp)

@[simp] theorem releaseLevels_kept (h : Nat) (s : State) : (releaseLevels h s).kept = s.kept := by
  unfold releaseLevels
  repeat' (first | with_reducible rfl
                 | (simp only [State_setOpu_kept, queueXact_kept, rewriteLevels_kept, kept_mk, kept_eta]; done) | split
                 | (with_reducible refine (foldl_kept _ _ ?_ _).trans ?_)
                 | (with_reducible refine (foldl_snd_kept _ _ ?_ _).trans ?_) | intro _ | simp)

@[simp] theorem pickupReset_kept (h : Nat) (s : State) : (pickupReset h s).kept = s.kept := by
  simp [pickupReset]

@[simp] theorem overtemp_kept (h : Nat) (b : Bool) (s : State) : (overtemp h b s).kept = s.kept := by
  unfold overtemp
  repeat' (first | with_reducible rfl
                 | (simp only [State_setOpu_kept, cutWrites_kept, raiseInhibit_kept, kept_mk, kept_eta]; done) | split
                 | (with_reducible refine (when_kept _ _ _ ?_).trans ?_) | intro _ | simp)

@[simp] theorem takeStatus_fst_kept (h status : Nat) (s : State) : (takeStatus h status s).1.kept = s.kept := by
  unfold takeStatus
  dsimp only
  repeat' (first | with_reducible rfl | split | (simp; done) | (simp; refine (when_kept _ _ _ (by simp)).trans ?_; simp))

@[simp] theorem linkFails_kept (h : Nat) (x : Xact) (s : State) : (linkFails h x s).kept = s.kept := by
  unfold linkFails
  repeat' (first | with_reducible rfl
                 | (simp only [State_put_kept, State_puts_kept, State_setOpu_kept, enumFails_kept, headFault_kept, logFlt_kept, syncLon_kept, tempLost_kept, kept_mk, kept_eta]; done)
                 | split | (with_reducible refine (when_kept _ _ _ ?_).trans ?_) | intro _ | simp)

@[simp] theorem linkError_kept (h : Nat) (s : State) : (linkError h s).kept = s.kept := by
  unfold linkError
  repeat' (first | with_reducible rfl | split | simp)

@[simp] theorem laserEnds_kept (h : Nat) (x : Xact) (data : Nat) (s : State) : (laserEnds h x data s).kept = s.kept := by
  unfold laserEnds
  repeat' (first | with_reducible rfl
                 | (simp only [State_put_kept, State_setOpu_kept, leaveRest_kept, kept_mk, kept_eta]; done) | split
                 | (with_reducible refine (when_kept _ _ _ ?_).trans ?_) | intro _ | simp)

@[simp] theorem actOnResponse_kept (h : Nat) (x : Xact) (status : Nat) (data : Nat) (s : State) : (actOnResponse h x status data
    s).kept = s.kept := by
  unfold actOnResponse
  repeat' (first | with_reducible rfl
                 | (simp only [State_puts_kept, State_setOpu_kept, laserEnds_kept, tempReading_kept, kept_mk, kept_eta]; done)
                 | split | (with_reducible refine (when_kept _ _ _ ?_).trans ?_) | intro _ | simp)

theorem execPickupResponse_keeps (h : Head) (resp : Word) (s : State) : Keeps s (execPickupResponse h resp s) := by
  unfold execPickupResponse
  repeat' (first | refine doIf_keeps ?_ ?_ | with_reducible rfl
                 | (simp only [State_put_kept, actOnResponse_kept, enumNext_kept, linkError_kept, popXact_kept, kept_mk, kept_eta]; done)
                 | split | (with_reducible refine (when_kept _ _ _ ?_).trans ?_) | intro _ | simp)

theorem execPickupResponseTimeout_keeps (h : Head) (s : State) : Keeps s (execPickupResponseTimeout h s) := by
  unfold execPickupResponseTimeout
  repeat' (first | refine doIf_keeps ?_ ?_ | with_reducible rfl | split | simp)

theorem execPickupLinkError_keeps (h : Head) (s : State) : Keeps s (execPickupLinkError h s) := by
  unfold execPickupLinkError
  repeat' (first | refine doIf_keeps ?_ ?_ | with_reducible rfl | split | simp)

theorem execEnumNopRetry_keeps (h : Head) (s : State) : Keeps s (execEnumNopRetry h s) := by
  unfold execEnumNopRetry; refine doIf_keeps ?_ ?_ <;> simp

theorem execEnumWaitExpired_keeps (h : Head) (s : State) : Keeps s (execEnumWaitExpired h s) := by
  unfold execEnumWaitExpired; refine doIf_keeps ?_ ?_ <;> simp

theorem execStatusPoll_keeps (h : Head) (s : State) : Keeps s (execStatusPoll h s) := by
  unfold execStatusPoll; refine doIf_keeps ?_ ?_ <;> simp

theorem execPickupTempRead_keeps (h : Head) (s : State) : Keeps s (execPickupTempRead h s) := by
  unfold execPickupTempRead; refine doIf_keeps ?_ ?_ <;> simp

@[simp] theorem linkCmd_kept (h : Nat) (v : Nat) (s : State) : (linkCmd h v s).kept = s.kept := by
  unfold linkCmd
  repeat' (first | with_reducible rfl | split | simp)

theorem execOpuLinkcmd_keeps (p : Port) (h : Head) (v : Word) (s : State) : Keeps s (execOpuLinkcmd p h v s) := by
  unfold execOpuLinkcmd; refine vendorWrite_keeps ?_ ?_ <;> simp

@[simp] theorem startLeave_kept (h : Nat) (s : State) : (startLeave h s).kept = s.kept := by
  simp [startLeave]

@[simp] theorem loffWrite_kept (h : Nat) (v : Nat) (s : State) : (loffWrite h v s).kept = s.kept := by
  unfold loffWrite
  repeat' (first | with_reducible rfl
                 | (simp only [State_put_kept, State_setOpu_kept, raiseInhibit_kept, reform_kept, startLeave_kept, syncLon_kept, kept_mk, kept_eta]; done)
                 | split | (with_reducible refine (when_kept _ _ _ ?_).trans ?_) | intro _ | simp)

theorem execLoffWrite_keeps (p : Port) (h : Head) (v : Word) (s : State) : Keeps s (execLoffWrite p h v s) := by
  unfold execLoffWrite; refine vendorWrite_keeps ?_ ?_ <;> simp

theorem execLpmonFault_keeps (h : Head) (s : State) : Keeps s (execLpmonFault h s) := by
  unfold execLpmonFault; refine doIf_keeps ?_ ?_ <;> simp

@[simp] theorem staggerNext_kept (s : State) : (staggerNext s).kept = s.kept := by
  unfold staggerNext
  repeat' (first | with_reducible rfl | split | simp)

theorem execLaserStaggerNext_keeps (s : State) : Keeps s (execLaserStaggerNext s) := by
  unfold execLaserStaggerNext; refine doIf_keeps ?_ ?_ <;> simp

theorem execLsrEnFall_keeps (s : State) : Keeps s (execLsrEnFall s) := by
  unfold execLsrEnFall
  repeat' (first | refine doIf_keeps ?_ ?_ | with_reducible rfl
                 | (simp only [State_inc_kept, State_put_kept, laserOff_kept, pairsIdle_kept, raiseInhibit_kept, safeStop_kept, syncLonAll_kept, kept_mk, kept_eta]; done)
                 | split | (with_reducible refine (when_kept _ _ _ ?_).trans ?_)
                 | (with_reducible refine (forUpTo_kept _ _ _ ?_).trans ?_) | intro _ | simp)

theorem execLsrEnRise_keeps (s : State) : Keeps s (execLsrEnRise s) := by
  unfold execLsrEnRise
  repeat' (first | refine doIf_keeps ?_ ?_ | with_reducible rfl | split | simp)

/-! ### FocusBase -/

@[simp] theorem ownerSet_kept (l : Nat) (st : Nat) (s : State) : (ownerSet l st s).kept = s.kept := by
  unfold ownerSet
  repeat' (first | with_reducible rfl | split | simp)

@[simp] theorem setOverride_kept (l : Nat) (code : Int) (s : State) : (setOverride l code s).kept = s.kept := by
  simp [setOverride]

@[simp] theorem setOvr_kept (l : Nat) (kind : Nat) (s : State) : (setOvr l kind s).kept = s.kept := by
  simp [setOvr]

@[simp] theorem setPart_kept (h : Nat) (ph : Nat) (s : State) : (setPart h ph s).kept = s.kept := by
  unfold setPart
  repeat' (first | with_reducible rfl | (simp only [State_setTr_kept, ownerSet_kept, setPhase_kept, kept_mk, kept_eta]; done)
                 | split | (with_reducible refine (forUpTo_kept _ _ _ ?_).trans ?_) | intro _ | simp)

@[simp] theorem setPresets_kept (z : Nat → Nat) (s : State) : (setPresets z s).kept = s.kept := by
  unfold setPresets
  repeat' (first | with_reducible rfl
                 | (simp only [State_drawn_kept, State_putI_kept, State_put_kept, kept_mk, kept_eta]; done) | split
                 | (with_reducible refine (forUpTo_kept _ _ _ ?_).trans ?_) | intro _ | simp)

@[simp] theorem tiltToPreset_kept (h : Nat) (l : Nat) (b : Nat) (s : State) : (tiltToPreset h l b s).kept = s.kept := by
  simp [tiltToPreset]

@[simp] theorem saToPreset_kept (h : Nat) (l : Nat) (s : State) : (saToPreset h l s).kept = s.kept := by
  simp [saToPreset]

@[simp] theorem startFocus_kept (h : Nat) (s : State) : (startFocus h s).kept = s.kept := by
  simp [startFocus]

@[simp] theorem beginSweep_kept (h : Nat) (s : State) : (beginSweep h s).kept = s.kept := by
  simp [beginSweep]

@[simp] theorem toCapture_kept (h : Nat) (s : State) : (toCapture h s).kept = s.kept := by
  simp [toCapture]

@[simp] theorem focusRecovery_kept (h : Nat) (s : State) : (focusRecovery h s).kept = s.kept := by
  simp [focusRecovery]

@[simp] theorem lose_kept (h : Nat) (kind : Nat) (s : State) : (lose h kind s).kept = s.kept := by
  unfold lose
  repeat' (first | with_reducible rfl | split | simp)

@[simp] theorem loadRefs_kept (h : Nat) (s : State) : (loadRefs h s).kept = s.kept := by
  unfold loadRefs
  repeat' (first | with_reducible rfl | (simp only [State_put_kept, kept_mk, kept_eta]; done) | split
                 | (with_reducible refine (forUpTo_kept _ _ _ ?_).trans ?_) | intro _ | simp)

@[simp] theorem reachTrack_kept (h : Nat) (s : State) : (reachTrack h s).kept = s.kept := by
  simp [reachTrack]

@[simp] theorem endCapture_kept (h : Nat) (s : State) : (endCapture h s).kept = s.kept := by
  unfold endCapture
  repeat' (first | with_reducible rfl | (simp only [reachTrack_kept, kept_mk, kept_eta]; done) | split
                 | (with_reducible refine (when_kept _ _ _ ?_).trans ?_) | intro _ | simp)

@[simp] theorem checkConf_kept (h : Nat) (s : State) : (checkConf h s).kept = s.kept := by
  unfold checkConf
  repeat' (first | with_reducible rfl | split | simp)

@[simp] theorem enterHold_kept (l : Nat) (s : State) : (enterHold l s).kept = s.kept := by
  simp [enterHold]

@[simp] theorem leaveHold_kept (l : Nat) (s : State) : (leaveHold l s).kept = s.kept := by
  simp [leaveHold]

@[simp] theorem holdAtPreset_kept (h : Nat) (k : Nat) (s : State) : (holdAtPreset h k s).kept = s.kept := by
  unfold holdAtPreset
  repeat' (first | with_reducible rfl | split | simp)

@[simp] theorem enterFail_kept (l : Nat) (s : State) : (enterFail l s).kept = s.kept := by
  unfold enterFail
  repeat' (first | with_reducible rfl | split | simp)

/-! ### Lifecycle -/

@[simp] theorem endMount_kept (st : Nat × Nat × Bool) (s : State) : (endMount st s).kept = s.kept := by
  unfold endMount
  repeat' (first | with_reducible rfl
                 | (simp only [State_drawn_kept, asyncEvent_kept, completeCmd_kept, kept_mk, kept_eta]; done) | split
                 | (with_reducible refine (forUpTo_kept _ _ _ ?_).trans ?_) | intro _ | simp)

@[simp] theorem dropUncommitted_kept (s : State) : (dropUncommitted s).kept = s.kept := by
  simp [dropUncommitted]

@[simp] theorem stopCommands_kept (s : State) : (stopCommands s).kept = s.kept := by
  simp [stopCommands]

@[simp] theorem endTrans_kept (s : State) : (endTrans s).kept = s.kept := by
  unfold endTrans
  repeat' (first | with_reducible rfl | (simp only [State_puts_kept, State_setOpu_kept, kept_mk, kept_eta]; done) | split
                 | (with_reducible refine (forUpTo_kept _ _ _ ?_).trans ?_) | intro _ | simp)

@[simp] theorem endMedium_kept (s : State) : (endMedium s).kept = s.kept := by
  unfold endMedium
  repeat' (first | with_reducible rfl | (simp only [dropCal_kept, pairsIdle_kept, withdraw_kept, kept_mk, kept_eta]; done)
                 | split | (with_reducible refine (foldl_kept _ _ ?_ _).trans ?_)
                 | (with_reducible refine (foldl_snd_kept _ _ ?_ _).trans ?_)
                 | (with_reducible refine (forUpTo_kept _ _ _ ?_).trans ?_) | intro _ | simp)

@[simp] theorem retractHeads_kept (s : State) : (retractHeads s).kept = s.kept := by
  unfold retractHeads
  repeat' (first | with_reducible rfl
                 | (simp only [headLanesOff_kept, headLoopsNext_kept, laserOff_kept, setPhase_kept, kept_mk, kept_eta]; done)
                 | split | (with_reducible refine (forUpTo_kept _ _ _ ?_).trans ?_) | intro _ | simp)

@[simp] theorem recordStop_kept (t : Trigger) (s : State) : (recordStop t s).kept = s.kept := by
  simp [recordStop]

@[simp] theorem takeSafeStop_kept (t : Trigger) (s : State) : (takeSafeStop t s).kept = s.kept := by
  unfold takeSafeStop
  repeat' (first | with_reducible rfl
                 | (simp only [State_put_kept, endMedium_kept, endTrans_kept, headLanesOff_kept, recordStop_kept, setPhase_kept, stopCommands_kept, transition_kept, kept_mk, kept_eta]; done)
                 | split | (with_reducible refine (when_kept _ _ _ ?_).trans ?_)
                 | (with_reducible refine (forUpTo_kept _ _ _ ?_).trans ?_) | intro _ | simp)

@[simp] theorem orderlyPark_kept (s : State) : (orderlyPark s).kept = s.kept := by
  unfold orderlyPark
  repeat' (first | with_reducible rfl
                 | (simp only [endMedium_kept, parkAll_kept, retractHeads_kept, stopCommands_kept, stopSeek_kept, kept_mk, kept_eta]; done)
                 | split | (with_reducible refine (forUpTo_kept _ _ _ ?_).trans ?_) | intro _ | simp)

@[simp] theorem takeOrderlyStop_kept (t : Trigger) (s : State) : (takeOrderlyStop t s).kept = s.kept := by
  unfold takeOrderlyStop
  repeat' (first | with_reducible rfl | split | simp)

@[simp] theorem mountFails_kept (cause : Nat) (s : State) : (mountFails cause s).kept = s.kept := by
  simp [mountFails]

@[simp] theorem takeMount_kept (t : Trigger) (s : State) : (takeMount t s).kept = s.kept := by
  unfold takeMount
  repeat' (first | with_reducible rfl
                 | (simp only [State_put_kept, State_puts_kept, followTarget_kept, formEffective_kept, headLanesOn_kept, mountFails_kept, setPresets_kept, transition_kept, kept_mk, kept_eta]; done)
                 | split | (with_reducible refine (when_kept _ _ _ ?_).trans ?_)
                 | (with_reducible refine (forUpTo_kept _ _ _ ?_).trans ?_) | intro _ | simp)

@[simp] theorem takeUnmount_kept (t : Trigger) (s : State) : (takeUnmount t s).kept = s.kept := by
  unfold takeUnmount
  repeat' (first | with_reducible rfl
                 | (simp only [State_put_kept, State_puts_kept, dropCal_kept, endMedium_kept, endMount_kept, endTrans_kept, parkAll_kept, retractHeads_kept, transition_kept, withdraw_kept, kept_mk, kept_eta]; done)
                 | split | (with_reducible refine (when_kept _ _ _ ?_).trans ?_)
                 | (with_reducible refine (forUpTo_kept _ _ _ ?_).trans ?_) | intro _ | simp)

@[simp] theorem takeTrigger_kept (t : Trigger) (s : State) : (takeTrigger t s).kept = s.kept := by
  unfold takeTrigger
  repeat' (first | with_reducible rfl | split | simp)

@[simp] theorem completeUnmounts_kept (s : State) : (completeUnmounts s).kept = s.kept := by
  unfold completeUnmounts
  repeat' (first | with_reducible rfl | (simp only [completeCmd_kept, kept_mk, kept_eta]; done) | split
                 | (with_reducible refine (foldl_kept _ _ ?_ _).trans ?_)
                 | (with_reducible refine (foldl_snd_kept _ _ ?_ _).trans ?_) | intro _ | simp)

@[simp] theorem clearKeys_kept (s : State) : (clearKeys s).kept = s.kept := by
  simp [clearKeys]

@[simp] theorem parkDone_kept (s : State) : (parkDone s).kept = s.kept := by
  unfold parkDone
  repeat' (first | with_reducible rfl | split | simp)

theorem execParkComplete_keeps (s : State) : Keeps s (execParkComplete s) := by
  unfold execParkComplete; refine doIf_keeps ?_ ?_ <;> simp

@[simp] theorem resume_kept (s : State) : (resume s).kept = s.kept := by
  unfold resume
  repeat' (first | with_reducible rfl
                 | (simp only [State_put_kept, enumerateAll_kept, syncLonAll_kept, transition_kept, kept_mk, kept_eta]; done)
                 | split | (with_reducible refine (when_kept _ _ _ ?_).trans ?_) | intro _ | simp)

@[simp] theorem sysCtrl_kept (v : Nat) (s : State) : (sysCtrl v s).kept = s.kept := by
  unfold sysCtrl
  repeat' (first | with_reducible rfl | split | simp)

theorem execSafestop_keeps (p : Port) (v : Word) (s : State) : Keeps s (execSafestop p v s) := by
  unfold execSafestop; refine vendorWrite_keeps ?_ ?_ <;> simp

theorem execResume_keeps (p : Port) (v : Word) (s : State) : Keeps s (execResume p v s) := by
  unfold execResume; refine vendorWrite_keeps ?_ ?_ <;> simp

theorem execCartSeatedAsserted_keeps (s : State) : Keeps s (execCartSeatedAsserted s) := by
  unfold execCartSeatedAsserted; refine next_keeps ?_ <;> simp

theorem execCartSeatedDeasserted_keeps (s : State) : Keeps s (execCartSeatedDeasserted s) := by
  unfold execCartSeatedDeasserted; refine doIf_keeps ?_ ?_ <;> simp

/-! ### StripeBase -/

@[simp] theorem notice_kept (p : Nat) (bit : Nat) (info : Nat) (page : Nat) (s : State) : (notice p bit info page s).kept =
    s.kept := by
  unfold notice
  repeat' (first | with_reducible rfl | (simp only [asyncEvent_kept, kept_mk, kept_eta]; done) | split
                 | (with_reducible refine (when_kept _ _ _ ?_).trans ?_) | intro _ | simp)

@[simp] theorem zoneChanged_kept (nsid : Nat) (idx : Nat) (s : State) : (zoneChanged nsid idx s).kept = s.kept := by
  unfold zoneChanged
  repeat' (first | with_reducible rfl | (simp only [notice_kept, kept_mk, kept_eta]; done) | split
                 | (with_reducible refine (forUpTo_kept _ _ _ ?_).trans ?_) | intro _ | simp)

@[simp] theorem setMap_kept (nsid : Nat) (unit : Nat) (state : Nat) (stripe : Nat) (member : Nat) (s : State) : (setMap nsid unit
    state stripe member s).kept = s.kept := by
  simp [setMap]

@[simp] theorem syncMapPhase_kept (s : State) : (syncMapPhase s).kept = s.kept := by
  unfold syncMapPhase
  repeat' (first | with_reducible rfl | (simp only [State_puts_kept, kept_mk, kept_eta]; done) | split
                 | (with_reducible refine (when_kept _ _ _ ?_).trans ?_) | intro _ | simp)

@[simp] theorem dropAhead_kept (stripe : Nat) (s : State) : (dropAhead stripe s).kept = s.kept := by
  simp [dropAhead]

@[simp] theorem gatherOne_kept (n : Ns) (seq : Nat) (lba : Nat) (v : Nat) (s : State) : (gatherOne n seq lba v s).kept = s.kept
    := by
  simp [gatherOne]

@[simp] theorem gatherBlocks_kept (n : Ns) (seq : Nat) (slba : Nat) (data : List Nat) (s : State) : (gatherBlocks n seq slba data
    s).kept = s.kept := by
  unfold gatherBlocks
  repeat' (first | with_reducible rfl | (simp only [gatherOne_kept, kept_mk, kept_eta]; done) | split
                 | (with_reducible refine (foldl_kept _ _ ?_ _).trans ?_)
                 | (with_reducible refine (foldl_snd_kept _ _ ?_ _).trans ?_) | intro _ | simp)

@[simp] theorem askShort_kept (nsid : Nat) (s : State) : (askShort nsid s).kept = s.kept := by
  unfold askShort
  repeat' (first | with_reducible rfl | (simp only [State_setStr_kept, kept_mk, kept_eta]; done) | split
                 | (with_reducible refine (when_kept _ _ _ ?_).trans ?_) | intro _ | simp)

@[simp] theorem finishZones_kept (c : HCmd) (s : State) : (finishZones c s).kept = s.kept := by
  unfold finishZones
  repeat' (first | with_reducible rfl | split | simp)

@[simp] theorem completeReady_kept (s : State) : (completeReady s).kept = s.kept := by
  unfold completeReady
  repeat' (first | with_reducible rfl | (simp only [completeCmd_kept, finishZones_kept, kept_mk, kept_eta]; done) | split
                 | (with_reducible refine (foldl_kept _ _ ?_ _).trans ?_)
                 | (with_reducible refine (foldl_snd_kept _ _ ?_ _).trans ?_)
                 | (with_reducible refine (when_kept _ _ _ ?_).trans ?_)
                 | (with_reducible refine (forUpTo_kept _ _ _ ?_).trans ?_) | intro _ | simp)

@[simp] theorem syncOpen_kept (s : State) : (syncOpen s).kept = s.kept := by
  simp [syncOpen]

@[simp] theorem syncDirty_kept (s : State) : (syncDirty s).kept = s.kept := by
  simp [syncDirty]

@[simp] theorem takeWseq_kept (s : State) : (takeWseq s).kept = s.kept := by
  unfold takeWseq
  repeat' (first | with_reducible rfl | split | simp)

@[simp] theorem setVzone_kept (v : VZone) (s : State) : (setVzone v s).kept = s.kept := by
  simp [setVzone]

@[simp] theorem touchNs_kept (nsid : Nat) (s : State) : (touchNs nsid s).kept = s.kept := by
  simp [touchNs]

@[simp] theorem noteCommit_kept (stripe : Nat) (s : State) : (noteCommit stripe s).kept = s.kept := by
  simp [noteCommit]

@[simp] theorem setCkpt_kept (k : Ckpt → Ckpt) (s : State) : (setCkpt k s).kept = s.kept := by
  simp [setCkpt]

@[simp] theorem endCkpt_kept (c : Ckpt) (s : State) : (endCkpt c s).kept = s.kept := by
  unfold endCkpt
  repeat' (first | with_reducible rfl
                 | (simp only [State_setStr_kept, appendJournal_kept, completeReady_kept, kept_mk, kept_eta]; done) | split
                 | (with_reducible refine (foldl_kept _ _ ?_ _).trans ?_)
                 | (with_reducible refine (foldl_snd_kept _ _ ?_ _).trans ?_) | intro _ | simp)

@[simp] theorem ckptRecords_kept (s : State) : (ckptRecords s).kept = s.kept := by
  unfold ckptRecords
  repeat' (first | with_reducible rfl
                 | (simp only [State_inc_kept, atticWrite_kept, endCkpt_kept, setCkpt_kept, kept_mk, kept_eta]; done) | split
                 | (with_reducible refine (foldl_kept _ _ ?_ _).trans ?_)
                 | (with_reducible refine (foldl_snd_kept _ _ ?_ _).trans ?_) | intro _ | simp)

@[simp] theorem ckptDone_kept (n : Nat) (s : State) : (ckptDone n s).kept = s.kept := by
  unfold ckptDone
  repeat' (first | with_reducible rfl | split | simp)

@[simp] theorem checkpoint_kept (s : State) : (checkpoint s).kept = s.kept := by
  unfold checkpoint
  repeat' (first | with_reducible rfl | split | simp)

end Sys2Proof.Machine
end

