-- ==== Sys2Proof/Laws/KeepStripes.lean ====
section
/-! SUPPORT. What each operation leaves alone, writing, stripes, the Canvas and the ports: one lemma per function that answers a state (it keeps buffer memory and
the queue), one per row (it answers a next state that keeps both). -/

set_option linter.unusedSimpArgs false

namespace Sys2Proof.Machine
open R

/-! ### Members -/

@[simp] theorem setStripe_kept (num : Nat) (k : Stripe → Stripe) (s : State) : (setStripe num k s).kept = s.kept := by
  simp [setStripe]

@[simp] theorem setMem_kept (num : Nat) (idx : Nat) (k : StMem → StMem) (s : State) : (setMem num idx k s).kept = s.kept := by
  simp [setMem]

@[simp] theorem wantMembers_snd_kept (stripe : Nat) (l : List (Nat × List Nat)) (whole : Bool) (s : State) : (wantMembers stripe
    l whole s).2.kept = s.kept := by
  unfold wantMembers
  repeat' (first | with_reducible rfl | split | simp)

theorem wantMembers_kept {stripe : Nat} {l : List (Nat × List Nat)} {whole : Bool} {s : State} {x : List (Nat × List Nat)} {t :
    State} (hEq : wantMembers stripe l whole s = (x, t)) : t.kept = s.kept := by
  have e := wantMembers_snd_kept stripe l whole s
  rw [hEq] at e
  exact e

@[simp] theorem askPart_kept (act : Nat) (stripe : Nat) (l : List (Nat × List Nat)) (s : State) : (askPart act stripe l s).kept =
    s.kept := by
  unfold askPart
  repeat' (first | with_reducible rfl | (simp only [queueRead_kept, wantMembers_snd_kept, kept_mk, kept_eta]; done) | split
                 | (with_reducible refine (foldl_kept _ _ ?_ _).trans ?_)
                 | (with_reducible refine (foldl_snd_kept _ _ ?_ _).trans ?_) | intro _ | simp)

@[simp] theorem askMembers_kept (act : Nat) (ms : State → Nat → List Nat) (l : List Nat) (s : State) : (askMembers act ms l
    s).kept = s.kept := by
  unfold askMembers
  repeat' (first | with_reducible rfl | (simp only [queueRead_kept, wantMembers_snd_kept, kept_mk, kept_eta]; done) | split
                 | (with_reducible refine (foldl_kept _ _ ?_ _).trans ?_)
                 | (with_reducible refine (foldl_snd_kept _ _ ?_ _).trans ?_)
                 | (with_reducible refine (forUpTo_kept _ _ _ ?_).trans ?_) | intro _ | simp)

@[simp] theorem askWhole_kept (act : Nat) (l : List Nat) (s : State) : (askWhole act l s).kept = s.kept := by
  simp [askWhole]

@[simp] theorem askSome_kept (act : Nat) (stripe : Nat) (l : List (Nat × List Nat)) (s : State) : (askSome act stripe l s).kept =
    s.kept := by
  unfold askSome
  repeat' (first | with_reducible rfl | split | simp)

@[simp] theorem beginRead_kept (h : Nat) (r : RdReq) (s : State) : (beginRead h r s).kept = s.kept := by
  unfold beginRead
  repeat' (first | with_reducible rfl | split | simp)

@[simp] theorem readDone_kept (h : Nat) (act : Nat) (m : Nat × Nat) (s : State) : (readDone h act m s).kept = s.kept := by
  simp [readDone]

/-! ### Recon -/

@[simp] theorem updCmd_kept (seq : Nat) (k : HCmd → HCmd) (s : State) : (updCmd seq k s).kept = s.kept := by
  simp [updCmd]

@[simp] theorem finishIo_kept (c : HCmd) (st : Nat × Nat × Bool) (s : State) : (finishIo c st s).kept = s.kept := by
  simp [finishIo]

/-! ### Resync -/

@[simp] theorem askScan_kept (s : State) : (askScan s).kept = s.kept := by
  unfold askScan
  repeat' (first | with_reducible rfl | split | simp)

@[simp] theorem endScan_kept (z : Nat) (s : State) : (endScan z s).kept = s.kept := by
  simp [endScan]

@[simp] theorem nextScan_kept (z : Nat) (s : State) : (nextScan z s).kept = s.kept := by
  unfold nextScan
  repeat' (first | with_reducible rfl | split | simp)

@[simp] theorem queueFailed_kept (stripe : Nat) (got : List AsmMem) (l : List Nat) (s : State) : (queueFailed stripe got l
    s).kept = s.kept := by
  unfold queueFailed
  repeat' (first | with_reducible rfl | (simp only [queueRebuild_kept, kept_mk, kept_eta]; done) | split
                 | (with_reducible refine (foldl_kept _ _ ?_ _).trans ?_)
                 | (with_reducible refine (foldl_snd_kept _ _ ?_ _).trans ?_)
                 | (with_reducible refine (when_kept _ _ _ ?_).trans ?_) | intro _ | simp)

@[simp] theorem noteDelta_kept (stripe : Nat) (ckw : Nat) (got : List AsmMem) (l : List Nat) (s : State) : (noteDelta stripe ckw
    got l s).kept = s.kept := by
  unfold noteDelta
  repeat' (first | with_reducible rfl | (simp only [kept_mk, kept_eta]; done) | split
                 | (with_reducible refine (foldl_kept _ _ ?_ _).trans ?_)
                 | (with_reducible refine (foldl_snd_kept _ _ ?_ _).trans ?_) | intro _ | simp)

@[simp] theorem advanceScan_kept (z : Nat) (at' : Nat) (top : Nat) (s : State) : (advanceScan z at' top s).kept = s.kept := by
  unfold advanceScan
  repeat' (first | with_reducible rfl | split | simp)

@[simp] theorem mendStripe_kept (stripe : Nat) (l : List Nat) (data : List (Nat × List Nat)) (s : State) : (mendStripe stripe l
    data s).kept = s.kept := by
  simp [mendStripe]

@[simp] theorem rollBack_kept (stripe : Nat) (part : Nat) (partly : Bool) (got : List AsmMem) (s : State) : (rollBack stripe part
    partly got s).kept = s.kept := by
  simp [rollBack]

/-! ### Assembly -/

@[simp] theorem endUnrec_kept (c : HCmd) (n : Ns) (l : Nat) (s : State) : (endUnrec c n l s).kept = s.kept := by
  simp [endUnrec]

@[simp] theorem noteRead_kept (nsid : Nat) (l : List Nat) (s : State) : (noteRead nsid l s).kept = s.kept := by
  unfold noteRead
  repeat' (first | with_reducible rfl | (simp only [State_setStr_kept, askWhole_kept, kept_mk, kept_eta]; done) | split
                 | (with_reducible refine (foldl_kept _ _ ?_ _).trans ?_)
                 | (with_reducible refine (foldl_snd_kept _ _ ?_ _).trans ?_)
                 | (with_reducible refine (when_kept _ _ _ ?_).trans ?_) | intro _ | simp)

@[simp] theorem State_hostLoads_snd_kept (s : State) (c : HCmd) (n : Ns) : (State.hostLoads s c n).2.kept = s.kept := by
  unfold State.hostLoads
  repeat' (first | with_reducible rfl | (simp only [memLoad_snd_kept, kept_mk, kept_eta]; done) | split
                 | (with_reducible refine (foldl_kept _ _ ?_ _).trans ?_)
                 | (with_reducible refine (foldl_snd_kept _ _ ?_ _).trans ?_) | intro _ | simp)

theorem State_hostLoads_kept {s : State} {c : HCmd} {n : Ns} {x : Bool} {t : State} (hEq : State.hostLoads s c n = (x, t)) :
    t.kept = s.kept := by
  have e := State_hostLoads_snd_kept s c n
  rw [hEq] at e
  exact e

@[simp] theorem finishRead_kept (c : HCmd) (n : Ns) (s : State) : (finishRead c n s).kept = s.kept := by
  unfold finishRead
  repeat' (first | with_reducible rfl | split | simp)

@[simp] theorem takeUnit_snd_kept (c : HCmd) (n : Ns) (unit : Nat) (ws : List (Option CwOut)) (s : State) : (takeUnit c n unit ws
    s).2.kept = s.kept := by
  simp [takeUnit]

theorem takeUnit_kept {c : HCmd} {n : Ns} {unit : Nat} {ws : List (Option CwOut)} {s : State} {x : HCmd} {t : State} (hEq :
    takeUnit c n unit ws s = (x, t)) : t.kept = s.kept := by
  have e := takeUnit_snd_kept c n unit ws s
  rw [hEq] at e
  exact e

@[simp] theorem serveReads_kept (stripe : Nat) (got : List AsmMem) (s : State) : (serveReads stripe got s).kept = s.kept := by
  unfold serveReads
  repeat' (first | with_reducible rfl
                 | (simp only [finishIo_kept, finishRead_kept, takeUnit_snd_kept, updCmd_kept, kept_mk, kept_eta]; done)
                 | split | (with_reducible refine (foldl_kept _ _ ?_ _).trans ?_)
                 | (with_reducible refine (foldl_snd_kept _ _ ?_ _).trans ?_) | intro _ | simp)

@[simp] theorem serveGather_kept (stripe : Nat) (got : List AsmMem) (s : State) : (serveGather stripe got s).kept = s.kept := by
  simp [serveGather]

@[simp] theorem serveHeld_kept (stripe : Nat) (got : List AsmMem) (s : State) : (serveHeld stripe got s).kept = s.kept := by
  simp [serveHeld]

@[simp] theorem serveRefresh_kept (stripe : Nat) (got : List AsmMem) (s : State) : (serveRefresh stripe got s).kept = s.kept := by
  unfold serveRefresh
  repeat' (first | with_reducible rfl | split | simp)

@[simp] theorem serveRebuild_kept (stripe : Nat) (got : List AsmMem) (s : State) : (serveRebuild stripe got s).kept = s.kept := by
  simp [serveRebuild]

@[simp] theorem servePages_kept (stripe : Nat) (got : List AsmMem) (s : State) : (servePages stripe got s).kept = s.kept := by
  simp [servePages]

@[simp] theorem dropReads_kept (stripe : Nat) (s : State) : (dropReads stripe s).kept = s.kept := by
  simp [dropReads]

@[simp] theorem putAsm_kept (a : Asm) (s : State) : (putAsm a s).kept = s.kept := by
  simp [putAsm]

@[simp] theorem widen_kept (a : Asm) (bad : List (Nat × List Nat)) (s : State) : (widen a bad s).kept = s.kept := by
  unfold widen
  repeat' (first | with_reducible rfl | (simp only [State_inc_kept, askPart_kept, putAsm_kept, kept_mk, kept_eta]; done)
                 | split | (with_reducible refine (when_kept _ _ _ ?_).trans ?_) | intro _ | simp)

@[simp] theorem fetchCw_snd_kept (tag : BlockRead) (word : BlockRead) (o : CwOut) (s : State) : (fetchCw tag word o s).2.kept =
    s.kept := by
  simp [fetchCw]

theorem fetchCw_kept {tag : BlockRead} {word : BlockRead} {o : CwOut} {s : State} {x : CwOut} {t : State} (hEq : fetchCw tag word
    o s = (x, t)) : t.kept = s.kept := by
  have e := fetchCw_snd_kept tag word o s
  rw [hEq] at e
  exact e

/-! ### Patrol -/

@[simp] theorem addChecks_kept (l : List Nat) (s : State) : (addChecks l s).kept = s.kept := by
  simp [addChecks]

@[simp] theorem lapTake_kept (s : State) : (lapTake s).kept = s.kept := by
  unfold lapTake
  repeat' (first | with_reducible rfl | split | simp)

@[simp] theorem patrolled_kept (l : List Nat) (s : State) : (patrolled l s).kept = s.kept := by
  simp [patrolled]

@[simp] theorem lapAnew_kept (s : State) : (lapAnew s).kept = s.kept := by
  simp [lapAnew]

/-! ### Focus -/

theorem execFocusAcquisition_keeps (h : Head) (s : State) : Keeps s (execFocusAcquisition h s) := by
  unfold execFocusAcquisition; refine doIf_keeps ?_ ?_ <;> simp

theorem execFocusSettled_keeps (h : Head) (s : State) : Keeps s (execFocusSettled h s) := by
  unfold execFocusSettled; refine doIf_keeps ?_ ?_ <;> simp

theorem execFocusAttemptFailed_keeps (h : Head) (s : State) : Keeps s (execFocusAttemptFailed h s) := by
  unfold execFocusAttemptFailed
  repeat' (first | refine doIf_keeps ?_ ?_ | with_reducible rfl | split | simp)

@[simp] theorem takeApp_kept (h : Nat) (app : Nat) (s : State) : (takeApp h app s).kept = s.kept := by
  unfold takeApp
  repeat' (first | with_reducible rfl | split | simp)

theorem execTrackCapture_keeps (h : Head) (land : Bool) (s : State) : Keeps s (execTrackCapture h land s) := by
  unfold execTrackCapture; refine doIf_keeps ?_ ?_ <;> simp

@[simp] theorem wantTrack_kept (h : Nat) (s : State) : (wantTrack h s).kept = s.kept := by
  unfold wantTrack
  repeat' (first | with_reducible rfl | split | simp)

@[simp] theorem trackSeen_kept (h : Nat) (g : Nat) (s : State) : (trackSeen h g s).kept = s.kept := by
  unfold trackSeen
  repeat' (first | with_reducible rfl | split | simp)

theorem execTrackJump_keeps (h : Head) (k : Int) (s : State) : Keeps s (execTrackJump h k s) := by
  unfold execTrackJump
  repeat' (first | refine doIf_keeps ?_ ?_ | refine next_keeps ?_ | with_reducible rfl
                 | (simp only [State_setTr_kept, setOvr_kept, setPart_kept, takeDue_kept, kept_mk, kept_eta]; done) | split
                 | (with_reducible refine (takeDue_kept (by assumption)).trans ?_) | intro _ | simp)

theorem execTrackJumpDone_keeps (h : Head) (trid : Option (Fin 262144)) (s : State) : Keeps s (execTrackJumpDone h trid s) := by
  unfold execTrackJumpDone
  repeat' (first | refine doIf_keeps ?_ ?_ | with_reducible rfl
                 | (simp only [State_putB_kept, ownerSet_kept, trackSeen_kept, kept_mk, kept_eta]; done) | split
                 | (with_reducible refine (when_kept _ _ _ ?_).trans ?_) | intro _ | simp)

theorem execLayerJump_keeps (h : Head) (l : Layer) (g : Fin 262144) (s : State) : Keeps s (execLayerJump h l g s) := by
  unfold execLayerJump
  repeat' (first | refine doIf_keeps ?_ ?_ | refine next_keeps ?_ | with_reducible rfl
                 | (simp only [State_setBit_kept, State_setTr_kept, loseReference_kept, saToPreset_kept, setOverride_kept, setOvr_kept, setPart_kept, spoilWindow_kept, takeDue_kept, tiltToPreset_kept, kept_mk, kept_eta]; done)
                 | split | (with_reducible refine (takeDue_kept (by assumption)).trans ?_) | intro _ | simp)

@[simp] theorem jumpCount_kept (h : Nat) (ok : Bool) (s : State) : (jumpCount h ok s).kept = s.kept := by
  simp [jumpCount]

@[simp] theorem jumpFails_kept (h : Nat) (s : State) : (jumpFails h s).kept = s.kept := by
  simp [jumpFails]

theorem execLayerJumpDone_keeps (h : Head) (us : Nat) (s : State) : Keeps s (execLayerJumpDone h us s) := by
  unfold execLayerJumpDone
  repeat' (first | refine doIf_keeps ?_ ?_ | with_reducible rfl
                 | (simp only [State_put_kept, jumpCount_kept, jumpFails_kept, reachTrack_kept, kept_mk, kept_eta]; done)
                 | split | (with_reducible refine (when_kept _ _ _ ?_).trans ?_) | intro _ | simp)

theorem execFocusLoss_keeps (h : Head) (s : State) : Keeps s (execFocusLoss h s) := by
  unfold execFocusLoss; refine doIf_keeps ?_ ?_ <;> simp

theorem execTrackLoss_keeps (h : Head) (s : State) : Keeps s (execTrackLoss h s) := by
  unfold execTrackLoss; refine doIf_keeps ?_ ?_ <;> simp

theorem execRecoveryDone_keeps (h : Head) (ok : Bool) (s : State) : Keeps s (execRecoveryDone h ok s) := by
  unfold execRecoveryDone
  repeat' (first | refine doIf_keeps ?_ ?_ | with_reducible rfl
                 | (simp only [headFault_kept, jumpCount_kept, reachTrack_kept, kept_mk, kept_eta]; done) | split
                 | (with_reducible refine (when_kept _ _ _ ?_).trans ?_) | intro _ | simp)

theorem execTiltSaFailRetry_keeps (h : Head) (k : Fin 2) (s : State) : Keeps s (execTiltSaFailRetry h k s) := by
  unfold execTiltSaFailRetry; refine doIf_keeps ?_ ?_ <;> simp

theorem execWlidDecoded_keeps (h : Head) (bits : Word) (minfo : Option Word) (s : State) : Keeps s (execWlidDecoded h bits minfo
    s) := by
  unfold execWlidDecoded
  repeat' (first | refine doIf_keeps ?_ ?_ | with_reducible rfl
                 | (simp only [State_put_kept, State_setTr_kept, checkConf_kept, countMisread_kept, endCapture_kept, jumpFails_kept, submit_kept, kept_mk, kept_eta]; done)
                 | split | (with_reducible refine (when_kept _ _ _ ?_).trans ?_) | intro _ | simp)

@[simp] theorem indexSled_kept (h : Nat) (g : Nat) (s : State) : (indexSled h g s).kept = s.kept := by
  unfold indexSled
  repeat' (first | with_reducible rfl | split | simp)

theorem execTridDecoded_keeps (h : Head) (trids : List (Option Word)) (s : State) : Keeps s (execTridDecoded h trids s) := by
  unfold execTridDecoded
  repeat' (first | refine doIf_keeps ?_ ?_ | with_reducible rfl
                 | (simp only [State_setTr_kept, indexSled_kept, trackSeen_kept, kept_mk, kept_eta]; done) | split
                 | (with_reducible refine (foldl_kept _ _ ?_ _).trans ?_)
                 | (with_reducible refine (foldl_snd_kept _ _ ?_ _).trans ?_)
                 | (with_reducible refine (when_kept _ _ _ ?_).trans ?_) | intro _ | simp)

theorem execInhibitClear_keeps (h : Head) (c : Fin 7) (s : State) : Keeps s (execInhibitClear h c s) := by
  unfold execInhibitClear; refine doIf_keeps ?_ ?_ <;> simp

@[simp] theorem winhWrite_kept (h : Nat) (v : Nat) (s : State) : (winhWrite h v s).kept = s.kept := by
  unfold winhWrite
  repeat' (first | with_reducible rfl | split | simp)

theorem execSrvHctrlWinh_keeps (p : Port) (h : Head) (v : Word) (s : State) : Keeps s (execSrvHctrlWinh p h v s) := by
  unfold execSrvHctrlWinh; refine vendorWrite_keeps ?_ ?_ <;> simp

theorem execShockSensorRead_keeps (axial : BitVec 16) (radial : BitVec 16) (s : State) : Keeps s (execShockSensorRead axial
    radial s) := by
  unfold execShockSensorRead
  repeat' (first | refine doIf_keeps ?_ ?_ | with_reducible rfl
                 | (simp only [State_inc_kept, State_put_kept, State_setTr_kept, spoilWindow_kept, kept_mk, kept_eta]; done)
                 | split | (with_reducible refine (forUpTo_kept _ _ _ ?_).trans ?_) | intro _ | simp)

/-! ### CalBase -/

@[simp] theorem State_setCal_kept (s : State) (k : Cal → Cal) : (State.setCal s k).kept = s.kept := by
  simp [State.setCal]

@[simp] theorem applyUpd_kept (u : CalUpd) (s : State) : (applyUpd u s).kept = s.kept := by
  unfold applyUpd
  repeat' (first | with_reducible rfl | split | simp)

@[simp] theorem calApply_kept (sel : CalUpd → Bool) (s : State) : (calApply sel s).kept = s.kept := by
  unfold calApply
  repeat' (first | with_reducible rfl | (simp only [State_setCal_kept, applyUpd_kept, kept_mk, kept_eta]; done) | split
                 | (with_reducible refine (foldl_kept _ _ ?_ _).trans ?_)
                 | (with_reducible refine (foldl_snd_kept _ _ ?_ _).trans ?_) | intro _ | simp)

@[simp] theorem calTick_kept (s : State) : (calTick s).kept = s.kept := by
  simp [calTick]

@[simp] theorem calYield_kept (es : List SkEntry) (s : State) : (calYield es s).kept = s.kept := by
  unfold calYield
  repeat' (first | with_reducible rfl | split | simp)

@[simp] theorem calFail_kept (item : Nat) (h : Nat) (l : Nat) (b : Nat) (err : Nat) (s : State) : (calFail item h l b err s).kept
    = s.kept := by
  unfold calFail
  repeat' (first | with_reducible rfl
                 | (simp only [State_inc_kept, State_put_kept, State_setBit_kept, State_setCal_kept, eventRec_kept, kept_mk, kept_eta]; done)
                 | split | (with_reducible refine (when_kept _ _ _ ?_).trans ?_) | intro _ | simp)

@[simp] theorem calAccept_kept (item : Nat) (h : Nat) (l : Nat) (s : State) : (calAccept item h l s).kept = s.kept := by
  simp [calAccept]

@[simp] theorem calWindow_kept (h : Nat) (s : State) : (calWindow h s).kept = s.kept := by
  simp [calWindow]

@[simp] theorem fullEnd_kept (h : Nat) (l : Nat) (item : Nat) (b : Nat) (spot : Nat) (s : State) : (fullEnd h l item b spot
    s).kept = s.kept := by
  simp [fullEnd]

@[simp] theorem dueBands_kept (h : Nat) (l : Nat) (s : State) : (dueBands h l s).kept = s.kept := by
  simp [dueBands]

/-! ### Writing -/

@[simp] theorem failMember_kept (h : Nat) (num : Nat) (idx : Nat) (s : State) : (failMember h num idx s).kept = s.kept := by
  unfold failMember
  repeat' (first | with_reducible rfl | split | simp)

@[simp] theorem setJob_kept (r : Rebuild) (k : Rebuild → Rebuild) (s : State) : (setJob r k s).kept = s.kept := by
  simp [setJob]

@[simp] theorem failJob_kept (h : Nat) (r : Rebuild) (p : Nat) (s : State) : (failJob h r p s).kept = s.kept := by
  simp [failJob]

@[simp] theorem failAttic_kept (h : Nat) (side : Nat) (c : AttWr) (p : Nat) (s : State) : (failAttic h side c p s).kept = s.kept
    := by
  simp [failAttic]

@[simp] theorem failBlock_kept (h : Nat) (p : Nat) (s : State) : (failBlock h p s).kept = s.kept := by
  unfold failBlock
  repeat' (first | with_reducible rfl | split | simp)

@[simp] theorem attempt_kept (p : Nat) (whole : Bool) (s : State) : (attempt p whole s).kept = s.kept := by
  unfold attempt
  repeat' (first | with_reducible rfl | split | simp)

@[simp] theorem replaceOpc_kept (layer : Nat) (band : Nat) (track : Nat) (s : State) : (replaceOpc layer band track s).kept =
    s.kept := by
  unfold replaceOpc
  repeat' (first | with_reducible rfl | split | simp)

@[simp] theorem requestOpc_kept (h : Nat) (layer : Nat) (band : Nat) (s : State) : (requestOpc h layer band s).kept = s.kept := by
  unfold requestOpc
  repeat' (first | with_reducible rfl | split | simp)

@[simp] theorem opcFails_kept (h : Nat) (code : Nat) (s : State) : (opcFails h code s).kept = s.kept := by
  unfold opcFails
  repeat' (first | with_reducible rfl | split | simp)

@[simp] theorem opcBroken_kept (h : Nat) (s : State) : (opcBroken h s).kept = s.kept := by
  unfold opcBroken
  repeat' (first | with_reducible rfl | split | simp)

@[simp] theorem opcCtl_kept (v : Nat) (s : State) : (opcCtl v s).kept = s.kept := by
  unfold opcCtl
  repeat' (first | with_reducible rfl | split | simp)

theorem execWrsOpcctl_keeps (p : Port) (v : Word) (s : State) : Keeps s (execWrsOpcctl p v s) := by
  unfold execWrsOpcctl; refine vendorWrite_keeps ?_ ?_ <;> simp

@[simp] theorem putBack_kept (e : Ev) (s : State) : (putBack e s).kept = s.kept := by
  simp [putBack]

@[simp] theorem recordOpc_kept (p : Nat) (s : State) : (recordOpc p s).kept = s.kept := by
  unfold recordOpc
  repeat' (first | with_reducible rfl | (simp only [kept_mk, kept_eta]; done) | split
                 | (with_reducible refine (foldl_kept _ _ ?_ _).trans ?_)
                 | (with_reducible refine (foldl_snd_kept _ _ ?_ _).trans ?_) | intro _ | simp)

theorem execOpcRun_keeps (h : Head) (l : Layer) (b : Band) (s : State) : Keeps s (execOpcRun h l b s) := by
  unfold execOpcRun
  repeat' (first | refine doIf_keeps ?_ ?_ | with_reducible rfl
                 | (simp only [State_inc_kept, State_setWh_kept, askDeltas_kept, opcFails_kept, recordOpc_kept, replaceOpc_kept, sendLevels_kept, wearOne_kept, kept_mk, kept_eta]; done)
                 | split | (with_reducible refine (foldl_kept _ _ ?_ _).trans ?_)
                 | (with_reducible refine (foldl_snd_kept _ _ ?_ _).trans ?_)
                 | (with_reducible refine (when_kept _ _ _ ?_).trans ?_) | intro _ | simp)

theorem execOpcReadbackDone_keeps (h : Head) (r0 : List Nat) (r1 : List Nat) (s : State) : Keeps s (execOpcReadbackDone h r0 r1
    s) := by
  unfold execOpcReadbackDone
  repeat' (first | refine doIf_keeps ?_ ?_ | refine next_keeps ?_ | with_reducible rfl | split | simp)

@[simp] theorem wantPlace_kept (h : Nat) (act : Nat) (layer : Nat) (g : Nat) (s : State) : (wantPlace h act layer g s).kept =
    s.kept := by
  unfold wantPlace
  repeat' (first | with_reducible rfl | split | simp)

@[simp] theorem calInBand_kept (h : Nat) (layer : Nat) (band : Nat) (s : State) : (calInBand h layer band s).kept = s.kept := by
  unfold calInBand
  repeat' (first | with_reducible rfl
                 | (simp only [State_setCal_kept, calWindow_kept, requestOpc_kept, kept_mk, kept_eta]; done) | split
                 | (with_reducible refine (when_kept _ _ _ ?_).trans ?_) | intro _ | simp)

@[simp] theorem startReading_kept (h : Nat) (s : State) : (startReading h s).kept = s.kept := by
  unfold startReading
  repeat' (first | with_reducible rfl
                 | (simp only [State_put_kept, State_puts_kept, headRowLoad_kept, syncGaps_kept, unlock_kept, kept_mk, kept_eta]; done)
                 | split | (with_reducible refine (when_kept _ _ _ ?_).trans ?_)
                 | (with_reducible refine (forUpTo_kept _ _ _ ?_).trans ?_) | intro _ | simp)

@[simp] theorem stopReading_kept (h : Nat) (s : State) : (stopReading h s).kept = s.kept := by
  unfold stopReading
  repeat' (first | with_reducible rfl | (simp only [State_put_kept, State_puts_kept, eyeBroken_kept, kept_mk, kept_eta]; done)
                 | split | (with_reducible refine (forUpTo_kept _ _ _ ?_).trans ?_) | intro _ | simp)

@[simp] theorem beginReads_kept (h : Nat) (act : Nat) (l : List (Nat × Nat)) (s : State) : (beginReads h act l s).kept = s.kept
    := by
  unfold beginReads
  repeat' (first | with_reducible rfl | (simp only [beginRead_kept, kept_mk, kept_eta]; done) | split
                 | (with_reducible refine (foldl_kept _ _ ?_ _).trans ?_)
                 | (with_reducible refine (foldl_snd_kept _ _ ?_ _).trans ?_) | intro _ | simp)

@[simp] theorem openRead_kept (e : Ev) (act : Nat) (blocks : List Nat) (s : State) : (openRead e act blocks s).kept = s.kept := by
  unfold openRead
  repeat' (first | with_reducible rfl | split | simp)

@[simp] theorem closeRead_kept (w : Win) (s : State) : (closeRead w s).kept = s.kept := by
  unfold closeRead
  repeat' (first | with_reducible rfl
                 | (simp only [State_setCwd_kept, patrolled_kept, readDone_kept, stopReading_kept, kept_mk, kept_eta]; done)
                 | split | (with_reducible refine (foldl_kept _ _ ?_ _).trans ?_)
                 | (with_reducible refine (foldl_snd_kept _ _ ?_ _).trans ?_)
                 | (with_reducible refine (when_kept _ _ _ ?_).trans ?_) | intro _ | simp)

@[simp] theorem encodeReads_kept (os : List BlockRead) (mems : List (Nat × Nat)) (s : State) : (encodeReads os mems s).kept =
    s.kept := by
  unfold encodeReads
  repeat' (first | with_reducible rfl
                 | (simp only [completeAll_kept, memLoad_snd_kept, setStripe_kept, kept_mk, kept_eta]; done) | split
                 | (with_reducible refine (foldl_kept _ _ ?_ _).trans ?_)
                 | (with_reducible refine (foldl_snd_kept _ _ ?_ _).trans ?_) | intro _ | simp)

@[simp] theorem openWrite_kept (e : Ev) (act : Nat) (blocks : List Nat) (os : List BlockRead) (s : State) :
    (openWrite e act blocks os s).kept = s.kept := by
  unfold openWrite
  extract_lets h ask bad s1 ask1 p0 layer band ask2 low spot pass p blks own want s2 blks2 own2 s3 far stop s4 s5
  have e1 : s1.kept = s.kept := foldl_kept _ _ (fun _ _ => failBlock_kept ..) _
  have e2 : s2.kept = s.kept := by simp [s2, e1]
  have e3 : s3.kept = s.kept := (foldl_kept _ _ (fun _ _ => wearOne_kept ..) _).trans e2
  have e4 : s4.kept = s.kept := by simp only [s4, calInBand_kept, kept_mk, kept_eta]; exact e3
  have e5 : s5.kept = s.kept := (State_setWh_kept ..).trans e4
  repeat' (first | split | exact e1 | exact e2 | simp [e1, e5])

@[simp] theorem openCal_kept (e : Ev) (s : State) : (openCal e s).kept = s.kept := by
  unfold openCal
  repeat' (first | with_reducible rfl | split | simp)

theorem execWindowOpen_keeps (h : Head) (act : Fin 9) (blocks : List (BitVec 32)) (os : List BlockRead) (s : State) : Keeps s
    (execWindowOpen h act blocks os s) := by
  unfold execWindowOpen
  repeat' (first | refine doIf_keeps ?_ ?_ | with_reducible rfl
                 | (simp only [lapTake_kept, openCal_kept, openRead_kept, openWrite_kept, takeDue_kept, kept_mk, kept_eta]; done) | split
                 | (with_reducible refine (takeDue_kept (by assumption)).trans ?_) | intro _ | simp)

@[simp] theorem recordBlock_kept (w : Win) (stop : Nat) (b : WBlk) (s : State) : (recordBlock w stop b s).kept = s.kept := by
  unfold recordBlock
  repeat' (first | with_reducible rfl | (simp only [kept_mk, kept_eta]; done) | split
                 | (with_reducible refine (foldl_kept _ _ ?_ _).trans ?_)
                 | (with_reducible refine (foldl_snd_kept _ _ ?_ _).trans ?_) | intro _ | simp)

@[simp] theorem windowAgain_kept (w : Win) (left : List WBlk) (s : State) : (windowAgain w left s).kept = s.kept := by
  unfold windowAgain
  repeat' (first | with_reducible rfl | split | simp)

@[simp] theorem askVerify_kept (w : Win) (ok : List WBlk) (s : State) : (askVerify w ok s).kept = s.kept := by
  unfold askVerify
  repeat' (first | with_reducible rfl | split | simp)

@[simp] theorem settleWrites_kept (s : State) : (settleWrites s).kept = s.kept := by
  unfold settleWrites
  repeat' (first | with_reducible rfl | (simp only [recordBlock_kept, kept_mk, kept_eta]; done) | split
                 | (with_reducible refine (foldl_kept _ _ ?_ _).trans ?_)
                 | (with_reducible refine (foldl_snd_kept _ _ ?_ _).trans ?_) | intro _ | simp)

@[simp] theorem closeWrite_kept (w : Win) (s : State) : (closeWrite w s).kept = s.kept := by
  unfold closeWrite
  repeat' (first | with_reducible rfl
                 | (simp only [State_addSat_kept, State_put_kept, State_setWh_kept, addChecks_kept, askVerify_kept, attempt_kept, failBlock_kept, leaveProgress_kept, recordBlock_kept, releaseLevels_kept, windowAgain_kept, kept_mk, kept_eta]; done)
                 | split | (with_reducible refine (foldl_kept _ _ ?_ _).trans ?_)
                 | (with_reducible refine (foldl_snd_kept _ _ ?_ _).trans ?_)
                 | (with_reducible refine (when_kept _ _ _ ?_).trans ?_) | intro _ | simp)

@[simp] theorem closeCal_kept (w : Win) (s : State) : (closeCal w s).kept = s.kept := by
  unfold closeCal
  repeat' (first | with_reducible rfl
                 | (simp only [State_put_kept, calWindow_kept, dropCal_kept, endShadow_kept, opcBroken_kept, submit_kept, kept_mk, kept_eta]; done)
                 | split | (with_reducible refine (when_kept _ _ _ ?_).trans ?_) | intro _ | simp)

theorem execWindowClose_keeps (h : Head) (s : State) : Keeps s (execWindowClose h s) := by
  unfold execWindowClose
  repeat' (first | refine doIf_keeps ?_ ?_ | refine next_keeps ?_ | with_reducible rfl | split | simp)

theorem execLevelsSent_keeps (h : Head) (s : State) : Keeps s (execLevelsSent h s) := by
  unfold execLevelsSent; refine doIf_keeps ?_ ?_ <;> simp

/-! ### Stripes -/

@[simp] theorem askDirty_kept (nsid : Nat) (z : Nat) (s : State) : (askDirty nsid z s).kept = s.kept := by
  unfold askDirty
  repeat' (first | with_reducible rfl | split | simp)

@[simp] theorem makeDirty_kept (nsid : Nat) (z : Nat) (s : State) : (makeDirty nsid z s).kept = s.kept := by
  unfold makeDirty
  repeat' (first | with_reducible rfl | split | simp)

@[simp] theorem prepareZone_snd_kept (nsid : Nat) (z : Nat) (s : State) : (prepareZone nsid z s).2.kept = s.kept := by
  unfold prepareZone
  repeat' (first | with_reducible rfl
                 | (simp only [checkpoint_kept, makeDirty_kept, setVzone_kept, touchNs_kept, kept_mk, kept_eta]; done) | split
                 | (with_reducible refine (when_kept _ _ _ ?_).trans ?_) | intro _ | simp)

theorem prepareZone_kept {nsid : Nat} {z : Nat} {s : State} {x : Bool} {t : State} (hEq : prepareZone nsid z s = (x, t)) : t.kept
    = s.kept := by
  have e := prepareZone_snd_kept nsid z s
  rw [hEq] at e
  exact e

@[simp] theorem openStripe_kept (n : Ns) (z : Nat) (num : Nat) (units : List GUnit) (idx : List Nat) (s : State) : (openStripe n
    z num units idx s).kept = s.kept := by
  unfold openStripe
  repeat' (first | with_reducible rfl
                 | (simp only [State_setStr_kept, dropAhead_kept, dropRefresh_kept, setVzone_kept, syncOpen_kept, takeWseq_kept, touchNs_kept, kept_mk, kept_eta]; done)
                 | split | (with_reducible refine (when_kept _ _ _ ?_).trans ?_) | intro _ | simp)

@[simp] theorem askBase_kept (n : Ns) (g : GUnit) (s : State) : (askBase n g s).kept = s.kept := by
  unfold askBase
  repeat' (first | with_reducible rfl | split | simp)

@[simp] theorem closeStripe_kept (num : Nat) (s : State) : (closeStripe num s).kept = s.kept := by
  simp [closeStripe]

@[simp] theorem failZone_kept (n : Ns) (idx : Nat) (cut : Nat) (s : State) : (failZone n idx cut s).kept = s.kept := by
  unfold failZone
  repeat' (first | with_reducible rfl
                 | (simp only [State_setStr_kept, closeStripe_kept, completeAll_kept, kept_mk, kept_eta]; done) | split
                 | (with_reducible refine (foldl_kept _ _ ?_ _).trans ?_)
                 | (with_reducible refine (foldl_snd_kept _ _ ?_ _).trans ?_) | intro _ | simp)

@[simp] theorem fetchUnits_snd_kept (n : Ns) (us : List BlockRead) (units : List GUnit) (s : State) : (fetchUnits n us units
    s).2.kept = s.kept := by
  unfold fetchUnits
  repeat' (first | with_reducible rfl
                 | (simp only [State_setStr_kept, completeAll_kept, failZone_kept, memLoad_snd_kept, kept_mk, kept_eta]; done)
                 | split | (with_reducible refine (foldl_kept _ _ ?_ _).trans ?_)
                 | (with_reducible refine (foldl_snd_kept _ _ ?_ _).trans ?_)
                 | (with_reducible refine (when_kept _ _ _ ?_).trans ?_) | intro _ | simp)

theorem fetchUnits_kept {n : Ns} {us : List BlockRead} {units : List GUnit} {s : State} {x : Bool} {t : State} (hEq : fetchUnits
    n us units s = (x, t)) : t.kept = s.kept := by
  have e := fetchUnits_snd_kept n us units s
  rw [hEq] at e
  exact e

@[simp] theorem openSystem_kept (z : Nat) (s : State) : (openSystem z s).kept = s.kept := by
  unfold openSystem
  repeat' (first | with_reducible rfl | split | simp)

theorem execStripeOpen_keeps (nsid : Nat) (zone : Nat) (us : List BlockRead) (s : State) : Keeps s (execStripeOpen nsid zone us
    s) := by
  unfold execStripeOpen
  repeat' (first | refine doIf_keeps ?_ ?_ | refine next_keeps ?_ | with_reducible rfl
                 | (simp only [askBase_kept, askSome_kept, fetchUnits_snd_kept, openStripe_kept, openSystem_kept, prepareZone_snd_kept, kept_mk, kept_eta]; done)
                 | split | (with_reducible refine (foldl_kept _ _ ?_ _).trans ?_)
                 | (with_reducible refine (foldl_snd_kept _ _ ?_ _).trans ?_)
                 | (with_reducible refine (when_kept _ _ _ ?_).trans ?_) | intro _ | simp)

theorem execGatherTimeout_keeps (nsid : Nat) (s : State) : Keeps s (execGatherTimeout nsid s) := by
  unfold execGatherTimeout; refine doIf_keeps ?_ ?_ <;> simp

theorem execStripeWritten_keeps (stripe : Nat) (s : State) : Keeps s (execStripeWritten stripe s) := by
  unfold execStripeWritten
  repeat' (first | refine doIf_keeps ?_ ?_ | refine next_keeps ?_ | with_reducible rfl | split | simp)

theorem execStripeVerified_keeps (stripe : Nat) (s : State) : Keeps s (execStripeVerified stripe s) := by
  unfold execStripeVerified
  repeat' (first | refine doIf_keeps ?_ ?_ | refine next_keeps ?_ | with_reducible rfl | split | simp)

@[simp] theorem endLost_kept (nsid : Nat) (unit : Nat) (s : State) : (endLost nsid unit s).kept = s.kept := by
  unfold endLost
  repeat' (first | with_reducible rfl | split | simp)

@[simp] theorem keepLost_kept (n : Ns) (num : Nat) (member : Nat) (u : GUnit) (s : State) : (keepLost n num member u s).kept =
    s.kept := by
  unfold keepLost
  repeat' (first | with_reducible rfl | (simp only [addDefect_kept, kept_mk, kept_eta]; done) | split
                 | (with_reducible refine (when_kept _ _ _ ?_).trans ?_) | intro _ | simp)

@[simp] theorem commitUnit_kept (n : Ns) (num : Nat) (member : Nat) (u : GUnit) (s : State) : (commitUnit n num member u s).kept
    = s.kept := by
  unfold commitUnit
  repeat' (first | with_reducible rfl | split | simp)

@[simp] theorem advanceFill_kept (t : Stripe) (s : State) : (advanceFill t s).kept = s.kept := by
  simp [advanceFill]

@[simp] theorem commitPages_kept (t : Stripe) (s : State) : (commitPages t s).kept = s.kept := by
  unfold commitPages
  repeat' (first | with_reducible rfl
                 | (simp only [State_setStr_kept, advanceFill_kept, ckptRecords_kept, setCkpt_kept, kept_mk, kept_eta]; done)
                 | split | (with_reducible refine (foldl_kept _ _ ?_ _).trans ?_)
                 | (with_reducible refine (foldl_snd_kept _ _ ?_ _).trans ?_) | intro _ | simp)

theorem execStripeCommit_keeps (stripe : Nat) (s : State) : Keeps s (execStripeCommit stripe s) := by
  unfold execStripeCommit
  repeat' (first | refine doIf_keeps ?_ ?_ | refine next_keeps ?_ | with_reducible rfl
                 | (simp only [State_inc_kept, advanceFill_kept, closeStripe_kept, commitPages_kept, commitUnit_kept, completeReady_kept, noteCommit_kept, setCkpt_kept, touchNs_kept, kept_mk, kept_eta]; done)
                 | split | (with_reducible refine (foldl_kept _ _ ?_ _).trans ?_)
                 | (with_reducible refine (foldl_snd_kept _ _ ?_ _).trans ?_) | intro _ | simp)

@[simp] theorem failUnits_kept (t : Stripe) (st : Nat × Nat × Bool) (s : State) : (failUnits t st s).kept = s.kept := by
  simp [failUnits]

@[simp] theorem reopenStripe_kept (t : Stripe) (s : State) : (reopenStripe t s).kept = s.kept := by
  unfold reopenStripe
  repeat' (first | with_reducible rfl | (simp only [addDefect_kept, setStripe_kept, takeWseq_kept, kept_mk, kept_eta]; done)
                 | split | (with_reducible refine (foldl_kept _ _ ?_ _).trans ?_)
                 | (with_reducible refine (foldl_snd_kept _ _ ?_ _).trans ?_) | intro _ | simp)

theorem execStripeVoid_keeps (stripe : Nat) (s : State) : Keeps s (execStripeVoid stripe s) := by
  unfold execStripeVoid
  repeat' (first | refine doIf_keeps ?_ ?_ | refine next_keeps ?_ | with_reducible rfl | split | simp)

theorem execRebuildStart_keeps (s : State) : Keeps s (execRebuildStart s) := by
  unfold execRebuildStart
  repeat' (first | refine doIf_keeps ?_ ?_ | with_reducible rfl | split | simp)

theorem execRebuildComplete_keeps (stripe : Nat) (member : Fin 20) (s : State) : Keeps s (execRebuildComplete stripe member s) := by
  unfold execRebuildComplete
  repeat' (first | refine doIf_keeps ?_ ?_ | refine next_keeps ?_ | with_reducible rfl | split | simp)

theorem execCheckpoint_keeps (s : State) : Keeps s (execCheckpoint s) := by
  unfold execCheckpoint; refine doIf_keeps ?_ ?_ <;> simp

theorem execCheckpointTimer_keeps (s : State) : Keeps s (execCheckpointTimer s) := by
  unfold execCheckpointTimer; refine doIf_keeps ?_ ?_ <;> simp

@[simp] theorem askPage_kept (nsid : Nat) (page : Nat) (s : State) : (askPage nsid page s).kept = s.kept := by
  unfold askPage
  repeat' (first | with_reducible rfl | split | simp)

@[simp] theorem askNextPage_kept (s : State) : (askNextPage s).kept = s.kept := by
  unfold askNextPage
  repeat' (first | with_reducible rfl | split | simp)

@[simp] theorem demandPage_kept (nsid : Nat) (page : Nat) (s : State) : (demandPage nsid page s).kept = s.kept := by
  simp [demandPage]

@[simp] theorem losePage_kept (nsid : Nat) (page : Nat) (s : State) : (losePage nsid page s).kept = s.kept := by
  unfold losePage
  repeat' (first | with_reducible rfl | (simp only [State_setStr_kept, kept_mk, kept_eta]; done) | split
                 | (with_reducible refine (foldl_kept _ _ ?_ _).trans ?_)
                 | (with_reducible refine (foldl_snd_kept _ _ ?_ _).trans ?_)
                 | (with_reducible refine (when_kept _ _ _ ?_).trans ?_) | intro _ | simp)

theorem execMapDemandLoad_keeps (nsid : Nat) (page : Nat) (o : BlockRead) (s : State) : Keeps s (execMapDemandLoad nsid page o s)
    := by
  unfold execMapDemandLoad
  repeat' (first | refine doIf_keeps ?_ ?_ | with_reducible rfl | split | simp)

theorem execCleaning_keeps (nsid : Nat) (s : State) : Keeps s (execCleaning nsid s) := by
  unfold execCleaning
  repeat' (first | refine doIf_keeps ?_ ?_ | refine next_keeps ?_ | with_reducible rfl | split | simp)

/-! ### Canvas -/

@[simp] theorem cnvPhaseTo_kept (ph : Nat) (err : Nat) (s : State) : (cnvPhaseTo ph err s).kept = s.kept := by
  simp [cnvPhaseTo]

@[simp] theorem cnvFails_kept (e : CErr) (s : State) : (cnvFails e s).kept = s.kept := by
  simp [cnvFails]

@[simp] theorem cnvRefuse_kept (code : Nat) (s : State) : (cnvRefuse code s).kept = s.kept := by
  simp [cnvRefuse]

@[simp] theorem cnvAccept_kept (ph : Nat) (s : State) : (cnvAccept ph s).kept = s.kept := by
  simp [cnvAccept]

@[simp] theorem cnvLoad_kept (p : Nat) (s : State) : (cnvLoad p s).kept = s.kept := by
  unfold cnvLoad
  repeat' (first | with_reducible rfl | split | simp)

@[simp] theorem cnvApply_kept (s : State) : (cnvApply s).kept = s.kept := by
  unfold cnvApply
  repeat' (first | with_reducible rfl | split | simp)

@[simp] theorem memOff_kept (s : State) : (memOff s).kept = s.kept := by
  simp [memOff]

@[simp] theorem cnvAbort_kept (s : State) : (cnvAbort s).kept = s.kept := by
  unfold cnvAbort
  repeat' (first | with_reducible rfl | split | simp)

@[simp] theorem cnvCtrl_kept (p : Nat) (v : Nat) (s : State) : (cnvCtrl p v s).kept = s.kept := by
  unfold cnvCtrl
  repeat' (first | with_reducible rfl | split | simp)

theorem execCnvLoad_keeps (p : Port) (v : Word) (s : State) : Keeps s (execCnvLoad p v s) := by
  unfold execCnvLoad; refine vendorWrite_keeps ?_ ?_ <;> simp

theorem execCnvApply_keeps (p : Port) (v : Word) (s : State) : Keeps s (execCnvApply p v s) := by
  unfold execCnvApply; refine vendorWrite_keeps ?_ ?_ <;> simp

theorem execCnvAbort_keeps (p : Port) (v : Word) (s : State) : Keeps s (execCnvAbort p v s) := by
  unfold execCnvAbort; refine vendorWrite_keeps ?_ ?_ <;> simp

theorem execCanvasFetchDone_keeps (image : List Byte) (ok : Bool) (s : State) : Keeps s (execCanvasFetchDone image ok s) := by
  unfold execCanvasFetchDone
  repeat' (first | refine doIf_keeps ?_ ?_ | with_reducible rfl | split | simp)

@[simp] theorem cnvPortReset_kept (p : Nat) (s : State) : (cnvPortReset p s).kept = s.kept := by
  unfold cnvPortReset
  repeat' (first | with_reducible rfl | split | simp)

theorem execCanvasValidationDone_keeps (us : Nat) (s : State) : Keeps s (execCanvasValidationDone us s) := by
  unfold execCanvasValidationDone
  repeat' (first | refine doIf_keeps ?_ ?_ | with_reducible rfl | split | simp)

theorem execMemTrainingDone_keeps (trained : Fin 16) (gib : Nat) (us : Nat) (s : State) : Keeps s (execMemTrainingDone trained
    gib us s) := by
  unfold execMemTrainingDone
  repeat' (first | refine doIf_keeps ?_ ?_ | with_reducible rfl | split | simp)

@[simp] theorem syncRdy_kept (p : Nat) (s : State) : (syncRdy p s).kept = s.kept := by
  simp [syncRdy]

@[simp] theorem loadKek_kept (s : State) : (loadKek s).kept = s.kept := by
  unfold loadKek
  repeat' (first | with_reducible rfl | split | simp)

@[simp] theorem enterPrimed_kept (s : State) : (enterPrimed s).kept = s.kept := by
  unfold enterPrimed
  repeat' (first | with_reducible rfl
                 | (simp only [State_putB_kept, State_put_kept, State_puts_kept, enumerateAll_kept, followTarget_kept, formEffective_kept, loadKek_kept, startAngle_kept, startSeq_kept, syncLonAll_kept, syncRdy_kept, transition_kept, kept_mk, kept_eta]; done)
                 | split | (with_reducible refine (when_kept _ _ _ ?_).trans ?_)
                 | (with_reducible refine (forUpTo_kept _ _ _ ?_).trans ?_) | intro _ | simp)

theorem execCanvasCommitDone_keeps (us : Nat) (s : State) : Keeps s (execCanvasCommitDone us s) := by
  unfold execCanvasCommitDone; refine doIf_keeps ?_ ?_ <;> simp

/-! ### Ports -/

@[simp] theorem dmaPortReset_kept (p : Nat) (s : State) : (dmaPortReset p s).kept = s.kept := by
  unfold dmaPortReset
  repeat' (first | with_reducible rfl | (simp only [dmaEnd_kept, kept_mk, kept_eta]; done) | split
                 | (with_reducible refine (when_kept _ _ _ ?_).trans ?_)
                 | (with_reducible refine (forUpTo_kept _ _ _ ?_).trans ?_) | intro _ | simp)

@[simp] theorem portReset_kept (p : Nat) (s : State) : (portReset p s).kept = s.kept := by
  unfold portReset
  repeat' (first | with_reducible rfl
                 | (simp only [State_put_kept, clearSketch_kept, cnvPortReset_kept, dmaPortReset_kept, syncInfl_kept, syncLocks_kept, varnishAbort_kept, kept_mk, kept_eta]; done)
                 | split | (with_reducible refine (when_kept _ _ _ ?_).trans ?_) | intro _ | simp)

@[simp] theorem leaveL0_kept (p : Nat) (ltssm : Nat) (s : State) : (leaveL0 p ltssm s).kept = s.kept := by
  simp [leaveL0]

theorem execPcieLinkUp_keeps (p : Port) (width : Fin 8) (speed : Fin 16) (s : State) : Keeps s (execPcieLinkUp p width speed s)
    := by
  unfold execPcieLinkUp; refine doIf_keeps ?_ ?_ <;> simp

theorem execPcieLinkDown_keeps (p : Port) (ltssm : BitVec 24) (s : State) : Keeps s (execPcieLinkDown p ltssm s) := by
  unfold execPcieLinkDown; refine doIf_keeps ?_ ?_ <;> simp

theorem execPerst_keeps (p : Port) (s : State) : Keeps s (execPerst p s) := by
  unfold execPerst; refine doIf_keeps ?_ ?_ <;> simp

theorem execFunctionLevelReset_keeps (p : Port) (s : State) : Keeps s (execFunctionLevelReset p s) := by
  unfold execFunctionLevelReset; refine doIf_keeps ?_ ?_ <;> simp

theorem execControllerReset_keeps (p : Port) (s : State) : Keeps s (execControllerReset p s) := by
  unfold execControllerReset; refine doIf_keeps ?_ ?_ <;> simp

theorem execControllerEnable_keeps (p : Port) (asqs : Fin 4096) (acqs : Fin 4096) (wrr : Bool) (s : State) : Keeps s
    (execControllerEnable p asqs acqs wrr s) := by
  unfold execControllerEnable; refine doIf_keeps ?_ ?_ <;> simp

@[simp] theorem requestCustody_kept (q : CustReq) (s : State) : (requestCustody q s).kept = s.kept := by
  simp [requestCustody]

theorem execLinkLossTimeout_keeps (p : Port) (s : State) : Keeps s (execLinkLossTimeout p s) := by
  unfold execLinkLossTimeout
  repeat' (first | refine doIf_keeps ?_ ?_ | with_reducible rfl | (simp only [requestCustody_kept, kept_mk, kept_eta]; done)
                 | split | (with_reducible refine (when_kept _ _ _ ?_).trans ?_)
                 | (with_reducible refine (forUpTo_kept _ _ _ ?_).trans ?_) | intro _ | simp)

end Sys2Proof.Machine
end

