-- ==== Sys2Proof/Laws/KeepHost.lean ====
section
/-! SUPPORT. What each operation leaves alone, memory, I/O and the host queues: one lemma per function that answers a state (it keeps buffer memory and
the queue), one per row (it answers a next state that keeps both). -/

set_option linter.unusedSimpArgs false

namespace Sys2Proof.Machine
open R

/-! ### Io -/

@[simp] theorem askUnits_kept (c : HCmd) (n : Ns) (s : State) : (askUnits c n s).kept = s.kept := by
  unfold askUnits
  repeat' (first | with_reducible rfl | (simp only [askPart_kept, askWhole_kept, kept_mk, kept_eta]; done) | split
                 | (with_reducible refine (foldl_kept _ _ ?_ _).trans ?_)
                 | (with_reducible refine (foldl_snd_kept _ _ ?_ _).trans ?_) | intro _ | simp)

@[simp] theorem runRead_kept (c : HCmd) (n : Ns) (s : State) : (runRead c n s).kept = s.kept := by
  unfold runRead
  repeat' (first | with_reducible rfl
                 | (simp only [askUnits_kept, finishIo_kept, finishRead_kept, takeUnit_snd_kept, updCmd_kept, kept_mk, kept_eta]; done)
                 | split | (with_reducible refine (foldl_kept _ _ ?_ _).trans ?_)
                 | (with_reducible refine (foldl_snd_kept _ _ ?_ _).trans ?_) | intro _ | simp)

@[simp] theorem setZone_kept (z : ZoneSt) (s : State) : (setZone z s).kept = s.kept := by
  simp [setZone]

@[simp] theorem acceptZoneWrite_kept (z : ZoneSt) (len : Nat) (s : State) : (acceptZoneWrite z len s).kept = s.kept := by
  simp [acceptZoneWrite]

@[simp] theorem runWriteZeroes_kept (c : HCmd) (n : Ns) (s : State) : (runWriteZeroes c n s).kept = s.kept := by
  unfold runWriteZeroes
  repeat' (first | with_reducible rfl
                 | (simp only [askShort_kept, gatherOne_kept, setMap_kept, touchNs_kept, updCmd_kept, kept_mk, kept_eta]; done)
                 | split | (with_reducible refine (foldl_kept _ _ ?_ _).trans ?_)
                 | (with_reducible refine (foldl_snd_kept _ _ ?_ _).trans ?_)
                 | (with_reducible refine (when_kept _ _ _ ?_).trans ?_) | intro _ | simp)

@[simp] theorem runDsm_kept (c : HCmd) (n : Ns) (s : State) : (runDsm c n s).kept = s.kept := by
  unfold runDsm
  repeat' (first | with_reducible rfl | (simp only [finishIo_kept, setMap_kept, touchNs_kept, kept_mk, kept_eta]; done) | split
                 | (with_reducible refine (foldl_kept _ _ ?_ _).trans ?_)
                 | (with_reducible refine (foldl_snd_kept _ _ ?_ _).trans ?_)
                 | (with_reducible refine (when_kept _ _ _ ?_).trans ?_) | intro _ | simp)

@[simp] theorem resetZone_kept (n : Ns) (i : Nat) (s : State) : (resetZone n i s).kept = s.kept := by
  unfold resetZone
  repeat' (first | with_reducible rfl | (simp only [dropRefresh_kept, setVzone_kept, setZone_kept, kept_mk, kept_eta]; done)
                 | split | (with_reducible refine (foldl_kept _ _ ?_ _).trans ?_)
                 | (with_reducible refine (foldl_snd_kept _ _ ?_ _).trans ?_)
                 | (with_reducible refine (when_kept _ _ _ ?_).trans ?_) | intro _ | simp)

@[simp] theorem runZoneSend_kept (c : HCmd) (n : Ns) (s : State) : (runZoneSend c n s).kept = s.kept := by
  unfold runZoneSend
  repeat' (first | with_reducible rfl
                 | (simp only [askShort_kept, completeReady_kept, finishIo_kept, resetZone_kept, setZone_kept, touchNs_kept, updCmd_kept, kept_mk, kept_eta]; done)
                 | split | (with_reducible refine (foldl_kept _ _ ?_ _).trans ?_)
                 | (with_reducible refine (foldl_snd_kept _ _ ?_ _).trans ?_) | intro _ | simp)

@[simp] theorem patrolYield_kept (s : State) : (patrolYield s).kept = s.kept := by
  unfold patrolYield
  repeat' (first | with_reducible rfl | split | simp)

theorem onIoQueue_keeps {c : IoCmd} {s : State} {k : Res} (h : Keeps s k) : Keeps s (onIoQueue c s k) := by
  unfold onIoQueue; split
  · exact next_keeps rfl
  · exact h

theorem execReportZones_keeps (c : IoCmd) (opt : Fin 8) (len : Nat) (s : State) : Keeps s (execReportZones c opt len s) := by
  unfold execReportZones
  repeat' (first | refine onIoQueue_keeps ?_ | refine next_keeps ?_ | with_reducible rfl
                 | (simp only [fetch_kept, finishIo_kept, kept_mk, kept_eta]; done) | split
                 | (with_reducible refine (fetch_kept (by assumption)).trans ?_) | intro _ | simp)

@[simp] theorem partFrom_kept (nsid : Nat) (entries : List Nat) (s : State) : (partFrom nsid entries s).kept = s.kept := by
  unfold partFrom
  repeat' (first | with_reducible rfl | (simp only [State_setStr_kept, kept_mk, kept_eta]; done) | split
                 | (with_reducible refine (foldl_kept _ _ ?_ _).trans ?_)
                 | (with_reducible refine (foldl_snd_kept _ _ ?_ _).trans ?_) | intro _ | simp)

/-! ### Custody -/

@[simp] theorem nsChanged_kept (nsid : Nat) (s : State) : (nsChanged nsid s).kept = s.kept := by
  unfold nsChanged
  repeat' (first | with_reducible rfl | (simp only [notice_kept, kept_mk, kept_eta]; done) | split
                 | (with_reducible refine (forUpTo_kept _ _ _ ?_).trans ?_) | intro _ | simp)

@[simp] theorem anaChanged_kept (s : State) : (anaChanged s).kept = s.kept := by
  unfold anaChanged
  repeat' (first | with_reducible rfl | (simp only [notice_kept, kept_mk, kept_eta]; done) | split
                 | (with_reducible refine (forUpTo_kept _ _ _ ?_).trans ?_) | intro _ | simp)

@[simp] theorem setLoser_kept (res : Nat) (v : Nat) (s : State) : (setLoser res v s).kept = s.kept := by
  unfold setLoser
  repeat' (first | with_reducible rfl | split | simp)

@[simp] theorem completeCust_kept (res : Nat) (l : List (Nat × Nat)) (s : State) : (completeCust res l s).kept = s.kept := by
  unfold completeCust
  repeat' (first | with_reducible rfl | (simp only [completeCmd_kept, kept_mk, kept_eta]; done) | split
                 | (with_reducible refine (foldl_kept _ _ ?_ _).trans ?_)
                 | (with_reducible refine (foldl_snd_kept _ _ ?_ _).trans ?_) | intro _ | simp)

@[simp] theorem arbitrate_kept (res : Nat) (s : State) : (arbitrate res s).kept = s.kept := by
  unfold arbitrate
  repeat' (first | with_reducible rfl | split | simp)

theorem execNamespaceSwapEnd_keeps (nsid : Fin 65) (expired : Bool) (s : State) : Keeps s (execNamespaceSwapEnd nsid expired s)
    := by
  unfold execNamespaceSwapEnd
  repeat' (first | refine doIf_keeps ?_ ?_ | refine next_keeps ?_ | with_reducible rfl
                 | (simp only [State_puts_kept, anaChanged_kept, asyncEvent_kept, completeAll_kept, completeCust_kept, kept_mk, kept_eta]; done)
                 | split | (with_reducible refine (forUpTo_kept _ _ _ ?_).trans ?_) | intro _ | simp)

/-! ### Health -/

theorem execLedgerTimer_keeps (l : Layer) (s : State) : Keeps s (execLedgerTimer l s) := by
  unfold execLedgerTimer; refine doIf_keeps ?_ ?_ <;> simp

theorem execReadConfirm_keeps (pba : BitVec 32) (cwix : Fin 16) (s : State) : Keeps s (execReadConfirm pba cwix s) := by
  unfold execReadConfirm
  repeat' (first | refine doIf_keeps ?_ ?_ | with_reducible rfl | split | simp)

theorem execLayerFailed_keeps (l : Layer) (s : State) : Keeps s (execLayerFailed l s) := by
  unfold execLayerFailed
  repeat' (first | refine doIf_keeps ?_ ?_ | with_reducible rfl
                 | (simp only [State_drawn_kept, State_setHlt_kept, addDefect_kept, queueRebuild_kept, syncHealth_kept, kept_mk, kept_eta]; done)
                 | split | (with_reducible refine (foldl_kept _ _ ?_ _).trans ?_)
                 | (with_reducible refine (foldl_snd_kept _ _ ?_ _).trans ?_)
                 | (with_reducible refine (when_kept _ _ _ ?_).trans ?_) | intro _ | simp)

theorem execPatrolLapEnd_keeps (sec : Nat) (s : State) : Keeps s (execPatrolLapEnd sec s) := by
  unfold execPatrolLapEnd
  repeat' (first | refine doIf_keeps ?_ ?_ | with_reducible rfl
                 | (simp only [State_drawn_kept, State_put_kept, State_puts_kept, State_setHlt_kept, eventRec_kept, lapAnew_kept, kept_mk, kept_eta]; done)
                 | split | (with_reducible refine (forUpTo_kept _ _ _ ?_).trans ?_) | intro _ | simp)

theorem execRefresh_keeps (s : State) : Keeps s (execRefresh s) := by
  unfold execRefresh
  repeat' (first | refine doIf_keeps ?_ ?_ | refine next_keeps ?_ | with_reducible rfl | split | simp)

@[simp] theorem restartLap_kept (s : State) : (restartLap s).kept = s.kept := by
  unfold restartLap
  repeat' (first | with_reducible rfl | split | simp)

@[simp] theorem pausePatrol_kept (b : Bool) (s : State) : (pausePatrol b s).kept = s.kept := by
  unfold pausePatrol
  repeat' (first | with_reducible rfl | split | simp)

@[simp] theorem hltCtrl_kept (v : Nat) (s : State) : (hltCtrl v s).kept = s.kept := by
  unfold hltCtrl
  repeat' (first | with_reducible rfl | (simp only [pausePatrol_kept, restartLap_kept, kept_mk, kept_eta]; done) | split
                 | (with_reducible refine (when_kept _ _ _ ?_).trans ?_) | intro _ | simp)

theorem execHltCtrlRestart_keeps (p : Port) (v : Word) (s : State) : Keeps s (execHltCtrlRestart p v s) := by
  unfold execHltCtrlRestart; refine vendorWrite_keeps ?_ ?_ <;> simp

theorem execHltCtrlPause_keeps (p : Port) (v : Word) (s : State) : Keeps s (execHltCtrlPause p v s) := by
  unfold execHltCtrlPause; refine vendorWrite_keeps ?_ ?_ <;> simp

theorem execPatrolIdleStart_keeps (s : State) : Keeps s (execPatrolIdleStart s) := by
  unfold execPatrolIdleStart; refine doIf_keeps ?_ ?_ <;> simp

/-! ### AdminBase -/

@[simp] theorem endAdm_kept (p : Nat) (cid : Nat) (st : Nat × Nat × Bool) (dw0 : Nat) (s : State) : (endAdm p cid st dw0 s).kept
    = s.kept := by
  simp [endAdm]

@[simp] theorem needMgmt_kept (p cid : Nat) (k : State → State) (s : State) (h : (k s).kept = s.kept) : (needMgmt p cid k s).kept
    = s.kept := by
  unfold needMgmt; split
  · exact h
  · exact endAdm_kept ..

theorem immediate_keeps {p cid op : Nat} {k : State → State} {s : State} (h : ∀ s, (k s).kept = s.kept) : Keeps s (immediate p
    cid op k s) := by
  refine next_keeps ?_
  split
  · rfl
  · rename_i e; exact (h _).trans (fetch_kept e)

@[simp] theorem endData_kept (p : Nat) (cid : Nat) (bytes : List Nat) (s : State) : (endData p cid bytes s).kept = s.kept := by
  simp [endData]

@[simp] theorem writeNamespaces_kept (cont : AttCont) (s : State) : (writeNamespaces cont s).kept = s.kept := by
  simp [writeNamespaces]

@[simp] theorem clearSlot_kept (n : Nat) (s : State) : (clearSlot n s).kept = s.kept := by
  simp [clearSlot]

/-! ### Namespaces -/

@[simp] theorem putVolume_kept (w : Nat) (p : Nat) (sp : Nat) (seedLo : Nat) (seedHi : Nat) (s : State) : (putVolume w p sp
    seedLo seedHi s).kept = s.kept := by
  simp [putVolume]

@[simp] theorem formatVolume_kept (s : State) : (formatVolume s).kept = s.kept := by
  simp [formatVolume]

@[simp] theorem addNs_kept (p : Nat) (cid : Nat) (id : Nat) (n : NsCreate) (zones : List Nat) (s : State) : (addNs p cid id n
    zones s).kept = s.kept := by
  simp [addNs]

@[simp] theorem createNs_kept (p : Nat) (cid : Nat) (n : NsCreate) (s : State) : (createNs p cid n s).kept = s.kept := by
  unfold createNs
  repeat' (first | with_reducible rfl | (simp only [addNs_kept, endAdm_kept, formatVolume_kept, kept_mk, kept_eta]; done)
                 | split | (with_reducible refine (when_kept _ _ _ ?_).trans ?_) | intro _ | simp)

@[simp] theorem detachNs_kept (id : Nat) (s : State) : (detachNs id s).kept = s.kept := by
  unfold detachNs
  repeat' (first | with_reducible rfl
                 | (simp only [State_setStr_kept, completeAll_kept, dropRefresh_kept, kept_mk, kept_eta]; done) | split
                 | (with_reducible refine (foldl_kept _ _ ?_ _).trans ?_)
                 | (with_reducible refine (foldl_snd_kept _ _ ?_ _).trans ?_) | intro _ | simp)

@[simp] theorem removeNs_kept (id : Nat) (s : State) : (removeNs id s).kept = s.kept := by
  simp [removeNs]

@[simp] theorem endDelete_kept (p : Nat) (cid : Nat) (ids : List Nat) (s : State) : (endDelete p cid ids s).kept = s.kept := by
  unfold endDelete
  repeat' (first | with_reducible rfl
                 | (simp only [ckptDone_kept, ckptRecords_kept, removeNs_kept, syncMapPhase_kept, writeNamespaces_kept, kept_mk, kept_eta]; done)
                 | split | (with_reducible refine (foldl_kept _ _ ?_ _).trans ?_)
                 | (with_reducible refine (foldl_snd_kept _ _ ?_ _).trans ?_) | intro _ | simp)

@[simp] theorem deleteNs_kept (p : Nat) (cid : Nat) (nsid : Nat) (s : State) : (deleteNs p cid nsid s).kept = s.kept := by
  unfold deleteNs
  repeat' (first | with_reducible rfl
                 | (simp only [detachNs_kept, endAdm_kept, endDelete_kept, syncLocks_kept, kept_mk, kept_eta]; done) | split
                 | (with_reducible refine (foldl_kept _ _ ?_ _).trans ?_)
                 | (with_reducible refine (foldl_snd_kept _ _ ?_ _).trans ?_) | intro _ | simp)

@[simp] theorem attachNs_kept (p : Nat) (cid : Nat) (nsid : Nat) (detach : Bool) (ctrls : Nat) (s : State) : (attachNs p cid nsid
    detach ctrls s).kept = s.kept := by
  unfold attachNs
  repeat' (first | with_reducible rfl | split | simp)

/-! ### Security -/

@[simp] theorem secRefuse_kept (p : Nat) (cid : Nat) (err : Nat) (s : State) : (secRefuse p cid err s).kept = s.kept := by
  simp [secRefuse]

@[simp] theorem deliverKey_kept (p : Nat) (cid : Nat) (b : List (BitVec 8)) (s : State) : (deliverKey p cid b s).kept = s.kept := by
  unfold deliverKey
  repeat' (first | with_reducible rfl | split | simp)

@[simp] theorem programKek_kept (kek : Nat) (s : State) : (programKek kek s).kept = s.kept := by
  unfold programKek
  repeat' (first | with_reducible rfl | (simp only [celQueue_kept, kept_mk, kept_eta]; done) | split
                 | (with_reducible refine (when_kept _ _ _ ?_).trans ?_)
                 | (with_reducible refine (forUpTo_kept _ _ _ ?_).trans ?_) | intro _ | simp)

@[simp] theorem installKek_kept (p : Nat) (cid : Nat) (b : List (BitVec 8)) (s : State) : (installKek p cid b s).kept = s.kept := by
  unfold installKek
  repeat' (first | with_reducible rfl | split | simp)

@[simp] theorem kekProgrammed_kept (s : State) : (kekProgrammed s).kept = s.kept := by
  unfold kekProgrammed
  repeat' (first | with_reducible rfl | split | simp)

@[simp] theorem purgeKeys_kept (p : Nat) (cid : Nat) (nsid : Nat) (s : State) : (purgeKeys p cid nsid s).kept = s.kept := by
  unfold purgeKeys
  repeat' (first | with_reducible rfl | split | simp)

@[simp] theorem securityReceive_kept (p : Nat) (cid : Nat) (proto : Nat) (spsp : Nat) (s : State) : (securityReceive p cid proto
    spsp s).kept = s.kept := by
  unfold securityReceive
  repeat' (first | with_reducible rfl | split | simp)

@[simp] theorem runSanitize_kept (step : Nat) (cdw : Nat) (s : State) : (runSanitize step cdw s).kept = s.kept := by
  simp [runSanitize]

@[simp] theorem beginSanitize_kept (p : Nat) (cid : Nat) (cdw : Nat) (s : State) : (beginSanitize p cid cdw s).kept = s.kept := by
  unfold beginSanitize
  repeat' (first | with_reducible rfl | split | simp)

@[simp] theorem sanKeys_kept (s : State) : (sanKeys s).kept = s.kept := by
  simp [sanKeys]

@[simp] theorem sanData_kept (s : State) : (sanData s).kept = s.kept := by
  unfold sanData
  repeat' (first | with_reducible rfl
                 | (simp only [State_setStr_kept, checkpoint_kept, resetZone_kept, touchNs_kept, kept_mk, kept_eta]; done)
                 | split | (with_reducible refine (foldl_kept _ _ ?_ _).trans ?_)
                 | (with_reducible refine (foldl_snd_kept _ _ ?_ _).trans ?_) | intro _ | simp)

@[simp] theorem endSanitize_kept (sstat : Nat) (s : State) : (endSanitize sstat s).kept = s.kept := by
  unfold endSanitize
  repeat' (first | with_reducible rfl | (simp only [State_puts_kept, asyncEvent_kept, kept_mk, kept_eta]; done) | split
                 | (with_reducible refine (forUpTo_kept _ _ _ ?_).trans ?_) | intro _ | simp)

@[simp] theorem sanStart_kept (s : State) : (sanStart s).kept = s.kept := by
  simp [sanStart]

@[simp] theorem sanDone_kept (s : State) : (sanDone s).kept = s.kept := by
  simp [sanDone]

@[simp] theorem sanNext_kept (s : State) : (sanNext s).kept = s.kept := by
  simp [sanNext]

theorem execSanitizeStepDone_keeps (ok : Bool) (s : State) : Keeps s (execSanitizeStepDone ok s) := by
  unfold execSanitizeStepDone
  repeat' (first | refine doIf_keeps ?_ ?_ | with_reducible rfl | split | simp)

@[simp] theorem lookSanitize_kept (s : State) : (lookSanitize s).kept = s.kept := by
  simp [lookSanitize]

theorem execSanitizeResume_keeps (s : State) : Keeps s (execSanitizeResume s) := by
  unfold execSanitizeResume
  repeat' (first | refine doIf_keeps ?_ ?_ | with_reducible rfl | split | simp)

/-! ### Queues -/

theorem execSqDoorbell_keeps (p : Port) (qid : BitVec 16) (tail : BitVec 16) (s : State) : Keeps s (execSqDoorbell p qid tail s)
    := by
  unfold execSqDoorbell; refine doIf_keeps ?_ ?_ <;> simp

theorem execCreateIoCq_keeps (p : Port) (cid : BitVec 16) (qid : BitVec 16) (size : BitVec 16) (vec : BitVec 16) (s : State) :
    Keeps s (execCreateIoCq p cid qid size vec s) := by
  unfold execCreateIoCq
  repeat' (first | refine immediate_keeps ?_ | with_reducible rfl | (simp only [endAdm_kept, kept_mk, kept_eta]; done) | split
                 | intro _ | simp)

theorem execCreateIoSq_keeps (p : Port) (cid : BitVec 16) (qid : BitVec 16) (size : BitVec 16) (cqid : BitVec 16) (prio : Fin 4)
    (s : State) : Keeps s (execCreateIoSq p cid qid size cqid prio s) := by
  unfold execCreateIoSq
  repeat' (first | refine immediate_keeps ?_ | with_reducible rfl | (simp only [endAdm_kept, kept_mk, kept_eta]; done) | split
                 | intro _ | simp)

theorem execDeleteIoCq_keeps (p : Port) (cid : BitVec 16) (qid : BitVec 16) (s : State) : Keeps s (execDeleteIoCq p cid qid s) := by
  unfold execDeleteIoCq
  repeat' (first | refine immediate_keeps ?_ | with_reducible rfl | (simp only [endAdm_kept, kept_mk, kept_eta]; done) | split
                 | intro _ | simp)

@[simp] theorem withdrawCmd_kept (c : HCmd) (s : State) : (withdrawCmd c s).kept = s.kept := by
  unfold withdrawCmd
  repeat' (first | with_reducible rfl | split | simp)

@[simp] theorem setFeat_kept (p : Nat) (fid : Nat) (sub : Nat) (v : Nat) (s : State) : (setFeat p fid sub v s).kept = s.kept := by
  simp [setFeat]

theorem execSetFeatures_keeps (p : Port) (cid : BitVec 16) (fid : BitVec 8) (nsid : BitVec 32) (val : Word) (sv : Bool) (s :
    State) : Keeps s (execSetFeatures p cid fid nsid val sv s) := by
  unfold execSetFeatures
  repeat' (first | refine immediate_keeps ?_ | with_reducible rfl
                 | (simp only [endAdm_kept, setFeat_kept, kept_mk, kept_eta]; done) | split
                 | (with_reducible refine (foldl_kept _ _ ?_ _).trans ?_)
                 | (with_reducible refine (foldl_snd_kept _ _ ?_ _).trans ?_) | intro _ | simp)

theorem execGetFeatures_keeps (p : Port) (cid : BitVec 16) (fid : BitVec 8) (nsid : BitVec 32) (sel : Fin 8) (val : Word) (s :
    State) : Keeps s (execGetFeatures p cid fid nsid sel val s) := by
  unfold execGetFeatures
  repeat' (first | refine immediate_keeps ?_ | with_reducible rfl | (simp only [endAdm_kept, kept_mk, kept_eta]; done) | split
                 | intro _ | simp)

theorem execAsynchronousEventRequest_keeps (p : Port) (cid : BitVec 16) (s : State) : Keeps s (execAsynchronousEventRequest p cid
    s) := by
  unfold execAsynchronousEventRequest
  repeat' (first | refine immediate_keeps ?_ | with_reducible rfl | (simp only [endAdm_kept, kept_mk, kept_eta]; done) | split
                 | intro _ | simp)

theorem execNormalShutdown_keeps (p : Port) (s : State) : Keeps s (execNormalShutdown p s) := by
  unfold execNormalShutdown
  repeat' (first | refine doIf_keeps ?_ ?_ | with_reducible rfl
                 | (simp only [askShort_kept, completeReady_kept, kept_mk, kept_eta]; done) | split
                 | (with_reducible refine (foldl_kept _ _ ?_ _).trans ?_)
                 | (with_reducible refine (foldl_snd_kept _ _ ?_ _).trans ?_) | intro _ | simp)

end Sys2Proof.Machine
end

