-- ==== Sys2Proof/Laws/KeepAdmin.lean ====
section
/-! SUPPORT. What each operation leaves alone, calibration, admin, the angle and the Cellar: one lemma per function that answers a state (it keeps buffer memory and
the queue), one per row (it answers a next state that keeps both). -/

set_option linter.unusedSimpArgs false

namespace Sys2Proof.Machine
open R

/-! ### Calib -/

@[simp] theorem recordCalib_kept (l : Nat) (s : State) : (recordCalib l s).kept = s.kept := by
  unfold recordCalib
  repeat' (first | with_reducible rfl | split | simp)

@[simp] theorem noteBody_kept (h : Nat) (l : Nat) (s : State) : (noteBody h l s).kept = s.kept := by
  simp [noteBody]

@[simp] theorem writeCalib_kept (h : Nat) (l : Nat) (s : State) : (writeCalib h l s).kept = s.kept := by
  simp [writeCalib]

@[simp] theorem endReq_kept (h : Nat) (s : State) : (endReq h s).kept = s.kept := by
  unfold endReq
  repeat' (first | with_reducible rfl | split | simp)

@[simp] theorem calibrated_kept (h : Nat) (l : Nat) (s : State) : (calibrated h l s).kept = s.kept := by
  simp [calibrated]

@[simp] theorem step1Ends_kept (h : Nat) (l : Nat) (item : Nat) (s : State) : (step1Ends h l item s).kept = s.kept := by
  unfold step1Ends
  repeat' (first | with_reducible rfl
                 | (simp only [State_setCal_kept, calibrated_kept, endReq_kept, writeCalib_kept, kept_mk, kept_eta]; done)
                 | split | (with_reducible refine (when_kept _ _ _ ?_).trans ?_) | intro _ | simp)

@[simp] theorem becomeDue_kept (h : Nat) (l : Nat) (s : State) : (becomeDue h l s).kept = s.kept := by
  simp [becomeDue]

theorem execCalDue_keeps (h : Head) (l : Layer) (s : State) : Keeps s (execCalDue h l s) := by
  unfold execCalDue; refine doIf_keeps ?_ ?_ <;> simp

@[simp] theorem calRequest_snd_kept (kind : Nat) (h : Nat) (l : Nat) (s : State) : (calRequest kind h l s).2.kept = s.kept := by
  unfold calRequest
  repeat' (first | with_reducible rfl | split | simp)

theorem calRequest_kept {kind : Nat} {h : Nat} {l : Nat} {s : State} {x : Nat} {t : State} (hEq : calRequest kind h l s = (x, t))
    : t.kept = s.kept := by
  have e := calRequest_snd_kept kind h l s
  rw [hEq] at e
  exact e

@[simp] theorem calCtl_kept (v : Nat) (s : State) : (calCtl v s).kept = s.kept := by
  unfold calCtl
  repeat' (first | with_reducible rfl | split | simp)

theorem execCalCtl_keeps (p : Port) (v : Word) (s : State) : Keeps s (execCalCtl p v s) := by
  unfold execCalCtl; refine vendorWrite_keeps ?_ ?_ <;> simp

theorem execFullCalLayerDone_keeps (h : Head) (l : Layer) (s : State) : Keeps s (execFullCalLayerDone h l s) := by
  unfold execFullCalLayerDone
  repeat' (first | refine doIf_keeps ?_ ?_ | refine next_keeps ?_ | with_reducible rfl | split | simp)

@[simp] theorem pendUpd_kept (u : CalUpd) (s : State) : (pendUpd u s).kept = s.kept := by
  simp [pendUpd]

@[simp] theorem setRef_kept (h : Nat) (k : Nat) (key : Nat) (v : Int) (s : State) : (setRef h k key v s).kept = s.kept := by
  simp [setRef]

@[simp] theorem syncFigures_kept (h : Nat) (l : Nat) (s : State) : (syncFigures h l s).kept = s.kept := by
  simp [syncFigures]

@[simp] theorem tiltEnds_kept (h : Nat) (l : Nat) (b : Nat) (s : State) : (tiltEnds h l b s).kept = s.kept := by
  simp [tiltEnds]

@[simp] theorem rowEnds_kept (h : Nat) (l : Nat) (b : Nat) (spot : Nat) (s : State) : (rowEnds h l b spot s).kept = s.kept := by
  unfold rowEnds
  repeat' (first | with_reducible rfl | (simp only [State_setCal_kept, endShadow_kept, kept_mk, kept_eta]; done) | split
                 | (with_reducible refine (forUpTo_kept _ _ _ ?_).trans ?_) | intro _ | simp)

@[simp] theorem accept_kept (h : Nat) (l : Nat) (item : Nat) (b : Nat) (spot : Nat) (s : State) : (accept h l item b spot s).kept
    = s.kept := by
  simp [accept]

@[simp] theorem reject_kept (h : Nat) (l : Nat) (b : Nat) (item : Nat) (err : Nat) (s : State) : (reject h l b item err s).kept =
    s.kept := by
  unfold reject
  repeat' (first | with_reducible rfl | split | simp)

@[simp] theorem judge_kept (h : Nat) (l : Nat) (r : CalResult) (s : State) : (judge h l r s).kept = s.kept := by
  unfold judge
  repeat' (first | with_reducible rfl | split | simp)

theorem execCalSweepDone_keeps (h : Head) (l : Layer) (r : CalResult) (s : State) : Keeps s (execCalSweepDone h l r s) := by
  unfold execCalSweepDone
  repeat' (first | refine doIf_keeps ?_ ?_ | with_reducible rfl | split | simp)

@[simp] theorem loadBand_kept (h : Nat) (l : Nat) (b : Nat) (c : CalBand) (s : State) : (loadBand h l b c s).kept = s.kept := by
  unfold loadBand
  repeat' (first | with_reducible rfl
                 | (simp only [State_put_kept, State_puts_kept, State_setCal_kept, rowChanged_kept, kept_mk, kept_eta]; done)
                 | split | (with_reducible refine (when_kept _ _ _ ?_).trans ?_)
                 | (with_reducible refine (forUpTo_kept _ _ _ ?_).trans ?_) | intro _ | simp)

@[simp] theorem loadLayer_kept (h : Nat) (l : Nat) (body : Option CalBody) (s : State) : (loadLayer h l body s).kept = s.kept := by
  unfold loadLayer
  repeat' (first | with_reducible rfl
                 | (simp only [State_put_kept, State_puts_kept, State_setCal_kept, dueBands_kept, loadBand_kept, syncFigures_kept, kept_mk, kept_eta]; done)
                 | split | (with_reducible refine (foldl_kept _ _ ?_ _).trans ?_)
                 | (with_reducible refine (foldl_snd_kept _ _ ?_ _).trans ?_) | intro _ | simp)

@[simp] theorem canvasRows_kept (s : State) : (canvasRows s).kept = s.kept := by
  simp [canvasRows]

@[simp] theorem clearCal_kept (s : State) : (clearCal s).kept = s.kept := by
  unfold clearCal
  repeat' (first | with_reducible rfl | (simp only [State_puts_kept, canvasRows_kept, kept_mk, kept_eta]; done) | split
                 | (with_reducible refine (forUpTo_kept _ _ _ ?_).trans ?_) | intro _ | simp)

@[simp] theorem loadCalib_kept (bodies : List CalBody) (s : State) : (loadCalib bodies s).kept = s.kept := by
  unfold loadCalib
  repeat' (first | with_reducible rfl
                 | (simp only [State_put_kept, State_setCal_kept, calWindow_kept, loadLayer_kept, kept_mk, kept_eta]; done)
                 | split | (with_reducible refine (foldl_kept _ _ ?_ _).trans ?_)
                 | (with_reducible refine (foldl_snd_kept _ _ ?_ _).trans ?_) | intro _ | simp)

/-! ### Modes -/

@[simp] theorem startReadBack_kept (h : Nat) (s : State) : (startReadBack h s).kept = s.kept := by
  simp [startReadBack]

@[simp] theorem commitMode_kept (m : Nat) (s : State) : (commitMode m s).kept = s.kept := by
  unfold commitMode
  repeat' (first | with_reducible rfl
                 | (simp only [State_inc_kept, State_putB_kept, State_put_kept, State_puts_kept, State_setOpu_kept, checkTrans_kept, cutReads_kept, formEffective_kept, leaveProgress_kept, reform_kept, startReadBack_kept, kept_mk, kept_eta]; done)
                 | split | (with_reducible refine (when_kept _ _ _ ?_).trans ?_)
                 | (with_reducible refine (forUpTo_kept _ _ _ ?_).trans ?_) | intro _ | simp)

theorem execRampwaitEnd_keeps (s : State) : Keeps s (execRampwaitEnd s) := by
  unfold execRampwaitEnd; refine doIf_keeps ?_ ?_ <;> simp

theorem execHeadLeaveDone_keeps (h : Head) (s : State) : Keeps s (execHeadLeaveDone h s) := by
  unfold execHeadLeaveDone
  repeat' (first | refine doIf_keeps ?_ ?_ | with_reducible rfl
                 | (simp only [State_put_kept, State_setBit_kept, State_setOpu_kept, checkTrans_kept, endHeadAction_kept, setPhase_kept, syncLon_kept, kept_mk, kept_eta]; done)
                 | split | (with_reducible refine (when_kept _ _ _ ?_).trans ?_) | intro _ | simp)

theorem execHeadJoinDone_keeps (h : Head) (s : State) : Keeps s (execHeadJoinDone h s) := by
  unfold execHeadJoinDone; refine doIf_keeps ?_ ?_ <;> simp

theorem execReadbackDone_keeps (s : State) : Keeps s (execReadbackDone s) := by
  unfold execReadbackDone; refine doIf_keeps ?_ ?_ <;> simp

@[simp] theorem headCtl_kept (v : Nat) (s : State) : (headCtl v s).kept = s.kept := by
  unfold headCtl
  repeat' (first | with_reducible rfl | split | simp)

theorem execFltHeadOffline_keeps (p : Port) (v : Word) (s : State) : Keeps s (execFltHeadOffline p v s) := by
  unfold execFltHeadOffline; refine vendorWrite_keeps ?_ ?_ <;> simp

theorem execFltHeadRestore_keeps (p : Port) (v : Word) (s : State) : Keeps s (execFltHeadRestore p v s) := by
  unfold execFltHeadRestore; refine vendorWrite_keeps ?_ ?_ <;> simp

/-! ### Sketch -/

@[simp] theorem stage_kept (v : Nat) (s : State) : (stage v s).kept = s.kept := by
  unfold stage
  repeat' (first | with_reducible rfl | (simp only [State_put_kept, kept_mk, kept_eta]; done) | split
                 | (with_reducible refine (when_kept _ _ _ ?_).trans ?_) | intro _ | simp)

theorem execSktStage_keeps (p : Port) (v : Word) (s : State) : Keeps s (execSktStage p v s) := by
  unfold execSktStage; refine vendorWrite_keeps ?_ ?_ <;> simp

@[simp] theorem sktCtrl_kept (v : Nat) (s : State) : (sktCtrl v s).kept = s.kept := by
  unfold sktCtrl
  repeat' (first | with_reducible rfl
                 | (simp only [State_putB_kept, State_put_kept, clearSketch_kept, varnishAbort_kept, kept_mk, kept_eta]; done)
                 | split | (with_reducible refine (when_kept _ _ _ ?_).trans ?_) | intro _ | simp)

theorem execSktCancel_keeps (p : Port) (v : Word) (s : State) : Keeps s (execSktCancel p v s) := by
  unfold execSktCancel; refine vendorWrite_keeps ?_ ?_ <;> simp

theorem execSktClear_keeps (p : Port) (v : Word) (s : State) : Keeps s (execSktClear p v s) := by
  unfold execSktClear; refine vendorWrite_keeps ?_ ?_ <;> simp

@[simp] theorem armVarnish_kept (v : Nat) (s : State) : (armVarnish v s).kept = s.kept := by
  unfold armVarnish
  repeat' (first | with_reducible rfl
                 | (simp only [State_put_kept, State_puts_kept, storeEv_kept, varnishAbort_kept, kept_mk, kept_eta]; done)
                 | split | (with_reducible refine (storeEv_kept (by assumption)).trans ?_) | intro _ | simp)

theorem execVarnishArm_keeps (p : Port) (v : Word) (s : State) : Keeps s (execVarnishArm p v s) := by
  unfold execVarnishArm; refine vendorWrite_keeps ?_ ?_ <;> simp

theorem execVarnishDistributed_keeps (s : State) : Keeps s (execVarnishDistributed s) := by
  unfold execVarnishDistributed
  repeat' (first | refine doIf_keeps ?_ ?_ | with_reducible rfl | split | simp)

theorem execVarnishFinalCheck_keeps (s : State) : Keeps s (execVarnishFinalCheck s) := by
  unfold execVarnishFinalCheck
  repeat' (first | refine doIf_keeps ?_ ?_ | with_reducible rfl | split | simp)

@[simp] theorem afterCommit_kept (s : State) (e : SkEntry) : (afterCommit s e).kept = s.kept := by
  unfold afterCommit
  repeat' (first | with_reducible rfl
                 | (simp only [followTarget_kept, rowChanged_kept, syncRate_kept, kept_mk, kept_eta]; done) | split
                 | (with_reducible refine (when_kept _ _ _ ?_).trans ?_) | intro _ | simp)

@[simp] theorem commitVarnish_kept (s : State) : (commitVarnish s).kept = s.kept := by
  unfold commitVarnish
  repeat' (first | with_reducible rfl
                 | (simp only [State_inc_kept, State_put_kept, afterCommit_kept, calYield_kept, clearSketch_kept, commitMode_kept, completeMode_kept, varnishResult_kept, kept_mk, kept_eta]; done)
                 | split | (with_reducible refine (foldl_kept _ _ ?_ _).trans ?_)
                 | (with_reducible refine (foldl_snd_kept _ _ ?_ _).trans ?_)
                 | (with_reducible refine (when_kept _ _ _ ?_).trans ?_) | intro _ | simp)

theorem execVarnishCommit_keeps (s : State) : Keeps s (execVarnishCommit s) := by
  unfold execVarnishCommit
  repeat' (first | refine doIf_keeps ?_ ?_ | refine next_keeps ?_ | with_reducible rfl
                 | (simp only [commitVarnish_kept, takeDue_kept, varnishAbort_kept, kept_mk, kept_eta]; done) | split
                 | (with_reducible refine (takeDue_kept (by assumption)).trans ?_) | intro _ | simp)

/-! ### View -/

@[simp] theorem readDraw_kept (off : Nat) (s : State) : (readDraw off s).kept = s.kept := by
  unfold readDraw
  repeat' (first | with_reducible rfl | (simp only [State_drawn_kept, kept_mk, kept_eta]; done) | split
                 | (with_reducible refine (when_kept _ _ _ ?_).trans ?_) | intro _ | simp)

/-! ### Admin -/

@[simp] theorem beginMount_kept (p : Nat) (cid : Nat) (cdw : Nat) (s : State) : (beginMount p cid cdw s).kept = s.kept := by
  unfold beginMount
  repeat' (first | with_reducible rfl | split | simp)

@[simp] theorem beginCalibrate_kept (p : Nat) (cid : Nat) (cdw : Nat) (s : State) : (beginCalibrate p cid cdw s).kept = s.kept := by
  unfold beginCalibrate
  repeat' (first | with_reducible rfl | split | simp)

@[simp] theorem beginPatrol_kept (p : Nat) (cid : Nat) (act : Nat) (s : State) : (beginPatrol p cid act s).kept = s.kept := by
  unfold beginPatrol
  repeat' (first | with_reducible rfl | split | simp)

@[simp] theorem beginCustody_kept (p : Nat) (cid : Nat) (res : Nat) (target : Nat) (s : State) : (beginCustody p cid res target
    s).kept = s.kept := by
  unfold beginCustody
  repeat' (first | with_reducible rfl | split | simp)

@[simp] theorem beginMode_kept (p : Nat) (cid : Nat) (idx : Nat) (s : State) : (beginMode p cid idx s).kept = s.kept := by
  unfold beginMode
  repeat' (first | with_reducible rfl | split | simp)

@[simp] theorem runAdmin_kept (l : LongCmd) (s : State) : (runAdmin l s).kept = s.kept := by
  unfold runAdmin
  repeat' (first | with_reducible rfl | split | simp)

@[simp] theorem beginAdmin_kept (l : LongCmd) (s : State) : (beginAdmin l s).kept = s.kept := by
  unfold beginAdmin
  split
  · exact (needMgmt_kept _ _ _ _ (runAdmin_kept ..)).trans rfl
  · exact (runAdmin_kept ..).trans rfl

@[simp] theorem pumpAdmin_kept (n : Nat) (s : State) : (pumpAdmin n s).kept = s.kept := by
  induction n generalizing s with
  | zero => rfl
  | succ n ih =>
    unfold pumpAdmin
    extract_lets u
    have e : u.kept = s.kept := by
      unfold u; repeat' (first | rfl | split | exact endDelete_kept ..)
    split
    · exact (ih _).trans ((beginAdmin_kept ..).trans e)
    · exact e

theorem enqueueLong_keeps (l : LongCmd) (s : State) : Keeps s (enqueueLong l s) := by
  unfold enqueueLong
  repeat' (first | refine next_keeps ?_ | with_reducible rfl
                 | (simp only [beginAdmin_kept, fetch_kept, kept_mk, kept_eta]; done) | split
                 | (with_reducible refine (fetch_kept (by assumption)).trans ?_) | intro _ | simp)

theorem execCustodyArbitration_keeps (s : State) : Keeps s (execCustodyArbitration s) := by
  unfold execCustodyArbitration
  repeat' (first | refine doIf_keeps ?_ ?_ | with_reducible rfl
                 | (simp only [arbitrate_kept, pumpAdmin_kept, kept_mk, kept_eta]; done) | split
                 | (with_reducible refine (forUpTo_kept _ _ _ ?_).trans ?_) | intro _ | simp)

theorem execNamespaceCreate_keeps (p : Port) (cid : BitVec 16) (n : NsCreate) (s : State) : Keeps s (execNamespaceCreate p cid n
    s) := by
  unfold execNamespaceCreate; exact enqueueLong_keeps .. <;> simp

theorem execNamespaceDelete_keeps (p : Port) (cid : BitVec 16) (nsid : BitVec 32) (s : State) : Keeps s (execNamespaceDelete p
    cid nsid s) := by
  unfold execNamespaceDelete; exact enqueueLong_keeps .. <;> simp

theorem execNamespaceAttachment_keeps (p : Port) (cid : BitVec 16) (nsid : BitVec 32) (detach : Bool) (ctrls : BitVec 2) (s :
    State) : Keeps s (execNamespaceAttachment p cid nsid detach ctrls s) := by
  unfold execNamespaceAttachment; exact enqueueLong_keeps .. <;> simp

theorem execKeyDeliver_keeps (p : Port) (cid : BitVec 16) (payload : List Byte) (s : State) : Keeps s (execKeyDeliver p cid
    payload s) := by
  unfold execKeyDeliver; exact enqueueLong_keeps .. <;> simp

theorem execKekInstall_keeps (p : Port) (cid : BitVec 16) (payload : List Byte) (s : State) : Keeps s (execKekInstall p cid
    payload s) := by
  unfold execKekInstall; exact enqueueLong_keeps .. <;> simp

theorem execKeyPurge_keeps (p : Port) (cid : BitVec 16) (nsid : BitVec 32) (s : State) : Keeps s (execKeyPurge p cid nsid s) := by
  unfold execKeyPurge; exact enqueueLong_keeps .. <;> simp

theorem execSecurityReceive_keeps (p : Port) (cid : BitVec 16) (proto : BitVec 8) (spsp : BitVec 16) (s : State) : Keeps s
    (execSecurityReceive p cid proto spsp s) := by
  unfold execSecurityReceive; exact enqueueLong_keeps .. <;> simp

theorem execSanitize_keeps (p : Port) (cid : BitVec 16) (cdw10 : Word) (s : State) : Keeps s (execSanitize p cid cdw10 s) := by
  unfold execSanitize; exact enqueueLong_keeps .. <;> simp

theorem execMount_keeps (p : Port) (cid : BitVec 16) (cdw10 : Word) (s : State) : Keeps s (execMount p cid cdw10 s) := by
  unfold execMount; exact enqueueLong_keeps .. <;> simp

theorem execCalibrate_keeps (p : Port) (cid : BitVec 16) (cdw10 : Word) (s : State) : Keeps s (execCalibrate p cid cdw10 s) := by
  unfold execCalibrate; exact enqueueLong_keeps .. <;> simp

theorem execPatrolPause_keeps (p : Port) (cid : BitVec 16) (s : State) : Keeps s (execPatrolPause p cid s) := by
  unfold execPatrolPause; exact enqueueLong_keeps .. <;> simp

theorem execPatrolResume_keeps (p : Port) (cid : BitVec 16) (s : State) : Keeps s (execPatrolResume p cid s) := by
  unfold execPatrolResume; exact enqueueLong_keeps .. <;> simp

theorem execPatrolRestart_keeps (p : Port) (cid : BitVec 16) (s : State) : Keeps s (execPatrolRestart p cid s) := by
  unfold execPatrolRestart; exact enqueueLong_keeps .. <;> simp

theorem execCustodyRequest_keeps (p : Port) (cid : BitVec 16) (nsid : BitVec 32) (target : Fin 4) (s : State) : Keeps s
    (execCustodyRequest p cid nsid target s) := by
  unfold execCustodyRequest; exact enqueueLong_keeps .. <;> simp

theorem execMode_keeps (p : Port) (cid : BitVec 16) (cdw10 : Word) (s : State) : Keeps s (execMode p cid cdw10 s) := by
  unfold execMode; exact enqueueLong_keeps .. <;> simp

theorem execPatrolQuery_keeps (p : Port) (cid : BitVec 16) (s : State) : Keeps s (execPatrolQuery p cid s) := by
  unfold execPatrolQuery; refine immediate_keeps ?_ <;> simp

theorem execCustodyQuery_keeps (p : Port) (cid : BitVec 16) (nsid : BitVec 32) (s : State) : Keeps s (execCustodyQuery p cid nsid
    s) := by
  unfold execCustodyQuery
  repeat' (first | refine immediate_keeps ?_ | with_reducible rfl | split | simp)

theorem execUnmount_keeps (p : Port) (cid : BitVec 16) (cdw10 : Word) (s : State) : Keeps s (execUnmount p cid cdw10 s) := by
  unfold execUnmount
  repeat' (first | refine immediate_keeps ?_ | with_reducible rfl
                 | (simp only [endAdm_kept, hold_kept, needMgmt_kept, kept_mk, kept_eta]; done) | split
                 | (with_reducible refine (needMgmt_kept _ _ _ _ ?_).trans ?_) | intro _ | simp)

theorem execUnsupportedOpcode_keeps (p : Port) (qid : BitVec 16) (cid : BitVec 16) (op : BitVec 8) (s : State) : Keeps s
    (execUnsupportedOpcode p qid cid op s) := by
  unfold execUnsupportedOpcode
  repeat' (first | refine next_keeps ?_ | with_reducible rfl | (simp only [fetch_kept, finishIo_kept, kept_mk, kept_eta]; done)
                 | split | (with_reducible refine (fetch_kept (by assumption)).trans ?_) | intro _ | simp)

/-! ### AdminPages -/

theorem execIdentify_keeps (p : Port) (cid : BitVec 16) (cns : BitVec 8) (csi : BitVec 8) (nsid : BitVec 32) (cntid : BitVec 16)
    (s : State) : Keeps s (execIdentify p cid cns csi nsid cntid s) := by
  unfold execIdentify
  repeat' (first | refine immediate_keeps ?_ | with_reducible rfl
                 | (simp only [State_drawn_kept, endAdm_kept, endData_kept, kept_mk, kept_eta]; done) | split
                 | (with_reducible refine (when_kept _ _ _ ?_).trans ?_) | intro _ | simp)

@[simp] theorem readLog_kept (p : Nat) (lid : Nat) (nsid : Nat) (s : State) : (readLog p lid nsid s).kept = s.kept := by
  unfold readLog
  repeat' (first | with_reducible rfl | split | simp)

theorem execGetLogPage_keeps (p : Port) (cid : BitVec 16) (lid : BitVec 8) (nsid : BitVec 32) (off : Nat) (len : Nat) (rae :
    Bool) (s : State) : Keeps s (execGetLogPage p cid lid nsid off len rae s) := by
  unfold execGetLogPage
  repeat' (first | refine immediate_keeps ?_ | with_reducible rfl
                 | (simp only [State_drawn_kept, endAdm_kept, endData_kept, readLog_kept, kept_mk, kept_eta]; done) | split
                 | (with_reducible refine (forUpTo_kept _ _ _ ?_).trans ?_) | intro _ | simp)

/-! ### Thermal -/

@[simp] theorem State_setThm_kept (s : State) (k : Thm → Thm) : (State.setThm s k).kept = s.kept := by
  simp [State.setThm]

@[simp] theorem askPickups_kept (hs : List Nat) (s : State) : (askPickups hs s).kept = s.kept := by
  unfold askPickups
  repeat' (first | with_reducible rfl | (simp only [queueXact_kept, kept_mk, kept_eta]; done) | split
                 | (with_reducible refine (foldl_kept _ _ ?_ _).trans ?_)
                 | (with_reducible refine (foldl_snd_kept _ _ ?_ _).trans ?_) | intro _ | simp)

theorem execGovernorDemand_keeps (s : State) : Keeps s (execGovernorDemand s) := by
  unfold execGovernorDemand
  repeat' (first | refine doIf_keeps ?_ ?_ | with_reducible rfl
                 | (simp only [State_inc_kept, State_setThm_kept, askPickups_kept, kept_mk, kept_eta]; done) | split
                 | (with_reducible refine (when_kept _ _ _ ?_).trans ?_) | intro _ | simp)

@[simp] theorem hostDemandEnds_kept (s : State) : (hostDemandEnds s).kept = s.kept := by
  unfold hostDemandEnds
  repeat' (first | with_reducible rfl | split | simp)

@[simp] theorem runHostDemand_kept (s : State) : (runHostDemand s).kept = s.kept := by
  unfold runHostDemand
  repeat' (first | with_reducible rfl | split | simp)

@[simp] theorem thmDemand_kept (v : Nat) (s : State) : (thmDemand v s).kept = s.kept := by
  unfold thmDemand
  repeat' (first | with_reducible rfl | (simp only [State_put_kept, State_puts_kept, storeEv_kept, kept_mk, kept_eta]; done)
                 | split | (with_reducible refine (when_kept _ _ _ ?_).trans ?_)
                 | (with_reducible refine (storeEv_kept (by assumption)).trans ?_) | intro _ | simp)

theorem execThmDemand_keeps (p : Port) (v : Word) (s : State) : Keeps s (execThmDemand p v s) := by
  unfold execThmDemand; refine vendorWrite_keeps ?_ ?_ <;> simp

@[simp] theorem markSuspect_kept (k : Nat) (v : Int) (s : State) : (markSuspect k v s).kept = s.kept := by
  unfold markSuspect
  repeat' (first | with_reducible rfl | split | simp)

@[simp] theorem judgeSensor_kept (mask : Nat) (vals : List Int) (s : State) (k : Nat) : (judgeSensor mask vals s k).kept = s.kept
    := by
  unfold judgeSensor
  repeat' (first | with_reducible rfl
                 | (simp only [State_put_kept, State_setBit_kept, State_setThm_kept, markSuspect_kept, kept_mk, kept_eta]; done) | split
                 | (with_reducible refine (when_kept _ _ _ ?_).trans ?_) | intro _ | simp)

@[simp] theorem judgeRange_kept (conv : Nat) (vals : List Int) (s : State) : (judgeRange conv vals s).kept = s.kept := by
  unfold judgeRange
  repeat' (first | with_reducible rfl | (simp only [State_setThm_kept, markSuspect_kept, kept_mk, kept_eta]; done) | split
                 | (with_reducible refine (foldl_kept _ _ ?_ _).trans ?_)
                 | (with_reducible refine (foldl_snd_kept _ _ ?_ _).trans ?_) | intro _ | simp)

@[simp] theorem judgeAll_kept (vals : List Int) (s : State) : (judgeAll vals s).kept = s.kept := by
  unfold judgeAll
  repeat' (first | with_reducible rfl | (simp only [judgeSensor_kept, kept_mk, kept_eta]; done) | split
                 | (with_reducible refine (foldl_kept _ _ ?_ _).trans ?_)
                 | (with_reducible refine (foldl_snd_kept _ _ ?_ _).trans ?_) | intro _ | simp)

theorem execSensorSuspect_keeps (k : Fin 16) (code : BitVec 16) (s : State) : Keeps s (execSensorSuspect k code s) := by
  unfold execSensorSuspect; refine doIf_keeps ?_ ?_ <;> simp

@[simp] theorem heatStops_kept (tmax : Int) (rate : Int) (s : State) : (heatStops tmax rate s).kept = s.kept := by
  unfold heatStops
  repeat' (first | with_reducible rfl | (simp only [logFlt_kept, orderlyStop_kept, safeStop_kept, kept_mk, kept_eta]; done)
                 | split | (with_reducible refine (when_kept _ _ _ ?_).trans ?_) | intro _ | simp)

@[simp] theorem govern_kept (us : Nat) (s : State) : (govern us s).kept = s.kept := by
  unfold govern
  repeat' (first | with_reducible rfl
                 | (simp only [State_drawn_kept, State_inc_kept, State_puts_kept, State_setThm_kept, heatStops_kept, logFlt_kept, kept_mk, kept_eta]; done)
                 | split | (with_reducible refine (foldl_kept _ _ ?_ _).trans ?_)
                 | (with_reducible refine (foldl_snd_kept _ _ ?_ _).trans ?_)
                 | (with_reducible refine (when_kept _ _ _ ?_).trans ?_) | intro _ | simp)

@[simp] theorem storeDie_kept (mask : Nat) (vals : List Int) (s : State) : (storeDie mask vals s).kept = s.kept := by
  unfold storeDie
  repeat' (first | with_reducible rfl | (simp only [State_putI_kept, State_put_kept, kept_mk, kept_eta]; done) | split
                 | (with_reducible refine (forUpTo_kept _ _ _ ?_).trans ?_) | intro _ | simp)

theorem execDieConversionDone_keeps (codes : List (BitVec 16)) (us : Nat) (s : State) : Keeps s (execDieConversionDone codes us
    s) := by
  unfold execDieConversionDone
  repeat' (first | refine doIf_keeps ?_ ?_ | with_reducible rfl
                 | (simp only [State_setThm_kept, govern_kept, hostDemandEnds_kept, judgeAll_kept, judgeRange_kept, spoilWindow_kept, storeDie_kept, kept_mk, kept_eta]; done)
                 | split | (with_reducible refine (when_kept _ _ _ ?_).trans ?_) | intro _ | simp)

@[simp] theorem takeDuty_kept (s : State) : (takeDuty s).kept = s.kept := by
  unfold takeDuty
  repeat' (first | with_reducible rfl | (simp only [State_setThm_kept, kept_mk, kept_eta]; done) | split
                 | (with_reducible refine (when_kept _ _ _ ?_).trans ?_) | intro _ | simp)

theorem execDutyUpdate_keeps (s : State) : Keeps s (execDutyUpdate s) := by
  unfold execDutyUpdate; refine doIf_keeps ?_ ?_ <;> simp

theorem execDieBandChange_keeps (s : State) : Keeps s (execDieBandChange s) := by
  unfold execDieBandChange; refine doIf_keeps ?_ ?_ <;> simp

theorem execThermalComparatorTrip_keeps (s : State) : Keeps s (execThermalComparatorTrip s) := by
  unfold execThermalComparatorTrip; refine doIf_keeps ?_ ?_ <;> simp

/-! ### Angle -/

@[simp] theorem advance_kept (s : State) : (advance s).kept = s.kept := by
  unfold advance
  repeat' (first | with_reducible rfl | split | simp)

@[simp] theorem takeStep_kept (s : State) : (takeStep s).kept = s.kept := by
  unfold takeStep
  repeat' (first | with_reducible rfl | split | simp)

@[simp] theorem tickDuties_kept (s : State) : (tickDuties s).kept = s.kept := by
  unfold tickDuties
  repeat' (first | with_reducible rfl | split | simp)

theorem execTriggerResolution_keeps (s : State) : Keeps s (execTriggerResolution s) := by
  unfold execTriggerResolution
  repeat' (first | refine doIf_keeps ?_ ?_ | with_reducible rfl
                 | (simp only [discardTrigger_kept, safeStop_kept, settleWrites_kept, takeTrigger_kept, kept_mk, kept_eta]; done) | split
                 | (with_reducible refine (foldl_kept _ _ ?_ _).trans ?_)
                 | (with_reducible refine (foldl_snd_kept _ _ ?_ _).trans ?_)
                 | (with_reducible refine (when_kept _ _ _ ?_).trans ?_) | intro _ | simp)

theorem execTick_keeps (s : State) : Keeps s (execTick s) := by
  unfold execTick; refine doIf_keeps ?_ ?_ <;> simp

@[simp] theorem countFollow_kept (h : Nat) (s : State) : (countFollow h s).kept = s.kept := by
  simp [countFollow]

@[simp] theorem nextRing_kept (h : Nat) (s : State) : (nextRing h s).kept = s.kept := by
  unfold nextRing
  repeat' (first | with_reducible rfl | split | simp)

@[simp] theorem wedgeStart_kept (h : Nat) (s : State) : (wedgeStart h s).kept = s.kept := by
  unfold wedgeStart
  repeat' (first | with_reducible rfl
                 | (simp only [State_setBit_kept, State_setTr_kept, countFollow_kept, detWedge_kept, reloadStale_kept, kept_mk, kept_eta]; done)
                 | split | (with_reducible refine (when_kept _ _ _ ?_).trans ?_) | intro _ | simp)

theorem execWedgeBoundary_keeps (h : Head) (s : State) : Keeps s (execWedgeBoundary h s) := by
  unfold execWedgeBoundary
  repeat' (first | refine doIf_keeps ?_ ?_ | with_reducible rfl
                 | (simp only [State_setNow_kept, State_setTr_kept, headRowLoad_kept, nextRing_kept, wedgeStart_kept, kept_mk, kept_eta]; done)
                 | split | (with_reducible refine (when_kept _ _ _ ?_).trans ?_) | intro _ | simp)

theorem execMarkDecoded_keeps (h : Head) (wedge : Fin 64) (word : BitVec 24) (rate : BitVec 24) (rev : BitVec 24) (s : State) :
    Keeps s (execMarkDecoded h wedge word rate rev s) := by
  unfold execMarkDecoded
  repeat' (first | refine doIf_keeps ?_ ?_ | with_reducible rfl
                 | (simp only [State_setBit_kept, State_setTr_kept, countMisread_kept, setOffset_kept, syncRate_kept, kept_mk, kept_eta]; done)
                 | split | (with_reducible refine (when_kept _ _ _ ?_).trans ?_) | intro _ | simp)

@[simp] theorem correct_kept (e : Int) (s : State) : (correct e s).kept = s.kept := by
  unfold correct
  repeat' (first | with_reducible rfl | split | simp)

@[simp] theorem indexAngle_kept (h : Nat) (s : State) : (indexAngle h s).kept = s.kept := by
  unfold indexAngle
  repeat' (first | with_reducible rfl
                 | (simp only [State_put_kept, fireTick_kept, logFlt_kept, setOffset_kept, stepForward_kept, kept_mk, kept_eta]; done)
                 | split | (with_reducible refine (forUpTo_kept _ _ _ ?_).trans ?_) | intro _ | simp)

theorem execMarkEntry_keeps (h : Head) (s : State) : Keeps s (execMarkEntry h s) := by
  unfold execMarkEntry
  repeat' (first | refine doIf_keeps ?_ ?_ | with_reducible rfl
                 | (simp only [State_put_kept, State_setTr_kept, correct_kept, indexAngle_kept, syncRate_kept, kept_mk, kept_eta]; done)
                 | split | (with_reducible refine (forUpTo_kept _ _ _ ?_).trans ?_) | intro _ | simp)

theorem execSlewComplete_keeps (s : State) : Keeps s (execSlewComplete s) := by
  unfold execSlewComplete; refine doIf_keeps ?_ ?_ <;> simp

theorem execMarkLoss_keeps (s : State) : Keeps s (execMarkLoss s) := by
  unfold execMarkLoss
  repeat' (first | refine doIf_keeps ?_ ?_ | with_reducible rfl
                 | (simp only [State_setTr_kept, srcFall_kept, kept_mk, kept_eta]; done) | split
                 | (with_reducible refine (forUpTo_kept _ _ _ ?_).trans ?_) | intro _ | simp)

theorem execCoarseEntry_keeps (rate : BitVec 24) (s : State) : Keeps s (execCoarseEntry rate s) := by
  unfold execCoarseEntry; refine doIf_keeps ?_ ?_ <;> simp

theorem execCoarseLoss_keeps (s : State) : Keeps s (execCoarseLoss s) := by
  unfold execCoarseLoss; refine doIf_keeps ?_ ?_ <;> simp

theorem execWobbleLock_keeps (e : Int) (rate : BitVec 24) (s : State) : Keeps s (execWobbleLock e rate s) := by
  unfold execWobbleLock
  repeat' (first | refine doIf_keeps ?_ ?_ | with_reducible rfl | split | simp)

theorem execWobbleLockLoss_keeps (s : State) : Keeps s (execWobbleLockLoss s) := by
  unfold execWobbleLockLoss; refine doIf_keeps ?_ ?_ <;> simp

theorem execWobbleRefSwitch_keeps (s : State) : Keeps s (execWobbleRefSwitch s) := by
  unfold execWobbleRefSwitch; refine doIf_keeps ?_ ?_ <;> simp

theorem execRampSettled_keeps (s : State) : Keeps s (execRampSettled s) := by
  unfold execRampSettled; refine doIf_keeps ?_ ?_ <;> simp

theorem execAngAlarmArm_keeps (p : Port) (v : Word) (s : State) : Keeps s (execAngAlarmArm p v s) := by
  unfold execAngAlarmArm; refine vendorWrite_keeps ?_ ?_ <;> simp

theorem execAlarm_keeps (s : State) : Keeps s (execAlarm s) := by
  unfold execAlarm
  repeat' (first | refine doIf_keeps ?_ ?_ | refine next_keeps ?_ | with_reducible rfl | split | simp)

@[simp] theorem headWindow_kept (n : Nat) (h : Nat) (s : State) : (headWindow n h s).kept = s.kept := by
  unfold headWindow
  repeat' (first | with_reducible rfl | split | simp)

@[simp] theorem layerRate_kept (l : Nat) (s : State) : (layerRate l s).kept = s.kept := by
  unfold layerRate
  repeat' (first | with_reducible rfl | split | simp)

@[simp] theorem layerFit_kept (w : LayerWin) (s : State) : (layerFit w s).kept = s.kept := by
  unfold layerFit
  repeat' (first | with_reducible rfl | split | simp)

@[simp] theorem newWindow_kept (s : State) : (newWindow s).kept = s.kept := by
  simp [newWindow]

theorem execMeasurementWindowEnd_keeps (m : WinMeas) (s : State) : Keeps s (execMeasurementWindowEnd m s) := by
  unfold execMeasurementWindowEnd
  repeat' (first | refine doIf_keeps ?_ ?_ | with_reducible rfl
                 | (simp only [State_drawn_kept, State_inc_kept, State_put_kept, State_puts_kept, headWindow_kept, layerFit_kept, layerRate_kept, newWindow_kept, kept_mk, kept_eta]; done)
                 | split | (with_reducible refine (foldl_kept _ _ ?_ _).trans ?_)
                 | (with_reducible refine (foldl_snd_kept _ _ ?_ _).trans ?_)
                 | (with_reducible refine (when_kept _ _ _ ?_).trans ?_)
                 | (with_reducible refine (forUpTo_kept _ _ _ ?_).trans ?_) | intro _ | simp)

/-! ### AtticRead -/

@[simp] theorem takeRecords_kept (copies : List Nat) (l : List (AttRec × List Nat)) (s : State) : (takeRecords copies l s).kept =
    s.kept := by
  simp [takeRecords]

/-! ### Cellar -/

@[simp] theorem celFails_kept (err : Nat) (s : State) : (celFails err s).kept = s.kept := by
  simp [celFails]

@[simp] theorem celCmd_kept (v : Nat) (s : State) : (celCmd v s).kept = s.kept := by
  unfold celCmd
  repeat' (first | with_reducible rfl | split | simp)

theorem execCelRead_keeps (p : Port) (v : Word) (s : State) : Keeps s (execCelRead p v s) := by
  unfold execCelRead; refine vendorWrite_keeps ?_ ?_ <;> simp

theorem execCelProgram_keeps (p : Port) (v : Word) (s : State) : Keeps s (execCelProgram p v s) := by
  unfold execCelProgram; refine vendorWrite_keeps ?_ ?_ <;> simp

theorem execCelErase_keeps (p : Port) (v : Word) (s : State) : Keeps s (execCelErase p v s) := by
  unfold execCelErase; refine vendorWrite_keeps ?_ ?_ <;> simp

@[simp] theorem celErase_kept (k : Nat) (s : State) : (celErase k s).kept = s.kept := by
  simp [celErase]

@[simp] theorem celProgram_kept (w : Nat) (v : Nat) (s : State) : (celProgram w v s).kept = s.kept := by
  unfold celProgram
  repeat' (first | with_reducible rfl | (simp only [State_put_kept, celErase_kept, kept_mk, kept_eta]; done) | split
                 | (with_reducible refine (when_kept _ _ _ ?_).trans ?_) | intro _ | simp)

@[simp] theorem celReadWord_kept (w : Nat) (ok : Bool) (s : State) : (celReadWord w ok s).kept = s.kept := by
  unfold celReadWord
  repeat' (first | with_reducible rfl | (simp only [State_inc_kept, State_put_kept, kept_mk, kept_eta]; done) | split
                 | (with_reducible refine (when_kept _ _ _ ?_).trans ?_)
                 | (with_reducible refine (forUpTo_kept _ _ _ ?_).trans ?_) | intro _ | simp)

@[simp] theorem journalDone_kept (v : Nat) (s : State) : (journalDone v s).kept = s.kept := by
  unfold journalDone
  repeat' (first | with_reducible rfl | split | simp)

@[simp] theorem deltaDone_kept (e : List Nat) (s : State) : (deltaDone e s).kept = s.kept := by
  simp [deltaDone]

@[simp] theorem ledgerDone_kept (v : Nat) (s : State) : (ledgerDone v s).kept = s.kept := by
  unfold ledgerDone
  repeat' (first | with_reducible rfl | (simp only [deltaDone_kept, kept_mk, kept_eta]; done) | split
                 | (with_reducible refine (when_kept _ _ _ ?_).trans ?_) | intro _ | simp)

@[simp] theorem celOwner_kept (o : CelOp) (s : State) : (celOwner o s).kept = s.kept := by
  unfold celOwner
  repeat' (first | with_reducible rfl | split | simp)

@[simp] theorem celAct_kept (o : CelOp) (w : Nat) (ok : Bool) (s : State) : (celAct o w ok s).kept = s.kept := by
  unfold celAct
  repeat' (first | with_reducible rfl | split | simp)

theorem execCellarOpComplete_keeps (ok : Bool) (s : State) : Keeps s (execCellarOpComplete ok s) := by
  unfold execCellarOpComplete
  repeat' (first | refine doIf_keeps ?_ ?_ | with_reducible rfl | split | simp)

@[simp] theorem reappendJournal_kept (s : State) : (reappendJournal s).kept = s.kept := by
  unfold reappendJournal
  repeat' (first | with_reducible rfl | (simp only [appendJournal_kept, kept_mk, kept_eta]; done) | split
                 | (with_reducible refine (foldl_kept _ _ ?_ _).trans ?_)
                 | (with_reducible refine (foldl_snd_kept _ _ ?_ _).trans ?_)
                 | (with_reducible refine (when_kept _ _ _ ?_).trans ?_) | intro _ | simp)

@[simp] theorem reappendLedger_kept (s : State) : (reappendLedger s).kept = s.kept := by
  unfold reappendLedger
  repeat' (first | with_reducible rfl | (simp only [appendLedger_kept, writeLedger_kept, kept_mk, kept_eta]; done) | split
                 | (with_reducible refine (foldl_kept _ _ ?_ _).trans ?_)
                 | (with_reducible refine (foldl_snd_kept _ _ ?_ _).trans ?_) | intro _ | simp)

theorem execCellarEraseRequest_keeps (ledger : Bool) (s : State) : Keeps s (execCellarEraseRequest ledger s) := by
  unfold execCellarEraseRequest
  repeat' (first | refine doIf_keeps ?_ ?_ | with_reducible rfl | split | simp)

@[simp] theorem celUnlock_kept (recent : Bool) (v : Nat) (s : State) : (celUnlock recent v s).kept = s.kept := by
  unfold celUnlock
  repeat' (first | with_reducible rfl | split | simp)

theorem execCelUnlock_keeps (p : Port) (v : Word) (recent : Bool) (s : State) : Keeps s (execCelUnlock p v recent s) := by
  unfold execCelUnlock; refine vendorWrite_keeps ?_ ?_ <;> simp

theorem execCelLock_keeps (p : Port) (v : Word) (s : State) : Keeps s (execCelLock p v s) := by
  unfold execCelLock; refine vendorWrite_keeps ?_ ?_ <;> simp

theorem execCelSetpw_keeps (p : Port) (v : Word) (s : State) : Keeps s (execCelSetpw p v s) := by
  unfold execCelSetpw; refine vendorWrite_keeps ?_ ?_ <;> simp

theorem execCelSetprot_keeps (p : Port) (v : Word) (s : State) : Keeps s (execCelSetprot p v s) := by
  unfold execCelSetprot; refine vendorWrite_keeps ?_ ?_ <;> simp

end Sys2Proof.Machine
end

