-- ==== Sys2Proof/Laws/KeepRows.lean ====
section
/-! SUPPORT. What each operation leaves alone, the rest of the rows: one lemma per function that answers a state (it keeps buffer memory and
the queue), one per row (it answers a next state that keeps both). -/

set_option linter.unusedSimpArgs false

namespace Sys2Proof.Machine
open R

/-! ### Power -/

@[simp] theorem vinGood_kept (s : State) : (vinGood s).kept = s.kept := by
  simp [vinGood]

theorem execVinPowerGood_keeps (s : State) : Keeps s (execVinPowerGood s) := by
  unfold execVinPowerGood; refine doIf_keeps ?_ ?_ <;> simp

theorem execRegulatorRestart_keeps (s : State) : Keeps s (execRegulatorRestart s) := by
  unfold execRegulatorRestart; refine doIf_keeps ?_ ?_ <;> simp

theorem execVinHoldUp_keeps (s : State) : Keeps s (execVinHoldUp s) := by
  unfold execVinHoldUp; refine doIf_keeps ?_ ?_ <;> simp

theorem execVinBrownOut_keeps (s : State) : Keeps s (execVinBrownOut s) := by
  unfold execVinBrownOut; refine doIf_keeps ?_ ?_ <;> simp

theorem execVinRecovered_keeps (s : State) : Keeps s (execVinRecovered s) := by
  unfold execVinRecovered
  repeat' (first | refine doIf_keeps ?_ ?_ | with_reducible rfl | split | simp)

theorem execVinSample_keeps (mv : BitVec 16) (s : State) : Keeps s (execVinSample mv s) := by
  unfold execVinSample
  repeat' (first | refine doIf_keeps ?_ ?_ | with_reducible rfl | (simp only [State_put_kept, kept_mk, kept_eta]; done) | split
                 | (with_reducible refine (when_kept _ _ _ ?_).trans ?_) | intro _ | simp)

@[simp] theorem freeze_kept (tap : Bool) (s : State) : (freeze tap s).kept = s.kept := by
  simp [freeze]

theorem execFreezePin_keeps (s : State) : Keeps s (execFreezePin s) := by
  unfold execFreezePin; refine doIf_keeps ?_ ?_ <;> simp

@[simp] theorem raiseFullReset_kept (last : Nat) (s : State) : (raiseFullReset last s).kept = s.kept := by
  simp [raiseFullReset]

@[simp] theorem sysReset_kept (v : Nat) (s : State) : (sysReset v s).kept = s.kept := by
  unfold sysReset
  repeat' (first | with_reducible rfl | split | simp)

theorem execSysResetFull_keeps (p : Port) (v : Word) (s : State) : Keeps s (execSysResetFull p v s) := by
  unfold execSysResetFull; refine vendorWrite_keeps ?_ ?_ <;> simp

/-! ### Reads -/

@[simp] theorem fifoTake_kept (i : Nat) (s : State) : (fifoTake i s).kept = s.kept := by
  unfold fifoTake
  repeat' (first | with_reducible rfl | split | simp)

@[simp] theorem latchHi_kept (off : Nat) (s : State) : (latchHi off s).kept = s.kept := by
  unfold latchHi
  repeat' (first | with_reducible rfl | split | simp)

@[simp] theorem latchAlias_kept (off : Nat) (s : State) : (latchAlias off s).kept = s.kept := by
  unfold latchAlias
  repeat' (first | with_reducible rfl | split | simp)

@[simp] theorem readSide_kept (off : Nat) (s : State) : (readSide off s).kept = s.kept := by
  unfold readSide
  repeat' (first | with_reducible rfl | (simp only [State_put_kept, fifoTake_kept, latchHi_kept, kept_mk, kept_eta]; done)
                 | split | (with_reducible refine (foldl_kept _ _ ?_ _).trans ?_)
                 | (with_reducible refine (foldl_snd_kept _ _ ?_ _).trans ?_) | intro _ | simp)

@[simp] theorem readReg_kept (off : Nat) (s : State) : (readReg off s).kept = s.kept := by
  simp [readReg]

@[simp] theorem readAlias_kept (off : Nat) (s : State) : (readAlias off s).kept = s.kept := by
  simp [readAlias]

theorem readRow_keeps (p : Nat) (off : Nat) (s : State) : Keeps s (readRow p off s) := by
  unfold readRow
  repeat' (first | refine doIf_keeps ?_ ?_ | with_reducible rfl | split | simp)

theorem execLoRegisterRead_keeps (p : Port) (which : Fin 3) (viaAlias : Bool) (s : State) : Keeps s (execLoRegisterRead p which
    viaAlias s) := by
  unfold execLoRegisterRead
  repeat' (first | exact readRow_keeps .. | refine doIf_keeps ?_ ?_ | with_reducible rfl | split | simp)

@[simp] theorem loseItem_kept (i : Nat) (s : State) : (loseItem i s).kept = s.kept := by
  unfold loseItem
  repeat' (first | with_reducible rfl | (simp only [State_inc_kept, State_put_kept, kept_mk, kept_eta]; done) | split
                 | (with_reducible refine (when_kept _ _ _ ?_).trans ?_) | intro _ | simp)

theorem execFifDataRead_keeps (p : Port) (f : FifoId) (o : BlockRead) (s : State) : Keeps s (execFifDataRead p f o s) := by
  unfold execFifDataRead
  extract_lets held r
  have er : r.2.kept = s.kept := by
    unfold r; split
    · exact memLoad_snd_kept ..
    · rfl
  have e : (if r.1 then r.2 else loseItem f r.2).kept = s.kept := by
    split
    · exact er
    · exact (loseItem_kept ..).trans er
  obtain ⟨t, ht, hk⟩ := readRow_keeps (↑p) (FIF_DATA_WORD f).off (if r.1 then r.2 else loseItem f r.2)
  exact ⟨t, ht, hk.trans e⟩

@[simp] theorem fifDrop_kept (v : Nat) (s : State) : (fifDrop v s).kept = s.kept := by
  unfold fifDrop
  repeat' (first | with_reducible rfl | split | simp)

theorem execFifDrop_keeps (p : Port) (v : Word) (s : State) : Keeps s (execFifDrop p v s) := by
  unfold execFifDrop; refine vendorWrite_keeps ?_ ?_ <;> simp

theorem execAngLockRead_keeps (p : Port) (s : State) : Keeps s (execAngLockRead p s) := by
  unfold execAngLockRead; exact readRow_keeps .. <;> simp

theorem execAngEvtRead_keeps (p : Port) (s : State) : Keeps s (execAngEvtRead p s) := by
  unfold execAngEvtRead; exact readRow_keeps .. <;> simp

theorem execAngQwinRead_keeps (p : Port) (s : State) : Keeps s (execAngQwinRead p s) := by
  unfold execAngQwinRead; exact readRow_keeps .. <;> simp

theorem execSktCntRead_keeps (p : Port) (s : State) : Keeps s (execSktCntRead p s) := by
  unfold execSktCntRead; exact readRow_keeps .. <;> simp

theorem execOpuHstatRead_keeps (p : Port) (h : Head) (s : State) : Keeps s (execOpuHstatRead p h s) := by
  unfold execOpuHstatRead; exact readRow_keeps .. <;> simp

theorem execOpuLinkrspRead_keeps (p : Port) (h : Head) (s : State) : Keeps s (execOpuLinkrspRead p h s) := by
  unfold execOpuLinkrspRead; exact readRow_keeps .. <;> simp

theorem execOpuGstatRead_keeps (p : Port) (s : State) : Keeps s (execOpuGstatRead p s) := by
  unfold execOpuGstatRead; exact readRow_keeps .. <;> simp

theorem execSrvLstatRead_keeps (p : Port) (l : Loop) (s : State) : Keeps s (execSrvLstatRead p l s) := by
  unfold execSrvLstatRead; exact readRow_keeps .. <;> simp

theorem execSrvArithRead_keeps (p : Port) (l : Loop) (s : State) : Keeps s (execSrvArithRead p l s) := by
  unfold execSrvArithRead; exact readRow_keeps .. <;> simp

theorem execSrvHcntRead_keeps (p : Port) (h : Head) (s : State) : Keeps s (execSrvHcntRead p h s) := by
  unfold execSrvHcntRead; exact readRow_keeps .. <;> simp

theorem execSrvTqwinRead_keeps (p : Port) (h : Head) (s : State) : Keeps s (execSrvTqwinRead p h s) := by
  unfold execSrvTqwinRead; exact readRow_keeps .. <;> simp

theorem execSrvShkstRead_keeps (p : Port) (s : State) : Keeps s (execSrvShkstRead p s) := by
  unfold execSrvShkstRead; exact readRow_keeps .. <;> simp

theorem execSldCntRead_keeps (p : Port) (h : Head) (s : State) : Keeps s (execSldCntRead p h s) := by
  unfold execSldCntRead; exact readRow_keeps .. <;> simp

theorem execSpnDistRead_keeps (p : Port) (s : State) : Keeps s (execSpnDistRead p s) := by
  unfold execSpnDistRead; exact readRow_keeps .. <;> simp

theorem execChnLstatRead_keeps (p : Port) (l : Lane) (s : State) : Keeps s (execChnLstatRead p l s) := by
  unfold execChnLstatRead; exact readRow_keeps .. <;> simp

theorem execDetHcntRead_keeps (p : Port) (h : Head) (s : State) : Keeps s (execDetHcntRead p h s) := by
  unfold execDetHcntRead; exact readRow_keeps .. <;> simp

theorem execDetPassRead_keeps (p : Port) (h : Head) (s : State) : Keeps s (execDetPassRead p h s) := by
  unfold execDetPassRead; exact readRow_keeps .. <;> simp

theorem execCwdQueueRead_keeps (p : Port) (s : State) : Keeps s (execCwdQueueRead p s) := by
  unfold execCwdQueueRead; exact readRow_keeps .. <;> simp

theorem execCwdTagcntRead_keeps (p : Port) (s : State) : Keeps s (execCwdTagcntRead p s) := by
  unfold execCwdTagcntRead; exact readRow_keeps .. <;> simp

theorem execCwdCntRead_keeps (p : Port) (s : State) : Keeps s (execCwdCntRead p s) := by
  unfold execCwdCntRead; exact readRow_keeps .. <;> simp

theorem execWrsHstatRead_keeps (p : Port) (h : Head) (s : State) : Keeps s (execWrsHstatRead p h s) := by
  unfold execWrsHstatRead; exact readRow_keeps .. <;> simp

theorem execWrsOpcstRead_keeps (p : Port) (h : Head) (s : State) : Keeps s (execWrsOpcstRead p h s) := by
  unfold execWrsOpcstRead; exact readRow_keeps .. <;> simp

theorem execWrsVcntRead_keeps (p : Port) (h : Head) (s : State) : Keeps s (execWrsVcntRead p h s) := by
  unfold execWrsVcntRead; exact readRow_keeps .. <;> simp

theorem execStrCntRead_keeps (p : Port) (s : State) : Keeps s (execStrCntRead p s) := by
  unfold execStrCntRead; exact readRow_keeps .. <;> simp

theorem execStrReconRead_keeps (p : Port) (s : State) : Keeps s (execStrReconRead p s) := by
  unfold execStrReconRead; exact readRow_keeps .. <;> simp

theorem execStrSlowRead_keeps (p : Port) (s : State) : Keeps s (execStrSlowRead p s) := by
  unfold execStrSlowRead; exact readRow_keeps .. <;> simp

theorem execStrRbRead_keeps (p : Port) (s : State) : Keeps s (execStrRbRead p s) := by
  unfold execStrRbRead; exact readRow_keeps .. <;> simp

theorem execMapDfRead_keeps (p : Port) (s : State) : Keeps s (execMapDfRead p s) := by
  unfold execMapDfRead; exact readRow_keeps .. <;> simp

theorem execMapDfmaxRead_keeps (p : Port) (s : State) : Keeps s (execMapDfmaxRead p s) := by
  unfold execMapDfmaxRead; exact readRow_keeps .. <;> simp

theorem execMapCkptRead_keeps (p : Port) (s : State) : Keeps s (execMapCkptRead p s) := by
  unfold execMapCkptRead; exact readRow_keeps .. <;> simp

theorem execMapCleanRead_keeps (p : Port) (s : State) : Keeps s (execMapCleanRead p s) := by
  unfold execMapCleanRead; exact readRow_keeps .. <;> simp

theorem execHltRefqRead_keeps (p : Port) (s : State) : Keeps s (execHltRefqRead p s) := by
  unfold execHltRefqRead; exact readRow_keeps .. <;> simp

theorem execHltCntRead_keeps (p : Port) (s : State) : Keeps s (execHltCntRead p s) := by
  unfold execHltCntRead; exact readRow_keeps .. <;> simp

theorem execHltLedgRead_keeps (p : Port) (s : State) : Keeps s (execHltLedgRead p s) := by
  unfold execHltLedgRead; exact readRow_keeps .. <;> simp

theorem execCalCntRead_keeps (p : Port) (s : State) : Keeps s (execCalCntRead p s) := by
  unfold execCalCntRead; exact readRow_keeps .. <;> simp

theorem execHstPortRead_keeps (p : Port) (i : Port) (s : State) : Keeps s (execHstPortRead p i s) := by
  unfold execHstPortRead; exact readRow_keeps .. <;> simp

theorem execHstInflRead_keeps (p : Port) (i : Port) (s : State) : Keeps s (execHstInflRead p i s) := by
  unfold execHstInflRead; exact readRow_keeps .. <;> simp

theorem execHstCustRead_keeps (p : Port) (s : State) : Keeps s (execHstCustRead p s) := by
  unfold execHstCustRead; exact readRow_keeps .. <;> simp

theorem execHstRlockRead_keeps (p : Port) (s : State) : Keeps s (execHstRlockRead p s) := by
  unfold execHstRlockRead; exact readRow_keeps .. <;> simp

theorem execHstErrcntRead_keeps (p : Port) (s : State) : Keeps s (execHstErrcntRead p s) := by
  unfold execHstErrcntRead; exact readRow_keeps .. <;> simp

theorem execMemSweepRead_keeps (p : Port) (s : State) : Keeps s (execMemSweepRead p s) := by
  unfold execMemSweepRead; exact readRow_keeps .. <;> simp

theorem execMemCeBucketRead_keeps (p : Port) (s : State) : Keeps s (execMemCeBucketRead p s) := by
  unfold execMemCeBucketRead; exact readRow_keeps .. <;> simp

theorem execMemCecntRead_keeps (p : Port) (s : State) : Keeps s (execMemCecntRead p s) := by
  unfold execMemCecntRead; exact readRow_keeps .. <;> simp

theorem execMemUecntRead_keeps (p : Port) (s : State) : Keeps s (execMemUecntRead p s) := by
  unfold execMemUecntRead; exact readRow_keeps .. <;> simp

theorem execMemBar2Read_keeps (p : Port) (s : State) : Keeps s (execMemBar2Read p s) := by
  unfold execMemBar2Read; exact readRow_keeps .. <;> simp

theorem execLrdHitsRead_keeps (p : Port) (s : State) : Keeps s (execLrdHitsRead p s) := by
  unfold execLrdHitsRead; exact readRow_keeps .. <;> simp

theorem execLrdMissesRead_keeps (p : Port) (s : State) : Keeps s (execLrdMissesRead p s) := by
  unfold execLrdMissesRead; exact readRow_keeps .. <;> simp

theorem execLrdSeqcntRead_keeps (p : Port) (s : State) : Keeps s (execLrdSeqcntRead p s) := by
  unfold execLrdSeqcntRead; exact readRow_keeps .. <;> simp

theorem execLrdErrRead_keeps (p : Port) (s : State) : Keeps s (execLrdErrRead p s) := by
  unfold execLrdErrRead; exact readRow_keeps .. <;> simp

theorem execSeqHitsRead_keeps (p : Port) (q : Seq) (s : State) : Keeps s (execSeqHitsRead p q s) := by
  unfold execSeqHitsRead; exact readRow_keeps .. <;> simp

theorem execFifLostRead_keeps (p : Port) (f : FifoId) (s : State) : Keeps s (execFifLostRead p f s) := by
  unfold execFifLostRead; exact readRow_keeps .. <;> simp

theorem execSysModeStRead_keeps (p : Port) (s : State) : Keeps s (execSysModeStRead p s) := by
  unfold execSysModeStRead; exact readRow_keeps .. <;> simp

theorem execPwrVinRead_keeps (p : Port) (s : State) : Keeps s (execPwrVinRead p s) := by
  unfold execPwrVinRead; exact readRow_keeps .. <;> simp

theorem execPwrEvtRead_keeps (p : Port) (s : State) : Keeps s (execPwrEvtRead p s) := by
  unfold execPwrEvtRead; exact readRow_keeps .. <;> simp

theorem execThmCntRead_keeps (p : Port) (s : State) : Keeps s (execThmCntRead p s) := by
  unfold execThmCntRead; exact readRow_keeps .. <;> simp

theorem execFltStatRead_keeps (p : Port) (s : State) : Keeps s (execFltStatRead p s) := by
  unfold execFltStatRead; exact readRow_keeps .. <;> simp

theorem execCelCntRead_keeps (p : Port) (s : State) : Keeps s (execCelCntRead p s) := by
  unfold execCelCntRead; exact readRow_keeps .. <;> simp

theorem execSecCntRead_keeps (p : Port) (s : State) : Keeps s (execSecCntRead p s) := by
  unfold execSecCntRead; exact readRow_keeps .. <;> simp

/-! ### Debug -/

@[simp] theorem State_setTap_kept (s : State) (k : Tap → Tap) : (State.setTap s k).kept = s.kept := by
  simp [State.setTap]

@[simp] theorem dbgAttempt_kept (recent : Bool) (pw : Nat) (s : State) : (dbgAttempt recent pw s).kept = s.kept := by
  unfold dbgAttempt
  repeat' (first | with_reducible rfl | split | simp)

@[simp] theorem dbgUnlock_kept (recent : Bool) (v : Nat) (s : State) : (dbgUnlock recent v s).kept = s.kept := by
  unfold dbgUnlock
  repeat' (first | with_reducible rfl | split | simp)

@[simp] theorem dbgRefused_kept (p : Nat) (s : State) : (dbgRefused p s).kept = s.kept := by
  unfold dbgRefused
  repeat' (first | with_reducible rfl | (simp only [State_put_kept, kept_mk, kept_eta]; done) | split
                 | (with_reducible refine (when_kept _ _ _ ?_).trans ?_) | intro _ | simp)

theorem execDbgUnlock_keeps (p : Port) (v : Word) (recent : Bool) (s : State) : Keeps s (execDbgUnlock p v recent s) := by
  unfold execDbgUnlock; refine vendorWrite_keeps ?_ ?_ <;> simp

theorem execDebugPortOpen_keeps (s : State) : Keeps s (execDebugPortOpen s) := by
  unfold execDebugPortOpen; refine doIf_keeps ?_ ?_ <;> simp

theorem execScanout_keeps (capture : Bool) (n : Nat) (s : State) : Keeps s (execScanout capture n s) := by
  unfold execScanout
  repeat' (first | refine doIf_keeps ?_ ?_ | with_reducible rfl | split | simp)

theorem execIdcode_keeps (s : State) : Keeps s (execIdcode s) := by
  unfold execIdcode; refine doIf_keeps ?_ ?_ <;> simp

theorem execSamplePreload_keeps (balls : List Bool) (cells : List Bool) (s : State) : Keeps s (execSamplePreload balls cells s)
    := by
  unfold execSamplePreload; refine doIf_keeps ?_ ?_ <;> simp

theorem boundaryOp_keeps (k : Tap → Tap) (s : State) : Keeps s (boundaryOp k s) := by
  unfold boundaryOp
  repeat' (first | refine doIf_keeps ?_ ?_ | with_reducible rfl | split | simp)

theorem execExtest_keeps (balls : List Bool) (cells : List Bool) (s : State) : Keeps s (execExtest balls cells s) := by
  unfold execExtest; exact boundaryOp_keeps .. <;> simp

theorem execClamp_keeps (s : State) : Keeps s (execClamp s) := by
  unfold execClamp; exact boundaryOp_keeps .. <;> simp

theorem execHighz_keeps (s : State) : Keeps s (execHighz s) := by
  unfold execHighz; exact boundaryOp_keeps .. <;> simp

theorem execTapUnlock_keeps (pw : BitVec 64) (recent : Bool) (s : State) : Keeps s (execTapUnlock pw recent s) := by
  unfold execTapUnlock; refine doIf_keeps ?_ ?_ <;> simp

theorem execDstat_keeps (s : State) : Keeps s (execDstat s) := by
  unfold execDstat; refine doIf_keeps ?_ ?_ <;> simp

theorem execFullrst_keeps (s : State) : Keeps s (execFullrst s) := by
  unfold execFullrst; refine doIf_keeps ?_ ?_ <;> simp

theorem execTfreeze_keeps (s : State) : Keeps s (execTfreeze s) := by
  unfold execTfreeze
  repeat' (first | refine doIf_keeps ?_ ?_ | with_reducible rfl
                 | (simp only [State_setTap_kept, freeze_kept, kept_mk, kept_eta]; done) | split
                 | (with_reducible refine (when_kept _ _ _ ?_).trans ?_) | intro _ | simp)

theorem execBypass_keeps (code : BitVec 8) (s : State) : Keeps s (execBypass code s) := by
  unfold execBypass; refine doIf_keeps ?_ ?_ <;> simp

theorem execTrst_keeps (s : State) : Keeps s (execTrst s) := by
  unfold execTrst; refine doIf_keeps ?_ ?_ <;> simp

/-! ### Dma -/

@[simp] theorem State_setDma_kept (s : State) (c : Nat) (k : DmaSt → DmaSt) : (State.setDma s c k).kept = s.kept := by
  simp [State.setDma]

@[simp] theorem setSrc_kept (c : Nat) (a : Nat) (s : State) : (setSrc c a s).kept = s.kept := by
  simp [setSrc]

@[simp] theorem setDst_kept (c : Nat) (a : Nat) (s : State) : (setDst c a s).kept = s.kept := by
  simp [setDst]

@[simp] theorem dmaStart_kept (p : Nat) (c : Nat) (s : State) : (dmaStart p c s).kept = s.kept := by
  unfold dmaStart
  repeat' (first | with_reducible rfl | split | simp)

@[simp] theorem dmaCtrl_kept (p : Nat) (c : Nat) (v : Nat) (out : Nat) (s : State) : (dmaCtrl p c v out s).kept = s.kept := by
  unfold dmaCtrl
  repeat' (first | with_reducible rfl
                 | (simp only [State_putB_kept, State_put_kept, State_setDma_kept, dmaEnd_kept, dmaStart_kept, kept_mk, kept_eta]; done)
                 | split | (with_reducible refine (foldl_kept _ _ ?_ _).trans ?_)
                 | (with_reducible refine (foldl_snd_kept _ _ ?_ _).trans ?_)
                 | (with_reducible refine (when_kept _ _ _ ?_).trans ?_) | intro _ | simp)

theorem execDmaStart_keeps (p : Port) (c : Chan) (v : Word) (s : State) : Keeps s (execDmaStart p c v s) := by
  unfold execDmaStart; refine vendorWrite_keeps ?_ ?_ <;> simp

theorem execDmaPause_keeps (p : Port) (c : Chan) (v : Word) (out : Nat) (s : State) : Keeps s (execDmaPause p c v out s) := by
  unfold execDmaPause; refine vendorWrite_keeps ?_ ?_ <;> simp

theorem execDmaResume_keeps (p : Port) (c : Chan) (v : Word) (s : State) : Keeps s (execDmaResume p c v s) := by
  unfold execDmaResume; refine vendorWrite_keeps ?_ ?_ <;> simp

theorem execDmaAbort_keeps (p : Port) (c : Chan) (v : Word) (s : State) : Keeps s (execDmaAbort p c v s) := by
  unfold execDmaAbort; refine vendorWrite_keeps ?_ ?_ <;> simp

@[simp] theorem dmaLoad_snd_kept (a : Nat) (n : Nat) (s : State) : (dmaLoad a n s).2.kept = s.kept := by
  unfold dmaLoad
  repeat' (first | with_reducible rfl | (simp only [memLoad_snd_kept, kept_mk, kept_eta]; done) | split
                 | (with_reducible refine (foldl_kept _ _ ?_ _).trans ?_)
                 | (with_reducible refine (foldl_snd_kept _ _ ?_ _).trans ?_)
                 | (with_reducible refine (dmaLoad_kept (by assumption)).trans ?_) | intro _ | simp)

theorem dmaLoad_kept {a : Nat} {n : Nat} {s : State} {x : Option (List Byte)} {t : State} (hEq : dmaLoad a n s = (x, t)) : t.kept
    = s.kept := by
  have e := dmaLoad_snd_kept a n s
  rw [hEq] at e
  exact e

theorem execDmaHalf_keeps (c : Chan) (s : State) : Keeps s (execDmaHalf c s) := by
  unfold execDmaHalf
  repeat' (first | refine doIf_keeps ?_ ?_ | with_reducible rfl
                 | (simp only [State_put_kept, State_setDma_kept, raiseIrq_kept, kept_mk, kept_eta]; done) | split
                 | (with_reducible refine (when_kept _ _ _ ?_).trans ?_) | intro _ | simp)

theorem execDmaDone_keeps (c : Chan) (s : State) : Keeps s (execDmaDone c s) := by
  unfold execDmaDone
  repeat' (first | refine doIf_keeps ?_ ?_ | with_reducible rfl
                 | (simp only [State_put_kept, State_puts_kept, State_setDma_kept, raiseIrq_kept, setDst_kept, kept_mk, kept_eta]; done)
                 | split | (with_reducible refine (when_kept _ _ _ ?_).trans ?_) | intro _ | simp)

theorem execDmaError_keeps (c : Chan) (err : Fin 3) (o : BlockRead) (l : LineOutcome) (s : State) : Keeps s (execDmaError c err o
    l s) := by
  unfold execDmaError
  repeat' (first | refine doIf_keeps ?_ ?_ | with_reducible rfl | split | simp)

@[simp] theorem fifTcfg_kept (v : Nat) (s : State) : (fifTcfg v s).kept = s.kept := by
  unfold fifTcfg
  repeat' (first | with_reducible rfl | split | simp)

theorem execFifTcfgWrite_keeps (p : Port) (v : Word) (s : State) : Keeps s (execFifTcfgWrite p v s) := by
  unfold execFifTcfgWrite; refine vendorWrite_keeps ?_ ?_ <;> simp

@[simp] theorem pushSample_kept (s : State) : (pushSample s).kept = s.kept := by
  unfold pushSample
  repeat' (first | with_reducible rfl | split | simp)

theorem execTelemetrySample_keeps (s : State) : Keeps s (execTelemetrySample s) := by
  unfold execTelemetrySample
  repeat' (first | refine doIf_keeps ?_ ?_ | with_reducible rfl
                 | (simp only [pushSample_kept, readDraw_kept, kept_mk, kept_eta]; done) | split
                 | (with_reducible refine (foldl_kept _ _ ?_ _).trans ?_)
                 | (with_reducible refine (foldl_snd_kept _ _ ?_ _).trans ?_) | intro _ | simp)

/-! ### Grant -/

@[simp] theorem countShare_kept (rank : Nat) (e : Ev) (s : State) : (countShare rank e s).kept = s.kept := by
  unfold countShare
  repeat' (first | with_reducible rfl | split | simp)

@[simp] theorem State_setSeq_kept (s : State) (q : Nat) (k : SeqSt → SeqSt) : (State.setSeq s q k).kept = s.kept := by
  simp [State.setSeq]

@[simp] theorem resumeSeq_kept (q : Nat) (s : State) : (resumeSeq q s).kept = s.kept := by
  simp [resumeSeq]

@[simp] theorem answerSeq_kept (q : Nat) (granted : Bool) (s : State) : (answerSeq q granted s).kept = s.kept := by
  unfold answerSeq
  repeat' (first | with_reducible rfl | split | simp)

@[simp] theorem decideReq_kept (r : Req) (s : State) : (decideReq r s).kept = s.kept := by
  unfold decideReq
  repeat' (first | with_reducible rfl | (simp only [answerSeq_kept, countShare_kept, moveEv_kept, kept_mk, kept_eta]; done)
                 | split | (with_reducible refine (when_kept _ _ _ ?_).trans ?_) | intro _ | simp)

@[simp] theorem ask_kept (r : Req) (s : State) : (ask r s).kept = s.kept := by
  unfold ask
  repeat' (first | with_reducible rfl | split | simp)

theorem execAngleGrant_keeps (idx : Nat) (s : State) : Keeps s (execAngleGrant idx s) := by
  unfold execAngleGrant
  repeat' (first | refine doIf_keeps ?_ ?_ | with_reducible rfl | split | simp)

/-! ### Mount -/

@[simp] theorem takeMinfo_kept (b : List Nat) (s : State) : (takeMinfo b s).kept = s.kept := by
  unfold takeMinfo
  repeat' (first | with_reducible rfl | (simp only [State_put_kept, State_puts_kept, setPresets_kept, kept_mk, kept_eta]; done)
                 | split | (with_reducible refine (forUpTo_kept _ _ _ ?_).trans ?_) | intro _ | simp)

@[simp] theorem loadHealth_kept (a : AtticIn) (s : State) : (loadHealth a s).kept = s.kept := by
  unfold loadHealth
  repeat' (first | with_reducible rfl
                 | (simp only [State_put_kept, State_puts_kept, State_setHlt_kept, retireRegion_kept, syncHealth_kept, kept_mk, kept_eta]; done)
                 | split | (with_reducible refine (foldl_kept _ _ ?_ _).trans ?_)
                 | (with_reducible refine (foldl_snd_kept _ _ ?_ _).trans ?_)
                 | (with_reducible refine (forUpTo_kept _ _ _ ?_).trans ?_) | intro _ | simp)

@[simp] theorem loadVolume_kept (a : AtticIn) (s : State) : (loadVolume a s).kept = s.kept := by
  unfold loadVolume
  repeat' (first | with_reducible rfl | split | simp)

@[simp] theorem adoptAttic_kept (copies : List Nat) (s : State) : (adoptAttic copies s).kept = s.kept := by
  simp [adoptAttic]

theorem execAtticPart1Done_keeps (s : State) : Keeps s (execAtticPart1Done s) := by
  unfold execAtticPart1Done
  repeat' (first | refine doIf_keeps ?_ ?_ | with_reducible rfl | split | simp)

theorem execAtticPart2Done_keeps (s : State) : Keeps s (execAtticPart2Done s) := by
  unfold execAtticPart2Done; refine doIf_keeps ?_ ?_ <;> simp

theorem execResyncDone_keeps (s : State) : Keeps s (execResyncDone s) := by
  unfold execResyncDone; refine doIf_keeps ?_ ?_ <;> simp

@[simp] theorem finishMount_kept (s : State) : (finishMount s).kept = s.kept := by
  unfold finishMount
  repeat' (first | with_reducible rfl
                 | (simp only [State_puts_kept, appendJournal_kept, askNextPage_kept, endMount_kept, formEffective_kept, lookSanitize_kept, nsChanged_kept, repairCopies_kept, restartLap_kept, syncMapPhase_kept, transition_kept, kept_mk, kept_eta]; done)
                 | split | (with_reducible refine (foldl_kept _ _ ?_ _).trans ?_)
                 | (with_reducible refine (foldl_snd_kept _ _ ?_ _).trans ?_)
                 | (with_reducible refine (when_kept _ _ _ ?_).trans ?_)
                 | (with_reducible refine (forUpTo_kept _ _ _ ?_).trans ?_) | intro _ | simp)

theorem execMountStepDone_keeps (s : State) : Keeps s (execMountStepDone s) := by
  unfold execMountStepDone
  repeat' (first | refine doIf_keeps ?_ ?_ | with_reducible rfl | split | simp)

theorem execMountFailure_keeps (cause : Fin 3) (s : State) : Keeps s (execMountFailure cause s) := by
  unfold execMountFailure; refine doIf_keeps ?_ ?_ <;> simp

@[simp] theorem nextStage_kept (s : State) : (nextStage s).kept = s.kept := by
  simp [nextStage]

@[simp] theorem unmountRecords_kept (s : State) : (unmountRecords s).kept = s.kept := by
  unfold unmountRecords
  repeat' (first | with_reducible rfl
                 | (simp only [State_setHlt_kept, State_setStr_kept, appendJournal_kept, appendLedger_kept, atticWrite_kept, checkpoint_kept, nextStage_kept, noteBody_kept, recordCalib_kept, stage_kept, writeVolume_kept, kept_mk, kept_eta]; done)
                 | split | (with_reducible refine (foldl_kept _ _ ?_ _).trans ?_)
                 | (with_reducible refine (foldl_snd_kept _ _ ?_ _).trans ?_)
                 | (with_reducible refine (when_kept _ _ _ ?_).trans ?_)
                 | (with_reducible refine (forUpTo_kept _ _ _ ?_).trans ?_) | intro _ | simp)

theorem execUnmountStepDone_keeps (s : State) : Keeps s (execUnmountStepDone s) := by
  unfold execUnmountStepDone
  repeat' (first | refine doIf_keeps ?_ ?_ | with_reducible rfl | split | simp)

/-! ### Servo -/

@[simp] theorem measureSpeed_kept (i : SampleIn) (s : State) : (measureSpeed i s).kept = s.kept := by
  unfold measureSpeed
  repeat' (first | with_reducible rfl | split | simp)

@[simp] theorem measureRates_kept (i : SampleIn) (s : State) : (measureRates i s).kept = s.kept := by
  unfold measureRates
  repeat' (first | with_reducible rfl | (simp only [syncRate_kept, kept_mk, kept_eta]; done) | split
                 | (with_reducible refine (when_kept _ _ _ ?_).trans ?_) | intro _ | simp)

@[simp] theorem countSettled_kept (s : State) : (countSettled s).kept = s.kept := by
  simp [countSettled]

@[simp] theorem applyOwner_kept (l : Nat) (s : State) : (applyOwner l s).kept = s.kept := by
  unfold applyOwner
  repeat' (first | with_reducible rfl | split | simp)

@[simp] theorem placeLoops_kept (s : State) : (placeLoops s).kept = s.kept := by
  unfold placeLoops
  repeat' (first | with_reducible rfl | (simp only [State_put_kept, kept_mk, kept_eta]; done) | split
                 | (with_reducible refine (forUpTo_kept _ _ _ ?_).trans ?_) | intro _ | simp)

@[simp] theorem moveUnits_kept (s : State) : (moveUnits s).kept = s.kept := by
  unfold moveUnits
  repeat' (first | with_reducible rfl | (simp only [closeBypass_kept, logFlt_kept, placeLoops_kept, kept_mk, kept_eta]; done)
                 | split | (with_reducible refine (foldl_kept _ _ ?_ _).trans ?_)
                 | (with_reducible refine (foldl_snd_kept _ _ ?_ _).trans ?_)
                 | (with_reducible refine (forUpTo_kept _ _ _ ?_).trans ?_) | intro _ | simp)

@[simp] theorem unitFails_kept (f : UnitFault) (s : State) : (unitFails f s).kept = s.kept := by
  unfold unitFails
  repeat' (first | with_reducible rfl | split | simp)

@[simp] theorem toDacs_kept (l : Nat) (s : State) : (toDacs l s).kept = s.kept := by
  unfold toDacs
  repeat' (first | with_reducible rfl | (simp only [kept_mk, kept_eta]; done) | split
                 | (with_reducible refine (forUpTo_kept _ _ _ ?_).trans ?_) | intro _ | simp)

@[simp] theorem loopOffSample_kept (l : Nat) (s : State) : (loopOffSample l s).kept = s.kept := by
  unfold loopOffSample
  repeat' (first | with_reducible rfl | (simp only [State_put_kept, State_setLoop_kept, toDacs_kept, kept_mk, kept_eta]; done)
                 | split | (with_reducible refine (forUpTo_kept _ _ _ ?_).trans ?_) | intro _ | simp)

@[simp] theorem runLoop_kept (i : SampleIn) (l : Nat) (s : State) : (runLoop i l s).kept = s.kept := by
  unfold runLoop
  extract_lets st d x free ovr land r s1 s2 s3 s4 s5 k6 s7 s8
  have e1 : s1.kept = s.kept := forUpTo_kept _ _ _ (fun _ _ => State_putI_kept ..)
  have e2 : s2.kept = s.kept := by
    unfold s2; split
    · exact e1
    · exact (toDacs_kept ..).trans ((forUpTo_kept _ _ _ (fun _ _ => State_putI_kept ..)).trans e1)
  have e3 : s3.kept = s.kept := (when_kept _ _ _ (by simp)).trans e2
  have e4 : s4.kept = s.kept := (when_kept _ _ _ (by simp)).trans e3
  have e5 : s5.kept = s.kept := (when_kept _ _ _ (by simp)).trans e4
  have e7 : s7.kept = s.kept := (when_kept _ _ _ (by simp)).trans e5
  have e8 : s8.kept = s.kept := (State_setLoop_kept ..).trans e7
  repeat' (first | split | rfl | simp [e8])

@[simp] theorem runLoops_kept (i : SampleIn) (s : State) : (runLoops i s).kept = s.kept := by
  unfold runLoops
  repeat' (first | with_reducible rfl | (simp only [State_put_kept, runLoop_kept, kept_mk, kept_eta]; done) | split
                 | (with_reducible refine (forUpTo_kept _ _ _ ?_).trans ?_) | intro _ | simp)

@[simp] theorem noteFocus_kept (h : Nat) (s : State) : (noteFocus h s).kept = s.kept := by
  unfold noteFocus
  repeat' (first | with_reducible rfl | split | simp)

@[simp] theorem captureFocus_kept (i : SampleIn) (h : Nat) (s : State) : (captureFocus i h s).kept = s.kept := by
  unfold captureFocus
  repeat' (first | with_reducible rfl
                 | (simp only [State_put_kept, State_setTr_kept, noteFocus_kept, ownerSet_kept, saToPreset_kept, setOvr_kept, setPart_kept, kept_mk, kept_eta]; done)
                 | split | (with_reducible refine (when_kept _ _ _ ?_).trans ?_) | intro _ | simp)

@[simp] theorem moveFocus_kept (h : Nat) (inward : Bool) (s : State) : (moveFocus h inward s).kept = s.kept := by
  simp [moveFocus]

@[simp] theorem sweep_kept (h : Nat) (s : State) : (sweep h s).kept = s.kept := by
  simp [sweep]

@[simp] theorem rampBack_kept (h : Nat) (s : State) : (rampBack h s).kept = s.kept := by
  unfold rampBack
  repeat' (first | with_reducible rfl | split | simp)

@[simp] theorem focusPeak_kept (i : SampleIn) (h : Nat) (s : State) : (focusPeak i h s).kept = s.kept := by
  unfold focusPeak
  repeat' (first | with_reducible rfl | split | simp)

@[simp] theorem jumpPeak_kept (i : SampleIn) (h : Nat) (s : State) : (jumpPeak i h s).kept = s.kept := by
  unfold jumpPeak
  repeat' (first | with_reducible rfl | split | simp)

@[simp] theorem overshoot_kept (h : Nat) (s : State) : (overshoot h s).kept = s.kept := by
  simp [overshoot]

@[simp] theorem countPeaks_kept (i : SampleIn) (h : Nat) (s : State) : (countPeaks i h s).kept = s.kept := by
  unfold countPeaks
  repeat' (first | with_reducible rfl
                 | (simp only [State_setTr_kept, beginSweep_kept, focusPeak_kept, jumpPeak_kept, moveFocus_kept, overshoot_kept, rampBack_kept, sweep_kept, kept_mk, kept_eta]; done)
                 | split | (with_reducible refine (when_kept _ _ _ ?_).trans ?_) | intro _ | simp)

@[simp] theorem countCrossings_kept (i : SampleIn) (h : Nat) (s : State) : (countCrossings i h s).kept = s.kept := by
  unfold countCrossings
  repeat' (first | with_reducible rfl | split | simp)

@[simp] theorem watchHead_kept (i : SampleIn) (h : Nat) (s : State) : (watchHead i h s).kept = s.kept := by
  simp [watchHead]

@[simp] theorem watchLaser_kept (i : SampleIn) (h : Nat) (s : State) : (watchLaser i h s).kept = s.kept := by
  unfold watchLaser
  repeat' (first | with_reducible rfl | split | simp)

@[simp] theorem recordHead_kept (i : SampleIn) (h : Nat) (s : State) : (recordHead i h s).kept = s.kept := by
  simp [recordHead]

@[simp] theorem inhibits_kept (i : SampleIn) (h : Nat) (s : State) : (inhibits i h s).kept = s.kept := by
  simp [inhibits]

@[simp] theorem candidate_kept (i : SampleIn) (h : Nat) (s : State) : (candidate i h s).kept = s.kept := by
  simp [candidate]

@[simp] theorem countWobble_kept (i : SampleIn) (h : Nat) (s : State) : (countWobble i h s).kept = s.kept := by
  simp [countWobble]

@[simp] theorem recordWindow_kept (i : SampleIn) (s : State) : (recordWindow i s).kept = s.kept := by
  simp [recordWindow]

theorem execServoSample_keeps (i : SampleIn) (s : State) : Keeps s (execServoSample i s) := by
  unfold execServoSample
  repeat' (first | refine doIf_keeps ?_ ?_ | with_reducible rfl
                 | (simp only [applyOwner_kept, calTick_kept, candidate_kept, checkLanes_kept, countCrossings_kept, countPeaks_kept, countSettled_kept, countWobble_kept, eqStep_kept, inhibits_kept, measureRates_kept, measureSpeed_kept, moveUnits_kept, recordHead_kept, recordWindow_kept, runLoops_kept, unitFails_kept, watchHead_kept, watchLaser_kept, kept_mk, kept_eta]; done)
                 | split | (with_reducible refine (foldl_kept _ _ ?_ _).trans ?_)
                 | (with_reducible refine (foldl_snd_kept _ _ ?_ _).trans ?_)
                 | (with_reducible refine (when_kept _ _ _ ?_).trans ?_)
                 | (with_reducible refine (forUpTo_kept _ _ _ ?_).trans ?_) | intro _ | simp)

theorem execLoopHold_keeps (l : Loop) (s : State) : Keeps s (execLoopHold l s) := by
  unfold execLoopHold; refine doIf_keeps ?_ ?_ <;> simp

theorem execLoopResume_keeps (l : Loop) (s : State) : Keeps s (execLoopResume l s) := by
  unfold execLoopResume; refine doIf_keeps ?_ ?_ <;> simp

theorem execLoopFail_keeps (l : Loop) (s : State) : Keeps s (execLoopFail l s) := by
  unfold execLoopFail; refine doIf_keeps ?_ ?_ <;> simp

@[simp] theorem unitCtl_kept (v : Nat) (s : State) : (unitCtl v s).kept = s.kept := by
  unfold unitCtl
  repeat' (first | with_reducible rfl | split | simp)

theorem execSrvUnitOffline_keeps (p : Port) (v : Word) (s : State) : Keeps s (execSrvUnitOffline p v s) := by
  unfold execSrvUnitOffline; refine vendorWrite_keeps ?_ ?_ <;> simp

theorem execSrvUnitRestore_keeps (p : Port) (v : Word) (s : State) : Keeps s (execSrvUnitRestore p v s) := by
  unfold execSrvUnitRestore; refine vendorWrite_keeps ?_ ?_ <;> simp

theorem execSrvUnitRestoreDone_keeps (u : MUnit) (pass : Bool) (s : State) : Keeps s (execSrvUnitRestoreDone u pass s) := by
  unfold execSrvUnitRestoreDone
  repeat' (first | refine doIf_keeps ?_ ?_ | with_reducible rfl | split | simp)

theorem execSpeedBandChange_keeps (s : State) : Keeps s (execSpeedBandChange s) := by
  unfold execSpeedBandChange; refine doIf_keeps ?_ ?_ <;> simp

/-! ### Sled -/

@[simp] theorem retarget_kept (h : Nat) (kind : Nat) (target : Int) (s : State) : (retarget h kind target s).kept = s.kept := by
  unfold retarget
  repeat' (first | with_reducible rfl | split | simp)

@[simp] theorem takeRequest_kept (h : Nat) (s : State) : (takeRequest h s).kept = s.kept := by
  unfold takeRequest
  repeat' (first | with_reducible rfl | split | simp)

@[simp] theorem adoptLimits_kept (h : Nat) (s : State) : (adoptLimits h s).kept = s.kept := by
  unfold adoptLimits
  repeat' (first | with_reducible rfl | (simp only [State_put_kept, State_setSl_kept, kept_mk, kept_eta]; done) | split
                 | (with_reducible refine (when_kept _ _ _ ?_).trans ?_) | intro _ | simp)

theorem execSledStep_keeps (h : Head) (s : State) : Keeps s (execSledStep h s) := by
  unfold execSledStep
  repeat' (first | refine doIf_keeps ?_ ?_ | with_reducible rfl | split | simp)

@[simp] theorem toSeek_kept (h : Nat) (s : State) : (toSeek h s).kept = s.kept := by
  unfold toSeek
  repeat' (first | with_reducible rfl | split | simp)

theorem execClassDSeek_keeps (h : Head) (g : Fin 262144) (s : State) : Keeps s (execClassDSeek h g s) := by
  unfold execClassDSeek
  repeat' (first | refine doIf_keeps ?_ ?_ | with_reducible rfl | split | simp)

@[simp] theorem searchMove_kept (h : Nat) (s : State) : (searchMove h s).kept = s.kept := by
  unfold searchMove
  repeat' (first | with_reducible rfl | split | simp)

@[simp] theorem trackSeek_kept (h : Nat) (kind : Nat) (g : Nat) (s : State) : (trackSeek h kind g s).kept = s.kept := by
  simp [trackSeek]

theorem takeSeek_kept {h : Nat} {s t : State} (e : takeSeek h s = some t) : t.kept = s.kept := by
  unfold takeSeek at e
  split at e
  · rename_i r hr; cases e; exact takeDue_kept (e := r.1) hr
  · obtain ⟨_, _, rfl⟩ := Option.map_eq_some_iff.1 e; rfl

theorem startable_kept {h : Nat} {k : SeekKind} {s t : State} (e : startable h k s = some t) : t.kept = s.kept := by
  unfold startable at e
  extract_lets here at e
  have eh : ∀ b, here b = some t → t.kept = s.kept := by
    intro b e
    cases b with
    | false => cases e
    | true => cases e; rfl
  split at e
  all_goals first | exact eh _ e | skip
  · split at e
    · exact takeSeek_kept e
    · cases e
  · split at e
    · exact takeSeek_kept e
    · cases e

theorem execClassSSeek_keeps (h : Head) (k : SeekKind) (s : State) : Keeps s (execClassSSeek h k s) := by
  unfold execClassSSeek
  split
  · exact next_keeps rfl
  · rename_i t e
    have e2 : t.kept = s.kept := by
      split at e
      · exact startable_kept e
      · cases e
    refine next_keeps (Eq.trans ?_ e2)
    repeat' (first | rfl | split | simp)

@[simp] theorem hseek_kept (h : Nat) (v : Nat) (s : State) : (hseek h v s).kept = s.kept := by
  unfold hseek
  repeat' (first | with_reducible rfl | split | simp)

theorem execSldHseek_keeps (p : Port) (h : Head) (v : Word) (s : State) : Keeps s (execSldHseek p h v s) := by
  unfold execSldHseek; refine vendorWrite_keeps ?_ ?_ <;> simp

theorem execSeekComplete_keeps (h : Head) (s : State) : Keeps s (execSeekComplete h s) := by
  unfold execSeekComplete
  repeat' (first | refine doIf_keeps ?_ ?_ | with_reducible rfl | split | simp)

theorem execSledFollowStep_keeps (h : Head) (s : State) : Keeps s (execSledFollowStep h s) := by
  unfold execSledFollowStep; refine doIf_keeps ?_ ?_ <;> simp

theorem execSearchTimeout_keeps (h : Head) (s : State) : Keeps s (execSearchTimeout h s) := by
  unfold execSearchTimeout; refine doIf_keeps ?_ ?_ <;> simp

/-! ### Spindle -/

@[simp] theorem State_setSpn_kept (s : State) (k : Spn → Spn) : (State.setSpn s k).kept = s.kept := by
  simp [State.setSpn]

@[simp] theorem rampRef_kept (goal : Nat) (s : State) : (rampRef goal s).kept = s.kept := by
  unfold rampRef
  repeat' (first | with_reducible rfl | split | simp)

@[simp] theorem sampleLegs_kept (i : PwmIn) (s : State) : (sampleLegs i s).kept = s.kept := by
  unfold sampleLegs
  repeat' (first | with_reducible rfl | (simp only [State_inc_kept, State_setSpn_kept, kept_mk, kept_eta]; done) | split
                 | (with_reducible refine (foldl_kept _ _ ?_ _).trans ?_)
                 | (with_reducible refine (foldl_snd_kept _ _ ?_ _).trans ?_)
                 | (with_reducible refine (when_kept _ _ _ ?_).trans ?_) | intro _ | simp)

@[simp] theorem checkPeriod_kept (i : PwmIn) (s : State) : (checkPeriod i s).kept = s.kept := by
  unfold checkPeriod
  repeat' (first | with_reducible rfl | (simp only [State_inc_kept, State_setSpn_kept, kept_mk, kept_eta]; done) | split
                 | (with_reducible refine (when_kept _ _ _ ?_).trans ?_) | intro _ | simp)

@[simp] theorem currentLoop_kept (i : PwmIn) (ref : Int) (s : State) : (currentLoop i ref s).kept = s.kept := by
  simp [currentLoop]

@[simp] theorem driveBridge_kept (i : PwmIn) (s : State) : (driveBridge i s).kept = s.kept := by
  unfold driveBridge
  repeat' (first | with_reducible rfl | split | simp)

@[simp] theorem openLoopPeriod_kept (i : PwmIn) (s : State) : (openLoopPeriod i s).kept = s.kept := by
  simp [openLoopPeriod]

@[simp] theorem brakePeriod_kept (i : PwmIn) (s : State) : (brakePeriod i s).kept = s.kept := by
  unfold brakePeriod
  repeat' (first | with_reducible rfl
                 | (simp only [State_put_kept, State_setSpn_kept, rampRef_kept, setLoopNext_kept, kept_mk, kept_eta]; done)
                 | split | (with_reducible refine (when_kept _ _ _ ?_).trans ?_) | intro _ | simp)

theorem execPwmPeriod_keeps (i : PwmIn) (s : State) : Keeps s (execPwmPeriod i s) := by
  unfold execPwmPeriod
  repeat' (first | refine doIf_keeps ?_ ?_ | with_reducible rfl | split | simp)

theorem execSpindleFault_keeps (cause : Fin 5) (s : State) : Keeps s (execSpindleFault cause s) := by
  unfold execSpindleFault; refine doIf_keeps ?_ ?_ <;> simp

@[simp] theorem enterRun_kept (rpm : Nat) (s : State) : (enterRun rpm s).kept = s.kept := by
  simp [enterRun]

@[simp] theorem enterOpenLoop_kept (rpm : Nat) (s : State) : (enterOpenLoop rpm s).kept = s.kept := by
  simp [enterOpenLoop]

theorem execSpinUpStart_keeps (s : State) : Keeps s (execSpinUpStart s) := by
  unfold execSpinUpStart; refine doIf_keeps ?_ ?_ <;> simp

theorem execCatchWindowEnd_keeps (crossings : Nat) (peak : Nat) (rpm : Nat) (s : State) : Keeps s (execCatchWindowEnd crossings
    peak rpm s) := by
  unfold execCatchWindowEnd
  repeat' (first | refine doIf_keeps ?_ ?_ | with_reducible rfl
                 | (simp only [State_put_kept, State_puts_kept, enterOpenLoop_kept, enterRun_kept, kept_mk, kept_eta]; done)
                 | split | (with_reducible refine (when_kept _ _ _ ?_).trans ?_) | intro _ | simp)

theorem execAlignEnd_keeps (s : State) : Keeps s (execAlignEnd s) := by
  unfold execAlignEnd; refine doIf_keeps ?_ ?_ <;> simp

theorem execSpindleHandover_keeps (s : State) : Keeps s (execSpindleHandover s) := by
  unfold execSpindleHandover; refine doIf_keeps ?_ ?_ <;> simp

theorem execSpinUpAttemptFailed_keeps (s : State) : Keeps s (execSpinUpAttemptFailed s) := by
  unfold execSpinUpAttemptFailed
  repeat' (first | refine doIf_keeps ?_ ?_ | with_reducible rfl | split | simp)

theorem execSpindleStopped_keeps (peak : Nat) (s : State) : Keeps s (execSpindleStopped peak s) := by
  unfold execSpindleStopped; refine doIf_keeps ?_ ?_ <;> simp

@[simp] theorem spnTest_kept (v : Nat) (s : State) : (spnTest v s).kept = s.kept := by
  unfold spnTest
  repeat' (first | with_reducible rfl | split | simp)

theorem execSpnTestWrite_keeps (p : Port) (v : Word) (s : State) : Keeps s (execSpnTestWrite p v s) := by
  unfold execSpnTestWrite; refine vendorWrite_keeps ?_ ?_ <;> simp

theorem execSpeedrefDecode_keeps (x : Option Nat) (s : State) : Keeps s (execSpeedrefDecode x s) := by
  unfold execSpeedrefDecode
  repeat' (first | refine doIf_keeps ?_ ?_ | with_reducible rfl | split | simp)

theorem execSpeedrefAdopt_keeps (s : State) : Keeps s (execSpeedrefAdopt s) := by
  unfold execSpeedrefAdopt; refine doIf_keeps ?_ ?_ <;> simp

/-! ### RegWrite -/

/-- A writer keeps buffer memory and the queue, where there is one. -/
def KeepOpt (o : Option (State → State)) : Prop := ∀ k, o = some k → ∀ s, (k s).kept = s.kept

theorem atReg_keepOpt (f : Fld) (off : Nat) (k : State → State) (h : ∀ s, (k s).kept = s.kept) : KeepOpt (atReg f off k) := by
  intro k' e s
  unfold atReg at e
  split at e
  · cases e; exact h s
  · cases e

theorem perInst_keepOpt (f : Nat → Fld) (n off : Nat) (k : Nat → State → State) (h : ∀ i s, (k i s).kept = s.kept) :
    KeepOpt (perInst f n off k) := by
  intro k' e s
  obtain ⟨i, -, rfl⟩ := Option.map_eq_some_iff.1 e
  exact h i s

theorem findSome_keepOpt (l : List (Option (State → State))) (h : ∀ o ∈ l, KeepOpt o) : KeepOpt (l.findSome? id) := by
  intro k e s
  obtain ⟨o, ho, e⟩ := List.exists_of_findSome?_eq_some e
  exact h o ho k e s

@[simp] theorem irqClear_kept (v : Nat) (s : State) : (irqClear v s).kept = s.kept := by
  unfold irqClear
  repeat' (first | with_reducible rfl | (simp only [State_put_kept, raiseIrq_kept, kept_mk, kept_eta]; done) | split
                 | (with_reducible refine (foldl_kept _ _ ?_ _).trans ?_)
                 | (with_reducible refine (foldl_snd_kept _ _ ?_ _).trans ?_)
                 | (with_reducible refine (when_kept _ _ _ ?_).trans ?_)
                 | (with_reducible refine (forUpTo_kept _ _ _ ?_).trans ?_) | intro _ | simp)

theorem commandReg_kept {p off v out : Nat} {recent : Bool} {k : State → State} {s : State} (h : commandReg p off v out recent =
    some k) :
    (k s).kept = s.kept := by
  refine findSome_keepOpt _ ?_ k h s
  simp only [List.forall_mem_cons, List.not_mem_nil, false_implies, implies_true, and_true]
  and_intros
  all_goals first
    | (refine atReg_keepOpt _ _ _ fun s => ?_; simp)
    | (refine perInst_keepOpt _ _ _ _ fun i s => ?_; first | (simp; done) | (split <;> simp))

@[simp] theorem writeFld_kept (v : Nat) (f : Fld) (s : State) : (writeFld v f s).kept = s.kept := by
  unfold writeFld
  repeat' (first | with_reducible rfl | split | simp)

@[simp] theorem writeReg_kept (p : Nat) (off : Nat) (v : Nat) (out : Nat) (recent : Bool) (s : State) : (writeReg p off v out
    recent s).kept = s.kept := by
  unfold writeReg
  repeat' (first | with_reducible rfl | (simp only [commandReg_kept, writeFld_kept, kept_mk, kept_eta]; done) | split
                 | (with_reducible refine (foldl_kept _ _ ?_ _).trans ?_)
                 | (with_reducible refine (foldl_snd_kept _ _ ?_ _).trans ?_)
                 | (with_reducible refine (commandReg_kept (by assumption)).trans ?_) | intro _ | simp)

theorem execRegisterWrite_keeps (p : Port) (off : Nat) (v : Word) (whole : Bool) (out : Nat) (recent : Bool) (s : State) : Keeps
    s (execRegisterWrite p off v whole out recent s) := by
  unfold execRegisterWrite
  repeat' (first | refine vendorWrite_keeps ?_ ?_ | refine next_keeps ?_ | with_reducible rfl | split | simp)

/-! ### Sequencer -/

theorem fetchMicro_kept {q op : Nat} {w : Microword} {s t : State} {a : Nat} (h : fetchMicro q op w s = some (a, t)) : t.kept =
    s.kept := by
  unfold fetchMicro at h
  extract_lets pc at h
  repeat' (first | contradiction | split at h
                 | (simp only [Option.some.injEq, Prod.mk.injEq] at h; obtain ⟨rfl, rfl⟩ := h; first | rfl | simp))

@[simp] theorem machineCheck_kept (q : Nat) (a : Nat) (cause : Nat) (s : State) : (machineCheck q a cause s).kept = s.kept := by
  simp [machineCheck]

theorem micro_keeps {q op : Nat} {w : Microword} {k : Nat → State → State} {s : State} (h : ∀ a s, (k a s).kept = s.kept) :
    Keeps s (micro q op w k s) := by
  refine next_keeps ?_
  split
  · rfl
  · rename_i e
    have e := fetchMicro_kept e
    split
    · exact (machineCheck_kept ..).trans e
    · exact (h _ _).trans e

@[simp] theorem goOn_kept (q : Nat) (a : Nat) (s : State) : (goOn q a s).kept = s.kept := by
  simp [goOn]

@[simp] theorem logicOp_kept (q : Nat) (w : Microword) (k : Nat → Nat → Nat) (a : Nat) (s : State) : (logicOp q w k a s).kept =
    s.kept := by
  simp [logicOp]

@[simp] theorem arithOp_kept (q : Nat) (w : Microword) (k : Nat → Nat → Nat × Bool) (keep : Bool) (a : Nat) (s : State) :
    (arithOp q w k keep a s).kept = s.kept := by
  simp [arithOp]

theorem execNop_keeps (q : Seq) (w : Microword) (s : State) : Keeps s (execNop q w s) := by
  unfold execNop; refine micro_keeps ?_ <;> simp

theorem execMov_keeps (q : Seq) (w : Microword) (s : State) : Keeps s (execMov q w s) := by
  unfold execMov; refine micro_keeps ?_ <;> simp

theorem execAdd_keeps (q : Seq) (w : Microword) (s : State) : Keeps s (execAdd q w s) := by
  unfold execAdd; refine micro_keeps ?_ <;> simp

theorem execSub_keeps (q : Seq) (w : Microword) (s : State) : Keeps s (execSub q w s) := by
  unfold execSub; refine micro_keeps ?_ <;> simp

theorem execAnd_keeps (q : Seq) (w : Microword) (s : State) : Keeps s (execAnd q w s) := by
  unfold execAnd; refine micro_keeps ?_ <;> simp

theorem execOr_keeps (q : Seq) (w : Microword) (s : State) : Keeps s (execOr q w s) := by
  unfold execOr; refine micro_keeps ?_ <;> simp

theorem execXor_keeps (q : Seq) (w : Microword) (s : State) : Keeps s (execXor q w s) := by
  unfold execXor; refine micro_keeps ?_ <;> simp

theorem execShl_keeps (q : Seq) (w : Microword) (s : State) : Keeps s (execShl q w s) := by
  unfold execShl; refine micro_keeps ?_ <;> simp

theorem execShr_keeps (q : Seq) (w : Microword) (s : State) : Keeps s (execShr q w s) := by
  unfold execShr; refine micro_keeps ?_ <;> simp

theorem execCmp_keeps (q : Seq) (w : Microword) (s : State) : Keeps s (execCmp q w s) := by
  unfold execCmp; refine micro_keeps ?_ <;> simp

theorem execLd_keeps (q : Seq) (w : Microword) (s : State) : Keeps s (execLd q w s) := by
  unfold execLd
  repeat' (first | refine micro_keeps ?_ | with_reducible rfl | split | simp)

theorem execSt_keeps (q : Seq) (w : Microword) (s : State) : Keeps s (execSt q w s) := by
  unfold execSt
  repeat' (first | refine micro_keeps ?_ | with_reducible rfl | split | simp)

@[simp] theorem flowQueue_kept (s : State) (n : Nat) : (flowQueue s n).kept = s.kept := by
  unfold flowQueue
  repeat' (first | with_reducible rfl | split | simp)

@[simp] theorem flowQueues_kept (s : State) : (flowQueues s).kept = s.kept := by
  unfold flowQueues
  repeat' (first | with_reducible rfl | (simp only [flowQueue_kept, kept_mk, kept_eta]; done) | split
                 | (with_reducible refine (foldl_kept _ _ ?_ _).trans ?_)
                 | (with_reducible refine (foldl_snd_kept _ _ ?_ _).trans ?_) | intro _ | simp)

@[simp] theorem waitAt_kept (q : Nat) (a : Nat) (st : Nat) (kind : Nat) (what : Nat) (s : State) : (waitAt q a st kind what
    s).kept = s.kept := by
  simp [waitAt]

theorem execDeq_keeps (q : Seq) (w : Microword) (s : State) : Keeps s (execDeq q w s) := by
  unfold execDeq; refine micro_keeps ?_ <;> simp

theorem execEnq_keeps (q : Seq) (w : Microword) (s : State) : Keeps s (execEnq q w s) := by
  unfold execEnq
  repeat' (first | refine micro_keeps ?_ | with_reducible rfl
                 | (simp only [State_setSeq_kept, flowQueues_kept, goOn_kept, waitAt_kept, kept_mk, kept_eta]; done) | split
                 | intro _ | simp)

theorem execWaitq_keeps (q : Seq) (w : Microword) (s : State) : Keeps s (execWaitq q w s) := by
  unfold execWaitq
  repeat' (first | refine micro_keeps ?_ | with_reducible rfl | (simp only [goOn_kept, waitAt_kept, kept_mk, kept_eta]; done)
                 | split | intro _ | simp)

theorem execWaita_keeps (q : Seq) (w : Microword) (cls : EvClass) (owner : Fin 28) (target : Nat) (len : Nat) (rank : Fin 7)
    (exempt : Bool) (s : State) : Keeps s (execWaita q w cls owner target len rank exempt s) := by
  unfold execWaita; refine micro_keeps ?_ <;> simp

theorem execBar_keeps (q : Seq) (w : Microword) (s : State) : Keeps s (execBar q w s) := by
  unfold execBar
  repeat' (first | refine micro_keeps ?_ | with_reducible rfl | split | simp)

theorem execCall_keeps (q : Seq) (w : Microword) (s : State) : Keeps s (execCall q w s) := by
  unfold execCall
  repeat' (first | refine micro_keeps ?_ | with_reducible rfl
                 | (simp only [State_put_kept, State_setSeq_kept, goOn_kept, machineCheck_kept, kept_mk, kept_eta]; done)
                 | split | intro _ | simp)

theorem execRet_keeps (q : Seq) (w : Microword) (s : State) : Keeps s (execRet q w s) := by
  unfold execRet
  repeat' (first | refine micro_keeps ?_ | with_reducible rfl
                 | (simp only [State_put_kept, State_setSeq_kept, goOn_kept, machineCheck_kept, kept_mk, kept_eta]; done)
                 | split | intro _ | simp)

theorem execBr_keeps (q : Seq) (w : Microword) (s : State) : Keeps s (execBr q w s) := by
  unfold execBr
  repeat' (first | refine micro_keeps ?_ | with_reducible rfl
                 | (simp only [State_put_kept, goOn_kept, kept_mk, kept_eta]; done) | split | intro _ | simp)

theorem execMchk_keeps (q : Seq) (w : Microword) (s : State) : Keeps s (execMchk q w s) := by
  unfold execMchk; refine micro_keeps ?_ <;> simp

theorem execQueueWaitEnd_keeps (q : Seq) (i : Fin 8) (desc : List (BitVec 24)) (s : State) : Keeps s (execQueueWaitEnd q i desc
    s) := by
  unfold execQueueWaitEnd
  repeat' (first | refine doIf_keeps ?_ ?_ | with_reducible rfl
                 | (simp only [State_setSeq_kept, flowQueues_kept, resumeSeq_kept, kept_mk, kept_eta]; done) | split
                 | (with_reducible refine (when_kept _ _ _ ?_).trans ?_) | intro _ | simp)

theorem execBarrierComplete_keeps (mask : BitVec 6) (s : State) : Keeps s (execBarrierComplete mask s) := by
  unfold execBarrierComplete
  repeat' (first | refine doIf_keeps ?_ ?_ | with_reducible rfl | (simp only [resumeSeq_kept, kept_mk, kept_eta]; done) | split
                 | (with_reducible refine (foldl_kept _ _ ?_ _).trans ?_)
                 | (with_reducible refine (foldl_snd_kept _ _ ?_ _).trans ?_) | intro _ | simp)

theorem execMachineCheck_keeps (q : Seq) (cause : Fin 2) (scan : Option (BitVec 14)) (s : State) : Keeps s (execMachineCheck q
    cause scan s) := by
  unfold execMachineCheck
  repeat' (first | refine doIf_keeps ?_ ?_ | with_reducible rfl | split | simp)

theorem execRomScanLap_keeps (s : State) : Keeps s (execRomScanLap s) := by
  unfold execRomScanLap; refine doIf_keeps ?_ ?_ <;> simp

/-! ### Verify -/

@[simp] theorem afterRecord_kept (c : AttCont) (s : State) : (afterRecord c s).kept = s.kept := by
  unfold afterRecord
  repeat' (first | with_reducible rfl | split | simp)

@[simp] theorem rebuildVerified_kept (r : Rebuild) (q : Nat) (s : State) : (rebuildVerified r q s).kept = s.kept := by
  unfold rebuildVerified
  repeat' (first | with_reducible rfl | (simp only [addDefect_kept, retireBlock_kept, setJob_kept, kept_mk, kept_eta]; done)
                 | split | (with_reducible refine (when_kept _ _ _ ?_).trans ?_) | intro _ | simp)

@[simp] theorem blockVerified_kept (p : Nat) (s : State) : (blockVerified p s).kept = s.kept := by
  unfold blockVerified
  repeat' (first | with_reducible rfl | split | simp)

@[simp] theorem settleSpans_kept (h : Nat) (s : State) : (settleSpans h s).kept = s.kept := by
  unfold settleSpans
  repeat' (first | with_reducible rfl
                 | (simp only [State_setWh_kept, blockVerified_kept, readBack_kept, kept_mk, kept_eta]; done) | split
                 | (with_reducible refine (foldl_kept _ _ ?_ _).trans ?_)
                 | (with_reducible refine (foldl_snd_kept _ _ ?_ _).trans ?_)
                 | (with_reducible refine (when_kept _ _ _ ?_).trans ?_) | intro _ | simp)

@[simp] theorem dropFromSpans_kept (h : Nat) (p : Nat) (s : State) : (dropFromSpans h p s).kept = s.kept := by
  simp [dropFromSpans]

@[simp] theorem retry_kept (p : Nat) (n : Nat) (again : Bool) (s : State) : (retry p n again s).kept = s.kept := by
  unfold retry
  repeat' (first | with_reducible rfl | split | simp)

@[simp] theorem verifyFails_kept (h : Nat) (p : Nat) (s : State) : (verifyFails h p s).kept = s.kept := by
  unfold verifyFails
  repeat' (first | with_reducible rfl | split | simp)

theorem execVerifyResult_keeps (h : Head) (pba : BitVec 32) (s : State) : Keeps s (execVerifyResult h pba s) := by
  unfold execVerifyResult
  repeat' (first | refine doIf_keeps ?_ ?_ | with_reducible rfl
                 | (simp only [State_inc_kept, State_setCwd_kept, askReread_kept, blockVerified_kept, leaveProgress_kept, retry_kept, settleSpans_kept, verifyFails_kept, kept_mk, kept_eta]; done)
                 | split | (with_reducible refine (when_kept _ _ _ ?_).trans ?_) | intro _ | simp)

end Sys2Proof.Machine
end

