-- ==== Sys2Proof/Laws/Sparse.lean ====
section
/-! SUPPORT. Sparse maps, buffer memory and the register file: what a read gives after a write, and that writes keep the canonical
form. -/

namespace Sys2Proof.Machine

/-! ### Sparse maps -/

theorem Sparse.get_insert (m : Sparse) (k v j : Nat) :
    Sparse.get (Sparse.insert m k v) j = if j = k then v else Sparse.get m j := by
  induction m with
  | nil => simp [Sparse.insert, Sparse.get]
  | cons p m ih =>
    obtain ⟨k', v'⟩ := p
    simp only [Sparse.insert]
    split
    · simp [Sparse.get]
    · split
      · subst k'; simp only [Sparse.get]; split <;> simp_all
      · simp only [Sparse.get, ih]; split <;> split <;> simp_all

theorem Sparse.get_filter (m : Sparse) (k j : Nat) :
    Sparse.get (m.filter fun p => p.1 != k) j = if j = k then 0 else Sparse.get m j := by
  induction m with
  | nil => simp [Sparse.get]
  | cons p m ih =>
    obtain ⟨k', v'⟩ := p
    by_cases h : k' = k
    · subst h; simp only [List.filter, bne_self_eq_false, ih, Sparse.get]; split <;> simp_all
    · have : (k' != k) = true := by simp [h]
      simp only [List.filter, this, Sparse.get, ih]
      split <;> split <;> simp_all

/-- A read after a store: the stored value at its key, the old one elsewhere. -/
theorem Sparse.get_set (m : Sparse) (k v j : Nat) :
    Sparse.get (Sparse.set m k v) j = if j = k then v else Sparse.get m j := by
  unfold Sparse.set
  split
  · subst v; exact Sparse.get_filter m k j
  · exact Sparse.get_insert m k v j

@[simp] theorem Sparse.get_set_self (m : Sparse) (k v : Nat) : Sparse.get (Sparse.set m k v) k = v := by
  simp [Sparse.get_set]

theorem Sparse.get_set_ne (m : Sparse) (k v j : Nat) (h : j ≠ k) : Sparse.get (Sparse.set m k v) j = Sparse.get m j := by
  simp [Sparse.get_set, h]

/-- The canonical form, in words of the list library. -/
theorem Sparse.wf_iff (m : Sparse) : Sparse.wf m = true ↔ m.Pairwise (fun a b => a.1 < b.1) ∧ ∀ p ∈ m, p.2 ≠ 0 := by
  induction m with
  | nil => simp [Sparse.wf]
  | cons p m ih =>
    obtain ⟨k, v⟩ := p
    cases m with
    | nil => simp [Sparse.wf]
    | cons q m =>
      obtain ⟨k', v'⟩ := q
      simp only [Sparse.wf, Bool.and_eq_true, ih, bne_iff_ne, decide_eq_true_eq, List.pairwise_cons, List.mem_cons]
      constructor
      · rintro ⟨⟨hv, hk⟩, ⟨hp, hm⟩, hz⟩
        refine ⟨⟨?_, hp, hm⟩, ?_⟩
        · rintro a (rfl | ha)
          · exact hk
          · exact Nat.lt_trans hk (hp a ha)
        · rintro a (rfl | ha)
          · exact hv
          · exact hz a ha
      · rintro ⟨⟨hk, hp, hm⟩, hz⟩
        exact ⟨⟨hz _ (Or.inl rfl), hk _ (Or.inl rfl)⟩, ⟨hp, hm⟩, fun a ha => hz a (Or.inr ha)⟩

theorem Sparse.mem_insert (m : Sparse) (k v : Nat) (p : Nat × Nat) (h : p ∈ Sparse.insert m k v) : p = (k, v) ∨ p ∈ m := by
  induction m with
  | nil => simpa [Sparse.insert] using h
  | cons q m ih =>
    obtain ⟨k', v'⟩ := q
    simp only [Sparse.insert] at h
    split at h
    · simpa using h
    · split at h
      · rcases List.mem_cons.1 h with h | h
        · exact Or.inl h
        · exact Or.inr (List.mem_cons_of_mem _ h)
      · rcases List.mem_cons.1 h with h | h
        · exact Or.inr (h ▸ List.mem_cons_self)
        · rcases ih h with h | h
          · exact Or.inl h
          · exact Or.inr (List.mem_cons_of_mem _ h)

theorem Sparse.pairwise_insert (m : Sparse) (k v : Nat) (h : m.Pairwise (fun a b => a.1 < b.1)) :
    (Sparse.insert m k v).Pairwise (fun a b => a.1 < b.1) := by
  induction m with
  | nil => simp [Sparse.insert]
  | cons q m ih =>
    obtain ⟨k', v'⟩ := q
    have hp := List.pairwise_cons.1 h
    simp only [Sparse.insert]
    split
    · rename_i hk
      refine List.pairwise_cons.2 ⟨?_, h⟩
      intro a ha
      rcases List.mem_cons.1 ha with rfl | ha
      · exact hk
      · exact Nat.lt_trans hk (hp.1 a ha)
    · split
      · rename_i hk; subst hk
        exact List.pairwise_cons.2 ⟨hp.1, hp.2⟩
      · rename_i h1 h2
        refine List.pairwise_cons.2 ⟨?_, ih hp.2⟩
        intro a ha
        rcases Sparse.mem_insert m k v a ha with rfl | ha
        · show k' < k; omega
        · exact hp.1 a ha

/-- Storing keeps the canonical form. -/
theorem Sparse.wf_set (m : Sparse) (k v : Nat) (h : Sparse.wf m = true) : Sparse.wf (Sparse.set m k v) = true := by
  rw [Sparse.wf_iff] at *
  unfold Sparse.set
  split
  · exact ⟨h.1.filter _, fun p hp => h.2 p ((List.mem_filter.1 hp).1)⟩
  · rename_i hv
    refine ⟨Sparse.pairwise_insert m k v h.1, fun p hp => ?_⟩
    rcases Sparse.mem_insert m k v p hp with rfl | hp
    · exact hv
    · exact h.2 p hp

/-! ### Buffer memory -/

theorem Memory.read_insert (m : Memory) (a b : Nat) (v : Byte) :
    Memory.read (Memory.insert m a v) b = if b = a then v else Memory.read m b := by
  induction m with
  | nil => simp [Memory.insert, Memory.read]
  | cons p m ih =>
    obtain ⟨a', v'⟩ := p
    simp only [Memory.insert]
    split
    · simp [Memory.read]
    · split
      · subst a'; simp only [Memory.read]; split <;> simp_all
      · simp only [Memory.read, ih]; split <;> split <;> simp_all

theorem Memory.read_filter (m : Memory) (a b : Nat) :
    Memory.read (m.filter fun p => p.1 != a) b = if b = a then 0#8 else Memory.read m b := by
  induction m with
  | nil => simp [Memory.read]
  | cons p m ih =>
    obtain ⟨a', v'⟩ := p
    by_cases h : a' = a
    · subst h; simp only [List.filter, bne_self_eq_false, ih, Memory.read]; split <;> simp_all
    · have : (a' != a) = true := by simp [h]
      simp only [List.filter, this, Memory.read, ih]
      split <;> split <;> simp_all

/-- A read after a store: the stored byte at its address, the old one elsewhere. -/
theorem Memory.read_write (m : Memory) (a b : Nat) (v : Byte) :
    Memory.read (Memory.write m a v) b = if b = a then v else Memory.read m b := by
  unfold Memory.write
  split
  · subst v; exact Memory.read_filter m a b
  · exact Memory.read_insert m a b v

theorem Memory.wf_iff (m : Memory) : Memory.wf m = true ↔ m.Pairwise (fun a b => a.1 < b.1) ∧ ∀ p ∈ m, p.2 ≠ 0#8 := by
  induction m with
  | nil => simp [Memory.wf]
  | cons p m ih =>
    obtain ⟨k, v⟩ := p
    cases m with
    | nil => simp [Memory.wf]
    | cons q m =>
      obtain ⟨k', v'⟩ := q
      simp only [Memory.wf, Bool.and_eq_true, ih, bne_iff_ne, decide_eq_true_eq, List.pairwise_cons, List.mem_cons]
      constructor
      · rintro ⟨⟨hv, hk⟩, ⟨hp, hm⟩, hz⟩
        refine ⟨⟨?_, hp, hm⟩, ?_⟩
        · rintro a (rfl | ha)
          · exact hk
          · exact Nat.lt_trans hk (hp a ha)
        · rintro a (rfl | ha)
          · exact hv
          · exact hz a ha
      · rintro ⟨⟨hk, hp, hm⟩, hz⟩
        exact ⟨⟨hz _ (Or.inl rfl), hk _ (Or.inl rfl)⟩, ⟨hp, hm⟩, fun a ha => hz a (Or.inr ha)⟩

theorem Memory.mem_insert (m : Memory) (a : Nat) (v : Byte) (p : Host.Cell) (h : p ∈ Memory.insert m a v) : p = (a, v) ∨ p ∈ m := by
  induction m with
  | nil => simpa [Memory.insert] using h
  | cons q m ih =>
    obtain ⟨k', v'⟩ := q
    simp only [Memory.insert] at h
    split at h
    · simpa using h
    · split at h
      · rcases List.mem_cons.1 h with h | h
        · exact Or.inl h
        · exact Or.inr (List.mem_cons_of_mem _ h)
      · rcases List.mem_cons.1 h with h | h
        · exact Or.inr (h ▸ List.mem_cons_self)
        · rcases ih h with h | h
          · exact Or.inl h
          · exact Or.inr (List.mem_cons_of_mem _ h)

theorem Memory.pairwise_insert (m : Memory) (a : Nat) (v : Byte) (h : m.Pairwise (fun x y => x.1 < y.1)) :
    (Memory.insert m a v).Pairwise (fun x y => x.1 < y.1) := by
  induction m with
  | nil => simp [Memory.insert]
  | cons q m ih =>
    obtain ⟨k', v'⟩ := q
    have hp := List.pairwise_cons.1 h
    simp only [Memory.insert]
    split
    · rename_i hk
      refine List.pairwise_cons.2 ⟨?_, h⟩
      intro x hx
      rcases List.mem_cons.1 hx with rfl | hx
      · exact hk
      · exact Nat.lt_trans hk (hp.1 x hx)
    · split
      · rename_i hk; subst hk
        exact List.pairwise_cons.2 ⟨hp.1, hp.2⟩
      · rename_i h1 h2
        refine List.pairwise_cons.2 ⟨?_, ih hp.2⟩
        intro x hx
        rcases Memory.mem_insert m a v x hx with rfl | hx
        · show k' < a; omega
        · exact hp.1 x hx

/-- Storing a byte keeps the canonical form. -/
theorem Memory.wf_write (m : Memory) (a : Nat) (v : Byte) (h : Memory.wf m = true) : Memory.wf (Memory.write m a v) = true := by
  rw [Memory.wf_iff] at *
  unfold Memory.write
  split
  · exact ⟨h.1.filter _, fun p hp => h.2 p ((List.mem_filter.1 hp).1)⟩
  · rename_i hv
    refine ⟨Memory.pairwise_insert m a v h.1, fun p hp => ?_⟩
    rcases Memory.mem_insert m a v p hp with rfl | hp
    · exact hv
    · exact h.2 p hp

/-- Storing bytes keeps the canonical form. -/
theorem Memory.wf_writes (l : List Byte) : ∀ (m : Memory) (a : Nat), Memory.wf m = true → Memory.wf (Memory.writes m a l) = true := by
  induction l with
  | nil => exact fun _ _ h => h
  | cons v l ih => exact fun m a h => ih _ _ (Memory.wf_write m a v h)

/-- A read after a store of bytes from an address upward. -/
theorem Memory.read_writes (l : List Byte) : ∀ (m : Memory) (a b : Nat),
    Memory.read (Memory.writes m a l) b = if a ≤ b then l.getD (b - a) (Memory.read m b) else Memory.read m b := by
  induction l with
  | nil => intro m a b; simp [Memory.writes]
  | cons v l ih =>
    intro m a b
    simp only [Memory.writes, ih, Memory.read_write]
    by_cases h1 : a + 1 ≤ b
    · have h3 : b - a = (b - (a + 1)) + 1 := by omega
      have h4 : a ≤ b := by omega
      have h5 : b ≠ a := by omega
      simp only [h1, h4, h5, h3, if_true, if_false, List.getD_cons_succ]
    · by_cases h2 : a = b
      · subst h2; have h6 : ¬ a + 1 ≤ a := by omega
        simp [h6]
      · have h4 : ¬ a ≤ b := by omega
        have h5 : b ≠ a := by omega
        simp [h1, h4, h5]

/-! ### The register file -/

theorem RegFile.read_write (r : RegFile) (f : Fld) (v : Nat) : (r.write f v).read f = v % 2 ^ f.width := by
  simp [RegFile.read, RegFile.write, Nat.xor_assoc]

theorem RegFile.read_write_ne (r : RegFile) (f g : Fld) (v : Nat) (h : g.key ≠ f.key) : (r.write f v).read g = r.read g := by
  simp [RegFile.read, RegFile.write, Sparse.get_set, h]

/-- Setting a field keeps the canonical form. -/
theorem RegFile.wf_write (r : RegFile) (f : Fld) (v : Nat) (h : Sparse.wf r = true) : Sparse.wf (r.write f v) = true :=
  Sparse.wf_set _ _ _ h

end Sys2Proof.Machine
end

