-- ==== Sys2Proof/Laws/State.lean ====
section
/-! SUPPORT. One lemma per field per update of State, what a read of a register gives after a write, and the shared accesses. -/

namespace Sys2Proof.Machine
open R

/-! ### Registers -/

theorem get_put (s : State) (f g : Fld) (v : Nat) (h : g.key = f.key → g = f) :
    (s.put f v).get g = if g.key = f.key then v % 2 ^ f.width else s.get g := by
  unfold State.put State.get RegFile.read RegFile.write
  rw [Sparse.get_set]
  split
  · rename_i e; rw [h e]; exact (Nat.xor_assoc _ _ _).trans (by rw [Nat.xor_self, Nat.xor_zero])
  · rfl

@[simp] theorem get_put_self (s : State) (f : Fld) (v : Nat) : (s.put f v).get f = v % 2 ^ f.width := by
  rw [get_put s f f v fun _ => rfl, if_pos rfl]

theorem get_put_ne (s : State) (f g : Fld) (v : Nat) (h : f.key ≠ g.key) : (s.put f v).get g = s.get g := by
  unfold State.put State.get RegFile.read RegFile.write
  rw [Sparse.get_set, if_neg (Ne.symm h)]

theorem get_rf (s t : State) (f : Fld) (h : s.rf = t.rf) : s.get f = t.get f := by unfold State.get; rw [h]

@[simp] theorem puts_nil (s : State) : s.puts [] = s := rfl
@[simp] theorem puts_cons (s : State) (p : Fld × Nat) (l : List (Fld × Nat)) : s.puts (p :: l) = (s.put p.1 p.2).puts l := rfl

theorem get_puts_ne (g : Fld) (l : List (Fld × Nat)) : ∀ s : State, (∀ p ∈ l, p.1.key ≠ g.key) → (s.puts l).get g = s.get g := by
  induction l with
  | nil => exact fun _ _ => rfl
  | cons p l ih =>
    intro s h
    rw [puts_cons, ih _ fun q hq => h q (List.mem_cons_of_mem _ hq)]
    exact get_put_ne _ _ _ _ (h p List.mem_cons_self)

/-! ### What stays alone -/

theorem sameBut_refl (s : State) (l : List Fld) : s.sameBut s l := ⟨rfl, fun _ _ => rfl⟩

theorem sameBut_put (s : State) (f : Fld) (v : Nat) : s.sameBut (s.put f v) [f] :=
  ⟨rfl, fun g h => get_put_ne _ _ _ _ (h f List.mem_cons_self)⟩

theorem sameBut_trans {s t u : State} {l m : List Fld} (h : s.sameBut t l) (k : t.sameBut u m) : s.sameBut u (l ++ m) := by
  refine ⟨?_, fun f hf => ?_⟩
  · rw [k.1, h.1]
  · rw [k.2 f fun g hg => hf g (List.mem_append_right _ hg), h.2 f fun g hg => hf g (List.mem_append_left _ hg)]

theorem sameBut_mono {s t : State} {l m : List Fld} (h : s.sameBut t l) (k : ∀ f ∈ l, f ∈ m) : s.sameBut t m :=
  ⟨h.1, fun f hf => h.2 f fun g hg => hf g (k g hg)⟩

theorem sameBut_puts (l : List (Fld × Nat)) : ∀ s : State, s.sameBut (s.puts l) (l.map Prod.fst) := by
  induction l with
  | nil => exact fun s => sameBut_refl s _
  | cons p l ih => exact fun s => sameBut_trans (l := [p.1]) (sameBut_put s p.1 p.2) (ih _)

/-! ### Accesses by a port -/

theorem vendorWrite_reaches {s : State} {p : Nat} {b : Bool} (h : s.reaches p b = true) (off : Nat) (k : State → State) :
    vendorWrite p off b k s = .next (k s) := by
  unfold State.reaches at h
  simp only [Bool.and_eq_true, Bool.or_eq_true, bne_iff_ne, beq_iff_eq] at h
  obtain ⟨⟨⟨h1, h2⟩, h3⟩, h4⟩ := h
  unfold vendorWrite
  rw [h1, h3]
  by_cases hb : s.life = BARE
  · rcases h4 with h4 | h4
    · exact absurd hb h4
    · simp [hb, h4]
  · rcases h2 with h2 | h2
    · exact absurd h2 hb
    · simp [hb, h2]

/-- A write from the port that does not hold custody changes the custody counts only (R24, R402). -/
theorem vendorWrite_other {s : State} {p : Nat} (off : Nat) (b : Bool) (k : State → State) (h1 : s.on = true)
    (h2 : s.life = BARE ∨ (s.queueCfg p).enable = true) (h3 : s.mgmt ≠ some p) :
    vendorWrite p off b k s = .next (custodyDiscard p off s) := by
  unfold vendorWrite
  rcases h2 with h2 | h2 <;> simp [h1, h2, h3]

theorem readRow_reads {s : State} {p off : Nat} (h : s.reads p off = true) : readRow p off s = .next (readReg off s) := by
  unfold State.reads at h
  simp only [Bool.and_eq_true, beq_iff_eq] at h
  obtain ⟨⟨h1, h2⟩, h3⟩ := h
  unfold readRow State.doIf
  simp [h1, h2, h3]

theorem doIf_true {s : State} {b : Bool} (k : State → State) (h : b = true) : s.doIf b k = .next (k s) := by
  rw [h]; rfl

theorem doIf_false {s : State} {b : Bool} (k : State → State) (h : b = false) : s.doIf b k = .next s := by
  rw [h]; rfl

/-! ### Fields under the register updates -/

@[simp] theorem put_sys (s : State) (f : Fld) (v : Nat) : (s.put f v).sys = s.sys := rfl
@[simp] theorem put_fifos (s : State) (f : Fld) (v : Nat) : (s.put f v).fifos = s.fifos := rfl
@[simp] theorem put_telAt (s : State) (f : Fld) (v : Nat) : (s.put f v).telAt = s.telAt := rfl
@[simp] theorem put_ang (s : State) (f : Fld) (v : Nat) : (s.put f v).ang = s.ang := rfl
@[simp] theorem put_skt (s : State) (f : Fld) (v : Nat) : (s.put f v).skt = s.skt := rfl
@[simp] theorem put_cnv (s : State) (f : Fld) (v : Nat) : (s.put f v).cnv = s.cnv := rfl
@[simp] theorem put_wins (s : State) (f : Fld) (v : Nat) : (s.put f v).wins = s.wins := rfl
@[simp] theorem put_opu (s : State) (f : Fld) (v : Nat) : (s.put f v).opu = s.opu := rfl
@[simp] theorem put_srv (s : State) (f : Fld) (v : Nat) : (s.put f v).srv = s.srv := rfl
@[simp] theorem put_dma (s : State) (f : Fld) (v : Nat) : (s.put f v).dma = s.dma := rfl
@[simp] theorem put_seqs (s : State) (f : Fld) (v : Nat) : (s.put f v).seqs = s.seqs := rfl
@[simp] theorem put_hst (s : State) (f : Fld) (v : Nat) : (s.put f v).hst = s.hst := rfl
@[simp] theorem put_sled (s : State) (f : Fld) (v : Nat) : (s.put f v).sled = s.sled := rfl
@[simp] theorem put_spn (s : State) (f : Fld) (v : Nat) : (s.put f v).spn = s.spn := rfl
@[simp] theorem put_flt (s : State) (f : Fld) (v : Nat) : (s.put f v).flt = s.flt := rfl
@[simp] theorem put_thm (s : State) (f : Fld) (v : Nat) : (s.put f v).thm = s.thm := rfl
@[simp] theorem put_trk (s : State) (f : Fld) (v : Nat) : (s.put f v).trk = s.trk := rfl
@[simp] theorem put_wrs (s : State) (f : Fld) (v : Nat) : (s.put f v).wrs = s.wrs := rfl
@[simp] theorem put_chn (s : State) (f : Fld) (v : Nat) : (s.put f v).chn = s.chn := rfl
@[simp] theorem put_cal (s : State) (f : Fld) (v : Nat) : (s.put f v).cal = s.cal := rfl
@[simp] theorem put_det (s : State) (f : Fld) (v : Nat) : (s.put f v).det = s.det := rfl
@[simp] theorem put_cwd (s : State) (f : Fld) (v : Nat) : (s.put f v).cwd = s.cwd := rfl
@[simp] theorem put_str (s : State) (f : Fld) (v : Nat) : (s.put f v).str = s.str := rfl
@[simp] theorem put_hlt (s : State) (f : Fld) (v : Nat) : (s.put f v).hlt = s.hlt := rfl
@[simp] theorem put_att (s : State) (f : Fld) (v : Nat) : (s.put f v).att = s.att := rfl
@[simp] theorem put_med (s : State) (f : Fld) (v : Nat) : (s.put f v).med = s.med := rfl
@[simp] theorem put_cel (s : State) (f : Fld) (v : Nat) : (s.put f v).cel = s.cel := rfl
@[simp] theorem put_sec (s : State) (f : Fld) (v : Nat) : (s.put f v).sec = s.sec := rfl
@[simp] theorem put_mnt (s : State) (f : Fld) (v : Nat) : (s.put f v).mnt = s.mnt := rfl
@[simp] theorem put_mem (s : State) (f : Fld) (v : Nat) : (s.put f v).mem = s.mem := rfl
@[simp] theorem put_lrd (s : State) (f : Fld) (v : Nat) : (s.put f v).lrd = s.lrd := rfl
@[simp] theorem put_tap (s : State) (f : Fld) (v : Nat) : (s.put f v).tap = s.tap := rfl
@[simp] theorem put_rdata (s : State) (f : Fld) (v : Nat) : (s.put f v).rdata = s.rdata := rfl
@[simp] theorem put_freeCtr (s : State) (f : Fld) (v : Nat) : (s.put f v).freeCtr = s.freeCtr := rfl
@[simp] theorem put_pending (s : State) (f : Fld) (v : Nat) : (s.put f v).pending = s.pending := rfl
@[simp] theorem puts_sys (s : State) (l : List (Fld × Nat)) : (s.puts l).sys = s.sys := by rw [(sameBut_puts l s).1]
@[simp] theorem puts_fifos (s : State) (l : List (Fld × Nat)) : (s.puts l).fifos = s.fifos := by rw [(sameBut_puts l s).1]
@[simp] theorem puts_telAt (s : State) (l : List (Fld × Nat)) : (s.puts l).telAt = s.telAt := by rw [(sameBut_puts l s).1]
@[simp] theorem puts_ang (s : State) (l : List (Fld × Nat)) : (s.puts l).ang = s.ang := by rw [(sameBut_puts l s).1]
@[simp] theorem puts_skt (s : State) (l : List (Fld × Nat)) : (s.puts l).skt = s.skt := by rw [(sameBut_puts l s).1]
@[simp] theorem puts_cnv (s : State) (l : List (Fld × Nat)) : (s.puts l).cnv = s.cnv := by rw [(sameBut_puts l s).1]
@[simp] theorem puts_wins (s : State) (l : List (Fld × Nat)) : (s.puts l).wins = s.wins := by rw [(sameBut_puts l s).1]
@[simp] theorem puts_opu (s : State) (l : List (Fld × Nat)) : (s.puts l).opu = s.opu := by rw [(sameBut_puts l s).1]
@[simp] theorem puts_srv (s : State) (l : List (Fld × Nat)) : (s.puts l).srv = s.srv := by rw [(sameBut_puts l s).1]
@[simp] theorem puts_dma (s : State) (l : List (Fld × Nat)) : (s.puts l).dma = s.dma := by rw [(sameBut_puts l s).1]
@[simp] theorem puts_seqs (s : State) (l : List (Fld × Nat)) : (s.puts l).seqs = s.seqs := by rw [(sameBut_puts l s).1]
@[simp] theorem puts_hst (s : State) (l : List (Fld × Nat)) : (s.puts l).hst = s.hst := by rw [(sameBut_puts l s).1]
@[simp] theorem puts_sled (s : State) (l : List (Fld × Nat)) : (s.puts l).sled = s.sled := by rw [(sameBut_puts l s).1]
@[simp] theorem puts_spn (s : State) (l : List (Fld × Nat)) : (s.puts l).spn = s.spn := by rw [(sameBut_puts l s).1]
@[simp] theorem puts_flt (s : State) (l : List (Fld × Nat)) : (s.puts l).flt = s.flt := by rw [(sameBut_puts l s).1]
@[simp] theorem puts_thm (s : State) (l : List (Fld × Nat)) : (s.puts l).thm = s.thm := by rw [(sameBut_puts l s).1]
@[simp] theorem puts_trk (s : State) (l : List (Fld × Nat)) : (s.puts l).trk = s.trk := by rw [(sameBut_puts l s).1]
@[simp] theorem puts_wrs (s : State) (l : List (Fld × Nat)) : (s.puts l).wrs = s.wrs := by rw [(sameBut_puts l s).1]
@[simp] theorem puts_chn (s : State) (l : List (Fld × Nat)) : (s.puts l).chn = s.chn := by rw [(sameBut_puts l s).1]
@[simp] theorem puts_cal (s : State) (l : List (Fld × Nat)) : (s.puts l).cal = s.cal := by rw [(sameBut_puts l s).1]
@[simp] theorem puts_det (s : State) (l : List (Fld × Nat)) : (s.puts l).det = s.det := by rw [(sameBut_puts l s).1]
@[simp] theorem puts_cwd (s : State) (l : List (Fld × Nat)) : (s.puts l).cwd = s.cwd := by rw [(sameBut_puts l s).1]
@[simp] theorem puts_str (s : State) (l : List (Fld × Nat)) : (s.puts l).str = s.str := by rw [(sameBut_puts l s).1]
@[simp] theorem puts_hlt (s : State) (l : List (Fld × Nat)) : (s.puts l).hlt = s.hlt := by rw [(sameBut_puts l s).1]
@[simp] theorem puts_att (s : State) (l : List (Fld × Nat)) : (s.puts l).att = s.att := by rw [(sameBut_puts l s).1]
@[simp] theorem puts_med (s : State) (l : List (Fld × Nat)) : (s.puts l).med = s.med := by rw [(sameBut_puts l s).1]
@[simp] theorem puts_cel (s : State) (l : List (Fld × Nat)) : (s.puts l).cel = s.cel := by rw [(sameBut_puts l s).1]
@[simp] theorem puts_sec (s : State) (l : List (Fld × Nat)) : (s.puts l).sec = s.sec := by rw [(sameBut_puts l s).1]
@[simp] theorem puts_mnt (s : State) (l : List (Fld × Nat)) : (s.puts l).mnt = s.mnt := by rw [(sameBut_puts l s).1]
@[simp] theorem puts_mem (s : State) (l : List (Fld × Nat)) : (s.puts l).mem = s.mem := by rw [(sameBut_puts l s).1]
@[simp] theorem puts_lrd (s : State) (l : List (Fld × Nat)) : (s.puts l).lrd = s.lrd := by rw [(sameBut_puts l s).1]
@[simp] theorem puts_tap (s : State) (l : List (Fld × Nat)) : (s.puts l).tap = s.tap := by rw [(sameBut_puts l s).1]
@[simp] theorem puts_rdata (s : State) (l : List (Fld × Nat)) : (s.puts l).rdata = s.rdata := by rw [(sameBut_puts l s).1]
@[simp] theorem puts_freeCtr (s : State) (l : List (Fld × Nat)) : (s.puts l).freeCtr = s.freeCtr := by rw [(sameBut_puts l s).1]
@[simp] theorem puts_pending (s : State) (l : List (Fld × Nat)) : (s.puts l).pending = s.pending := by rw [(sameBut_puts l s).1]
@[simp] theorem addSat_sys (s : State) (f : Fld) (n : Nat) : (s.addSat f n).sys = s.sys := rfl
@[simp] theorem addSat_fifos (s : State) (f : Fld) (n : Nat) : (s.addSat f n).fifos = s.fifos := rfl
@[simp] theorem addSat_telAt (s : State) (f : Fld) (n : Nat) : (s.addSat f n).telAt = s.telAt := rfl
@[simp] theorem addSat_ang (s : State) (f : Fld) (n : Nat) : (s.addSat f n).ang = s.ang := rfl
@[simp] theorem addSat_skt (s : State) (f : Fld) (n : Nat) : (s.addSat f n).skt = s.skt := rfl
@[simp] theorem addSat_cnv (s : State) (f : Fld) (n : Nat) : (s.addSat f n).cnv = s.cnv := rfl
@[simp] theorem addSat_wins (s : State) (f : Fld) (n : Nat) : (s.addSat f n).wins = s.wins := rfl
@[simp] theorem addSat_opu (s : State) (f : Fld) (n : Nat) : (s.addSat f n).opu = s.opu := rfl
@[simp] theorem addSat_srv (s : State) (f : Fld) (n : Nat) : (s.addSat f n).srv = s.srv := rfl
@[simp] theorem addSat_dma (s : State) (f : Fld) (n : Nat) : (s.addSat f n).dma = s.dma := rfl
@[simp] theorem addSat_seqs (s : State) (f : Fld) (n : Nat) : (s.addSat f n).seqs = s.seqs := rfl
@[simp] theorem addSat_hst (s : State) (f : Fld) (n : Nat) : (s.addSat f n).hst = s.hst := rfl
@[simp] theorem addSat_sled (s : State) (f : Fld) (n : Nat) : (s.addSat f n).sled = s.sled := rfl
@[simp] theorem addSat_spn (s : State) (f : Fld) (n : Nat) : (s.addSat f n).spn = s.spn := rfl
@[simp] theorem addSat_flt (s : State) (f : Fld) (n : Nat) : (s.addSat f n).flt = s.flt := rfl
@[simp] theorem addSat_thm (s : State) (f : Fld) (n : Nat) : (s.addSat f n).thm = s.thm := rfl
@[simp] theorem addSat_trk (s : State) (f : Fld) (n : Nat) : (s.addSat f n).trk = s.trk := rfl
@[simp] theorem addSat_wrs (s : State) (f : Fld) (n : Nat) : (s.addSat f n).wrs = s.wrs := rfl
@[simp] theorem addSat_chn (s : State) (f : Fld) (n : Nat) : (s.addSat f n).chn = s.chn := rfl
@[simp] theorem addSat_cal (s : State) (f : Fld) (n : Nat) : (s.addSat f n).cal = s.cal := rfl
@[simp] theorem addSat_det (s : State) (f : Fld) (n : Nat) : (s.addSat f n).det = s.det := rfl
@[simp] theorem addSat_cwd (s : State) (f : Fld) (n : Nat) : (s.addSat f n).cwd = s.cwd := rfl
@[simp] theorem addSat_str (s : State) (f : Fld) (n : Nat) : (s.addSat f n).str = s.str := rfl
@[simp] theorem addSat_hlt (s : State) (f : Fld) (n : Nat) : (s.addSat f n).hlt = s.hlt := rfl
@[simp] theorem addSat_att (s : State) (f : Fld) (n : Nat) : (s.addSat f n).att = s.att := rfl
@[simp] theorem addSat_med (s : State) (f : Fld) (n : Nat) : (s.addSat f n).med = s.med := rfl
@[simp] theorem addSat_cel (s : State) (f : Fld) (n : Nat) : (s.addSat f n).cel = s.cel := rfl
@[simp] theorem addSat_sec (s : State) (f : Fld) (n : Nat) : (s.addSat f n).sec = s.sec := rfl
@[simp] theorem addSat_mnt (s : State) (f : Fld) (n : Nat) : (s.addSat f n).mnt = s.mnt := rfl
@[simp] theorem addSat_mem (s : State) (f : Fld) (n : Nat) : (s.addSat f n).mem = s.mem := rfl
@[simp] theorem addSat_lrd (s : State) (f : Fld) (n : Nat) : (s.addSat f n).lrd = s.lrd := rfl
@[simp] theorem addSat_tap (s : State) (f : Fld) (n : Nat) : (s.addSat f n).tap = s.tap := rfl
@[simp] theorem addSat_rdata (s : State) (f : Fld) (n : Nat) : (s.addSat f n).rdata = s.rdata := rfl
@[simp] theorem addSat_freeCtr (s : State) (f : Fld) (n : Nat) : (s.addSat f n).freeCtr = s.freeCtr := rfl
@[simp] theorem addSat_pending (s : State) (f : Fld) (n : Nat) : (s.addSat f n).pending = s.pending := rfl
@[simp] theorem inc_sys (s : State) (f : Fld) : (s.inc f).sys = s.sys := rfl
@[simp] theorem inc_fifos (s : State) (f : Fld) : (s.inc f).fifos = s.fifos := rfl
@[simp] theorem inc_telAt (s : State) (f : Fld) : (s.inc f).telAt = s.telAt := rfl
@[simp] theorem inc_ang (s : State) (f : Fld) : (s.inc f).ang = s.ang := rfl
@[simp] theorem inc_skt (s : State) (f : Fld) : (s.inc f).skt = s.skt := rfl
@[simp] theorem inc_cnv (s : State) (f : Fld) : (s.inc f).cnv = s.cnv := rfl
@[simp] theorem inc_wins (s : State) (f : Fld) : (s.inc f).wins = s.wins := rfl
@[simp] theorem inc_opu (s : State) (f : Fld) : (s.inc f).opu = s.opu := rfl
@[simp] theorem inc_srv (s : State) (f : Fld) : (s.inc f).srv = s.srv := rfl
@[simp] theorem inc_dma (s : State) (f : Fld) : (s.inc f).dma = s.dma := rfl
@[simp] theorem inc_seqs (s : State) (f : Fld) : (s.inc f).seqs = s.seqs := rfl
@[simp] theorem inc_hst (s : State) (f : Fld) : (s.inc f).hst = s.hst := rfl
@[simp] theorem inc_sled (s : State) (f : Fld) : (s.inc f).sled = s.sled := rfl
@[simp] theorem inc_spn (s : State) (f : Fld) : (s.inc f).spn = s.spn := rfl
@[simp] theorem inc_flt (s : State) (f : Fld) : (s.inc f).flt = s.flt := rfl
@[simp] theorem inc_thm (s : State) (f : Fld) : (s.inc f).thm = s.thm := rfl
@[simp] theorem inc_trk (s : State) (f : Fld) : (s.inc f).trk = s.trk := rfl
@[simp] theorem inc_wrs (s : State) (f : Fld) : (s.inc f).wrs = s.wrs := rfl
@[simp] theorem inc_chn (s : State) (f : Fld) : (s.inc f).chn = s.chn := rfl
@[simp] theorem inc_cal (s : State) (f : Fld) : (s.inc f).cal = s.cal := rfl
@[simp] theorem inc_det (s : State) (f : Fld) : (s.inc f).det = s.det := rfl
@[simp] theorem inc_cwd (s : State) (f : Fld) : (s.inc f).cwd = s.cwd := rfl
@[simp] theorem inc_str (s : State) (f : Fld) : (s.inc f).str = s.str := rfl
@[simp] theorem inc_hlt (s : State) (f : Fld) : (s.inc f).hlt = s.hlt := rfl
@[simp] theorem inc_att (s : State) (f : Fld) : (s.inc f).att = s.att := rfl
@[simp] theorem inc_med (s : State) (f : Fld) : (s.inc f).med = s.med := rfl
@[simp] theorem inc_cel (s : State) (f : Fld) : (s.inc f).cel = s.cel := rfl
@[simp] theorem inc_sec (s : State) (f : Fld) : (s.inc f).sec = s.sec := rfl
@[simp] theorem inc_mnt (s : State) (f : Fld) : (s.inc f).mnt = s.mnt := rfl
@[simp] theorem inc_mem (s : State) (f : Fld) : (s.inc f).mem = s.mem := rfl
@[simp] theorem inc_lrd (s : State) (f : Fld) : (s.inc f).lrd = s.lrd := rfl
@[simp] theorem inc_tap (s : State) (f : Fld) : (s.inc f).tap = s.tap := rfl
@[simp] theorem inc_rdata (s : State) (f : Fld) : (s.inc f).rdata = s.rdata := rfl
@[simp] theorem inc_freeCtr (s : State) (f : Fld) : (s.inc f).freeCtr = s.freeCtr := rfl
@[simp] theorem inc_pending (s : State) (f : Fld) : (s.inc f).pending = s.pending := rfl
@[simp] theorem setBit_sys (s : State) (f : Fld) (i : Nat) (b : Bool) : (s.setBit f i b).sys = s.sys := rfl
@[simp] theorem setBit_fifos (s : State) (f : Fld) (i : Nat) (b : Bool) : (s.setBit f i b).fifos = s.fifos := rfl
@[simp] theorem setBit_telAt (s : State) (f : Fld) (i : Nat) (b : Bool) : (s.setBit f i b).telAt = s.telAt := rfl
@[simp] theorem setBit_ang (s : State) (f : Fld) (i : Nat) (b : Bool) : (s.setBit f i b).ang = s.ang := rfl
@[simp] theorem setBit_skt (s : State) (f : Fld) (i : Nat) (b : Bool) : (s.setBit f i b).skt = s.skt := rfl
@[simp] theorem setBit_cnv (s : State) (f : Fld) (i : Nat) (b : Bool) : (s.setBit f i b).cnv = s.cnv := rfl
@[simp] theorem setBit_wins (s : State) (f : Fld) (i : Nat) (b : Bool) : (s.setBit f i b).wins = s.wins := rfl
@[simp] theorem setBit_opu (s : State) (f : Fld) (i : Nat) (b : Bool) : (s.setBit f i b).opu = s.opu := rfl
@[simp] theorem setBit_srv (s : State) (f : Fld) (i : Nat) (b : Bool) : (s.setBit f i b).srv = s.srv := rfl
@[simp] theorem setBit_dma (s : State) (f : Fld) (i : Nat) (b : Bool) : (s.setBit f i b).dma = s.dma := rfl
@[simp] theorem setBit_seqs (s : State) (f : Fld) (i : Nat) (b : Bool) : (s.setBit f i b).seqs = s.seqs := rfl
@[simp] theorem setBit_hst (s : State) (f : Fld) (i : Nat) (b : Bool) : (s.setBit f i b).hst = s.hst := rfl
@[simp] theorem setBit_sled (s : State) (f : Fld) (i : Nat) (b : Bool) : (s.setBit f i b).sled = s.sled := rfl
@[simp] theorem setBit_spn (s : State) (f : Fld) (i : Nat) (b : Bool) : (s.setBit f i b).spn = s.spn := rfl
@[simp] theorem setBit_flt (s : State) (f : Fld) (i : Nat) (b : Bool) : (s.setBit f i b).flt = s.flt := rfl
@[simp] theorem setBit_thm (s : State) (f : Fld) (i : Nat) (b : Bool) : (s.setBit f i b).thm = s.thm := rfl
@[simp] theorem setBit_trk (s : State) (f : Fld) (i : Nat) (b : Bool) : (s.setBit f i b).trk = s.trk := rfl
@[simp] theorem setBit_wrs (s : State) (f : Fld) (i : Nat) (b : Bool) : (s.setBit f i b).wrs = s.wrs := rfl
@[simp] theorem setBit_chn (s : State) (f : Fld) (i : Nat) (b : Bool) : (s.setBit f i b).chn = s.chn := rfl
@[simp] theorem setBit_cal (s : State) (f : Fld) (i : Nat) (b : Bool) : (s.setBit f i b).cal = s.cal := rfl
@[simp] theorem setBit_det (s : State) (f : Fld) (i : Nat) (b : Bool) : (s.setBit f i b).det = s.det := rfl
@[simp] theorem setBit_cwd (s : State) (f : Fld) (i : Nat) (b : Bool) : (s.setBit f i b).cwd = s.cwd := rfl
@[simp] theorem setBit_str (s : State) (f : Fld) (i : Nat) (b : Bool) : (s.setBit f i b).str = s.str := rfl
@[simp] theorem setBit_hlt (s : State) (f : Fld) (i : Nat) (b : Bool) : (s.setBit f i b).hlt = s.hlt := rfl
@[simp] theorem setBit_att (s : State) (f : Fld) (i : Nat) (b : Bool) : (s.setBit f i b).att = s.att := rfl
@[simp] theorem setBit_med (s : State) (f : Fld) (i : Nat) (b : Bool) : (s.setBit f i b).med = s.med := rfl
@[simp] theorem setBit_cel (s : State) (f : Fld) (i : Nat) (b : Bool) : (s.setBit f i b).cel = s.cel := rfl
@[simp] theorem setBit_sec (s : State) (f : Fld) (i : Nat) (b : Bool) : (s.setBit f i b).sec = s.sec := rfl
@[simp] theorem setBit_mnt (s : State) (f : Fld) (i : Nat) (b : Bool) : (s.setBit f i b).mnt = s.mnt := rfl
@[simp] theorem setBit_mem (s : State) (f : Fld) (i : Nat) (b : Bool) : (s.setBit f i b).mem = s.mem := rfl
@[simp] theorem setBit_lrd (s : State) (f : Fld) (i : Nat) (b : Bool) : (s.setBit f i b).lrd = s.lrd := rfl
@[simp] theorem setBit_tap (s : State) (f : Fld) (i : Nat) (b : Bool) : (s.setBit f i b).tap = s.tap := rfl
@[simp] theorem setBit_rdata (s : State) (f : Fld) (i : Nat) (b : Bool) : (s.setBit f i b).rdata = s.rdata := rfl
@[simp] theorem setBit_freeCtr (s : State) (f : Fld) (i : Nat) (b : Bool) : (s.setBit f i b).freeCtr = s.freeCtr := rfl
@[simp] theorem setBit_pending (s : State) (f : Fld) (i : Nat) (b : Bool) : (s.setBit f i b).pending = s.pending := rfl
@[simp] theorem putB_sys (s : State) (f : Fld) (b : Bool) : (s.putB f b).sys = s.sys := rfl
@[simp] theorem putB_fifos (s : State) (f : Fld) (b : Bool) : (s.putB f b).fifos = s.fifos := rfl
@[simp] theorem putB_telAt (s : State) (f : Fld) (b : Bool) : (s.putB f b).telAt = s.telAt := rfl
@[simp] theorem putB_ang (s : State) (f : Fld) (b : Bool) : (s.putB f b).ang = s.ang := rfl
@[simp] theorem putB_skt (s : State) (f : Fld) (b : Bool) : (s.putB f b).skt = s.skt := rfl
@[simp] theorem putB_cnv (s : State) (f : Fld) (b : Bool) : (s.putB f b).cnv = s.cnv := rfl
@[simp] theorem putB_wins (s : State) (f : Fld) (b : Bool) : (s.putB f b).wins = s.wins := rfl
@[simp] theorem putB_opu (s : State) (f : Fld) (b : Bool) : (s.putB f b).opu = s.opu := rfl
@[simp] theorem putB_srv (s : State) (f : Fld) (b : Bool) : (s.putB f b).srv = s.srv := rfl
@[simp] theorem putB_dma (s : State) (f : Fld) (b : Bool) : (s.putB f b).dma = s.dma := rfl
@[simp] theorem putB_seqs (s : State) (f : Fld) (b : Bool) : (s.putB f b).seqs = s.seqs := rfl
@[simp] theorem putB_hst (s : State) (f : Fld) (b : Bool) : (s.putB f b).hst = s.hst := rfl
@[simp] theorem putB_sled (s : State) (f : Fld) (b : Bool) : (s.putB f b).sled = s.sled := rfl
@[simp] theorem putB_spn (s : State) (f : Fld) (b : Bool) : (s.putB f b).spn = s.spn := rfl
@[simp] theorem putB_flt (s : State) (f : Fld) (b : Bool) : (s.putB f b).flt = s.flt := rfl
@[simp] theorem putB_thm (s : State) (f : Fld) (b : Bool) : (s.putB f b).thm = s.thm := rfl
@[simp] theorem putB_trk (s : State) (f : Fld) (b : Bool) : (s.putB f b).trk = s.trk := rfl
@[simp] theorem putB_wrs (s : State) (f : Fld) (b : Bool) : (s.putB f b).wrs = s.wrs := rfl
@[simp] theorem putB_chn (s : State) (f : Fld) (b : Bool) : (s.putB f b).chn = s.chn := rfl
@[simp] theorem putB_cal (s : State) (f : Fld) (b : Bool) : (s.putB f b).cal = s.cal := rfl
@[simp] theorem putB_det (s : State) (f : Fld) (b : Bool) : (s.putB f b).det = s.det := rfl
@[simp] theorem putB_cwd (s : State) (f : Fld) (b : Bool) : (s.putB f b).cwd = s.cwd := rfl
@[simp] theorem putB_str (s : State) (f : Fld) (b : Bool) : (s.putB f b).str = s.str := rfl
@[simp] theorem putB_hlt (s : State) (f : Fld) (b : Bool) : (s.putB f b).hlt = s.hlt := rfl
@[simp] theorem putB_att (s : State) (f : Fld) (b : Bool) : (s.putB f b).att = s.att := rfl
@[simp] theorem putB_med (s : State) (f : Fld) (b : Bool) : (s.putB f b).med = s.med := rfl
@[simp] theorem putB_cel (s : State) (f : Fld) (b : Bool) : (s.putB f b).cel = s.cel := rfl
@[simp] theorem putB_sec (s : State) (f : Fld) (b : Bool) : (s.putB f b).sec = s.sec := rfl
@[simp] theorem putB_mnt (s : State) (f : Fld) (b : Bool) : (s.putB f b).mnt = s.mnt := rfl
@[simp] theorem putB_mem (s : State) (f : Fld) (b : Bool) : (s.putB f b).mem = s.mem := rfl
@[simp] theorem putB_lrd (s : State) (f : Fld) (b : Bool) : (s.putB f b).lrd = s.lrd := rfl
@[simp] theorem putB_tap (s : State) (f : Fld) (b : Bool) : (s.putB f b).tap = s.tap := rfl
@[simp] theorem putB_rdata (s : State) (f : Fld) (b : Bool) : (s.putB f b).rdata = s.rdata := rfl
@[simp] theorem putB_freeCtr (s : State) (f : Fld) (b : Bool) : (s.putB f b).freeCtr = s.freeCtr := rfl
@[simp] theorem putB_pending (s : State) (f : Fld) (b : Bool) : (s.putB f b).pending = s.pending := rfl
@[simp] theorem putI_sys (s : State) (f : Fld) (v : Int) : (s.putI f v).sys = s.sys := rfl
@[simp] theorem putI_fifos (s : State) (f : Fld) (v : Int) : (s.putI f v).fifos = s.fifos := rfl
@[simp] theorem putI_telAt (s : State) (f : Fld) (v : Int) : (s.putI f v).telAt = s.telAt := rfl
@[simp] theorem putI_ang (s : State) (f : Fld) (v : Int) : (s.putI f v).ang = s.ang := rfl
@[simp] theorem putI_skt (s : State) (f : Fld) (v : Int) : (s.putI f v).skt = s.skt := rfl
@[simp] theorem putI_cnv (s : State) (f : Fld) (v : Int) : (s.putI f v).cnv = s.cnv := rfl
@[simp] theorem putI_wins (s : State) (f : Fld) (v : Int) : (s.putI f v).wins = s.wins := rfl
@[simp] theorem putI_opu (s : State) (f : Fld) (v : Int) : (s.putI f v).opu = s.opu := rfl
@[simp] theorem putI_srv (s : State) (f : Fld) (v : Int) : (s.putI f v).srv = s.srv := rfl
@[simp] theorem putI_dma (s : State) (f : Fld) (v : Int) : (s.putI f v).dma = s.dma := rfl
@[simp] theorem putI_seqs (s : State) (f : Fld) (v : Int) : (s.putI f v).seqs = s.seqs := rfl
@[simp] theorem putI_hst (s : State) (f : Fld) (v : Int) : (s.putI f v).hst = s.hst := rfl
@[simp] theorem putI_sled (s : State) (f : Fld) (v : Int) : (s.putI f v).sled = s.sled := rfl
@[simp] theorem putI_spn (s : State) (f : Fld) (v : Int) : (s.putI f v).spn = s.spn := rfl
@[simp] theorem putI_flt (s : State) (f : Fld) (v : Int) : (s.putI f v).flt = s.flt := rfl
@[simp] theorem putI_thm (s : State) (f : Fld) (v : Int) : (s.putI f v).thm = s.thm := rfl
@[simp] theorem putI_trk (s : State) (f : Fld) (v : Int) : (s.putI f v).trk = s.trk := rfl
@[simp] theorem putI_wrs (s : State) (f : Fld) (v : Int) : (s.putI f v).wrs = s.wrs := rfl
@[simp] theorem putI_chn (s : State) (f : Fld) (v : Int) : (s.putI f v).chn = s.chn := rfl
@[simp] theorem putI_cal (s : State) (f : Fld) (v : Int) : (s.putI f v).cal = s.cal := rfl
@[simp] theorem putI_det (s : State) (f : Fld) (v : Int) : (s.putI f v).det = s.det := rfl
@[simp] theorem putI_cwd (s : State) (f : Fld) (v : Int) : (s.putI f v).cwd = s.cwd := rfl
@[simp] theorem putI_str (s : State) (f : Fld) (v : Int) : (s.putI f v).str = s.str := rfl
@[simp] theorem putI_hlt (s : State) (f : Fld) (v : Int) : (s.putI f v).hlt = s.hlt := rfl
@[simp] theorem putI_att (s : State) (f : Fld) (v : Int) : (s.putI f v).att = s.att := rfl
@[simp] theorem putI_med (s : State) (f : Fld) (v : Int) : (s.putI f v).med = s.med := rfl
@[simp] theorem putI_cel (s : State) (f : Fld) (v : Int) : (s.putI f v).cel = s.cel := rfl
@[simp] theorem putI_sec (s : State) (f : Fld) (v : Int) : (s.putI f v).sec = s.sec := rfl
@[simp] theorem putI_mnt (s : State) (f : Fld) (v : Int) : (s.putI f v).mnt = s.mnt := rfl
@[simp] theorem putI_mem (s : State) (f : Fld) (v : Int) : (s.putI f v).mem = s.mem := rfl
@[simp] theorem putI_lrd (s : State) (f : Fld) (v : Int) : (s.putI f v).lrd = s.lrd := rfl
@[simp] theorem putI_tap (s : State) (f : Fld) (v : Int) : (s.putI f v).tap = s.tap := rfl
@[simp] theorem putI_rdata (s : State) (f : Fld) (v : Int) : (s.putI f v).rdata = s.rdata := rfl
@[simp] theorem putI_freeCtr (s : State) (f : Fld) (v : Int) : (s.putI f v).freeCtr = s.freeCtr := rfl
@[simp] theorem putI_pending (s : State) (f : Fld) (v : Int) : (s.putI f v).pending = s.pending := rfl
@[simp] theorem setNow_sys (s : State) (n : Nat) : (s.setNow n).sys = s.sys := rfl
@[simp] theorem setNow_fifos (s : State) (n : Nat) : (s.setNow n).fifos = s.fifos := rfl
@[simp] theorem setNow_telAt (s : State) (n : Nat) : (s.setNow n).telAt = s.telAt := rfl
@[simp] theorem setNow_ang (s : State) (n : Nat) : (s.setNow n).ang = s.ang := rfl
@[simp] theorem setNow_skt (s : State) (n : Nat) : (s.setNow n).skt = s.skt := rfl
@[simp] theorem setNow_cnv (s : State) (n : Nat) : (s.setNow n).cnv = s.cnv := rfl
@[simp] theorem setNow_wins (s : State) (n : Nat) : (s.setNow n).wins = s.wins := rfl
@[simp] theorem setNow_opu (s : State) (n : Nat) : (s.setNow n).opu = s.opu := rfl
@[simp] theorem setNow_srv (s : State) (n : Nat) : (s.setNow n).srv = s.srv := rfl
@[simp] theorem setNow_dma (s : State) (n : Nat) : (s.setNow n).dma = s.dma := rfl
@[simp] theorem setNow_seqs (s : State) (n : Nat) : (s.setNow n).seqs = s.seqs := rfl
@[simp] theorem setNow_hst (s : State) (n : Nat) : (s.setNow n).hst = s.hst := rfl
@[simp] theorem setNow_sled (s : State) (n : Nat) : (s.setNow n).sled = s.sled := rfl
@[simp] theorem setNow_spn (s : State) (n : Nat) : (s.setNow n).spn = s.spn := rfl
@[simp] theorem setNow_flt (s : State) (n : Nat) : (s.setNow n).flt = s.flt := rfl
@[simp] theorem setNow_thm (s : State) (n : Nat) : (s.setNow n).thm = s.thm := rfl
@[simp] theorem setNow_trk (s : State) (n : Nat) : (s.setNow n).trk = s.trk := rfl
@[simp] theorem setNow_wrs (s : State) (n : Nat) : (s.setNow n).wrs = s.wrs := rfl
@[simp] theorem setNow_chn (s : State) (n : Nat) : (s.setNow n).chn = s.chn := rfl
@[simp] theorem setNow_cal (s : State) (n : Nat) : (s.setNow n).cal = s.cal := rfl
@[simp] theorem setNow_det (s : State) (n : Nat) : (s.setNow n).det = s.det := rfl
@[simp] theorem setNow_cwd (s : State) (n : Nat) : (s.setNow n).cwd = s.cwd := rfl
@[simp] theorem setNow_str (s : State) (n : Nat) : (s.setNow n).str = s.str := rfl
@[simp] theorem setNow_hlt (s : State) (n : Nat) : (s.setNow n).hlt = s.hlt := rfl
@[simp] theorem setNow_att (s : State) (n : Nat) : (s.setNow n).att = s.att := rfl
@[simp] theorem setNow_med (s : State) (n : Nat) : (s.setNow n).med = s.med := rfl
@[simp] theorem setNow_cel (s : State) (n : Nat) : (s.setNow n).cel = s.cel := rfl
@[simp] theorem setNow_sec (s : State) (n : Nat) : (s.setNow n).sec = s.sec := rfl
@[simp] theorem setNow_mnt (s : State) (n : Nat) : (s.setNow n).mnt = s.mnt := rfl
@[simp] theorem setNow_mem (s : State) (n : Nat) : (s.setNow n).mem = s.mem := rfl
@[simp] theorem setNow_lrd (s : State) (n : Nat) : (s.setNow n).lrd = s.lrd := rfl
@[simp] theorem setNow_tap (s : State) (n : Nat) : (s.setNow n).tap = s.tap := rfl
@[simp] theorem setNow_rdata (s : State) (n : Nat) : (s.setNow n).rdata = s.rdata := rfl
@[simp] theorem setNow_freeCtr (s : State) (n : Nat) : (s.setNow n).freeCtr = s.freeCtr := rfl
@[simp] theorem setNow_pending (s : State) (n : Nat) : (s.setNow n).pending = s.pending := rfl

/-! ### Fields and registers under the other updates -/

@[simp] theorem drawn_rf (s : State) : (s.drawn).rf = s.rf := rfl
@[simp] theorem drawn_sys (s : State) : (s.drawn).sys = s.sys := rfl
@[simp] theorem drawn_fifos (s : State) : (s.drawn).fifos = s.fifos := rfl
@[simp] theorem drawn_telAt (s : State) : (s.drawn).telAt = s.telAt := rfl
@[simp] theorem drawn_ang (s : State) : (s.drawn).ang = s.ang := rfl
@[simp] theorem drawn_skt (s : State) : (s.drawn).skt = s.skt := rfl
@[simp] theorem drawn_cnv (s : State) : (s.drawn).cnv = s.cnv := rfl
@[simp] theorem drawn_wins (s : State) : (s.drawn).wins = s.wins := rfl
@[simp] theorem drawn_opu (s : State) : (s.drawn).opu = s.opu := rfl
@[simp] theorem drawn_srv (s : State) : (s.drawn).srv = s.srv := rfl
@[simp] theorem drawn_dma (s : State) : (s.drawn).dma = s.dma := rfl
@[simp] theorem drawn_seqs (s : State) : (s.drawn).seqs = s.seqs := rfl
@[simp] theorem drawn_hst (s : State) : (s.drawn).hst = s.hst := rfl
@[simp] theorem drawn_sled (s : State) : (s.drawn).sled = s.sled := rfl
@[simp] theorem drawn_spn (s : State) : (s.drawn).spn = s.spn := rfl
@[simp] theorem drawn_flt (s : State) : (s.drawn).flt = s.flt := rfl
@[simp] theorem drawn_thm (s : State) : (s.drawn).thm = s.thm := rfl
@[simp] theorem drawn_trk (s : State) : (s.drawn).trk = s.trk := rfl
@[simp] theorem drawn_wrs (s : State) : (s.drawn).wrs = s.wrs := rfl
@[simp] theorem drawn_chn (s : State) : (s.drawn).chn = s.chn := rfl
@[simp] theorem drawn_cal (s : State) : (s.drawn).cal = s.cal := rfl
@[simp] theorem drawn_det (s : State) : (s.drawn).det = s.det := rfl
@[simp] theorem drawn_cwd (s : State) : (s.drawn).cwd = s.cwd := rfl
@[simp] theorem drawn_str (s : State) : (s.drawn).str = s.str := rfl
@[simp] theorem drawn_hlt (s : State) : (s.drawn).hlt = s.hlt := rfl
@[simp] theorem drawn_att (s : State) : (s.drawn).att = s.att := rfl
@[simp] theorem drawn_med (s : State) : (s.drawn).med = s.med := rfl
@[simp] theorem drawn_cel (s : State) : (s.drawn).cel = s.cel := rfl
@[simp] theorem drawn_sec (s : State) : (s.drawn).sec = s.sec := rfl
@[simp] theorem drawn_mnt (s : State) : (s.drawn).mnt = s.mnt := rfl
@[simp] theorem drawn_mem (s : State) : (s.drawn).mem = s.mem := rfl
@[simp] theorem drawn_lrd (s : State) : (s.drawn).lrd = s.lrd := rfl
@[simp] theorem drawn_tap (s : State) : (s.drawn).tap = s.tap := rfl
@[simp] theorem drawn_rdata (s : State) : (s.drawn).rdata = s.rdata := rfl
@[simp] theorem drawn_pending (s : State) : (s.drawn).pending = s.pending := rfl
@[simp] theorem get_drawn (s : State) (f : Fld) : (s.drawn).get f = s.get f := rfl
@[simp] theorem setOpu_rf (s : State) (h : Nat) (k : OpuHead → OpuHead) : (s.setOpu h k).rf = s.rf := rfl
@[simp] theorem setOpu_sys (s : State) (h : Nat) (k : OpuHead → OpuHead) : (s.setOpu h k).sys = s.sys := rfl
@[simp] theorem setOpu_fifos (s : State) (h : Nat) (k : OpuHead → OpuHead) : (s.setOpu h k).fifos = s.fifos := rfl
@[simp] theorem setOpu_telAt (s : State) (h : Nat) (k : OpuHead → OpuHead) : (s.setOpu h k).telAt = s.telAt := rfl
@[simp] theorem setOpu_ang (s : State) (h : Nat) (k : OpuHead → OpuHead) : (s.setOpu h k).ang = s.ang := rfl
@[simp] theorem setOpu_skt (s : State) (h : Nat) (k : OpuHead → OpuHead) : (s.setOpu h k).skt = s.skt := rfl
@[simp] theorem setOpu_cnv (s : State) (h : Nat) (k : OpuHead → OpuHead) : (s.setOpu h k).cnv = s.cnv := rfl
@[simp] theorem setOpu_wins (s : State) (h : Nat) (k : OpuHead → OpuHead) : (s.setOpu h k).wins = s.wins := rfl
@[simp] theorem setOpu_srv (s : State) (h : Nat) (k : OpuHead → OpuHead) : (s.setOpu h k).srv = s.srv := rfl
@[simp] theorem setOpu_dma (s : State) (h : Nat) (k : OpuHead → OpuHead) : (s.setOpu h k).dma = s.dma := rfl
@[simp] theorem setOpu_seqs (s : State) (h : Nat) (k : OpuHead → OpuHead) : (s.setOpu h k).seqs = s.seqs := rfl
@[simp] theorem setOpu_hst (s : State) (h : Nat) (k : OpuHead → OpuHead) : (s.setOpu h k).hst = s.hst := rfl
@[simp] theorem setOpu_sled (s : State) (h : Nat) (k : OpuHead → OpuHead) : (s.setOpu h k).sled = s.sled := rfl
@[simp] theorem setOpu_spn (s : State) (h : Nat) (k : OpuHead → OpuHead) : (s.setOpu h k).spn = s.spn := rfl
@[simp] theorem setOpu_flt (s : State) (h : Nat) (k : OpuHead → OpuHead) : (s.setOpu h k).flt = s.flt := rfl
@[simp] theorem setOpu_thm (s : State) (h : Nat) (k : OpuHead → OpuHead) : (s.setOpu h k).thm = s.thm := rfl
@[simp] theorem setOpu_trk (s : State) (h : Nat) (k : OpuHead → OpuHead) : (s.setOpu h k).trk = s.trk := rfl
@[simp] theorem setOpu_wrs (s : State) (h : Nat) (k : OpuHead → OpuHead) : (s.setOpu h k).wrs = s.wrs := rfl
@[simp] theorem setOpu_chn (s : State) (h : Nat) (k : OpuHead → OpuHead) : (s.setOpu h k).chn = s.chn := rfl
@[simp] theorem setOpu_cal (s : State) (h : Nat) (k : OpuHead → OpuHead) : (s.setOpu h k).cal = s.cal := rfl
@[simp] theorem setOpu_det (s : State) (h : Nat) (k : OpuHead → OpuHead) : (s.setOpu h k).det = s.det := rfl
@[simp] theorem setOpu_cwd (s : State) (h : Nat) (k : OpuHead → OpuHead) : (s.setOpu h k).cwd = s.cwd := rfl
@[simp] theorem setOpu_str (s : State) (h : Nat) (k : OpuHead → OpuHead) : (s.setOpu h k).str = s.str := rfl
@[simp] theorem setOpu_hlt (s : State) (h : Nat) (k : OpuHead → OpuHead) : (s.setOpu h k).hlt = s.hlt := rfl
@[simp] theorem setOpu_att (s : State) (h : Nat) (k : OpuHead → OpuHead) : (s.setOpu h k).att = s.att := rfl
@[simp] theorem setOpu_med (s : State) (h : Nat) (k : OpuHead → OpuHead) : (s.setOpu h k).med = s.med := rfl
@[simp] theorem setOpu_cel (s : State) (h : Nat) (k : OpuHead → OpuHead) : (s.setOpu h k).cel = s.cel := rfl
@[simp] theorem setOpu_sec (s : State) (h : Nat) (k : OpuHead → OpuHead) : (s.setOpu h k).sec = s.sec := rfl
@[simp] theorem setOpu_mnt (s : State) (h : Nat) (k : OpuHead → OpuHead) : (s.setOpu h k).mnt = s.mnt := rfl
@[simp] theorem setOpu_mem (s : State) (h : Nat) (k : OpuHead → OpuHead) : (s.setOpu h k).mem = s.mem := rfl
@[simp] theorem setOpu_lrd (s : State) (h : Nat) (k : OpuHead → OpuHead) : (s.setOpu h k).lrd = s.lrd := rfl
@[simp] theorem setOpu_tap (s : State) (h : Nat) (k : OpuHead → OpuHead) : (s.setOpu h k).tap = s.tap := rfl
@[simp] theorem setOpu_rdata (s : State) (h : Nat) (k : OpuHead → OpuHead) : (s.setOpu h k).rdata = s.rdata := rfl
@[simp] theorem setOpu_freeCtr (s : State) (h : Nat) (k : OpuHead → OpuHead) : (s.setOpu h k).freeCtr = s.freeCtr := rfl
@[simp] theorem setOpu_pending (s : State) (h : Nat) (k : OpuHead → OpuHead) : (s.setOpu h k).pending = s.pending := rfl
@[simp] theorem get_setOpu (s : State) (h : Nat) (k : OpuHead → OpuHead) (f : Fld) : (s.setOpu h k).get f = s.get f := rfl
@[simp] theorem setLoop_rf (s : State) (l : Nat) (k : LoopSt → LoopSt) : (s.setLoop l k).rf = s.rf := rfl
@[simp] theorem setLoop_sys (s : State) (l : Nat) (k : LoopSt → LoopSt) : (s.setLoop l k).sys = s.sys := rfl
@[simp] theorem setLoop_fifos (s : State) (l : Nat) (k : LoopSt → LoopSt) : (s.setLoop l k).fifos = s.fifos := rfl
@[simp] theorem setLoop_telAt (s : State) (l : Nat) (k : LoopSt → LoopSt) : (s.setLoop l k).telAt = s.telAt := rfl
@[simp] theorem setLoop_ang (s : State) (l : Nat) (k : LoopSt → LoopSt) : (s.setLoop l k).ang = s.ang := rfl
@[simp] theorem setLoop_skt (s : State) (l : Nat) (k : LoopSt → LoopSt) : (s.setLoop l k).skt = s.skt := rfl
@[simp] theorem setLoop_cnv (s : State) (l : Nat) (k : LoopSt → LoopSt) : (s.setLoop l k).cnv = s.cnv := rfl
@[simp] theorem setLoop_wins (s : State) (l : Nat) (k : LoopSt → LoopSt) : (s.setLoop l k).wins = s.wins := rfl
@[simp] theorem setLoop_opu (s : State) (l : Nat) (k : LoopSt → LoopSt) : (s.setLoop l k).opu = s.opu := rfl
@[simp] theorem setLoop_dma (s : State) (l : Nat) (k : LoopSt → LoopSt) : (s.setLoop l k).dma = s.dma := rfl
@[simp] theorem setLoop_seqs (s : State) (l : Nat) (k : LoopSt → LoopSt) : (s.setLoop l k).seqs = s.seqs := rfl
@[simp] theorem setLoop_hst (s : State) (l : Nat) (k : LoopSt → LoopSt) : (s.setLoop l k).hst = s.hst := rfl
@[simp] theorem setLoop_sled (s : State) (l : Nat) (k : LoopSt → LoopSt) : (s.setLoop l k).sled = s.sled := rfl
@[simp] theorem setLoop_spn (s : State) (l : Nat) (k : LoopSt → LoopSt) : (s.setLoop l k).spn = s.spn := rfl
@[simp] theorem setLoop_flt (s : State) (l : Nat) (k : LoopSt → LoopSt) : (s.setLoop l k).flt = s.flt := rfl
@[simp] theorem setLoop_thm (s : State) (l : Nat) (k : LoopSt → LoopSt) : (s.setLoop l k).thm = s.thm := rfl
@[simp] theorem setLoop_trk (s : State) (l : Nat) (k : LoopSt → LoopSt) : (s.setLoop l k).trk = s.trk := rfl
@[simp] theorem setLoop_wrs (s : State) (l : Nat) (k : LoopSt → LoopSt) : (s.setLoop l k).wrs = s.wrs := rfl
@[simp] theorem setLoop_chn (s : State) (l : Nat) (k : LoopSt → LoopSt) : (s.setLoop l k).chn = s.chn := rfl
@[simp] theorem setLoop_cal (s : State) (l : Nat) (k : LoopSt → LoopSt) : (s.setLoop l k).cal = s.cal := rfl
@[simp] theorem setLoop_det (s : State) (l : Nat) (k : LoopSt → LoopSt) : (s.setLoop l k).det = s.det := rfl
@[simp] theorem setLoop_cwd (s : State) (l : Nat) (k : LoopSt → LoopSt) : (s.setLoop l k).cwd = s.cwd := rfl
@[simp] theorem setLoop_str (s : State) (l : Nat) (k : LoopSt → LoopSt) : (s.setLoop l k).str = s.str := rfl
@[simp] theorem setLoop_hlt (s : State) (l : Nat) (k : LoopSt → LoopSt) : (s.setLoop l k).hlt = s.hlt := rfl
@[simp] theorem setLoop_att (s : State) (l : Nat) (k : LoopSt → LoopSt) : (s.setLoop l k).att = s.att := rfl
@[simp] theorem setLoop_med (s : State) (l : Nat) (k : LoopSt → LoopSt) : (s.setLoop l k).med = s.med := rfl
@[simp] theorem setLoop_cel (s : State) (l : Nat) (k : LoopSt → LoopSt) : (s.setLoop l k).cel = s.cel := rfl
@[simp] theorem setLoop_sec (s : State) (l : Nat) (k : LoopSt → LoopSt) : (s.setLoop l k).sec = s.sec := rfl
@[simp] theorem setLoop_mnt (s : State) (l : Nat) (k : LoopSt → LoopSt) : (s.setLoop l k).mnt = s.mnt := rfl
@[simp] theorem setLoop_mem (s : State) (l : Nat) (k : LoopSt → LoopSt) : (s.setLoop l k).mem = s.mem := rfl
@[simp] theorem setLoop_lrd (s : State) (l : Nat) (k : LoopSt → LoopSt) : (s.setLoop l k).lrd = s.lrd := rfl
@[simp] theorem setLoop_tap (s : State) (l : Nat) (k : LoopSt → LoopSt) : (s.setLoop l k).tap = s.tap := rfl
@[simp] theorem setLoop_rdata (s : State) (l : Nat) (k : LoopSt → LoopSt) : (s.setLoop l k).rdata = s.rdata := rfl
@[simp] theorem setLoop_freeCtr (s : State) (l : Nat) (k : LoopSt → LoopSt) : (s.setLoop l k).freeCtr = s.freeCtr := rfl
@[simp] theorem setLoop_pending (s : State) (l : Nat) (k : LoopSt → LoopSt) : (s.setLoop l k).pending = s.pending := rfl
@[simp] theorem get_setLoop (s : State) (l : Nat) (k : LoopSt → LoopSt) (f : Fld) : (s.setLoop l k).get f = s.get f := rfl
@[simp] theorem setSl_rf (s : State) (h : Nat) (k : Sled → Sled) : (s.setSl h k).rf = s.rf := rfl
@[simp] theorem setSl_sys (s : State) (h : Nat) (k : Sled → Sled) : (s.setSl h k).sys = s.sys := rfl
@[simp] theorem setSl_fifos (s : State) (h : Nat) (k : Sled → Sled) : (s.setSl h k).fifos = s.fifos := rfl
@[simp] theorem setSl_telAt (s : State) (h : Nat) (k : Sled → Sled) : (s.setSl h k).telAt = s.telAt := rfl
@[simp] theorem setSl_ang (s : State) (h : Nat) (k : Sled → Sled) : (s.setSl h k).ang = s.ang := rfl
@[simp] theorem setSl_skt (s : State) (h : Nat) (k : Sled → Sled) : (s.setSl h k).skt = s.skt := rfl
@[simp] theorem setSl_cnv (s : State) (h : Nat) (k : Sled → Sled) : (s.setSl h k).cnv = s.cnv := rfl
@[simp] theorem setSl_wins (s : State) (h : Nat) (k : Sled → Sled) : (s.setSl h k).wins = s.wins := rfl
@[simp] theorem setSl_opu (s : State) (h : Nat) (k : Sled → Sled) : (s.setSl h k).opu = s.opu := rfl
@[simp] theorem setSl_srv (s : State) (h : Nat) (k : Sled → Sled) : (s.setSl h k).srv = s.srv := rfl
@[simp] theorem setSl_dma (s : State) (h : Nat) (k : Sled → Sled) : (s.setSl h k).dma = s.dma := rfl
@[simp] theorem setSl_seqs (s : State) (h : Nat) (k : Sled → Sled) : (s.setSl h k).seqs = s.seqs := rfl
@[simp] theorem setSl_hst (s : State) (h : Nat) (k : Sled → Sled) : (s.setSl h k).hst = s.hst := rfl
@[simp] theorem setSl_spn (s : State) (h : Nat) (k : Sled → Sled) : (s.setSl h k).spn = s.spn := rfl
@[simp] theorem setSl_flt (s : State) (h : Nat) (k : Sled → Sled) : (s.setSl h k).flt = s.flt := rfl
@[simp] theorem setSl_thm (s : State) (h : Nat) (k : Sled → Sled) : (s.setSl h k).thm = s.thm := rfl
@[simp] theorem setSl_trk (s : State) (h : Nat) (k : Sled → Sled) : (s.setSl h k).trk = s.trk := rfl
@[simp] theorem setSl_wrs (s : State) (h : Nat) (k : Sled → Sled) : (s.setSl h k).wrs = s.wrs := rfl
@[simp] theorem setSl_chn (s : State) (h : Nat) (k : Sled → Sled) : (s.setSl h k).chn = s.chn := rfl
@[simp] theorem setSl_cal (s : State) (h : Nat) (k : Sled → Sled) : (s.setSl h k).cal = s.cal := rfl
@[simp] theorem setSl_det (s : State) (h : Nat) (k : Sled → Sled) : (s.setSl h k).det = s.det := rfl
@[simp] theorem setSl_cwd (s : State) (h : Nat) (k : Sled → Sled) : (s.setSl h k).cwd = s.cwd := rfl
@[simp] theorem setSl_str (s : State) (h : Nat) (k : Sled → Sled) : (s.setSl h k).str = s.str := rfl
@[simp] theorem setSl_hlt (s : State) (h : Nat) (k : Sled → Sled) : (s.setSl h k).hlt = s.hlt := rfl
@[simp] theorem setSl_att (s : State) (h : Nat) (k : Sled → Sled) : (s.setSl h k).att = s.att := rfl
@[simp] theorem setSl_med (s : State) (h : Nat) (k : Sled → Sled) : (s.setSl h k).med = s.med := rfl
@[simp] theorem setSl_cel (s : State) (h : Nat) (k : Sled → Sled) : (s.setSl h k).cel = s.cel := rfl
@[simp] theorem setSl_sec (s : State) (h : Nat) (k : Sled → Sled) : (s.setSl h k).sec = s.sec := rfl
@[simp] theorem setSl_mnt (s : State) (h : Nat) (k : Sled → Sled) : (s.setSl h k).mnt = s.mnt := rfl
@[simp] theorem setSl_mem (s : State) (h : Nat) (k : Sled → Sled) : (s.setSl h k).mem = s.mem := rfl
@[simp] theorem setSl_lrd (s : State) (h : Nat) (k : Sled → Sled) : (s.setSl h k).lrd = s.lrd := rfl
@[simp] theorem setSl_tap (s : State) (h : Nat) (k : Sled → Sled) : (s.setSl h k).tap = s.tap := rfl
@[simp] theorem setSl_rdata (s : State) (h : Nat) (k : Sled → Sled) : (s.setSl h k).rdata = s.rdata := rfl
@[simp] theorem setSl_freeCtr (s : State) (h : Nat) (k : Sled → Sled) : (s.setSl h k).freeCtr = s.freeCtr := rfl
@[simp] theorem setSl_pending (s : State) (h : Nat) (k : Sled → Sled) : (s.setSl h k).pending = s.pending := rfl
@[simp] theorem get_setSl (s : State) (h : Nat) (k : Sled → Sled) (f : Fld) : (s.setSl h k).get f = s.get f := rfl
@[simp] theorem setTr_rf (s : State) (h : Nat) (k : Trk → Trk) : (s.setTr h k).rf = s.rf := rfl
@[simp] theorem setTr_sys (s : State) (h : Nat) (k : Trk → Trk) : (s.setTr h k).sys = s.sys := rfl
@[simp] theorem setTr_fifos (s : State) (h : Nat) (k : Trk → Trk) : (s.setTr h k).fifos = s.fifos := rfl
@[simp] theorem setTr_telAt (s : State) (h : Nat) (k : Trk → Trk) : (s.setTr h k).telAt = s.telAt := rfl
@[simp] theorem setTr_ang (s : State) (h : Nat) (k : Trk → Trk) : (s.setTr h k).ang = s.ang := rfl
@[simp] theorem setTr_skt (s : State) (h : Nat) (k : Trk → Trk) : (s.setTr h k).skt = s.skt := rfl
@[simp] theorem setTr_cnv (s : State) (h : Nat) (k : Trk → Trk) : (s.setTr h k).cnv = s.cnv := rfl
@[simp] theorem setTr_wins (s : State) (h : Nat) (k : Trk → Trk) : (s.setTr h k).wins = s.wins := rfl
@[simp] theorem setTr_opu (s : State) (h : Nat) (k : Trk → Trk) : (s.setTr h k).opu = s.opu := rfl
@[simp] theorem setTr_srv (s : State) (h : Nat) (k : Trk → Trk) : (s.setTr h k).srv = s.srv := rfl
@[simp] theorem setTr_dma (s : State) (h : Nat) (k : Trk → Trk) : (s.setTr h k).dma = s.dma := rfl
@[simp] theorem setTr_seqs (s : State) (h : Nat) (k : Trk → Trk) : (s.setTr h k).seqs = s.seqs := rfl
@[simp] theorem setTr_hst (s : State) (h : Nat) (k : Trk → Trk) : (s.setTr h k).hst = s.hst := rfl
@[simp] theorem setTr_sled (s : State) (h : Nat) (k : Trk → Trk) : (s.setTr h k).sled = s.sled := rfl
@[simp] theorem setTr_spn (s : State) (h : Nat) (k : Trk → Trk) : (s.setTr h k).spn = s.spn := rfl
@[simp] theorem setTr_flt (s : State) (h : Nat) (k : Trk → Trk) : (s.setTr h k).flt = s.flt := rfl
@[simp] theorem setTr_thm (s : State) (h : Nat) (k : Trk → Trk) : (s.setTr h k).thm = s.thm := rfl
@[simp] theorem setTr_wrs (s : State) (h : Nat) (k : Trk → Trk) : (s.setTr h k).wrs = s.wrs := rfl
@[simp] theorem setTr_chn (s : State) (h : Nat) (k : Trk → Trk) : (s.setTr h k).chn = s.chn := rfl
@[simp] theorem setTr_cal (s : State) (h : Nat) (k : Trk → Trk) : (s.setTr h k).cal = s.cal := rfl
@[simp] theorem setTr_det (s : State) (h : Nat) (k : Trk → Trk) : (s.setTr h k).det = s.det := rfl
@[simp] theorem setTr_cwd (s : State) (h : Nat) (k : Trk → Trk) : (s.setTr h k).cwd = s.cwd := rfl
@[simp] theorem setTr_str (s : State) (h : Nat) (k : Trk → Trk) : (s.setTr h k).str = s.str := rfl
@[simp] theorem setTr_hlt (s : State) (h : Nat) (k : Trk → Trk) : (s.setTr h k).hlt = s.hlt := rfl
@[simp] theorem setTr_att (s : State) (h : Nat) (k : Trk → Trk) : (s.setTr h k).att = s.att := rfl
@[simp] theorem setTr_med (s : State) (h : Nat) (k : Trk → Trk) : (s.setTr h k).med = s.med := rfl
@[simp] theorem setTr_cel (s : State) (h : Nat) (k : Trk → Trk) : (s.setTr h k).cel = s.cel := rfl
@[simp] theorem setTr_sec (s : State) (h : Nat) (k : Trk → Trk) : (s.setTr h k).sec = s.sec := rfl
@[simp] theorem setTr_mnt (s : State) (h : Nat) (k : Trk → Trk) : (s.setTr h k).mnt = s.mnt := rfl
@[simp] theorem setTr_mem (s : State) (h : Nat) (k : Trk → Trk) : (s.setTr h k).mem = s.mem := rfl
@[simp] theorem setTr_lrd (s : State) (h : Nat) (k : Trk → Trk) : (s.setTr h k).lrd = s.lrd := rfl
@[simp] theorem setTr_tap (s : State) (h : Nat) (k : Trk → Trk) : (s.setTr h k).tap = s.tap := rfl
@[simp] theorem setTr_rdata (s : State) (h : Nat) (k : Trk → Trk) : (s.setTr h k).rdata = s.rdata := rfl
@[simp] theorem setTr_freeCtr (s : State) (h : Nat) (k : Trk → Trk) : (s.setTr h k).freeCtr = s.freeCtr := rfl
@[simp] theorem setTr_pending (s : State) (h : Nat) (k : Trk → Trk) : (s.setTr h k).pending = s.pending := rfl
@[simp] theorem get_setTr (s : State) (h : Nat) (k : Trk → Trk) (f : Fld) : (s.setTr h k).get f = s.get f := rfl
@[simp] theorem setWh_rf (s : State) (h : Nat) (k : WrsHead → WrsHead) : (s.setWh h k).rf = s.rf := rfl
@[simp] theorem setWh_sys (s : State) (h : Nat) (k : WrsHead → WrsHead) : (s.setWh h k).sys = s.sys := rfl
@[simp] theorem setWh_fifos (s : State) (h : Nat) (k : WrsHead → WrsHead) : (s.setWh h k).fifos = s.fifos := rfl
@[simp] theorem setWh_telAt (s : State) (h : Nat) (k : WrsHead → WrsHead) : (s.setWh h k).telAt = s.telAt := rfl
@[simp] theorem setWh_ang (s : State) (h : Nat) (k : WrsHead → WrsHead) : (s.setWh h k).ang = s.ang := rfl
@[simp] theorem setWh_skt (s : State) (h : Nat) (k : WrsHead → WrsHead) : (s.setWh h k).skt = s.skt := rfl
@[simp] theorem setWh_cnv (s : State) (h : Nat) (k : WrsHead → WrsHead) : (s.setWh h k).cnv = s.cnv := rfl
@[simp] theorem setWh_wins (s : State) (h : Nat) (k : WrsHead → WrsHead) : (s.setWh h k).wins = s.wins := rfl
@[simp] theorem setWh_opu (s : State) (h : Nat) (k : WrsHead → WrsHead) : (s.setWh h k).opu = s.opu := rfl
@[simp] theorem setWh_srv (s : State) (h : Nat) (k : WrsHead → WrsHead) : (s.setWh h k).srv = s.srv := rfl
@[simp] theorem setWh_dma (s : State) (h : Nat) (k : WrsHead → WrsHead) : (s.setWh h k).dma = s.dma := rfl
@[simp] theorem setWh_seqs (s : State) (h : Nat) (k : WrsHead → WrsHead) : (s.setWh h k).seqs = s.seqs := rfl
@[simp] theorem setWh_hst (s : State) (h : Nat) (k : WrsHead → WrsHead) : (s.setWh h k).hst = s.hst := rfl
@[simp] theorem setWh_sled (s : State) (h : Nat) (k : WrsHead → WrsHead) : (s.setWh h k).sled = s.sled := rfl
@[simp] theorem setWh_spn (s : State) (h : Nat) (k : WrsHead → WrsHead) : (s.setWh h k).spn = s.spn := rfl
@[simp] theorem setWh_flt (s : State) (h : Nat) (k : WrsHead → WrsHead) : (s.setWh h k).flt = s.flt := rfl
@[simp] theorem setWh_thm (s : State) (h : Nat) (k : WrsHead → WrsHead) : (s.setWh h k).thm = s.thm := rfl
@[simp] theorem setWh_trk (s : State) (h : Nat) (k : WrsHead → WrsHead) : (s.setWh h k).trk = s.trk := rfl
@[simp] theorem setWh_chn (s : State) (h : Nat) (k : WrsHead → WrsHead) : (s.setWh h k).chn = s.chn := rfl
@[simp] theorem setWh_cal (s : State) (h : Nat) (k : WrsHead → WrsHead) : (s.setWh h k).cal = s.cal := rfl
@[simp] theorem setWh_det (s : State) (h : Nat) (k : WrsHead → WrsHead) : (s.setWh h k).det = s.det := rfl
@[simp] theorem setWh_cwd (s : State) (h : Nat) (k : WrsHead → WrsHead) : (s.setWh h k).cwd = s.cwd := rfl
@[simp] theorem setWh_str (s : State) (h : Nat) (k : WrsHead → WrsHead) : (s.setWh h k).str = s.str := rfl
@[simp] theorem setWh_hlt (s : State) (h : Nat) (k : WrsHead → WrsHead) : (s.setWh h k).hlt = s.hlt := rfl
@[simp] theorem setWh_att (s : State) (h : Nat) (k : WrsHead → WrsHead) : (s.setWh h k).att = s.att := rfl
@[simp] theorem setWh_med (s : State) (h : Nat) (k : WrsHead → WrsHead) : (s.setWh h k).med = s.med := rfl
@[simp] theorem setWh_cel (s : State) (h : Nat) (k : WrsHead → WrsHead) : (s.setWh h k).cel = s.cel := rfl
@[simp] theorem setWh_sec (s : State) (h : Nat) (k : WrsHead → WrsHead) : (s.setWh h k).sec = s.sec := rfl
@[simp] theorem setWh_mnt (s : State) (h : Nat) (k : WrsHead → WrsHead) : (s.setWh h k).mnt = s.mnt := rfl
@[simp] theorem setWh_mem (s : State) (h : Nat) (k : WrsHead → WrsHead) : (s.setWh h k).mem = s.mem := rfl
@[simp] theorem setWh_lrd (s : State) (h : Nat) (k : WrsHead → WrsHead) : (s.setWh h k).lrd = s.lrd := rfl
@[simp] theorem setWh_tap (s : State) (h : Nat) (k : WrsHead → WrsHead) : (s.setWh h k).tap = s.tap := rfl
@[simp] theorem setWh_rdata (s : State) (h : Nat) (k : WrsHead → WrsHead) : (s.setWh h k).rdata = s.rdata := rfl
@[simp] theorem setWh_freeCtr (s : State) (h : Nat) (k : WrsHead → WrsHead) : (s.setWh h k).freeCtr = s.freeCtr := rfl
@[simp] theorem setWh_pending (s : State) (h : Nat) (k : WrsHead → WrsHead) : (s.setWh h k).pending = s.pending := rfl
@[simp] theorem get_setWh (s : State) (h : Nat) (k : WrsHead → WrsHead) (f : Fld) : (s.setWh h k).get f = s.get f := rfl
@[simp] theorem setChn_rf (s : State) (k : Chn → Chn) : (s.setChn k).rf = s.rf := rfl
@[simp] theorem setChn_sys (s : State) (k : Chn → Chn) : (s.setChn k).sys = s.sys := rfl
@[simp] theorem setChn_fifos (s : State) (k : Chn → Chn) : (s.setChn k).fifos = s.fifos := rfl
@[simp] theorem setChn_telAt (s : State) (k : Chn → Chn) : (s.setChn k).telAt = s.telAt := rfl
@[simp] theorem setChn_ang (s : State) (k : Chn → Chn) : (s.setChn k).ang = s.ang := rfl
@[simp] theorem setChn_skt (s : State) (k : Chn → Chn) : (s.setChn k).skt = s.skt := rfl
@[simp] theorem setChn_cnv (s : State) (k : Chn → Chn) : (s.setChn k).cnv = s.cnv := rfl
@[simp] theorem setChn_wins (s : State) (k : Chn → Chn) : (s.setChn k).wins = s.wins := rfl
@[simp] theorem setChn_opu (s : State) (k : Chn → Chn) : (s.setChn k).opu = s.opu := rfl
@[simp] theorem setChn_srv (s : State) (k : Chn → Chn) : (s.setChn k).srv = s.srv := rfl
@[simp] theorem setChn_dma (s : State) (k : Chn → Chn) : (s.setChn k).dma = s.dma := rfl
@[simp] theorem setChn_seqs (s : State) (k : Chn → Chn) : (s.setChn k).seqs = s.seqs := rfl
@[simp] theorem setChn_hst (s : State) (k : Chn → Chn) : (s.setChn k).hst = s.hst := rfl
@[simp] theorem setChn_sled (s : State) (k : Chn → Chn) : (s.setChn k).sled = s.sled := rfl
@[simp] theorem setChn_spn (s : State) (k : Chn → Chn) : (s.setChn k).spn = s.spn := rfl
@[simp] theorem setChn_flt (s : State) (k : Chn → Chn) : (s.setChn k).flt = s.flt := rfl
@[simp] theorem setChn_thm (s : State) (k : Chn → Chn) : (s.setChn k).thm = s.thm := rfl
@[simp] theorem setChn_trk (s : State) (k : Chn → Chn) : (s.setChn k).trk = s.trk := rfl
@[simp] theorem setChn_wrs (s : State) (k : Chn → Chn) : (s.setChn k).wrs = s.wrs := rfl
@[simp] theorem setChn_cal (s : State) (k : Chn → Chn) : (s.setChn k).cal = s.cal := rfl
@[simp] theorem setChn_det (s : State) (k : Chn → Chn) : (s.setChn k).det = s.det := rfl
@[simp] theorem setChn_cwd (s : State) (k : Chn → Chn) : (s.setChn k).cwd = s.cwd := rfl
@[simp] theorem setChn_str (s : State) (k : Chn → Chn) : (s.setChn k).str = s.str := rfl
@[simp] theorem setChn_hlt (s : State) (k : Chn → Chn) : (s.setChn k).hlt = s.hlt := rfl
@[simp] theorem setChn_att (s : State) (k : Chn → Chn) : (s.setChn k).att = s.att := rfl
@[simp] theorem setChn_med (s : State) (k : Chn → Chn) : (s.setChn k).med = s.med := rfl
@[simp] theorem setChn_cel (s : State) (k : Chn → Chn) : (s.setChn k).cel = s.cel := rfl
@[simp] theorem setChn_sec (s : State) (k : Chn → Chn) : (s.setChn k).sec = s.sec := rfl
@[simp] theorem setChn_mnt (s : State) (k : Chn → Chn) : (s.setChn k).mnt = s.mnt := rfl
@[simp] theorem setChn_mem (s : State) (k : Chn → Chn) : (s.setChn k).mem = s.mem := rfl
@[simp] theorem setChn_lrd (s : State) (k : Chn → Chn) : (s.setChn k).lrd = s.lrd := rfl
@[simp] theorem setChn_tap (s : State) (k : Chn → Chn) : (s.setChn k).tap = s.tap := rfl
@[simp] theorem setChn_rdata (s : State) (k : Chn → Chn) : (s.setChn k).rdata = s.rdata := rfl
@[simp] theorem setChn_freeCtr (s : State) (k : Chn → Chn) : (s.setChn k).freeCtr = s.freeCtr := rfl
@[simp] theorem setChn_pending (s : State) (k : Chn → Chn) : (s.setChn k).pending = s.pending := rfl
@[simp] theorem get_setChn (s : State) (k : Chn → Chn) (f : Fld) : (s.setChn k).get f = s.get f := rfl
@[simp] theorem setCwd_rf (s : State) (k : Cwd → Cwd) : (s.setCwd k).rf = s.rf := rfl
@[simp] theorem setCwd_sys (s : State) (k : Cwd → Cwd) : (s.setCwd k).sys = s.sys := rfl
@[simp] theorem setCwd_fifos (s : State) (k : Cwd → Cwd) : (s.setCwd k).fifos = s.fifos := rfl
@[simp] theorem setCwd_telAt (s : State) (k : Cwd → Cwd) : (s.setCwd k).telAt = s.telAt := rfl
@[simp] theorem setCwd_ang (s : State) (k : Cwd → Cwd) : (s.setCwd k).ang = s.ang := rfl
@[simp] theorem setCwd_skt (s : State) (k : Cwd → Cwd) : (s.setCwd k).skt = s.skt := rfl
@[simp] theorem setCwd_cnv (s : State) (k : Cwd → Cwd) : (s.setCwd k).cnv = s.cnv := rfl
@[simp] theorem setCwd_wins (s : State) (k : Cwd → Cwd) : (s.setCwd k).wins = s.wins := rfl
@[simp] theorem setCwd_opu (s : State) (k : Cwd → Cwd) : (s.setCwd k).opu = s.opu := rfl
@[simp] theorem setCwd_srv (s : State) (k : Cwd → Cwd) : (s.setCwd k).srv = s.srv := rfl
@[simp] theorem setCwd_dma (s : State) (k : Cwd → Cwd) : (s.setCwd k).dma = s.dma := rfl
@[simp] theorem setCwd_seqs (s : State) (k : Cwd → Cwd) : (s.setCwd k).seqs = s.seqs := rfl
@[simp] theorem setCwd_hst (s : State) (k : Cwd → Cwd) : (s.setCwd k).hst = s.hst := rfl
@[simp] theorem setCwd_sled (s : State) (k : Cwd → Cwd) : (s.setCwd k).sled = s.sled := rfl
@[simp] theorem setCwd_spn (s : State) (k : Cwd → Cwd) : (s.setCwd k).spn = s.spn := rfl
@[simp] theorem setCwd_flt (s : State) (k : Cwd → Cwd) : (s.setCwd k).flt = s.flt := rfl
@[simp] theorem setCwd_thm (s : State) (k : Cwd → Cwd) : (s.setCwd k).thm = s.thm := rfl
@[simp] theorem setCwd_trk (s : State) (k : Cwd → Cwd) : (s.setCwd k).trk = s.trk := rfl
@[simp] theorem setCwd_wrs (s : State) (k : Cwd → Cwd) : (s.setCwd k).wrs = s.wrs := rfl
@[simp] theorem setCwd_chn (s : State) (k : Cwd → Cwd) : (s.setCwd k).chn = s.chn := rfl
@[simp] theorem setCwd_cal (s : State) (k : Cwd → Cwd) : (s.setCwd k).cal = s.cal := rfl
@[simp] theorem setCwd_det (s : State) (k : Cwd → Cwd) : (s.setCwd k).det = s.det := rfl
@[simp] theorem setCwd_str (s : State) (k : Cwd → Cwd) : (s.setCwd k).str = s.str := rfl
@[simp] theorem setCwd_hlt (s : State) (k : Cwd → Cwd) : (s.setCwd k).hlt = s.hlt := rfl
@[simp] theorem setCwd_att (s : State) (k : Cwd → Cwd) : (s.setCwd k).att = s.att := rfl
@[simp] theorem setCwd_med (s : State) (k : Cwd → Cwd) : (s.setCwd k).med = s.med := rfl
@[simp] theorem setCwd_cel (s : State) (k : Cwd → Cwd) : (s.setCwd k).cel = s.cel := rfl
@[simp] theorem setCwd_sec (s : State) (k : Cwd → Cwd) : (s.setCwd k).sec = s.sec := rfl
@[simp] theorem setCwd_mnt (s : State) (k : Cwd → Cwd) : (s.setCwd k).mnt = s.mnt := rfl
@[simp] theorem setCwd_mem (s : State) (k : Cwd → Cwd) : (s.setCwd k).mem = s.mem := rfl
@[simp] theorem setCwd_lrd (s : State) (k : Cwd → Cwd) : (s.setCwd k).lrd = s.lrd := rfl
@[simp] theorem setCwd_tap (s : State) (k : Cwd → Cwd) : (s.setCwd k).tap = s.tap := rfl
@[simp] theorem setCwd_rdata (s : State) (k : Cwd → Cwd) : (s.setCwd k).rdata = s.rdata := rfl
@[simp] theorem setCwd_freeCtr (s : State) (k : Cwd → Cwd) : (s.setCwd k).freeCtr = s.freeCtr := rfl
@[simp] theorem setCwd_pending (s : State) (k : Cwd → Cwd) : (s.setCwd k).pending = s.pending := rfl
@[simp] theorem get_setCwd (s : State) (k : Cwd → Cwd) (f : Fld) : (s.setCwd k).get f = s.get f := rfl
@[simp] theorem setHlt_rf (s : State) (k : Hlt → Hlt) : (s.setHlt k).rf = s.rf := rfl
@[simp] theorem setHlt_sys (s : State) (k : Hlt → Hlt) : (s.setHlt k).sys = s.sys := rfl
@[simp] theorem setHlt_fifos (s : State) (k : Hlt → Hlt) : (s.setHlt k).fifos = s.fifos := rfl
@[simp] theorem setHlt_telAt (s : State) (k : Hlt → Hlt) : (s.setHlt k).telAt = s.telAt := rfl
@[simp] theorem setHlt_ang (s : State) (k : Hlt → Hlt) : (s.setHlt k).ang = s.ang := rfl
@[simp] theorem setHlt_skt (s : State) (k : Hlt → Hlt) : (s.setHlt k).skt = s.skt := rfl
@[simp] theorem setHlt_cnv (s : State) (k : Hlt → Hlt) : (s.setHlt k).cnv = s.cnv := rfl
@[simp] theorem setHlt_wins (s : State) (k : Hlt → Hlt) : (s.setHlt k).wins = s.wins := rfl
@[simp] theorem setHlt_opu (s : State) (k : Hlt → Hlt) : (s.setHlt k).opu = s.opu := rfl
@[simp] theorem setHlt_srv (s : State) (k : Hlt → Hlt) : (s.setHlt k).srv = s.srv := rfl
@[simp] theorem setHlt_dma (s : State) (k : Hlt → Hlt) : (s.setHlt k).dma = s.dma := rfl
@[simp] theorem setHlt_seqs (s : State) (k : Hlt → Hlt) : (s.setHlt k).seqs = s.seqs := rfl
@[simp] theorem setHlt_hst (s : State) (k : Hlt → Hlt) : (s.setHlt k).hst = s.hst := rfl
@[simp] theorem setHlt_sled (s : State) (k : Hlt → Hlt) : (s.setHlt k).sled = s.sled := rfl
@[simp] theorem setHlt_spn (s : State) (k : Hlt → Hlt) : (s.setHlt k).spn = s.spn := rfl
@[simp] theorem setHlt_flt (s : State) (k : Hlt → Hlt) : (s.setHlt k).flt = s.flt := rfl
@[simp] theorem setHlt_thm (s : State) (k : Hlt → Hlt) : (s.setHlt k).thm = s.thm := rfl
@[simp] theorem setHlt_trk (s : State) (k : Hlt → Hlt) : (s.setHlt k).trk = s.trk := rfl
@[simp] theorem setHlt_wrs (s : State) (k : Hlt → Hlt) : (s.setHlt k).wrs = s.wrs := rfl
@[simp] theorem setHlt_chn (s : State) (k : Hlt → Hlt) : (s.setHlt k).chn = s.chn := rfl
@[simp] theorem setHlt_cal (s : State) (k : Hlt → Hlt) : (s.setHlt k).cal = s.cal := rfl
@[simp] theorem setHlt_det (s : State) (k : Hlt → Hlt) : (s.setHlt k).det = s.det := rfl
@[simp] theorem setHlt_cwd (s : State) (k : Hlt → Hlt) : (s.setHlt k).cwd = s.cwd := rfl
@[simp] theorem setHlt_str (s : State) (k : Hlt → Hlt) : (s.setHlt k).str = s.str := rfl
@[simp] theorem setHlt_att (s : State) (k : Hlt → Hlt) : (s.setHlt k).att = s.att := rfl
@[simp] theorem setHlt_med (s : State) (k : Hlt → Hlt) : (s.setHlt k).med = s.med := rfl
@[simp] theorem setHlt_cel (s : State) (k : Hlt → Hlt) : (s.setHlt k).cel = s.cel := rfl
@[simp] theorem setHlt_sec (s : State) (k : Hlt → Hlt) : (s.setHlt k).sec = s.sec := rfl
@[simp] theorem setHlt_mnt (s : State) (k : Hlt → Hlt) : (s.setHlt k).mnt = s.mnt := rfl
@[simp] theorem setHlt_mem (s : State) (k : Hlt → Hlt) : (s.setHlt k).mem = s.mem := rfl
@[simp] theorem setHlt_lrd (s : State) (k : Hlt → Hlt) : (s.setHlt k).lrd = s.lrd := rfl
@[simp] theorem setHlt_tap (s : State) (k : Hlt → Hlt) : (s.setHlt k).tap = s.tap := rfl
@[simp] theorem setHlt_rdata (s : State) (k : Hlt → Hlt) : (s.setHlt k).rdata = s.rdata := rfl
@[simp] theorem setHlt_freeCtr (s : State) (k : Hlt → Hlt) : (s.setHlt k).freeCtr = s.freeCtr := rfl
@[simp] theorem setHlt_pending (s : State) (k : Hlt → Hlt) : (s.setHlt k).pending = s.pending := rfl
@[simp] theorem get_setHlt (s : State) (k : Hlt → Hlt) (f : Fld) : (s.setHlt k).get f = s.get f := rfl
@[simp] theorem setAtt_rf (s : State) (k : Att → Att) : (s.setAtt k).rf = s.rf := rfl
@[simp] theorem setAtt_sys (s : State) (k : Att → Att) : (s.setAtt k).sys = s.sys := rfl
@[simp] theorem setAtt_fifos (s : State) (k : Att → Att) : (s.setAtt k).fifos = s.fifos := rfl
@[simp] theorem setAtt_telAt (s : State) (k : Att → Att) : (s.setAtt k).telAt = s.telAt := rfl
@[simp] theorem setAtt_ang (s : State) (k : Att → Att) : (s.setAtt k).ang = s.ang := rfl
@[simp] theorem setAtt_skt (s : State) (k : Att → Att) : (s.setAtt k).skt = s.skt := rfl
@[simp] theorem setAtt_cnv (s : State) (k : Att → Att) : (s.setAtt k).cnv = s.cnv := rfl
@[simp] theorem setAtt_wins (s : State) (k : Att → Att) : (s.setAtt k).wins = s.wins := rfl
@[simp] theorem setAtt_opu (s : State) (k : Att → Att) : (s.setAtt k).opu = s.opu := rfl
@[simp] theorem setAtt_srv (s : State) (k : Att → Att) : (s.setAtt k).srv = s.srv := rfl
@[simp] theorem setAtt_dma (s : State) (k : Att → Att) : (s.setAtt k).dma = s.dma := rfl
@[simp] theorem setAtt_seqs (s : State) (k : Att → Att) : (s.setAtt k).seqs = s.seqs := rfl
@[simp] theorem setAtt_hst (s : State) (k : Att → Att) : (s.setAtt k).hst = s.hst := rfl
@[simp] theorem setAtt_sled (s : State) (k : Att → Att) : (s.setAtt k).sled = s.sled := rfl
@[simp] theorem setAtt_spn (s : State) (k : Att → Att) : (s.setAtt k).spn = s.spn := rfl
@[simp] theorem setAtt_flt (s : State) (k : Att → Att) : (s.setAtt k).flt = s.flt := rfl
@[simp] theorem setAtt_thm (s : State) (k : Att → Att) : (s.setAtt k).thm = s.thm := rfl
@[simp] theorem setAtt_trk (s : State) (k : Att → Att) : (s.setAtt k).trk = s.trk := rfl
@[simp] theorem setAtt_wrs (s : State) (k : Att → Att) : (s.setAtt k).wrs = s.wrs := rfl
@[simp] theorem setAtt_chn (s : State) (k : Att → Att) : (s.setAtt k).chn = s.chn := rfl
@[simp] theorem setAtt_cal (s : State) (k : Att → Att) : (s.setAtt k).cal = s.cal := rfl
@[simp] theorem setAtt_det (s : State) (k : Att → Att) : (s.setAtt k).det = s.det := rfl
@[simp] theorem setAtt_cwd (s : State) (k : Att → Att) : (s.setAtt k).cwd = s.cwd := rfl
@[simp] theorem setAtt_str (s : State) (k : Att → Att) : (s.setAtt k).str = s.str := rfl
@[simp] theorem setAtt_hlt (s : State) (k : Att → Att) : (s.setAtt k).hlt = s.hlt := rfl
@[simp] theorem setAtt_med (s : State) (k : Att → Att) : (s.setAtt k).med = s.med := rfl
@[simp] theorem setAtt_cel (s : State) (k : Att → Att) : (s.setAtt k).cel = s.cel := rfl
@[simp] theorem setAtt_sec (s : State) (k : Att → Att) : (s.setAtt k).sec = s.sec := rfl
@[simp] theorem setAtt_mnt (s : State) (k : Att → Att) : (s.setAtt k).mnt = s.mnt := rfl
@[simp] theorem setAtt_mem (s : State) (k : Att → Att) : (s.setAtt k).mem = s.mem := rfl
@[simp] theorem setAtt_lrd (s : State) (k : Att → Att) : (s.setAtt k).lrd = s.lrd := rfl
@[simp] theorem setAtt_tap (s : State) (k : Att → Att) : (s.setAtt k).tap = s.tap := rfl
@[simp] theorem setAtt_rdata (s : State) (k : Att → Att) : (s.setAtt k).rdata = s.rdata := rfl
@[simp] theorem setAtt_freeCtr (s : State) (k : Att → Att) : (s.setAtt k).freeCtr = s.freeCtr := rfl
@[simp] theorem setAtt_pending (s : State) (k : Att → Att) : (s.setAtt k).pending = s.pending := rfl
@[simp] theorem get_setAtt (s : State) (k : Att → Att) (f : Fld) : (s.setAtt k).get f = s.get f := rfl
@[simp] theorem setStr_rf (s : State) (k : Str → Str) : (s.setStr k).rf = s.rf := rfl
@[simp] theorem setStr_sys (s : State) (k : Str → Str) : (s.setStr k).sys = s.sys := rfl
@[simp] theorem setStr_fifos (s : State) (k : Str → Str) : (s.setStr k).fifos = s.fifos := rfl
@[simp] theorem setStr_telAt (s : State) (k : Str → Str) : (s.setStr k).telAt = s.telAt := rfl
@[simp] theorem setStr_ang (s : State) (k : Str → Str) : (s.setStr k).ang = s.ang := rfl
@[simp] theorem setStr_skt (s : State) (k : Str → Str) : (s.setStr k).skt = s.skt := rfl
@[simp] theorem setStr_cnv (s : State) (k : Str → Str) : (s.setStr k).cnv = s.cnv := rfl
@[simp] theorem setStr_wins (s : State) (k : Str → Str) : (s.setStr k).wins = s.wins := rfl
@[simp] theorem setStr_opu (s : State) (k : Str → Str) : (s.setStr k).opu = s.opu := rfl
@[simp] theorem setStr_srv (s : State) (k : Str → Str) : (s.setStr k).srv = s.srv := rfl
@[simp] theorem setStr_dma (s : State) (k : Str → Str) : (s.setStr k).dma = s.dma := rfl
@[simp] theorem setStr_seqs (s : State) (k : Str → Str) : (s.setStr k).seqs = s.seqs := rfl
@[simp] theorem setStr_hst (s : State) (k : Str → Str) : (s.setStr k).hst = s.hst := rfl
@[simp] theorem setStr_sled (s : State) (k : Str → Str) : (s.setStr k).sled = s.sled := rfl
@[simp] theorem setStr_spn (s : State) (k : Str → Str) : (s.setStr k).spn = s.spn := rfl
@[simp] theorem setStr_flt (s : State) (k : Str → Str) : (s.setStr k).flt = s.flt := rfl
@[simp] theorem setStr_thm (s : State) (k : Str → Str) : (s.setStr k).thm = s.thm := rfl
@[simp] theorem setStr_trk (s : State) (k : Str → Str) : (s.setStr k).trk = s.trk := rfl
@[simp] theorem setStr_wrs (s : State) (k : Str → Str) : (s.setStr k).wrs = s.wrs := rfl
@[simp] theorem setStr_chn (s : State) (k : Str → Str) : (s.setStr k).chn = s.chn := rfl
@[simp] theorem setStr_cal (s : State) (k : Str → Str) : (s.setStr k).cal = s.cal := rfl
@[simp] theorem setStr_det (s : State) (k : Str → Str) : (s.setStr k).det = s.det := rfl
@[simp] theorem setStr_cwd (s : State) (k : Str → Str) : (s.setStr k).cwd = s.cwd := rfl
@[simp] theorem setStr_hlt (s : State) (k : Str → Str) : (s.setStr k).hlt = s.hlt := rfl
@[simp] theorem setStr_att (s : State) (k : Str → Str) : (s.setStr k).att = s.att := rfl
@[simp] theorem setStr_med (s : State) (k : Str → Str) : (s.setStr k).med = s.med := rfl
@[simp] theorem setStr_cel (s : State) (k : Str → Str) : (s.setStr k).cel = s.cel := rfl
@[simp] theorem setStr_sec (s : State) (k : Str → Str) : (s.setStr k).sec = s.sec := rfl
@[simp] theorem setStr_mnt (s : State) (k : Str → Str) : (s.setStr k).mnt = s.mnt := rfl
@[simp] theorem setStr_mem (s : State) (k : Str → Str) : (s.setStr k).mem = s.mem := rfl
@[simp] theorem setStr_lrd (s : State) (k : Str → Str) : (s.setStr k).lrd = s.lrd := rfl
@[simp] theorem setStr_tap (s : State) (k : Str → Str) : (s.setStr k).tap = s.tap := rfl
@[simp] theorem setStr_rdata (s : State) (k : Str → Str) : (s.setStr k).rdata = s.rdata := rfl
@[simp] theorem setStr_freeCtr (s : State) (k : Str → Str) : (s.setStr k).freeCtr = s.freeCtr := rfl
@[simp] theorem setStr_pending (s : State) (k : Str → Str) : (s.setStr k).pending = s.pending := rfl
@[simp] theorem get_setStr (s : State) (k : Str → Str) (f : Fld) : (s.setStr k).get f = s.get f := rfl
@[simp] theorem setCal_rf (s : State) (k : Cal → Cal) : (s.setCal k).rf = s.rf := rfl
@[simp] theorem setCal_sys (s : State) (k : Cal → Cal) : (s.setCal k).sys = s.sys := rfl
@[simp] theorem setCal_fifos (s : State) (k : Cal → Cal) : (s.setCal k).fifos = s.fifos := rfl
@[simp] theorem setCal_telAt (s : State) (k : Cal → Cal) : (s.setCal k).telAt = s.telAt := rfl
@[simp] theorem setCal_ang (s : State) (k : Cal → Cal) : (s.setCal k).ang = s.ang := rfl
@[simp] theorem setCal_skt (s : State) (k : Cal → Cal) : (s.setCal k).skt = s.skt := rfl
@[simp] theorem setCal_cnv (s : State) (k : Cal → Cal) : (s.setCal k).cnv = s.cnv := rfl
@[simp] theorem setCal_wins (s : State) (k : Cal → Cal) : (s.setCal k).wins = s.wins := rfl
@[simp] theorem setCal_opu (s : State) (k : Cal → Cal) : (s.setCal k).opu = s.opu := rfl
@[simp] theorem setCal_srv (s : State) (k : Cal → Cal) : (s.setCal k).srv = s.srv := rfl
@[simp] theorem setCal_dma (s : State) (k : Cal → Cal) : (s.setCal k).dma = s.dma := rfl
@[simp] theorem setCal_seqs (s : State) (k : Cal → Cal) : (s.setCal k).seqs = s.seqs := rfl
@[simp] theorem setCal_hst (s : State) (k : Cal → Cal) : (s.setCal k).hst = s.hst := rfl
@[simp] theorem setCal_sled (s : State) (k : Cal → Cal) : (s.setCal k).sled = s.sled := rfl
@[simp] theorem setCal_spn (s : State) (k : Cal → Cal) : (s.setCal k).spn = s.spn := rfl
@[simp] theorem setCal_flt (s : State) (k : Cal → Cal) : (s.setCal k).flt = s.flt := rfl
@[simp] theorem setCal_thm (s : State) (k : Cal → Cal) : (s.setCal k).thm = s.thm := rfl
@[simp] theorem setCal_trk (s : State) (k : Cal → Cal) : (s.setCal k).trk = s.trk := rfl
@[simp] theorem setCal_wrs (s : State) (k : Cal → Cal) : (s.setCal k).wrs = s.wrs := rfl
@[simp] theorem setCal_chn (s : State) (k : Cal → Cal) : (s.setCal k).chn = s.chn := rfl
@[simp] theorem setCal_det (s : State) (k : Cal → Cal) : (s.setCal k).det = s.det := rfl
@[simp] theorem setCal_cwd (s : State) (k : Cal → Cal) : (s.setCal k).cwd = s.cwd := rfl
@[simp] theorem setCal_str (s : State) (k : Cal → Cal) : (s.setCal k).str = s.str := rfl
@[simp] theorem setCal_hlt (s : State) (k : Cal → Cal) : (s.setCal k).hlt = s.hlt := rfl
@[simp] theorem setCal_att (s : State) (k : Cal → Cal) : (s.setCal k).att = s.att := rfl
@[simp] theorem setCal_med (s : State) (k : Cal → Cal) : (s.setCal k).med = s.med := rfl
@[simp] theorem setCal_cel (s : State) (k : Cal → Cal) : (s.setCal k).cel = s.cel := rfl
@[simp] theorem setCal_sec (s : State) (k : Cal → Cal) : (s.setCal k).sec = s.sec := rfl
@[simp] theorem setCal_mnt (s : State) (k : Cal → Cal) : (s.setCal k).mnt = s.mnt := rfl
@[simp] theorem setCal_mem (s : State) (k : Cal → Cal) : (s.setCal k).mem = s.mem := rfl
@[simp] theorem setCal_lrd (s : State) (k : Cal → Cal) : (s.setCal k).lrd = s.lrd := rfl
@[simp] theorem setCal_tap (s : State) (k : Cal → Cal) : (s.setCal k).tap = s.tap := rfl
@[simp] theorem setCal_rdata (s : State) (k : Cal → Cal) : (s.setCal k).rdata = s.rdata := rfl
@[simp] theorem setCal_freeCtr (s : State) (k : Cal → Cal) : (s.setCal k).freeCtr = s.freeCtr := rfl
@[simp] theorem setCal_pending (s : State) (k : Cal → Cal) : (s.setCal k).pending = s.pending := rfl
@[simp] theorem get_setCal (s : State) (k : Cal → Cal) (f : Fld) : (s.setCal k).get f = s.get f := rfl
@[simp] theorem setMem_rf (s : State) (k : MemSt → MemSt) : (s.setMem k).rf = s.rf := rfl
@[simp] theorem setMem_sys (s : State) (k : MemSt → MemSt) : (s.setMem k).sys = s.sys := rfl
@[simp] theorem setMem_fifos (s : State) (k : MemSt → MemSt) : (s.setMem k).fifos = s.fifos := rfl
@[simp] theorem setMem_telAt (s : State) (k : MemSt → MemSt) : (s.setMem k).telAt = s.telAt := rfl
@[simp] theorem setMem_ang (s : State) (k : MemSt → MemSt) : (s.setMem k).ang = s.ang := rfl
@[simp] theorem setMem_skt (s : State) (k : MemSt → MemSt) : (s.setMem k).skt = s.skt := rfl
@[simp] theorem setMem_cnv (s : State) (k : MemSt → MemSt) : (s.setMem k).cnv = s.cnv := rfl
@[simp] theorem setMem_wins (s : State) (k : MemSt → MemSt) : (s.setMem k).wins = s.wins := rfl
@[simp] theorem setMem_opu (s : State) (k : MemSt → MemSt) : (s.setMem k).opu = s.opu := rfl
@[simp] theorem setMem_srv (s : State) (k : MemSt → MemSt) : (s.setMem k).srv = s.srv := rfl
@[simp] theorem setMem_dma (s : State) (k : MemSt → MemSt) : (s.setMem k).dma = s.dma := rfl
@[simp] theorem setMem_seqs (s : State) (k : MemSt → MemSt) : (s.setMem k).seqs = s.seqs := rfl
@[simp] theorem setMem_hst (s : State) (k : MemSt → MemSt) : (s.setMem k).hst = s.hst := rfl
@[simp] theorem setMem_sled (s : State) (k : MemSt → MemSt) : (s.setMem k).sled = s.sled := rfl
@[simp] theorem setMem_spn (s : State) (k : MemSt → MemSt) : (s.setMem k).spn = s.spn := rfl
@[simp] theorem setMem_flt (s : State) (k : MemSt → MemSt) : (s.setMem k).flt = s.flt := rfl
@[simp] theorem setMem_thm (s : State) (k : MemSt → MemSt) : (s.setMem k).thm = s.thm := rfl
@[simp] theorem setMem_trk (s : State) (k : MemSt → MemSt) : (s.setMem k).trk = s.trk := rfl
@[simp] theorem setMem_wrs (s : State) (k : MemSt → MemSt) : (s.setMem k).wrs = s.wrs := rfl
@[simp] theorem setMem_chn (s : State) (k : MemSt → MemSt) : (s.setMem k).chn = s.chn := rfl
@[simp] theorem setMem_cal (s : State) (k : MemSt → MemSt) : (s.setMem k).cal = s.cal := rfl
@[simp] theorem setMem_det (s : State) (k : MemSt → MemSt) : (s.setMem k).det = s.det := rfl
@[simp] theorem setMem_cwd (s : State) (k : MemSt → MemSt) : (s.setMem k).cwd = s.cwd := rfl
@[simp] theorem setMem_str (s : State) (k : MemSt → MemSt) : (s.setMem k).str = s.str := rfl
@[simp] theorem setMem_hlt (s : State) (k : MemSt → MemSt) : (s.setMem k).hlt = s.hlt := rfl
@[simp] theorem setMem_att (s : State) (k : MemSt → MemSt) : (s.setMem k).att = s.att := rfl
@[simp] theorem setMem_med (s : State) (k : MemSt → MemSt) : (s.setMem k).med = s.med := rfl
@[simp] theorem setMem_cel (s : State) (k : MemSt → MemSt) : (s.setMem k).cel = s.cel := rfl
@[simp] theorem setMem_sec (s : State) (k : MemSt → MemSt) : (s.setMem k).sec = s.sec := rfl
@[simp] theorem setMem_mnt (s : State) (k : MemSt → MemSt) : (s.setMem k).mnt = s.mnt := rfl
@[simp] theorem setMem_lrd (s : State) (k : MemSt → MemSt) : (s.setMem k).lrd = s.lrd := rfl
@[simp] theorem setMem_tap (s : State) (k : MemSt → MemSt) : (s.setMem k).tap = s.tap := rfl
@[simp] theorem setMem_rdata (s : State) (k : MemSt → MemSt) : (s.setMem k).rdata = s.rdata := rfl
@[simp] theorem setMem_freeCtr (s : State) (k : MemSt → MemSt) : (s.setMem k).freeCtr = s.freeCtr := rfl
@[simp] theorem setMem_pending (s : State) (k : MemSt → MemSt) : (s.setMem k).pending = s.pending := rfl
@[simp] theorem get_setMem (s : State) (k : MemSt → MemSt) (f : Fld) : (s.setMem k).get f = s.get f := rfl
@[simp] theorem setLrd_rf (s : State) (k : LrdSt → LrdSt) : (s.setLrd k).rf = s.rf := rfl
@[simp] theorem setLrd_sys (s : State) (k : LrdSt → LrdSt) : (s.setLrd k).sys = s.sys := rfl
@[simp] theorem setLrd_fifos (s : State) (k : LrdSt → LrdSt) : (s.setLrd k).fifos = s.fifos := rfl
@[simp] theorem setLrd_telAt (s : State) (k : LrdSt → LrdSt) : (s.setLrd k).telAt = s.telAt := rfl
@[simp] theorem setLrd_ang (s : State) (k : LrdSt → LrdSt) : (s.setLrd k).ang = s.ang := rfl
@[simp] theorem setLrd_skt (s : State) (k : LrdSt → LrdSt) : (s.setLrd k).skt = s.skt := rfl
@[simp] theorem setLrd_cnv (s : State) (k : LrdSt → LrdSt) : (s.setLrd k).cnv = s.cnv := rfl
@[simp] theorem setLrd_wins (s : State) (k : LrdSt → LrdSt) : (s.setLrd k).wins = s.wins := rfl
@[simp] theorem setLrd_opu (s : State) (k : LrdSt → LrdSt) : (s.setLrd k).opu = s.opu := rfl
@[simp] theorem setLrd_srv (s : State) (k : LrdSt → LrdSt) : (s.setLrd k).srv = s.srv := rfl
@[simp] theorem setLrd_dma (s : State) (k : LrdSt → LrdSt) : (s.setLrd k).dma = s.dma := rfl
@[simp] theorem setLrd_seqs (s : State) (k : LrdSt → LrdSt) : (s.setLrd k).seqs = s.seqs := rfl
@[simp] theorem setLrd_hst (s : State) (k : LrdSt → LrdSt) : (s.setLrd k).hst = s.hst := rfl
@[simp] theorem setLrd_sled (s : State) (k : LrdSt → LrdSt) : (s.setLrd k).sled = s.sled := rfl
@[simp] theorem setLrd_spn (s : State) (k : LrdSt → LrdSt) : (s.setLrd k).spn = s.spn := rfl
@[simp] theorem setLrd_flt (s : State) (k : LrdSt → LrdSt) : (s.setLrd k).flt = s.flt := rfl
@[simp] theorem setLrd_thm (s : State) (k : LrdSt → LrdSt) : (s.setLrd k).thm = s.thm := rfl
@[simp] theorem setLrd_trk (s : State) (k : LrdSt → LrdSt) : (s.setLrd k).trk = s.trk := rfl
@[simp] theorem setLrd_wrs (s : State) (k : LrdSt → LrdSt) : (s.setLrd k).wrs = s.wrs := rfl
@[simp] theorem setLrd_chn (s : State) (k : LrdSt → LrdSt) : (s.setLrd k).chn = s.chn := rfl
@[simp] theorem setLrd_cal (s : State) (k : LrdSt → LrdSt) : (s.setLrd k).cal = s.cal := rfl
@[simp] theorem setLrd_det (s : State) (k : LrdSt → LrdSt) : (s.setLrd k).det = s.det := rfl
@[simp] theorem setLrd_cwd (s : State) (k : LrdSt → LrdSt) : (s.setLrd k).cwd = s.cwd := rfl
@[simp] theorem setLrd_str (s : State) (k : LrdSt → LrdSt) : (s.setLrd k).str = s.str := rfl
@[simp] theorem setLrd_hlt (s : State) (k : LrdSt → LrdSt) : (s.setLrd k).hlt = s.hlt := rfl
@[simp] theorem setLrd_att (s : State) (k : LrdSt → LrdSt) : (s.setLrd k).att = s.att := rfl
@[simp] theorem setLrd_med (s : State) (k : LrdSt → LrdSt) : (s.setLrd k).med = s.med := rfl
@[simp] theorem setLrd_cel (s : State) (k : LrdSt → LrdSt) : (s.setLrd k).cel = s.cel := rfl
@[simp] theorem setLrd_sec (s : State) (k : LrdSt → LrdSt) : (s.setLrd k).sec = s.sec := rfl
@[simp] theorem setLrd_mnt (s : State) (k : LrdSt → LrdSt) : (s.setLrd k).mnt = s.mnt := rfl
@[simp] theorem setLrd_mem (s : State) (k : LrdSt → LrdSt) : (s.setLrd k).mem = s.mem := rfl
@[simp] theorem setLrd_tap (s : State) (k : LrdSt → LrdSt) : (s.setLrd k).tap = s.tap := rfl
@[simp] theorem setLrd_rdata (s : State) (k : LrdSt → LrdSt) : (s.setLrd k).rdata = s.rdata := rfl
@[simp] theorem setLrd_freeCtr (s : State) (k : LrdSt → LrdSt) : (s.setLrd k).freeCtr = s.freeCtr := rfl
@[simp] theorem setLrd_pending (s : State) (k : LrdSt → LrdSt) : (s.setLrd k).pending = s.pending := rfl
@[simp] theorem get_setLrd (s : State) (k : LrdSt → LrdSt) (f : Fld) : (s.setLrd k).get f = s.get f := rfl
@[simp] theorem setTap_rf (s : State) (k : Tap → Tap) : (s.setTap k).rf = s.rf := rfl
@[simp] theorem setTap_sys (s : State) (k : Tap → Tap) : (s.setTap k).sys = s.sys := rfl
@[simp] theorem setTap_fifos (s : State) (k : Tap → Tap) : (s.setTap k).fifos = s.fifos := rfl
@[simp] theorem setTap_telAt (s : State) (k : Tap → Tap) : (s.setTap k).telAt = s.telAt := rfl
@[simp] theorem setTap_ang (s : State) (k : Tap → Tap) : (s.setTap k).ang = s.ang := rfl
@[simp] theorem setTap_skt (s : State) (k : Tap → Tap) : (s.setTap k).skt = s.skt := rfl
@[simp] theorem setTap_cnv (s : State) (k : Tap → Tap) : (s.setTap k).cnv = s.cnv := rfl
@[simp] theorem setTap_wins (s : State) (k : Tap → Tap) : (s.setTap k).wins = s.wins := rfl
@[simp] theorem setTap_opu (s : State) (k : Tap → Tap) : (s.setTap k).opu = s.opu := rfl
@[simp] theorem setTap_srv (s : State) (k : Tap → Tap) : (s.setTap k).srv = s.srv := rfl
@[simp] theorem setTap_dma (s : State) (k : Tap → Tap) : (s.setTap k).dma = s.dma := rfl
@[simp] theorem setTap_seqs (s : State) (k : Tap → Tap) : (s.setTap k).seqs = s.seqs := rfl
@[simp] theorem setTap_hst (s : State) (k : Tap → Tap) : (s.setTap k).hst = s.hst := rfl
@[simp] theorem setTap_sled (s : State) (k : Tap → Tap) : (s.setTap k).sled = s.sled := rfl
@[simp] theorem setTap_spn (s : State) (k : Tap → Tap) : (s.setTap k).spn = s.spn := rfl
@[simp] theorem setTap_flt (s : State) (k : Tap → Tap) : (s.setTap k).flt = s.flt := rfl
@[simp] theorem setTap_thm (s : State) (k : Tap → Tap) : (s.setTap k).thm = s.thm := rfl
@[simp] theorem setTap_trk (s : State) (k : Tap → Tap) : (s.setTap k).trk = s.trk := rfl
@[simp] theorem setTap_wrs (s : State) (k : Tap → Tap) : (s.setTap k).wrs = s.wrs := rfl
@[simp] theorem setTap_chn (s : State) (k : Tap → Tap) : (s.setTap k).chn = s.chn := rfl
@[simp] theorem setTap_cal (s : State) (k : Tap → Tap) : (s.setTap k).cal = s.cal := rfl
@[simp] theorem setTap_det (s : State) (k : Tap → Tap) : (s.setTap k).det = s.det := rfl
@[simp] theorem setTap_cwd (s : State) (k : Tap → Tap) : (s.setTap k).cwd = s.cwd := rfl
@[simp] theorem setTap_str (s : State) (k : Tap → Tap) : (s.setTap k).str = s.str := rfl
@[simp] theorem setTap_hlt (s : State) (k : Tap → Tap) : (s.setTap k).hlt = s.hlt := rfl
@[simp] theorem setTap_att (s : State) (k : Tap → Tap) : (s.setTap k).att = s.att := rfl
@[simp] theorem setTap_med (s : State) (k : Tap → Tap) : (s.setTap k).med = s.med := rfl
@[simp] theorem setTap_cel (s : State) (k : Tap → Tap) : (s.setTap k).cel = s.cel := rfl
@[simp] theorem setTap_sec (s : State) (k : Tap → Tap) : (s.setTap k).sec = s.sec := rfl
@[simp] theorem setTap_mnt (s : State) (k : Tap → Tap) : (s.setTap k).mnt = s.mnt := rfl
@[simp] theorem setTap_mem (s : State) (k : Tap → Tap) : (s.setTap k).mem = s.mem := rfl
@[simp] theorem setTap_lrd (s : State) (k : Tap → Tap) : (s.setTap k).lrd = s.lrd := rfl
@[simp] theorem setTap_rdata (s : State) (k : Tap → Tap) : (s.setTap k).rdata = s.rdata := rfl
@[simp] theorem setTap_freeCtr (s : State) (k : Tap → Tap) : (s.setTap k).freeCtr = s.freeCtr := rfl
@[simp] theorem setTap_pending (s : State) (k : Tap → Tap) : (s.setTap k).pending = s.pending := rfl
@[simp] theorem get_setTap (s : State) (k : Tap → Tap) (f : Fld) : (s.setTap k).get f = s.get f := rfl
@[simp] theorem setDma_rf (s : State) (c : Nat) (k : DmaSt → DmaSt) : (s.setDma c k).rf = s.rf := rfl
@[simp] theorem setDma_sys (s : State) (c : Nat) (k : DmaSt → DmaSt) : (s.setDma c k).sys = s.sys := rfl
@[simp] theorem setDma_fifos (s : State) (c : Nat) (k : DmaSt → DmaSt) : (s.setDma c k).fifos = s.fifos := rfl
@[simp] theorem setDma_telAt (s : State) (c : Nat) (k : DmaSt → DmaSt) : (s.setDma c k).telAt = s.telAt := rfl
@[simp] theorem setDma_ang (s : State) (c : Nat) (k : DmaSt → DmaSt) : (s.setDma c k).ang = s.ang := rfl
@[simp] theorem setDma_skt (s : State) (c : Nat) (k : DmaSt → DmaSt) : (s.setDma c k).skt = s.skt := rfl
@[simp] theorem setDma_cnv (s : State) (c : Nat) (k : DmaSt → DmaSt) : (s.setDma c k).cnv = s.cnv := rfl
@[simp] theorem setDma_wins (s : State) (c : Nat) (k : DmaSt → DmaSt) : (s.setDma c k).wins = s.wins := rfl
@[simp] theorem setDma_opu (s : State) (c : Nat) (k : DmaSt → DmaSt) : (s.setDma c k).opu = s.opu := rfl
@[simp] theorem setDma_srv (s : State) (c : Nat) (k : DmaSt → DmaSt) : (s.setDma c k).srv = s.srv := rfl
@[simp] theorem setDma_seqs (s : State) (c : Nat) (k : DmaSt → DmaSt) : (s.setDma c k).seqs = s.seqs := rfl
@[simp] theorem setDma_hst (s : State) (c : Nat) (k : DmaSt → DmaSt) : (s.setDma c k).hst = s.hst := rfl
@[simp] theorem setDma_sled (s : State) (c : Nat) (k : DmaSt → DmaSt) : (s.setDma c k).sled = s.sled := rfl
@[simp] theorem setDma_spn (s : State) (c : Nat) (k : DmaSt → DmaSt) : (s.setDma c k).spn = s.spn := rfl
@[simp] theorem setDma_flt (s : State) (c : Nat) (k : DmaSt → DmaSt) : (s.setDma c k).flt = s.flt := rfl
@[simp] theorem setDma_thm (s : State) (c : Nat) (k : DmaSt → DmaSt) : (s.setDma c k).thm = s.thm := rfl
@[simp] theorem setDma_trk (s : State) (c : Nat) (k : DmaSt → DmaSt) : (s.setDma c k).trk = s.trk := rfl
@[simp] theorem setDma_wrs (s : State) (c : Nat) (k : DmaSt → DmaSt) : (s.setDma c k).wrs = s.wrs := rfl
@[simp] theorem setDma_chn (s : State) (c : Nat) (k : DmaSt → DmaSt) : (s.setDma c k).chn = s.chn := rfl
@[simp] theorem setDma_cal (s : State) (c : Nat) (k : DmaSt → DmaSt) : (s.setDma c k).cal = s.cal := rfl
@[simp] theorem setDma_det (s : State) (c : Nat) (k : DmaSt → DmaSt) : (s.setDma c k).det = s.det := rfl
@[simp] theorem setDma_cwd (s : State) (c : Nat) (k : DmaSt → DmaSt) : (s.setDma c k).cwd = s.cwd := rfl
@[simp] theorem setDma_str (s : State) (c : Nat) (k : DmaSt → DmaSt) : (s.setDma c k).str = s.str := rfl
@[simp] theorem setDma_hlt (s : State) (c : Nat) (k : DmaSt → DmaSt) : (s.setDma c k).hlt = s.hlt := rfl
@[simp] theorem setDma_att (s : State) (c : Nat) (k : DmaSt → DmaSt) : (s.setDma c k).att = s.att := rfl
@[simp] theorem setDma_med (s : State) (c : Nat) (k : DmaSt → DmaSt) : (s.setDma c k).med = s.med := rfl
@[simp] theorem setDma_cel (s : State) (c : Nat) (k : DmaSt → DmaSt) : (s.setDma c k).cel = s.cel := rfl
@[simp] theorem setDma_sec (s : State) (c : Nat) (k : DmaSt → DmaSt) : (s.setDma c k).sec = s.sec := rfl
@[simp] theorem setDma_mnt (s : State) (c : Nat) (k : DmaSt → DmaSt) : (s.setDma c k).mnt = s.mnt := rfl
@[simp] theorem setDma_mem (s : State) (c : Nat) (k : DmaSt → DmaSt) : (s.setDma c k).mem = s.mem := rfl
@[simp] theorem setDma_lrd (s : State) (c : Nat) (k : DmaSt → DmaSt) : (s.setDma c k).lrd = s.lrd := rfl
@[simp] theorem setDma_tap (s : State) (c : Nat) (k : DmaSt → DmaSt) : (s.setDma c k).tap = s.tap := rfl
@[simp] theorem setDma_rdata (s : State) (c : Nat) (k : DmaSt → DmaSt) : (s.setDma c k).rdata = s.rdata := rfl
@[simp] theorem setDma_freeCtr (s : State) (c : Nat) (k : DmaSt → DmaSt) : (s.setDma c k).freeCtr = s.freeCtr := rfl
@[simp] theorem setDma_pending (s : State) (c : Nat) (k : DmaSt → DmaSt) : (s.setDma c k).pending = s.pending := rfl
@[simp] theorem get_setDma (s : State) (c : Nat) (k : DmaSt → DmaSt) (f : Fld) : (s.setDma c k).get f = s.get f := rfl
@[simp] theorem setSeq_rf (s : State) (q : Nat) (k : SeqSt → SeqSt) : (s.setSeq q k).rf = s.rf := rfl
@[simp] theorem setSeq_sys (s : State) (q : Nat) (k : SeqSt → SeqSt) : (s.setSeq q k).sys = s.sys := rfl
@[simp] theorem setSeq_fifos (s : State) (q : Nat) (k : SeqSt → SeqSt) : (s.setSeq q k).fifos = s.fifos := rfl
@[simp] theorem setSeq_telAt (s : State) (q : Nat) (k : SeqSt → SeqSt) : (s.setSeq q k).telAt = s.telAt := rfl
@[simp] theorem setSeq_ang (s : State) (q : Nat) (k : SeqSt → SeqSt) : (s.setSeq q k).ang = s.ang := rfl
@[simp] theorem setSeq_skt (s : State) (q : Nat) (k : SeqSt → SeqSt) : (s.setSeq q k).skt = s.skt := rfl
@[simp] theorem setSeq_cnv (s : State) (q : Nat) (k : SeqSt → SeqSt) : (s.setSeq q k).cnv = s.cnv := rfl
@[simp] theorem setSeq_wins (s : State) (q : Nat) (k : SeqSt → SeqSt) : (s.setSeq q k).wins = s.wins := rfl
@[simp] theorem setSeq_opu (s : State) (q : Nat) (k : SeqSt → SeqSt) : (s.setSeq q k).opu = s.opu := rfl
@[simp] theorem setSeq_srv (s : State) (q : Nat) (k : SeqSt → SeqSt) : (s.setSeq q k).srv = s.srv := rfl
@[simp] theorem setSeq_dma (s : State) (q : Nat) (k : SeqSt → SeqSt) : (s.setSeq q k).dma = s.dma := rfl
@[simp] theorem setSeq_hst (s : State) (q : Nat) (k : SeqSt → SeqSt) : (s.setSeq q k).hst = s.hst := rfl
@[simp] theorem setSeq_sled (s : State) (q : Nat) (k : SeqSt → SeqSt) : (s.setSeq q k).sled = s.sled := rfl
@[simp] theorem setSeq_spn (s : State) (q : Nat) (k : SeqSt → SeqSt) : (s.setSeq q k).spn = s.spn := rfl
@[simp] theorem setSeq_flt (s : State) (q : Nat) (k : SeqSt → SeqSt) : (s.setSeq q k).flt = s.flt := rfl
@[simp] theorem setSeq_thm (s : State) (q : Nat) (k : SeqSt → SeqSt) : (s.setSeq q k).thm = s.thm := rfl
@[simp] theorem setSeq_trk (s : State) (q : Nat) (k : SeqSt → SeqSt) : (s.setSeq q k).trk = s.trk := rfl
@[simp] theorem setSeq_wrs (s : State) (q : Nat) (k : SeqSt → SeqSt) : (s.setSeq q k).wrs = s.wrs := rfl
@[simp] theorem setSeq_chn (s : State) (q : Nat) (k : SeqSt → SeqSt) : (s.setSeq q k).chn = s.chn := rfl
@[simp] theorem setSeq_cal (s : State) (q : Nat) (k : SeqSt → SeqSt) : (s.setSeq q k).cal = s.cal := rfl
@[simp] theorem setSeq_det (s : State) (q : Nat) (k : SeqSt → SeqSt) : (s.setSeq q k).det = s.det := rfl
@[simp] theorem setSeq_cwd (s : State) (q : Nat) (k : SeqSt → SeqSt) : (s.setSeq q k).cwd = s.cwd := rfl
@[simp] theorem setSeq_str (s : State) (q : Nat) (k : SeqSt → SeqSt) : (s.setSeq q k).str = s.str := rfl
@[simp] theorem setSeq_hlt (s : State) (q : Nat) (k : SeqSt → SeqSt) : (s.setSeq q k).hlt = s.hlt := rfl
@[simp] theorem setSeq_att (s : State) (q : Nat) (k : SeqSt → SeqSt) : (s.setSeq q k).att = s.att := rfl
@[simp] theorem setSeq_med (s : State) (q : Nat) (k : SeqSt → SeqSt) : (s.setSeq q k).med = s.med := rfl
@[simp] theorem setSeq_cel (s : State) (q : Nat) (k : SeqSt → SeqSt) : (s.setSeq q k).cel = s.cel := rfl
@[simp] theorem setSeq_sec (s : State) (q : Nat) (k : SeqSt → SeqSt) : (s.setSeq q k).sec = s.sec := rfl
@[simp] theorem setSeq_mnt (s : State) (q : Nat) (k : SeqSt → SeqSt) : (s.setSeq q k).mnt = s.mnt := rfl
@[simp] theorem setSeq_mem (s : State) (q : Nat) (k : SeqSt → SeqSt) : (s.setSeq q k).mem = s.mem := rfl
@[simp] theorem setSeq_lrd (s : State) (q : Nat) (k : SeqSt → SeqSt) : (s.setSeq q k).lrd = s.lrd := rfl
@[simp] theorem setSeq_tap (s : State) (q : Nat) (k : SeqSt → SeqSt) : (s.setSeq q k).tap = s.tap := rfl
@[simp] theorem setSeq_rdata (s : State) (q : Nat) (k : SeqSt → SeqSt) : (s.setSeq q k).rdata = s.rdata := rfl
@[simp] theorem setSeq_freeCtr (s : State) (q : Nat) (k : SeqSt → SeqSt) : (s.setSeq q k).freeCtr = s.freeCtr := rfl
@[simp] theorem setSeq_pending (s : State) (q : Nat) (k : SeqSt → SeqSt) : (s.setSeq q k).pending = s.pending := rfl
@[simp] theorem get_setSeq (s : State) (q : Nat) (k : SeqSt → SeqSt) (f : Fld) : (s.setSeq q k).get f = s.get f := rfl
@[simp] theorem setSpn_rf (s : State) (k : Spn → Spn) : (s.setSpn k).rf = s.rf := rfl
@[simp] theorem setSpn_sys (s : State) (k : Spn → Spn) : (s.setSpn k).sys = s.sys := rfl
@[simp] theorem setSpn_fifos (s : State) (k : Spn → Spn) : (s.setSpn k).fifos = s.fifos := rfl
@[simp] theorem setSpn_telAt (s : State) (k : Spn → Spn) : (s.setSpn k).telAt = s.telAt := rfl
@[simp] theorem setSpn_ang (s : State) (k : Spn → Spn) : (s.setSpn k).ang = s.ang := rfl
@[simp] theorem setSpn_skt (s : State) (k : Spn → Spn) : (s.setSpn k).skt = s.skt := rfl
@[simp] theorem setSpn_cnv (s : State) (k : Spn → Spn) : (s.setSpn k).cnv = s.cnv := rfl
@[simp] theorem setSpn_wins (s : State) (k : Spn → Spn) : (s.setSpn k).wins = s.wins := rfl
@[simp] theorem setSpn_opu (s : State) (k : Spn → Spn) : (s.setSpn k).opu = s.opu := rfl
@[simp] theorem setSpn_srv (s : State) (k : Spn → Spn) : (s.setSpn k).srv = s.srv := rfl
@[simp] theorem setSpn_dma (s : State) (k : Spn → Spn) : (s.setSpn k).dma = s.dma := rfl
@[simp] theorem setSpn_seqs (s : State) (k : Spn → Spn) : (s.setSpn k).seqs = s.seqs := rfl
@[simp] theorem setSpn_hst (s : State) (k : Spn → Spn) : (s.setSpn k).hst = s.hst := rfl
@[simp] theorem setSpn_sled (s : State) (k : Spn → Spn) : (s.setSpn k).sled = s.sled := rfl
@[simp] theorem setSpn_flt (s : State) (k : Spn → Spn) : (s.setSpn k).flt = s.flt := rfl
@[simp] theorem setSpn_thm (s : State) (k : Spn → Spn) : (s.setSpn k).thm = s.thm := rfl
@[simp] theorem setSpn_trk (s : State) (k : Spn → Spn) : (s.setSpn k).trk = s.trk := rfl
@[simp] theorem setSpn_wrs (s : State) (k : Spn → Spn) : (s.setSpn k).wrs = s.wrs := rfl
@[simp] theorem setSpn_chn (s : State) (k : Spn → Spn) : (s.setSpn k).chn = s.chn := rfl
@[simp] theorem setSpn_cal (s : State) (k : Spn → Spn) : (s.setSpn k).cal = s.cal := rfl
@[simp] theorem setSpn_det (s : State) (k : Spn → Spn) : (s.setSpn k).det = s.det := rfl
@[simp] theorem setSpn_cwd (s : State) (k : Spn → Spn) : (s.setSpn k).cwd = s.cwd := rfl
@[simp] theorem setSpn_str (s : State) (k : Spn → Spn) : (s.setSpn k).str = s.str := rfl
@[simp] theorem setSpn_hlt (s : State) (k : Spn → Spn) : (s.setSpn k).hlt = s.hlt := rfl
@[simp] theorem setSpn_att (s : State) (k : Spn → Spn) : (s.setSpn k).att = s.att := rfl
@[simp] theorem setSpn_med (s : State) (k : Spn → Spn) : (s.setSpn k).med = s.med := rfl
@[simp] theorem setSpn_cel (s : State) (k : Spn → Spn) : (s.setSpn k).cel = s.cel := rfl
@[simp] theorem setSpn_sec (s : State) (k : Spn → Spn) : (s.setSpn k).sec = s.sec := rfl
@[simp] theorem setSpn_mnt (s : State) (k : Spn → Spn) : (s.setSpn k).mnt = s.mnt := rfl
@[simp] theorem setSpn_mem (s : State) (k : Spn → Spn) : (s.setSpn k).mem = s.mem := rfl
@[simp] theorem setSpn_lrd (s : State) (k : Spn → Spn) : (s.setSpn k).lrd = s.lrd := rfl
@[simp] theorem setSpn_tap (s : State) (k : Spn → Spn) : (s.setSpn k).tap = s.tap := rfl
@[simp] theorem setSpn_rdata (s : State) (k : Spn → Spn) : (s.setSpn k).rdata = s.rdata := rfl
@[simp] theorem setSpn_freeCtr (s : State) (k : Spn → Spn) : (s.setSpn k).freeCtr = s.freeCtr := rfl
@[simp] theorem setSpn_pending (s : State) (k : Spn → Spn) : (s.setSpn k).pending = s.pending := rfl
@[simp] theorem get_setSpn (s : State) (k : Spn → Spn) (f : Fld) : (s.setSpn k).get f = s.get f := rfl
@[simp] theorem setThm_rf (s : State) (k : Thm → Thm) : (s.setThm k).rf = s.rf := rfl
@[simp] theorem setThm_sys (s : State) (k : Thm → Thm) : (s.setThm k).sys = s.sys := rfl
@[simp] theorem setThm_fifos (s : State) (k : Thm → Thm) : (s.setThm k).fifos = s.fifos := rfl
@[simp] theorem setThm_telAt (s : State) (k : Thm → Thm) : (s.setThm k).telAt = s.telAt := rfl
@[simp] theorem setThm_ang (s : State) (k : Thm → Thm) : (s.setThm k).ang = s.ang := rfl
@[simp] theorem setThm_skt (s : State) (k : Thm → Thm) : (s.setThm k).skt = s.skt := rfl
@[simp] theorem setThm_cnv (s : State) (k : Thm → Thm) : (s.setThm k).cnv = s.cnv := rfl
@[simp] theorem setThm_wins (s : State) (k : Thm → Thm) : (s.setThm k).wins = s.wins := rfl
@[simp] theorem setThm_opu (s : State) (k : Thm → Thm) : (s.setThm k).opu = s.opu := rfl
@[simp] theorem setThm_srv (s : State) (k : Thm → Thm) : (s.setThm k).srv = s.srv := rfl
@[simp] theorem setThm_dma (s : State) (k : Thm → Thm) : (s.setThm k).dma = s.dma := rfl
@[simp] theorem setThm_seqs (s : State) (k : Thm → Thm) : (s.setThm k).seqs = s.seqs := rfl
@[simp] theorem setThm_hst (s : State) (k : Thm → Thm) : (s.setThm k).hst = s.hst := rfl
@[simp] theorem setThm_sled (s : State) (k : Thm → Thm) : (s.setThm k).sled = s.sled := rfl
@[simp] theorem setThm_spn (s : State) (k : Thm → Thm) : (s.setThm k).spn = s.spn := rfl
@[simp] theorem setThm_flt (s : State) (k : Thm → Thm) : (s.setThm k).flt = s.flt := rfl
@[simp] theorem setThm_trk (s : State) (k : Thm → Thm) : (s.setThm k).trk = s.trk := rfl
@[simp] theorem setThm_wrs (s : State) (k : Thm → Thm) : (s.setThm k).wrs = s.wrs := rfl
@[simp] theorem setThm_chn (s : State) (k : Thm → Thm) : (s.setThm k).chn = s.chn := rfl
@[simp] theorem setThm_cal (s : State) (k : Thm → Thm) : (s.setThm k).cal = s.cal := rfl
@[simp] theorem setThm_det (s : State) (k : Thm → Thm) : (s.setThm k).det = s.det := rfl
@[simp] theorem setThm_cwd (s : State) (k : Thm → Thm) : (s.setThm k).cwd = s.cwd := rfl
@[simp] theorem setThm_str (s : State) (k : Thm → Thm) : (s.setThm k).str = s.str := rfl
@[simp] theorem setThm_hlt (s : State) (k : Thm → Thm) : (s.setThm k).hlt = s.hlt := rfl
@[simp] theorem setThm_att (s : State) (k : Thm → Thm) : (s.setThm k).att = s.att := rfl
@[simp] theorem setThm_med (s : State) (k : Thm → Thm) : (s.setThm k).med = s.med := rfl
@[simp] theorem setThm_cel (s : State) (k : Thm → Thm) : (s.setThm k).cel = s.cel := rfl
@[simp] theorem setThm_sec (s : State) (k : Thm → Thm) : (s.setThm k).sec = s.sec := rfl
@[simp] theorem setThm_mnt (s : State) (k : Thm → Thm) : (s.setThm k).mnt = s.mnt := rfl
@[simp] theorem setThm_mem (s : State) (k : Thm → Thm) : (s.setThm k).mem = s.mem := rfl
@[simp] theorem setThm_lrd (s : State) (k : Thm → Thm) : (s.setThm k).lrd = s.lrd := rfl
@[simp] theorem setThm_tap (s : State) (k : Thm → Thm) : (s.setThm k).tap = s.tap := rfl
@[simp] theorem setThm_rdata (s : State) (k : Thm → Thm) : (s.setThm k).rdata = s.rdata := rfl
@[simp] theorem setThm_freeCtr (s : State) (k : Thm → Thm) : (s.setThm k).freeCtr = s.freeCtr := rfl
@[simp] theorem setThm_pending (s : State) (k : Thm → Thm) : (s.setThm k).pending = s.pending := rfl
@[simp] theorem get_setThm (s : State) (k : Thm → Thm) (f : Fld) : (s.setThm k).get f = s.get f := rfl

end Sys2Proof.Machine
end

