-- ==== Sys2Proof/Laws/Reads.lean ====
section
/-! SUPPORT. What a custodian's read of a vendor register does (R20, R564): the value, and the fields the read clears. -/

namespace Sys2Proof.Machine
open R

/-- The offsets whose read only clears: not a latched low half, one that takes a free value or the data word of an event FIFO. -/
def plainRead (off : Nat) : Bool :=
  !readFree off && off != ANG_NOW_LO_ANGLE.off && off != SKT_COMMIT_LO_ANGLE.off && off != STR_WSEQ_LO_WSEQ.off &&
    (FIF_DATA_WORD 0).off != off && (FIF_DATA_WORD 1).off != off && (FIF_DATA_WORD 2).off != off

theorem foldl_put_puts (l : List Fld) : ∀ s : State, l.foldl (fun s f => s.put f f.reset) s = s.puts (l.map fun f => (f, f.reset)) := by
  induction l with
  | nil => exact fun _ => rfl
  | cons f l ih => exact fun s => ih _

/-- The register read at such an offset writes the read-to-clear fields back to their reset values, and nothing else. -/
theorem readReg_plain (off : Nat) (s : State) (h : plainRead off = true) (l : List Fld)
    (hl : ((fieldsAt off).filter fun f => f.acc == .rc) = l) :
    readReg off s = { s.puts (l.map fun f => (f, f.reset)) with rdata := BitVec.ofNat 32 (s.regRead off) } := by
  simp only [plainRead, Bool.and_eq_true, Bool.not_eq_true', bne_iff_ne] at h
  obtain ⟨⟨⟨⟨⟨⟨h1, h2⟩, h3⟩, h4⟩, h5⟩, h6⟩, h7⟩ := h
  simp only [readReg, readSide, readDraw, State.when, h1, latchHi, ← hl, ← foldl_put_puts]
  simp [h2, h3, h4, h5, h6, h7]

/-- The same, as the frame of the custodian's read. -/
theorem readRow_plain {s : State} {p off : Nat} (hr : s.reads p off = true) (h : plainRead off = true) (l : List Fld)
    (hl : ((fieldsAt off).filter fun f => f.acc == .rc) = l) :
    ∃ t, readRow p off s = .next t ∧ t.rdata = BitVec.ofNat 32 (s.regRead off) ∧
      (∀ f, t.get f = (s.puts (l.map fun f => (f, f.reset))).get f) ∧ ({ s with rdata := t.rdata } : State).sameBut t l := by
  refine ⟨_, (readRow_reads hr).trans (congrArg _ (readReg_plain off s h l hl)), rfl, fun _ => rfl, ?_, fun f hf => ?_⟩
  · have e := (sameBut_puts (l.map fun f => (f, f.reset)) s).1
    simp only
    rw [e]
  · have e := (sameBut_puts (l.map fun f => (f, f.reset)) s).2 f
    rw [List.map_map] at e
    refine e fun g hg => hf g ?_
    simpa using hg

end Sys2Proof.Machine
end

