-- ==== Sys2Proof/Laws/Tidy.lean ====
section
/-! SUPPORT. The operations that store into buffer memory: they keep its canonical form, and the queue. Each is stated backward, so that
proofs peel one operation after the other: what is tidy before stays tidy. -/

set_option linter.unusedSimpArgs false
set_option linter.unusedVariables false

namespace Sys2Proof.Machine
open R

/-- From the first pair to the second, buffer memory keeps its canonical form, and the queue stays. -/
def TidyK (a b : Memory × List Instr) : Prop := (Memory.wf a.1 = true → Memory.wf b.1 = true) ∧ b.2 = a.2
/-- Buffer memory keeps its canonical form, and the queue stays. -/
def Tidy (s t : State) : Prop := TidyK s.kept t.kept

@[simp] theorem TidyK.refl (a : Memory × List Instr) : TidyK a a := ⟨id, rfl⟩
theorem TidyK.trans {a b c : Memory × List Instr} (h : TidyK a b) (k : TidyK b c) : TidyK a c :=
  ⟨fun x => k.1 (h.1 x), k.2.trans h.2⟩
theorem Tidy.of_kept {s t : State} (h : t.kept = s.kept) : Tidy s t := by unfold Tidy; rw [h]; exact TidyK.refl _
theorem Tidy.mem {s t : State} (h : Tidy s t) (x : Memory.wf s.mem.bytes = true) : Memory.wf t.mem.bytes = true := h.1 x
theorem Tidy.pending {s t : State} (h : Tidy s t) : t.pending = s.pending := h.2

variable {a : Memory × List Instr}

theorem foldl_tidy {α : Type} (l : List α) (k : State → α → State) (h : ∀ s x, TidyK a s.kept → TidyK a (k s x).kept) :
    ∀ s, TidyK a s.kept → TidyK a (l.foldl k s).kept := by
  induction l with
  | nil => exact fun _ h => h
  | cons x l ih => exact fun s hs => ih _ (h s x hs)

theorem foldl_snd_tidy {α β : Type} (l : List α) (k : β × State → α → β × State)
    (h : ∀ x c, TidyK a x.2.kept → TidyK a (k x c).2.kept) : ∀ x, TidyK a x.2.kept → TidyK a (l.foldl k x).2.kept := by
  induction l with
  | nil => exact fun _ h => h
  | cons c l ih => exact fun x hx => ih _ (h x c hx)

theorem when_tidy {s : State} {b : Bool} {k : State → State} (h0 : TidyK a s.kept) (h : TidyK a (k s).kept) :
    TidyK a (s.when b k).kept := by
  unfold State.when; split
  · exact h
  · exact h0

/-! ### Stores -/

/-- A store of bytes, whatever else of MEM changes. -/
theorem setMem_tidy {s : State} (k : MemSt → MemSt) (x : Nat) (d : List Byte) (e : (k s.mem).bytes = s.mem.bytes.writes x d)
    (h : TidyK a s.kept) : TidyK a (s.setMem k).kept := by
  rw [State_setMem_kept, e]
  exact ⟨fun w => Memory.wf_writes _ _ _ (h.1 w), h.2⟩

theorem storeBlock_tidy {src ba : Nat} {data : List Byte} {o : BlockRead} {s : State} (h : TidyK a s.kept) :
    TidyK a (storeBlock src ba data o s).2.kept := by
  unfold storeBlock
  have hr : TidyK a (readBlock src (ba / 64) o s).2.kept := by simpa using h
  split
  · exact setMem_tidy _ ba data rfl h
  · dsimp only
    split
    · exact setMem_tidy _ ba data rfl hr
    · exact hr

theorem storeDirect_tidy {src ba : Nat} {data : List Byte} {s : State} (h : TidyK a s.kept) :
    TidyK a (storeDirect src ba data s).2.kept := by
  unfold storeDirect
  refine foldl_snd_tidy _ _ (fun x p h => ?_) _ h
  exact storeBlock_tidy h

theorem storeLine_tidy {ba way : Nat} {data : List Byte} {s : State} (h : TidyK a s.kept) :
    TidyK a (storeLine ba way data s).kept := by
  unfold storeLine
  rw [setLine_kept]
  exact setMem_tidy _ ba data rfl h

theorem missStore_tidy {src ba run : Nat} {data : List Byte} {s : State} (h : TidyK a s.kept) :
    TidyK a (missStore src ba run data s).2.kept := by
  unfold missStore
  extract_lets line f
  have hf : TidyK a f.2.kept := by simpa [f] using h
  split
  · exact storeDirect_tidy h
  · split
    · split
      · exact storeDirect_tidy (by simpa using h)
      · exact storeLine_tidy (by simpa using h)
    · dsimp only
      split
      · exact storeLine_tidy (by simpa using hf)
      · exact hf

theorem lineStore_tidy {src ba : Nat} {data : List Byte} {l : LineOutcome} {s : State} (h : TidyK a s.kept) :
    TidyK a (lineStore src ba data l s).2.kept := by
  unfold lineStore
  extract_lets line r s1
  have h1 : TidyK a s1.kept := by simpa [s1] using h
  split
  · rename_i e
    exact missStore_tidy (by rw [lookup_kept e]; exact h1)
  · rename_i w s2 e
    have h2 : TidyK a s2.kept := by rw [lookup_kept e]; exact h1
    split
    · rename_i e3
      exact missStore_tidy (by rw [hitLine_kept e3]; exact h2)
    · rename_i e3
      rw [hitLine_kept e3]; exact h2
    · rename_i s3 e3
      have h3 : TidyK a s3.kept := by rw [hitLine_kept e3]; exact h2
      split
      · exact storeDirect_tidy (by simpa using h3)
      · exact storeLine_tidy h3

theorem memStore_tidy {src ba : Nat} {data : List Byte} {ls : List LineOutcome} {s : State} (h : TidyK a s.kept) :
    TidyK a (memStore src ba data ls s).2.kept := by
  refine foldl_snd_tidy _ _ (fun x i h => ?_) _ h
  dsimp only
  split
  · exact h
  · exact lineStore_tidy h

theorem bar2Store_tidy {ba : Nat} {data : List Byte} {o : BlockRead} {l : LineOutcome} {s : State} (h : TidyK a s.kept) :
    TidyK a (bar2Store ba data o l s).kept := by
  unfold bar2Store
  extract_lets s1 line
  have h1 : TidyK a s1.kept := by simpa [s1] using h
  split
  · rename_i e
    exact storeBlock_tidy (by rw [lookup_kept e]; exact h1)
  · rename_i w s2 e
    have h2 : TidyK a s2.kept := by rw [lookup_kept e]; exact h1
    split
    · rename_i e3
      exact storeBlock_tidy (by rw [hitLine_kept e3]; exact h2)
    · rename_i e3
      rw [hitLine_kept e3]; exact h2
    · rename_i s3 e3
      have h3 : TidyK a s3.kept := by rw [hitLine_kept e3]; exact h2
      split
      · exact storeBlock_tidy (by simpa using h3)
      · exact storeLine_tidy h3

theorem bar2Write_tidy {off : Nat} {data : List Byte} {os : List BlockRead} {ls : List LineOutcome} {s : State}
    (h : TidyK a s.kept) : TidyK a (bar2Write off data os ls s).kept := by
  refine foldl_tidy _ _ (fun s i h => ?_) _ h
  dsimp only
  split
  · split
    · exact h
    · exact bar2Store_tidy h
  · exact h

/-! ### Tags of codewords (R28) -/

theorem keepTag_tidy {t : Nat} {s : State} (h : TidyK a s.kept) : TidyK a (keepTag t s).kept := by
  unfold keepTag
  rw [State_setCwd_kept]
  exact memStore_tidy h

theorem tagCodeword_tidy {i : CwItem} {cond x : Nat} {s : State} (h : TidyK a s.kept) :
    TidyK a (tagCodeword i cond x s).kept := by
  unfold tagCodeword
  extract_lets s1 s2 s3 t
  have h2 : TidyK a s2.kept := by
    unfold s2; split <;> simpa [s1] using h
  have h3 : TidyK a s3.kept := by simpa [s3] using h2
  split
  · exact h3
  · rw [State_setCwd_kept]
    exact keepTag_tidy h3

theorem groupPassEnds_tidy {g : FGroup} {s : State} (h : TidyK a s.kept) : TidyK a (groupPassEnds g s).kept := by
  unfold groupPassEnds
  extract_lets others s1 again room fit s2 s3 s4
  split
  · simpa using h
  · split
    · rw [syncOcc_kept, State_setCwd_kept]
      refine foldl_tidy _ _ (fun s i h => tagCodeword_tidy (by simpa using h)) _ ?_
      unfold s1; split <;> simpa using h
    · refine foldl_tidy _ _ (fun s i h => tagCodeword_tidy h) _ ?_
      rw [State_setCwd_kept]
      exact when_tidy h (by simpa using h)

theorem groupStep_tidy {i : CwItem} {left : Bool} {s : State} (h : TidyK a s.kept) : TidyK a (groupStep i left s).kept := by
  unfold groupStep
  split
  · exact h
  · split
    · exact h
    · dsimp only
      split
      · exact groupPassEnds_tidy (by simpa using h)
      · simpa using h

theorem unconverged_tidy {i : CwItem} {s : State} (h : TidyK a s.kept) : TidyK a (unconverged i s).kept := by
  unfold unconverged
  split
  · split
    · exact groupStep_tidy h
    · exact tagCodeword_tidy h
  · exact tagCodeword_tidy h

theorem releaseCodeword_tidy {e : Expect} {cwix : Nat} {soft : List Int} {s : State} (h : TidyK a s.kept) :
    TidyK a (releaseCodeword e cwix soft s).kept := by
  unfold releaseCodeword
  extract_lets key addr held short lost s1 soft1 f frame b hcrc readable missing stop begin' i s2 s3 s4
  have h1 : TidyK a s1.kept := when_tidy h (by simpa using h)
  have h3 : TidyK a s3.kept := by
    unfold s3; split <;> simpa [s2] using h1
  have h4 : TidyK a s4.kept := by simpa [s4] using h3
  clear_value s4
  split
  · exact groupStep_tidy (tagCodeword_tidy h4)
  · split
    · exact groupStep_tidy (tagCodeword_tidy (by simpa using h4))
    · simpa using h4

/-! ### Rebuilt codewords and stripes (R31) -/

theorem resolveOver_tidy {all : List Nat} {stripe c : Nat} {r : List AsmMem × State} (h : TidyK a r.2.kept) :
    TidyK a (resolveOver all stripe c r).2.kept := by
  unfold resolveOver
  extract_lets s dm bad bytes data user
  split
  · exact h
  · split
    · simpa [s] using h
    · refine foldl_snd_tidy _ _ (fun q j h => ?_) _ (by simpa [s] using h)
      exact keepTag_tidy h

theorem resolveIndex_tidy {stripe c : Nat} {r : List AsmMem × State} (h : TidyK a r.2.kept) :
    TidyK a (resolveIndex stripe c r).2.kept := resolveOver_tidy h

theorem resolveScan_tidy {stripe : Nat} {got : List AsmMem} {s : State} (h : TidyK a s.kept) :
    TidyK a (resolveScan stripe got s).kept := by
  unfold resolveScan
  extract_lets z at' dm ckw zoned parity w top life high s1 v old part ext whole s2 data s3 s4 partly all r one s5 s6 s7
  have h1 : TidyK a s1.kept := when_tidy h (by simpa using h)
  have h2 : TidyK a s2.kept := by simpa [s2] using h1
  have h4 : TidyK a s4.kept := by
    have : TidyK a s3.kept := when_tidy h2 (by simpa using h2)
    simpa [s4] using this
  have h5 : TidyK a s5.kept := by
    have hr : TidyK a r.2.kept := by
      unfold r; split
      · exact foldl_snd_tidy _ _ (fun _ _ h => resolveOver_tidy h) _ h1
      · exact h1
    simpa [s5] using hr
  have h7 : TidyK a s7.kept := when_tidy h1 (by simpa using h1)
  clear_value s1 s4 s5 s7
  split
  · split
    · split <;> simpa using h4
    · rw [endScan_kept]
      exact when_tidy h1 (by simpa using h1)
  · split
    · split <;> simpa [s6] using h5
    · rw [endScan_kept]
      exact when_tidy h7 (by simpa using h7)

theorem releaseStripe_tidy {x : Asm} {s : State} (h : TidyK a s.kept) : TidyK a (releaseStripe x s).kept := by
  unfold releaseStripe
  extract_lets s1 r got s2
  have h1 : TidyK a s1.kept := by simpa [s1] using h
  split
  · exact resolveScan_tidy h1
  · have h2 : TidyK a r.2.kept := foldl_snd_tidy _ _ (fun _ _ h => resolveIndex_tidy h) _ h1
    simpa [s2] using h2

theorem settleAsm_tidy {stripe : Nat} {s : State} (h : TidyK a s.kept) : TidyK a (settleAsm stripe s).kept := by
  unfold settleAsm
  split
  · exact h
  · extract_lets bad s1
    have h1 : TidyK a s1.kept := when_tidy h (by simpa using h)
    split
    · exact h1
    · split
      · exact releaseStripe_tidy h1
      · exact h1

/-! ### Host writes (R304, R395) -/

theorem storeData_tidy {c : HCmd} {n : Ns} {data : List Nat} {s : State} (h : TidyK a s.kept) :
    TidyK a (storeData c n data s).2.kept := by
  refine foldl_snd_tidy _ _ (fun r p h => ?_) _ h
  dsimp only
  split
  · exact h
  · exact memStore_tidy h

theorem runWrite_tidy {c : HCmd} {n : Ns} {s : State} (h : TidyK a s.kept) : TidyK a (runWrite c n s).kept := by
  unfold runWrite
  extract_lets data before r s1 s2 s3 hst s4
  have h1 : TidyK a s1.kept := storeData_tidy (by simpa using h)
  have h2 : TidyK a s2.kept := by simpa [s2] using h1
  have h4 : TidyK a s4.kept := by simpa [s4, s3] using h1
  clear_value s2 s4
  split
  · exact when_tidy h2 (by simpa using h2)
  · exact when_tidy h4 (by simpa using h4)

theorem runIo_tidy {c : HCmd} {s : State} (h : TidyK a s.kept) : TidyK a (runIo c s).kept := by
  unfold runIo
  extract_lets s1 s2 s3
  have h1 : TidyK a s1.kept := by simpa [s1] using h
  split
  · rw [completeReady_kept]
    refine foldl_tidy _ _ (fun s k h => when_tidy h (by simpa using h)) _ (by simpa [s2] using h1)
  · split
    · simpa using h1
    · repeat' (first | exact runWrite_tidy h1 | split | simpa using h1)

theorem pump_tidy {s : State} (h : TidyK a s.kept) : TidyK a (pump s).kept := by
  refine foldl_tidy _ _ (fun s c h => ?_) _ h
  repeat' (first | exact h | split | exact runIo_tidy h)

/-! ### DMA -/

theorem dmaDeliver_tidy {c : Nat} {data : List Byte} {s : State} (h : TidyK a s.kept) : TidyK a (dmaDeliver c data s).kept := by
  unfold dmaDeliver
  extract_lets b r t
  have hr : TidyK a r.2.kept := by
    unfold r; split
    · simpa using h
    · exact memStore_tidy h
  have ht : TidyK a t.kept := by simpa [t] using hr
  split
  · exact ht
  · simpa using ht

theorem dmaWrap_tidy {c : Nat} {data : List Byte} {s : State} (h : TidyK a s.kept) : TidyK a (dmaWrap c data s).kept := by
  unfold dmaWrap
  dsimp only
  unfold State.when
  split
  · exact dmaDeliver_tidy (by simpa using dmaDeliver_tidy h)
  · exact dmaDeliver_tidy h

/-! ### Power and resets -/

theorem powerOnState_tidy {last : Nat} {s : State} (h : TidyK a s.kept) : TidyK a (powerOnState last s).kept :=
  ⟨fun _ => rfl, h.2⟩

theorem turnOff_tidy {n : Nat} {s : State} (h : TidyK a s.kept) : TidyK a (turnOff n s).kept := by
  unfold turnOff
  simpa using powerOnState_tidy (by simpa using h)

/-! ### The rows -/

/-- A meaning answers a next state that keeps the canonical form of buffer memory, and the queue. -/
def KeepsTidy (s : State) (r : Res) : Prop := ∃ t, r = .next t ∧ Tidy s t

theorem Keeps.tidy {s : State} {r : Res} (h : Keeps s r) : KeepsTidy s r :=
  let ⟨t, e, k⟩ := h
  ⟨t, e, Tidy.of_kept k⟩

theorem next_tidy {s t : State} (h : TidyK s.kept t.kept) : KeepsTidy s (.next t) := ⟨t, rfl, h⟩

theorem doIf_tidy {s : State} {b : Bool} {k : State → State} (h : TidyK s.kept (k s).kept) : KeepsTidy s (s.doIf b k) := by
  refine ⟨_, rfl, ?_⟩
  split
  · exact h
  · exact TidyK.refl _

theorem execBar2Write_tidy (p : Port) (off : BitVec 32) (data : List Byte) (reach : Fin 16385) (os : List BlockRead)
    (ls : List LineOutcome) (s : State) : KeepsTidy s (execBar2Write p off data reach os ls s) := by
  refine doIf_tidy ?_
  split
  · simp
  · exact bar2Write_tidy (by simp)

theorem execCodewordRelease_tidy (pba : BitVec 32) (cwix : Fin 16) (soft : List Int) (s : State) :
    KeepsTidy s (execCodewordRelease pba cwix soft s) := by
  unfold execCodewordRelease
  split
  · exact next_tidy (TidyK.refl _)
  · exact doIf_tidy (releaseCodeword_tidy (TidyK.refl _))

theorem execDecodeComplete_tidy (d : Dec) (x : Nat) (conv : Bool) (iters : Nat) (s : State) :
    KeepsTidy s (execDecodeComplete d x conv iters s) := by
  unfold execDecodeComplete
  split
  · exact next_tidy (TidyK.refl _)
  · refine doIf_tidy ?_
    extract_lets y i s1 cond s2
    have h1 : TidyK s.kept s1.kept := by simp [s1]
    split
    · simp
    · rw [dispatch_kept]
      unfold s2; split
      · exact unconverged_tidy h1
      · exact groupStep_tidy (tagCodeword_tidy h1)

theorem execMemberArrival_tidy (stripe : Nat) (member : Fin 20) (planned : Nat) (tags words : List BlockRead) (s : State) :
    KeepsTidy s (execMemberArrival stripe member planned tags words s) := by
  unfold execMemberArrival
  extract_lets j mine l drop
  split
  · exact doIf_tidy (by simp [drop])
  · refine doIf_tidy ?_
    dsimp only
    refine settleAsm_tidy ?_
    rw [putAsm_kept]
    refine foldl_snd_tidy _ _ (fun x p h => ?_) _ (by simp [drop])
    simpa using h

theorem execSlowMemberDeadline_tidy (stripe : Nat) (s : State) : KeepsTidy s (execSlowMemberDeadline stripe s) := by
  unfold execSlowMemberDeadline
  split
  · exact next_tidy (TidyK.refl _)
  · refine doIf_tidy ?_
    extract_lets miss s1 bad b s2 s3
    have h1 : TidyK s.kept s1.kept := foldl_tidy _ _ (fun s j h => by simpa using h) _ (by simp)
    have h2 : TidyK s.kept s2.kept := by simpa [s2] using h1
    have h3 : TidyK s.kept s3.kept := by
      unfold s3; split
      · exact releaseStripe_tidy h2
      · exact settleAsm_tidy (by simpa using h2)
    exact foldl_tidy _ _ (fun s j h => by simpa using h) _ h3

theorem ioFetch_tidy {c : HCmd} {f : State → Option (Nat × Nat × Bool)} {k : HCmd → State → HCmd × State} {s : State}
    (h : ∀ c s, (k c s).2.kept = s.kept) : KeepsTidy s (ioFetch c f k s) := by
  refine next_tidy ?_
  split
  · exact TidyK.refl _
  · split
    · exact TidyK.refl _
    · rename_i t e
      have e : TidyK s.kept t.kept := Tidy.of_kept (fetch_kept e)
      dsimp only
      split
      · simpa using e
      · have e2 := h
        repeat' (first | split | refine runIo_tidy ?_)
        all_goals simpa [h] using e

theorem onIoQueue_tidy {c : IoCmd} {s : State} {k : Res} (h : KeepsTidy s k) : KeepsTidy s (onIoQueue c s k) := by
  unfold onIoQueue; split
  · exact next_tidy (TidyK.refl _)
  · exact h

theorem plainIo_tidy (c : IoCmd) (op : Nat) (modify : Bool) (data : List Nat) (s : State) : KeepsTidy s (plainIo c op modify data s) :=
  onIoQueue_tidy (ioFetch_tidy fun c s => by dsimp only; split <;> rfl)

theorem execFlush_tidy (c : IoCmd) (s : State) : KeepsTidy s (execFlush c s) := onIoQueue_tidy (ioFetch_tidy fun _ _ => rfl)
theorem execRead_tidy (c : IoCmd) (fua : Bool) (os : List BlockRead) (s : State) : KeepsTidy s (execRead c fua os s) :=
  onIoQueue_tidy (ioFetch_tidy fun c s => by dsimp only; split <;> rfl)
theorem execVerify_tidy (c : IoCmd) (s : State) : KeepsTidy s (execVerify c s) := plainIo_tidy ..
theorem execWriteZeroes_tidy (c : IoCmd) (s : State) : KeepsTidy s (execWriteZeroes c s) := plainIo_tidy ..
theorem execWrite_tidy (c : IoCmd) (data : List Nat) (ls : List LineOutcome) (s : State) : KeepsTidy s (execWrite c data ls s) :=
  onIoQueue_tidy (ioFetch_tidy fun c s => by
    dsimp only; split
    · rfl
    · exact when_kept _ _ _ (by simp))
theorem execZoneAppend_tidy (c : IoCmd) (data : List Nat) (ls : List LineOutcome) (s : State) :
    KeepsTidy s (execZoneAppend c data ls s) :=
  onIoQueue_tidy (ioFetch_tidy fun c s => by
    dsimp only; split
    · rfl
    · simp)
theorem execDatasetManagement_tidy (c : IoCmd) (ad : Bool) (ranges : List (Nat × Nat)) (s : State) :
    KeepsTidy s (execDatasetManagement c ad ranges s) :=
  onIoQueue_tidy (ioFetch_tidy fun c s => by dsimp only; split <;> rfl)
theorem zoneSend_tidy (c : IoCmd) (act : Nat) (all : Bool) (s : State) : KeepsTidy s (zoneSend c act all s) :=
  onIoQueue_tidy (ioFetch_tidy fun c s => by dsimp only; repeat' (first | rfl | split))
theorem execZoneOpen_tidy (c : IoCmd) (all : Bool) (s : State) : KeepsTidy s (execZoneOpen c all s) := zoneSend_tidy ..
theorem execZoneClose_tidy (c : IoCmd) (all : Bool) (s : State) : KeepsTidy s (execZoneClose c all s) := zoneSend_tidy ..
theorem execZoneFinish_tidy (c : IoCmd) (all : Bool) (s : State) : KeepsTidy s (execZoneFinish c all s) := zoneSend_tidy ..
theorem execZoneReset_tidy (c : IoCmd) (all : Bool) (s : State) : KeepsTidy s (execZoneReset c all s) := zoneSend_tidy ..

theorem execRangeLockRelease_tidy (s : State) : KeepsTidy s (execRangeLockRelease s) := doIf_tidy (pump_tidy (TidyK.refl _))

theorem execMapPageLoaded_tidy (nsid page us : Nat) (s : State) : KeepsTidy s (execMapPageLoaded nsid page us s) := by
  unfold execMapPageLoaded
  extract_lets got never
  refine doIf_tidy ?_
  extract_lets waited moved s1 s2 s3 s4 s5
  have h2 : TidyK s.kept s2.kept := by simp [s2, s1]
  clear_value s2
  have h3 : TidyK s.kept s3.kept := foldl_tidy _ _ (fun s i h => by simpa using h) _ h2
  have h4 : TidyK s.kept s4.kept := when_tidy h3 (by simpa using h3)
  rw [askNextPage_kept]
  refine pump_tidy ?_
  rw [syncMapPhase_kept]
  exact when_tidy (by simpa using h4) (by simpa using h4)

/-- An admin command that runs at once. -/
theorem immediate_tidy {p cid op : Nat} {k : State → State} {s : State} (h : ∀ s, TidyK s.kept (k s).kept) :
    KeepsTidy s (immediate p cid op k s) := by
  refine next_tidy ?_
  split
  · exact TidyK.refl _
  · rename_i e
    have := h
    exact TidyK.trans (Tidy.of_kept (fetch_kept e)) (h _)

theorem execDeleteIoSq_tidy (p : Port) (cid qid : BitVec 16) (s : State) : KeepsTidy s (execDeleteIoSq p cid qid s) := by
  refine immediate_tidy fun s => ?_
  split
  · simp
  · rw [endAdm_kept]
    exact pump_tidy (by simp)

theorem execAbort_tidy (p : Port) (cid sqid target : BitVec 16) (s : State) : KeepsTidy s (execAbort p cid sqid target s) := by
  refine immediate_tidy fun s => ?_
  split
  · simp
  · split
    · rw [endAdm_kept]
      exact pump_tidy (by simp)
    · simp

theorem execDmaReadCompletion_tidy (c : Chan) (n : Nat) (data : List Byte) (left : Nat) (s : State) :
    KeepsTidy s (execDmaReadCompletion c n data left s) := by
  unfold execDmaReadCompletion
  refine doIf_tidy ?_
  dsimp only
  split
  · rename_i e
    rw [dmaEnd_kept]
    refine Tidy.of_kept ?_
    split at e
    · cases e
    · exact dmaLoad_kept e
  · rename_i bytes s1 e
    have h1 : TidyK s.kept s1.kept := by
      refine Tidy.of_kept ?_
      split at e
      · cases e; rfl
      · exact dmaLoad_kept e
    have h2 : TidyK s.kept (dmaDeliver c bytes (setSrc c (s.dmaSrc c + n) (s1.setDma c fun d => { d with issued := left }))).kept :=
      dmaDeliver_tidy (by simpa using h1)
    exact when_tidy h2 (by simpa using h2)

theorem execDmaFifoPacket_tidy (c : Chan) (s : State) : KeepsTidy s (execDmaFifoPacket c s) := by
  unfold execDmaFifoPacket
  refine doIf_tidy ?_
  dsimp only
  split
  · exact dmaDeliver_tidy ⟨id, rfl⟩
  · exact dmaWrap_tidy ⟨id, rfl⟩

theorem execPowerGoodFusesLoaded_tidy (s : State) : KeepsTidy s (execPowerGoodFusesLoaded s) :=
  doIf_tidy (by rw [eventRec_kept]; exact powerOnState_tidy (TidyK.refl _))

theorem execRegulatorFault_tidy (r : Fin 6) (s : State) : KeepsTidy s (execRegulatorFault r s) := by
  refine doIf_tidy ?_
  dsimp only
  have h : TidyK s.kept (turnOff (min (s.get PWR_EVT_REGFAULT + 1) 255) { s with cel := s.cel.cut }).kept :=
    turnOff_tidy (TidyK.refl _)
  exact h

theorem execUnderVoltageLockout_tidy (s : State) : KeepsTidy s (execUnderVoltageLockout s) :=
  doIf_tidy (turnOff_tidy (TidyK.refl _))

theorem execFullResetComplete_tidy (s : State) : KeepsTidy s (execFullResetComplete s) := by
  refine doIf_tidy ?_
  extract_lets t0 t1 t2 sys tap sec t3 t4
  have h0 : TidyK s.kept t0.kept := powerOnState_tidy (TidyK.refl _)
  have h1 : TidyK s.kept t1.kept := foldl_tidy _ _ (fun s f h => by simpa using h) _ h0
  clear_value t1
  simpa [t2, t3, t4] using h1

end Sys2Proof.Machine
end

