-- ==== Sys2Proof/Machine/Pins.lean ====
section
/-! DEFINITION. The levels of the output balls, as the state gives them (R150, R156 to R158, R168, R217, R230, R231, R575 to R577,
Tables 6.3 to 6.5 and 25.5), and the read-only registers of a port's NVMe area (R375, R378, R560, Table 24.2). -/

namespace Sys2Proof.Machine

open R

/-- The safety block holds its outputs: it is tripped, or the state is one in which the outputs have their safety levels (Table 25.5). -/
def State.atSafety (s : State) : Bool := s.sys.tripped || !s.applied

/-- ACT[i] in µV (R156, R157): the safety level of Table 6.4, the retract level of a focus loop that is OFF, else the level of its DAC code.
OFF: not driven. -/
def State.actPin (s : State) (i : Nat) : Option Int :=
  if s.sys.off then none
  else if i % 4 == 0 && (s.atSafety || s.loopState i == lOFF) then some 50000
  else if s.atSafety then some 1500000
  else some (1500000 + s.srv.dac.getD i 0 * 1400000 / 32768)

/-- The line state of write-timing pair `p`: 0 IDLE, 1 PEAK, 2 ERASE, 3 BOTTOM (R158, Table 6.5); within a window it stands as the window
opened, and the pulse trains of R293 move it. OFF: not driven. -/
def State.pairPin (s : State) (p : Nat) : Option Nat :=
  if s.sys.off then none else some (if s.atSafety then 0 else (s.wh (p / 2)).line.getD (p % 2) 0)

/-- OPLn_LON (R168). -/
def State.lonPin (s : State) (h : Nat) : Option Bool :=
  if s.sys.off then none else some (!s.atSafety && s.sys.lsrEn && s.flag (OPU_HSTAT_LON h))

/-- SLD_EN (R230): high while the head is PRESENT, from PRIMED on; held in FROZEN. -/
def State.enPin (s : State) (h : Nat) : Option Bool :=
  if s.sys.off then none else some (s.life != BARE && s.flag (SLD_STAT_EN h))
/-- SLD_DIR (R217, R222). -/
def State.sldDirPin (s : State) (h : Nat) : Option Bool := if s.sys.off then none else some (s.life != BARE && s.dirPin h)

/-- SPN_PWM may drive a switch (R231): not while the safety block is tripped, and only in the phases that drive the bridge. -/
def State.pwmDriven (s : State) : Bool :=
  s.applied && !s.sys.tripped && [pSHORTBRAKE, pALIGN, pOPENLOOP, pRUN, pBRAKING].contains s.spnPhase

/-- LDR_BUSY (R577); in FROZEN it is held as the state before it had it (Table 25.5). -/
def State.ldrBusy (s : State) : Option Bool :=
  let l := if s.life == FROZEN then s.get SYS_STATE_PREV else s.life
  if s.sys.off then none
  else some (s.sys.resetHold == 0 && ([MOUNTING, MOUNTED, PARKING].contains l || ([PRIMED, HALTED].contains l && s.spnPhase != pSTOPPED)))

/-! ### The NVMe area

The spec gives the values; the places of their bits are those of NVMe Base 2.0 (PRESUMED, log entry 209). -/

/-- CAP of a port (R378): none in BARE, where no QUEUES record gives MQES; all zero for a port that QUEUES does not enable (R375), none in
FROZEN (R531). -/
def State.capReg (s : State) (p : Nat) : Option Nat :=
  let q := s.cnv.cfg.queues.getD p {}
  if !s.applied then none
  else if !q.enable then some 0
  else some (q.mqes + 2 ^ 16 + 2 ^ 17 + 40 * 2 ^ 24 + 0x41 * 2 ^ 37)

/-- VS of a port (R378). -/
def State.vsReg (s : State) (p : Nat) : Option Nat :=
  if s.life == FROZEN || s.sys.off then none
  else if s.applied && !(s.cnv.cfg.queues.getD p {}).enable then some 0
  else some 0x00020000

/-- RDY and SHST of CSTS of a port (R46, R375). -/
def State.cstsReg (s : State) (p : Nat) : Option Nat :=
  if s.life == FROZEN || s.sys.off then none
  else some ((s.hst.rdy.getD p false).toNat + 4 * s.hst.shst.getD p 0)

end Sys2Proof.Machine
end

