-- ==== Sys2Proof/Tests/Slice0.lean ====
section
/-! SUPPORT. The model's own tests: the checks of WellFormed, values of the spec's worked examples, and a witness for the hypotheses of every
statement. -/

namespace Sys2Proof.Machine.Tests

set_option linter.unusedVariables false
set_option Elab.async false

open Sys2Proof Sys2Proof.Machine R

/-! ### States the witnesses start from -/

/-- A state of the lifecycle `life`, right after reset in every other respect. -/
def stateIn (life : Nat) : State := (State.reset.put SYS_STATE_STATE life)

/-- The device is OFF. -/
def offState : State := { State.reset with sys := { State.reset.sys with off := true } }

/-- Port `p` holds custody; both ports are enabled, with ready controllers and one entry in the admin queue and in I/O queue 1. -/
def hostState (life p : Nat) : State :=
  { (stateIn life).put HST_CUST_MGMT (p + 1) with
    cnv := { (stateIn life).cnv with cfg := { (stateIn life).cnv.cfg with
      queues := [{ enable := true, vectors := 4, inFlight := 8 }, { enable := true, vectors := 4, inFlight := 8 }] } }
    hst := { (stateIn life).hst with
      en := [true, true], rdy := [true, true]
      sqs := [⟨0, 0, 0, 4, 0, 1, 0⟩, ⟨1, 0, 0, 4, 0, 1, 0⟩, ⟨0, 1, 1, 4, 0, 1, 0⟩, ⟨1, 1, 1, 4, 0, 1, 0⟩] } }

/-- Four heads are present and in service. -/
def withHeads (s : State) : State := forUpTo 4 (fun h s => s.puts [(OPU_HSTAT_ENUM h, ePRESENT), (OPU_HSTAT_INSVC h, 1)]) s
def headState (life : Nat) : State := withHeads (stateIn life)


/-- Four heads whose loops all run, angle-time in progress and indexed, no reference. -/
def runState (life : Nat) : State :=
  { forUpTo 17 (fun l s => s.put (SRV_LSTAT_STATE l) lRUN) ((headState life).put ANG_LOCK_INDEXED 1) with
    ang := { (stateIn life).ang with running := true } }

/-- Head `h` has a transaction in progress. -/
def linkState (h : Nat) : State :=
  (headState MOUNTED).setOpu h fun o => { o with queue := [{ cls := 6, cmd := 0, addr := 0, data := 0, tries := 2 }], busy := true }

/-- An event of a class and owner has just become due. -/
def withDue (c : EvClass) (owner : Nat) (s : State) : State := { s with ang := { s.ang with due := [{ cls := c, owner, target := 0, len := 0 }] } }

/-- A TRID of ring 0 and track `k`. -/
def tridWord (k : Nat) : Word := BitVec.ofNat 32 (k * 8192 + crc8 (bitsMsb 24 (k * 32)))

/-- A codeword of PBA 0 that decodes for nobody in particular. -/
def cwItem0 : CwItem := { head := 0, lane := 0, pba := 0, cwix := 0, kind := 0, wseq := 0 }

/-- A namespace of one zone, 3. -/
def nsOne : Ns := { nsid := 1, attach := 3, nsze := 1024, zones := [3] }

/-- A mounted volume of one namespace, with the stripe `t` open. -/
def volState (t : Stripe) : State :=
  { stateIn MOUNTED with
    hst := { (stateIn MOUNTED).hst with ns := [nsOne] }
    str := { (stateIn MOUNTED).str with stripes := [t], zones := [{ z := 3, owner := 1 }] } }

/-- `hostState MOUNTED 0` with the zoned or conventional namespace 1 of one zone, attached to both ports and in port A's custody. -/
def ioState (zoned : Bool) : State :=
  let s := (hostState MOUNTED 0).puts [(HST_NSCUST_CUST 1, 1), (STR_GEOM_WIDTH, 10), (STR_GEOM_PARITY, 2)]
  { s with hst := { s.hst with ns := [{ nsOne with zoned }], sqs := s.hst.sqs.map fun q => if q.qid == 0 then { q with tail := q.head } else q }
           cnv := { s.cnv with cfg := { s.cnv.cfg with width := 10, parity := 2 } } }

/-- An entry of port A's I/O queue 1 for namespace 1, one block at LBA 0. -/
def ioEntry : IoCmd := ⟨0, 1, 7, 1, 0, 0⟩

/-- Port A holds custody, and the buffer layout has a DIAG region of one 64 KiB unit at 65,536. -/
def diagState : State :=
  let s := hostState MOUNTED 0
  { s with cnv := { s.cnv with cfg := { s.cnv.cfg with regions := [{ id := rDIAG, base := 1, size := 1 }] } } }

/-- Head 0 runs on its planned track 0, with its layer and track read. -/
def landedState : State :=
  ((runState MOUNTED).put (SRV_HSTAT_PHASE 0) hpCAPTURING).setTr 0 fun t => { t with wlidOk := true, tridOk := true, capt := true }

/-- Lane 4 reads spot `i` and stands in REFPAT. -/
def lockState (i : Nat) : State :=
  (((headState MOUNTED).put (CHN_LANEMAP_STATE 4) laneACTIVE).put (CHN_LANEMAP_INPUT 4) i).put ANG_NOW_LO_ANGLE 4096

/-- Head 0's spare is idle and CAL wants row 0 of lane 0. -/
def shadowState : State :=
  let s := forUpTo 28 (fun l s => s.put (CHN_LANEMAP_STATE l) (if l % 7 < 6 then laneACTIVE else laneIDLE)) (stateIn MOUNTED)
  { s with cnv := { cfg := { policy := [3, 3, 3, 3] } }, cal := { s.cal with rows := [8 * (s.headLayer 0 * 32 + s.headBand 0) + s.laneSpot 0] } }

/-- Codeword 3 of block 7 has been read in a window that has closed. -/
def relExpect : Expect := { pba := 7, head := 0, spot := 0, start := 0, left := [3] }
def relState : State := { (headState MOUNTED).setNow (2 * au24) with cwd := { expect := [relExpect] } }

/-- Head 0 stands in the OPC area of layer 1, band 2, with an OPC requested. -/
def opcState : State :=
  { (runState MOUNTED).puts [(SRV_HTRK_GTRK 0, 26022), (SRV_HSTAT_LAYER 0, 1), (SRV_HSTAT_INH 0, 0)] with
    cnv := { cfg := { heads := [{ wspots := 1 }] } }
    wins := [{ cls := .calWin, head := 0, start := 0, stop := 2 * au24 }], wrs := [{ opc := some (1, 2, false) }] }

/-- Block 7 has been written and read back. -/
def verState : State :=
  { stateIn MOUNTED with
    str := { rebuild := [{ stripe := 0, member := 0, running := true, repl := some 7, st := 2 }] }
    wrs := [{ spans := [{ blks := [7] }] }]
    cwd := { out := (List.range 16).map fun k => { tag := 0, x := 0, mem := none, kind := 0, wseq := 9, zero := false, act := 7, pba := 7, cwix := k } } }

/-- Stripe 5 waits for codeword 4 of member 3, which has been decoded. -/
def arrAsm : Asm := { stripe := 5, want := [(3, [4])] }
def arrState : State :=
  { stateIn MOUNTED with
    str := { asm := [arrAsm] }
    cwd := { out := [{ tag := 0, x := 0, mem := some (5, 3), kind := 0, wseq := 9, zero := false, act := 0, cwix := 4 }] } }

/-- Member 2 of stripe 7 has been rebuilt and its replacement verified. -/
def rebOne : Rebuild := { stripe := 7, member := 2, running := true, repl := some ((stateIn MOUNTED).locate 7 2), st := 3 }
def rebState : State := { stateIn MOUNTED with str := { rebuild := [rebOne] } }

/-- Stripe 5 is to be refreshed and has been read as `d` says. -/
def refState (d : List (Nat × List (Nat × List Nat))) : State :=
  { stateIn MOUNTED with
    str := { zones := [{ z := 0, owner := 1, fill := 9 }], dirty := [0], wres := 1 }
    hlt := { refresh := [(3, 5, false)], refData := d } }

/-- Every item of a full calibration of head 1 has ended. -/
def calEnded : List (Nat × Nat × Nat) := (headState MOUNTED).fullItems 1

/-- The MINFO block of side 0 has not come in its time. -/
def minfoState : State :=
  { ((stateIn MOUNTING).put SYS_MNTPROG_STEP 3).setNow (8 * au24) with mnt := { focusAt := [some 0, none] } }

/-- Channel 0 moves 8 bytes from the host to buffer address 65,536. -/
def dmaState : State :=
  (hostState MOUNTED 0).puts [(DMA_STAT_BUSY 0, 1), (DMA_CTRL_DSPACE 0, spBUFFER), (DMA_LEN_LEN 0, 8), (DMA_DST_LO_ADDR 0, 65536)]

/-- The consumer has read the first word of the one packet in FIFO 2. -/
def fifoState (life : Nat) : State := { hostState life 0 with fifos := [{}, {}, { pkts := [[7#32, 8#32]], rd := 1 }] }

/-! ### Ill-formed operands are refused -/

/-- An I/O command of the admin queue. -/
def adminIo : IoCmd := ⟨0, 0, 7, 1, 0, 0⟩

theorem test_wf_image_too_long : Instr.wf (.canvasFetchDone (List.replicate (2 ^ 23) 0) true) = false := by
  simp only [Instr.wf, List.length_replicate]; decide
theorem test_wf_sample_same_head_twice :
    Instr.wf (.servoSample ⟨[⟨1, List.replicate 8 0, 0, []⟩, ⟨1, List.replicate 8 0, 0, []⟩], [], [], 0, 0, 0, 0, 0, []⟩) = false := by decide
theorem test_wf_sample_seven_codes : Instr.wf (.servoSample ⟨[⟨1, List.replicate 7 0, 0, []⟩], [], [], 0, 0, 0, 0, 0, []⟩) = false := by decide
theorem test_wf_sample_nine_periods :
    Instr.wf (.servoSample ⟨[⟨1, List.replicate 8 0, 0, List.replicate 9 0⟩], [], [], 0, 0, 0, 0, 0, []⟩) = false := by decide
theorem test_wf_sample_same_lane_twice :
    Instr.wf (.servoSample ⟨[], [⟨3, 0, 0, 0, [], [], [], 0⟩, ⟨3, 1, 0, 0, [], [], [], 0⟩], [], 0, 0, 0, 0, 0, []⟩) = false := by decide
theorem test_wf_sample_same_bit_twice :
    Instr.wf (.servoSample ⟨[], [], [⟨0, 5, List.replicate 6 [], List.replicate 6 []⟩, ⟨0, 5, List.replicate 6 [], List.replicate 6 []⟩], 0, 0, 0, 0, 0, []⟩) =
      false := by decide
theorem test_wf_sample_five_tracks :
    Instr.wf (.servoSample ⟨[], [], [⟨0, 5, List.replicate 5 [], List.replicate 6 []⟩], 0, 0, 0, 0, 0, []⟩) = false := by decide
theorem test_wf_sample_accepts :
    Instr.wf (.servoSample ⟨[⟨1, List.replicate 8 0, 0, [3]⟩], [⟨3, 0, 0, 0, [], [], [], 0⟩], [⟨0, 5, List.replicate 6 [], List.replicate 6 []⟩], 0, 0, 0, 0, 0, []⟩) =
      true := by decide
theorem test_wf_window_same_layer_twice :
    Instr.wf (.measurementWindowEnd ⟨0, [⟨9, List.replicate 55 0, 0⟩, ⟨9, List.replicate 55 0, 0⟩]⟩) = false := by decide
theorem test_wf_window_coefficients : Instr.wf (.measurementWindowEnd ⟨0, [⟨9, List.replicate 54 0, 0⟩]⟩) = false := by decide
theorem test_wf_trid_spots : Instr.wf (.tridDecoded 0 [none]) = false := by decide
theorem test_wf_codeword_bits : Instr.wf (.codewordRelease 0 0 (List.replicate 40221 0)) = false := by
  simp only [Instr.wf, List.length_replicate]; decide
theorem test_wf_decoded_bits : Instr.wf (.decodeComplete 0 (2 ^ 37632) true 1) = false := by
  simp only [Instr.wf, Nat.lt_irrefl, decide_false]
theorem test_wf_eye_phases : Instr.wf (.eyeSweepDone (List.replicate 63 0)) = false := by decide
theorem test_wf_die_codes : Instr.wf (.dieConversionDone (List.replicate 15 0) 0) = false := by decide
theorem test_wf_no_rates : Instr.wf (.refreshRatePoll []) = false := by decide
theorem test_wf_block_symbol_twice : Instr.wf (.fifDataRead 0 0 { cells := [(3, 1), (3, 2)] }) = false := by decide
theorem test_wf_block_no_error : Instr.wf (.eqReload 0 0 { cells := [(3, 0)] }) = false := by decide
theorem test_wf_page_block : Instr.wf (.mapDemandLoad 1 0 { cells := [(3, 0)] }) = false := by decide
theorem test_wf_window_block : Instr.wf (.windowOpen 0 0 [] [{ cells := [(3, 0)] }]) = false := by decide
theorem test_wf_member_block : Instr.wf (.memberArrival 0 0 0 [] [{ cells := [(3, 0)] }]) = false := by decide
theorem test_wf_scrub_block : Instr.wf (.scrubSlot [{ cells := [(3, 0)] }]) = false := by decide
theorem test_wf_bar2_no_bytes : Instr.wf (.bar2Write 0 0 [] 0 [] []) = false := by decide
theorem test_wf_bar2_past_top : Instr.wf (.bar2Write 0 0xFFFFFFFF [0, 0] 0 [] []) = false := by decide
theorem test_wf_dma_no_bytes : Instr.wf (.dmaReadCompletion 0 0 [] 0) = false := by decide
theorem test_wf_dma_part_word : Instr.wf (.dmaReadCompletion 0 6 [] 0) = false := by decide
theorem test_wf_offset_past_window : Instr.wf (.registerWrite 0 0x2000000 0 true 0 false) = false := by decide
theorem test_wf_no_ranges : Instr.wf (.datasetManagement ioEntry true []) = false := by decide
theorem test_wf_too_many_ranges : Instr.wf (.datasetManagement ioEntry true (List.replicate 257 (0, 1))) = false := by decide +kernel
theorem test_wf_write_data : Instr.wf (.write ioEntry [] []) = false := by decide
theorem test_wf_admin_queue : Instr.wf (.flush adminIo) = false := by decide
theorem test_wf_accepts : Instr.wf (.read ioEntry false [{ cells := [(0, 1)] }]) = true := by decide

/-! ### Values of the spec's worked examples -/

/-- The example of chapter 2: SNR_w = 100 with BW 8 gives CRB 65 and SNR 5,120. -/
theorem test_example_crb : crbFigure 8 100 1 = 65 ∧ dbFigure 100 1 = 5120 := by decide +kernel
/-- The example of chapter 8: SUMGAIN 2,000,000, a mean SUM of 0.5 V, ENB 100 kHz and A_pp 0.25 give 1,025. -/
theorem test_example_floor :
    floorFigure ((stateIn MOUNTED).puts [(SRV_TPP_APP 0, 16384), (SRV_TFG_SUMGAIN 0, 2000000), (SRV_TENB_ENB 0, 100)]) 0 65536 (65536 * 16384) =
      1025 := by
  decide +kernel
/-- The example of the SPEEDREF input: 62.0% decodes to 5,850 rpm. -/
theorem test_example_speedref : speedRef 1 (some 620000) = some 5850 := by decide +kernel
/-- The example of the OPC: the powers around 1,200 and the new PEAK 1,277 with its ERASE and BOTTOM. -/
theorem test_example_opc :
    opcPowers 1200 = [990, 1050, 1110, 1170, 1230, 1290, 1350, 1410] ∧
    opcJudge 1200 false [2410, 1205, 610, 388, 352, 455, 790, 1520] true 1200 5000 64 269 = .ok 1277 ∧
    (stateIn MOUNTED).ratios 1277 = [1277, 479, 120] := by decide +kernel
/-- The example of chapter 13: SW 300 and ITER 6 give 179, SW 900 and ITER 12 give 56. -/
theorem test_example_margin : cwMargin (stateIn MOUNTED) cCLEAN 300 6 = 179 ∧ cwMargin (stateIn MOUNTED) cCORR 900 12 = 56 := by decide +kernel
/-- The example of the calibration of layer 30: the SA sweep ends at −7,120, the tilt sweep, repeated, at −312.5. -/
theorem test_example_calibration :
    calSweep (-7160) 200 [3410, 3540, 3620, 3655, 3640, 3570, 3460] [] = some (-712000, 100) ∧
    calSweep 625 500 [3700, 3690, 3650, 3560, 3400] [3560, 3680, 3705, 3690, 3650] = some (-25000, 80) := by decide +kernel
/-- The example of custody arbitration: A keeps what it holds and B becomes the loser; B keeps what it holds; without a custodian
the loser B wins. -/
theorem test_example_custody : arbWinner 1 0 1 2 = (1, 2) ∧ (arbWinner 2 2 1 2).1 = 2 ∧ arbWinner 0 2 1 2 = (2, 1) := by decide +kernel
/-- The example of the governor: 256, 192 and the floor 52 at 95.0, 97.5 and 103.4 °C. -/
theorem test_example_duty : dutyOf 10 20 1520 1520 = 256 ∧ dutyOf 10 20 1520 1560 = 192 ∧ dutyOf 10 20 1520 1654 = 52 := by decide +kernel
/-- The example of the governor's stop: at 110.0 °C and 1.6 °C/s an orderly stop with cause 0x21, at 2.2 °C/s a safe stop with 0x30. -/
theorem test_example_heat :
    ((heatStops 1760 26 (stateIn MOUNTED)).sys.held.map fun t => (t.kind, t.cause)) = [(.orderlyStop, 0x21)] ∧
    ((heatStops 1760 36 (stateIn MOUNTED)).sys.held.map fun t => (t.kind, t.cause)) = [(.safeStop, 0x30)] := by decide +kernel
/-- The example of chapter 20: the four words that decoder 5's failed syndrome writes to FLT_LOG. -/
theorem test_example_fault_log :
    ((logFlt 10 kBYPASS 0x01 5 [1] ((stateIn MOUNTED).setNow 0x001234456789)).fifo 2).pkts =
      [[0x4A310105#32, 0x81456789#32, 0x82001234#32, 0x83000001#32]] := by decide +kernel
/-- The example of chapter 12: members 3 and 10 of zone 990 lie in data chunks 181 and 741. -/
theorem test_example_placement : (place 0 16 1120 990 3).2 = 181 ∧ (place 0 16 1120 990 10).2 = 741 ∧ zonesZ 16 1120 = 3360 := by decide +kernel

/-! ### Hypotheses of the statements, met -/

theorem witness_SupplyLevelEvents_0 : ∃ (s : State), (s.sys.off = true) ∧ (s.sys.regFault = false) :=
  ⟨offState, by decide +kernel⟩

theorem witness_SupplyLevelEvents_1 : ∃ (s : State), (s.sys.off = true) ∧ (s.sys.regFault = true) :=
  ⟨{ offState with sys := { offState.sys with regFault := true } }, by decide +kernel⟩

theorem witness_SupplyLevelEvents_2 : ∃ (s : State), (s.on = true) ∧ (s.sys.holdUp = false) :=
  ⟨stateIn MOUNTED, by decide +kernel⟩

theorem witness_SupplyLevelEvents_3 : ∃ (s : State), (s.on = true) ∧ (s.sys.brownOut = false) :=
  ⟨stateIn MOUNTED, by decide +kernel⟩

theorem witness_SupplyLevelEvents_4 : ∃ (s : State), (s.on = true) ∧ (s.sys.holdUp = false) ∧ (s.sys.brownOut = false) ∧ (s.sys.parkHeld = true) :=
  ⟨{ stateIn PARKING with sys := { (stateIn PARKING).sys with parkHeld := true } }, by decide +kernel⟩

theorem witness_SupplyLevelEvents_5 : ∃ (mv : BitVec 16) (s : State), (s.on = true) ∧ (mv.toNat < 10600) :=
  ⟨9000#16, stateIn MOUNTED, by decide +kernel⟩

theorem witness_SupplyLevelEvents_6 : ∃ (mv : BitVec 16) (s : State), (s.on = true) ∧ (10600 ≤ mv.toNat) :=
  ⟨12000#16, stateIn MOUNTED, by decide +kernel⟩

theorem witness_PortEvents_0 : ∃ (p : Port) (width : Fin 8) (speed : Fin 16) (s : State), (s.on = true) ∧ (s.flag (HST_PORT_UP p) = false) ∧ ([1, 2, 4].contains width.val = true) ∧ (1 ≤ speed.val) ∧ (speed.val ≤ 4) :=
  ⟨1, 4, 4, stateIn BARE, by decide +kernel⟩

theorem witness_PortEvents_1 : ∃ (p : Port) (ltssm : BitVec 24) (s : State), (s.on = true) ∧ (s.flag (HST_PORT_UP p) = true) :=
  ⟨0, 0#24, (stateIn MOUNTED).put (HST_PORT_UP 0) 1, by decide +kernel⟩

theorem witness_PortEvents_2 : ∃ (p : Port) (s : State), (s.on = true) :=
  ⟨0, stateIn BARE, by decide +kernel⟩

theorem witness_PortEvents_3 : ∃ (p : Port) (s : State), (s.on = true) :=
  ⟨1, stateIn HALTED, by decide +kernel⟩

theorem witness_PortEvents_4 : ∃ (p : Port) (s : State), (s.on = true) ∧ (s.hst.en.getD p false = true) :=
  ⟨1, hostState MOUNTED 1, by decide +kernel⟩

theorem witness_PortEvents_5 : ∃ (p : Port) (asqs : Fin 4096) (acqs : Fin 4096) (wrr : Bool) (s : State), (s.on = true) ∧ (s.hst.en.getD p false = false) :=
  ⟨0, 4095, 0, true, stateIn PRIMED, by decide +kernel⟩

theorem witness_PortEvents_6 : ∃ (p : Port) (s : State), (s.on = true) ∧ (s.hst.rdy.getD p false = true) ∧ (s.hst.shst.getD p 0 = 0) :=
  ⟨1, hostState MOUNTED 1, by decide +kernel⟩

theorem witness_PortEvents_7 : ∃ (p : Port) (s : State), (s.applied = true) ∧ ((!s.flag (HST_PORT_UP p) || (s.hst.wasEn.getD p false && !s.hst.en.getD p false)) = true) :=
  ⟨0, hostState MOUNTED 0, by decide +kernel⟩

theorem witness_LaserPermitAndCartridgePins_0 : ∃ (s : State), (s.sys.lsrEn = true) ∧ (s.on = true) :=
  ⟨stateIn MOUNTED, by decide +kernel⟩

theorem witness_LaserPermitAndCartridgePins_1 : ∃ (s : State), (s.sys.lsrEn = false) ∧ (s.on = true) :=
  ⟨{ stateIn MOUNTED with sys := { (stateIn MOUNTED).sys with lsrEn := false } }, by decide +kernel⟩

theorem witness_LaserPermitAndCartridgePins_3 : ∃ (s : State), (s.inLife [MOUNTING, MOUNTED, PARKING] = true) :=
  ⟨stateIn PARKING, by decide +kernel⟩

theorem witness_LaserPermitAndCartridgePins_4 : ∃ (h : Head) (s : State), (s.applied = true) ∧ (s.present h = true) ∧ (s.inSvc h = true) ∧ (s.get (OPU_HSTAT_LASERON h) ≠ 0) ∧ ((64 ≤ (s.opuHead h).lpBad || (s.opuHead h).lpCode == 32767) = true) :=
  ⟨3, ((headState MOUNTED).put (OPU_HSTAT_LASERON 3) 1).setOpu 3 fun o => { o with lpCode := 32767 }, by decide +kernel⟩

theorem witness_LaserPermitAndCartridgePins_5 : ∃ (s : State), (s.inLife [MOUNTING, MOUNTED] = true) ∧ (s.sys.stagLeft ≠ []) ∧ (s.stagFree = true) :=
  ⟨{ (headState MOUNTED).setNow 1048576 with sys := { (headState MOUNTED).sys with stagLeft := [3] } }, by decide +kernel⟩

theorem witness_StopsResumeAndTriggers_0 : ∃ (p : Port) (v : Word) (s : State), (s.reaches p false = true) ∧ (v.toNat.testBit 0 = false) ∧ (s.inLife [PRIMED, MOUNTING, MOUNTED, PARKING] = true) :=
  ⟨0, 2#32, hostState MOUNTED 0, by decide +kernel⟩

theorem witness_StopsResumeAndTriggers_1 : ∃ (p : Port) (v : Word) (s : State), (s.reaches p false = true) ∧ (v.toNat.testBit 1 = false) ∧ (s.life = HALTED) ∧ (s.haltCleared = true) ∧ (s.sys.lsrEn = true) :=
  ⟨1, 1#32, (hostState HALTED 1).put SYS_STATE_CAUSE 0x35, by decide +kernel⟩

theorem witness_StopsResumeAndTriggers_2 : ∃ (s : State) (t : Trigger), (s.applied = true) ∧ (bestTrigger s.sys.held = some t) :=
  ⟨hold { kind := .safeStop, cause := 0x35 } (stateIn MOUNTED), { kind := .safeStop, cause := 0x35 }, by decide +kernel⟩

theorem witness_StopsResumeAndTriggers_3 : ∃ (s : State), (s.parked = true) ∧ (s.get SYS_STATE_CAUSE = 0x20) :=
  ⟨((stateIn PARKING).put SYS_STATE_CAUSE 0x20).put SYS_MNTPROG_STEP 0xC, by decide +kernel⟩

theorem witness_StopsResumeAndTriggers_4 : ∃ (s : State), (s.parked = true) ∧ (s.get SYS_STATE_CAUSE = 0x22) :=
  ⟨(stateIn PARKING).put SYS_STATE_CAUSE 0x22, by decide +kernel⟩

theorem witness_CanvasCommandsAndPhases_0 : ∃ (p : Port) (v : Word) (s : State), (s.reaches p true = true) :=
  ⟨0, 1#32, hostState BARE 0, by decide +kernel⟩

theorem witness_CanvasCommandsAndPhases_1 : ∃ (p : Port) (v : Word) (s : State), (s.reaches p true = true) :=
  ⟨1, 2#32, hostState BARE 1, by decide +kernel⟩

theorem witness_CanvasCommandsAndPhases_2 : ∃ (p : Port) (v : Word) (s : State), (s.reaches p true = true) :=
  ⟨0, 4#32, hostState BARE 0, by decide +kernel⟩

theorem witness_CanvasCommandsAndPhases_3 : ∃ (image : List Byte) (ok : Bool) (s : State), (s.on = true) ∧ (s.cnvPhase = cLOADING) ∧ (ok = true) ∧ (image.length = s.cnv.fetchLen) :=
  ⟨[1, 2], true, { (stateIn BARE).put CNV_STATUS_PHASE cLOADING with cnv := { (stateIn BARE).cnv with fetchLen := 2 } }, by decide +kernel⟩

theorem witness_CanvasCommandsAndPhases_4 : ∃ (image : List Byte) (ok : Bool) (s : State), (s.on = true) ∧ (s.cnvPhase = cLOADING) ∧ (ok = false) :=
  ⟨[], false, (stateIn BARE).put CNV_STATUS_PHASE cLOADING, by decide +kernel⟩

theorem witness_CanvasCommandsAndPhases_5 : ∃ (us : Nat) (s : State), (s.on = true) ∧ (s.cnvPhase = cVALIDATING) ∧ (s.cnv.training = false) :=
  ⟨700, (stateIn BARE).put CNV_STATUS_PHASE cVALIDATING, by decide +kernel⟩

theorem witness_CanvasCommandsAndPhases_6 : ∃ (trained : Fin 16) (gib : Nat) (us : Nat) (s : State), (s.on = true) ∧ (s.cnvPhase = cVALIDATING) ∧ (s.cnv.training = true) :=
  ⟨7, 8, 20, { (stateIn BARE).put CNV_STATUS_PHASE cVALIDATING with cnv := { (stateIn BARE).cnv with training := true } }, by decide +kernel⟩

theorem witness_CanvasCommandsAndPhases_7 : ∃ (us : Nat) (s : State), (s.on = true) ∧ (s.cnvPhase = cCOMMITTING) :=
  ⟨12, (stateIn BARE).put CNV_STATUS_PHASE cCOMMITTING, by decide +kernel⟩

theorem witness_PowerOnAndFullReset_0 : ∃ (s : State), (s.sys.off = true) ∧ (s.sys.regWait = true) :=
  ⟨{ offState with sys := { offState.sys with regWait := true } }, by decide +kernel⟩

theorem witness_PowerOnAndFullReset_1 : ∃ (s : State), (s.sys.resetHold ≠ 0) ∧ (s.sys.off = false) :=
  ⟨{ stateIn MOUNTED with sys := { (stateIn MOUNTED).sys with resetHold := 3 } }, by decide +kernel⟩

theorem witness_PowerOnAndFullReset_2 : ∃ (r : Fin 6) (s : State), (s.sys.off = false) :=
  ⟨5, stateIn MOUNTED, by decide +kernel⟩

theorem witness_PowerOnAndFullReset_3 : ∃ (s : State), (s.sys.off = false) :=
  ⟨stateIn MOUNTED, by decide +kernel⟩

theorem witness_PowerOnAndFullReset_4 : ∃ (p : Port) (v : Word) (s : State), (s.reaches p false = true) ∧ (v.toNat / 65536 = 0x9648) ∧ (v.toNat.testBit 0 = true) :=
  ⟨1, 0x96480001#32, hostState MOUNTED 1, by decide +kernel⟩

theorem witness_PowerOnAndFullReset_5 : ∃ (s : State), (s.on = true) :=
  ⟨stateIn MOUNTED, by decide +kernel⟩

theorem witness_PickupLinkEvents_0 : ∃ (h : Head) (resp : Word) (s : State), (s.on = true) ∧ ((s.opuHead h).busy = true) :=
  ⟨2, 0x60000000#32, linkState 2, by decide +kernel⟩

theorem witness_PickupLinkEvents_1 : ∃ (h : Head) (s : State), (s.on = true) ∧ ((s.opuHead h).busy = true) :=
  ⟨1, linkState 1, by decide +kernel⟩

theorem witness_PickupLinkEvents_2 : ∃ (h : Head) (s : State), (s.on = true) ∧ ((s.opuHead h).busy = true) ∧ ((s.opuHead h).queue.any fun x => x.tries = 2) :=
  ⟨0, linkState 0, by decide +kernel⟩

theorem witness_PickupLinkEvents_3 : ∃ (h : Head) (s : State), (s.on = true) ∧ ((s.opuHead h).enumStep = 1) ∧ ((s.opuHead h).busy = false) :=
  ⟨3, (headState PRIMED).setOpu 3 fun o => { o with enumStep := 1 }, by decide +kernel⟩

theorem witness_PickupLinkEvents_4 : ∃ (h : Head) (s : State), (s.on = true) ∧ ((s.opuHead h).enumStep = 1) :=
  ⟨3, (headState PRIMED).setOpu 3 fun o => { o with enumStep := 1 }, by decide +kernel⟩

theorem witness_PickupLinkEvents_5 : ∃ (h : Head) (s : State), (s.applied = true) ∧ (s.present h = true) ∧ (s.enumerating h = false) ∧ ((s.opuHead h).queue = []) :=
  ⟨0, headState MOUNTED, by decide +kernel⟩

theorem witness_PickupLinkEvents_6 : ∃ (h : Head) (s : State), (s.applied = true) ∧ ((s.opuHead h).tempWait = true) :=
  ⟨1, (headState MOUNTED).setOpu 1 fun o => { o with tempWait := true }, by decide +kernel⟩

theorem witness_PickupLinkEvents_7 : ∃ (p : Port) (h : Head) (v : Word) (s : State), (s.reaches p false = true) :=
  ⟨0, 2, 0#32, hostState PRIMED 0, by decide +kernel⟩

theorem witness_PickupLinkEvents_8 : ∃ (p : Port) (h : Head) (v : Word) (s : State), (s.reaches p false = true) :=
  ⟨1, 3, 1#32, hostState MOUNTED 1, by decide +kernel⟩

theorem witness_ControlLoopEvents_0 : ∃ (i : SampleIn) (s : State), (s.applied = true) ∧ (s.ang.running = true) ∧ (s.ang.sampleDue = true) ∧ (s.turn rkSAMPLE = true) :=
  ⟨⟨[], [], [], 0, 0, 0, 0, 0, []⟩, { runState MOUNTED with ang := { (runState MOUNTED).ang with sampleDue := true } }, by decide +kernel⟩

theorem witness_ControlLoopEvents_1 : ∃ (l : Loop) (s : State), (s.applied = true) ∧ (s.loopState l = lRUN) ∧ ((s.loopDesc l).supn ≤ s.get (SRV_LSTAT_OOB l)) :=
  ⟨4, (runState MOUNTED).put (SRV_LSTAT_OOB 4) 255, by decide +kernel⟩

theorem witness_ControlLoopEvents_2 : ∃ (l : Loop) (s : State), (s.applied = true) ∧ (s.loopState l = lHOLD) ∧ ((s.loopDesc l).supm ≤ s.get (SRV_LSTAT_OOB l)) :=
  ⟨16, ((runState MOUNTED).put (SRV_LSTAT_STATE 16) lHOLD).put (SRV_LSTAT_OOB 16) 255, by decide +kernel⟩

theorem witness_ControlLoopEvents_3 : ∃ (l : Loop) (s : State), (s.applied = true) ∧ (s.loopState l = lHOLD) ∧ ((s.loopDesc l).holdmax ≤ (s.loop l).heldN) :=
  ⟨0, ((runState MOUNTED).put (SRV_LSTAT_STATE 0) lHOLD).setLoop 0 fun x => { x with heldN := 65535 }, by decide +kernel⟩

theorem witness_ControlLoopEvents_4 : ∃ (p : Port) (v : Word) (s : State), (s.reaches p false = true) :=
  ⟨0, 4#32, hostState MOUNTED 0, by decide +kernel⟩

theorem witness_ControlLoopEvents_5 : ∃ (p : Port) (v : Word) (s : State), (s.reaches p false = true) :=
  ⟨1, 8#32, hostState MOUNTED 1, by decide +kernel⟩

theorem witness_ControlLoopEvents_6 : ∃ (u : MUnit) (pass : Bool) (s : State), (s.applied = true) ∧ (s.srv.restoring.contains u.val = true) :=
  ⟨2, true, { stateIn MOUNTED with srv := { (stateIn MOUNTED).srv with restoring := [2] } }, by decide +kernel⟩

theorem witness_ControlLoopEvents_7 : ∃ (s : State), (s.applied = true) ∧ (bandFor (s.get SRV_SPB_BAND) (s.get SPN_MEAS_RPM) ≠ s.get SRV_SPB_BAND) :=
  ⟨(stateIn MOUNTED).put SPN_MEAS_RPM 131072, by decide +kernel⟩

theorem witness_AngleSources_0 : ∃ (s : State), (s.on = true) ∧ (s.ang.running = true) :=
  ⟨runState MOUNTED, by decide +kernel⟩

theorem witness_AngleSources_1 : ∃ (h : Head) (s : State), (s.on = true) ∧ (s.ang.running = true) ∧ (s.present h = true) ∧ ((passed s.now (s.nextWedge h) || s.beforeTick (s.nextWedge h)) = true) :=
  ⟨1, (runState MOUNTED).setNow ((runState MOUNTED).nextWedge 1), by decide +kernel⟩

theorem witness_AngleSources_2 : ∃ (h : Head) (wedge : Fin 64) (word : BitVec 24) (rate : BitVec 24) (rev : BitVec 24) (s : State), (s.applied = true) ∧ (s.inFocus h = true) :=
  ⟨2, 63, 0xFC0001#24, 700#24, 699#24, (runState MOUNTED).put (SRV_HSTAT_PHASE 2) hpON_TRACK, by decide +kernel⟩

theorem witness_AngleSources_3 : ∃ (h : Head) (s : State), (s.applied = true) ∧ (s.ang.running = true) ∧ (s.src < srcMARK) ∧ (s.inFocus h = true) ∧ (2 ≤ (s.tr h).marks) :=
  ⟨0, ((runState MOUNTED).put (SRV_HSTAT_PHASE 0) hpON_TRACK).setTr 0 fun t => { t with marks := 2 }, by decide +kernel⟩

theorem witness_AngleSources_4 : ∃ (s : State), (s.applied = true) ∧ (s.flag ANG_LOCK_SLEW = true) ∧ (s.slewLeft ≤ 256) :=
  ⟨(runState MOUNTED).put ANG_LOCK_SLEW 1, by decide +kernel⟩

theorem witness_AngleSources_5 : ∃ (s : State), (s.applied = true) ∧ (s.src = srcMARK) ∧ ((s.markHeads.all fun h => 2 ≤ (s.tr h).missed || 2 ≤ (s.tr h).mismatched) = true) :=
  ⟨((forUpTo 4 (fun h s => s.setTr h fun t => { t with missed := 2 }) (runState MOUNTED)).put ANG_LOCK_SRC srcMARK).put (SRV_HSTAT_PHASE 0) hpON_TRACK, by decide +kernel⟩

theorem witness_AngleSources_6 : ∃ (rate : BitVec 24) (s : State), (s.applied = true) ∧ (s.src = srcFREE) ∧ (600 * 16 < s.rpm16) :=
  ⟨900#24, (runState MOUNTED).put SPN_MEAS_RPM 16000, by decide +kernel⟩

theorem witness_AngleSources_7 : ∃ (s : State), (s.applied = true) ∧ (s.src = srcCOARSE) ∧ (s.rpm16 < 450 * 16) :=
  ⟨((runState MOUNTED).put SPN_MEAS_RPM 100).put ANG_LOCK_SRC srcCOARSE, by decide +kernel⟩

theorem witness_WobbleAlarmAndWindows_0 : ∃ (e : Int) (rate : BitVec 24) (s : State), (s.applied = true) ∧ (s.src < srcWOBBLE) ∧ (s.flag ANG_LOCK_INDEXED = true) ∧ (s.get ANG_LOCK_CAND ≠ 0) ∧ (s.get ANG_PLL_LOCKN ≤ (s.tr s.refHead).wobIn) :=
  ⟨-3, 800#24, ((runState MOUNTED).put ANG_LOCK_CAND 6).setTr 1 fun t => { t with wobIn := 65535 }, by decide +kernel⟩

theorem witness_WobbleAlarmAndWindows_1 : ∃ (s : State), (s.applied = true) ∧ (s.src = srcWOBBLE) ∧ ((!s.bit ANG_LOCK_CAND s.refHead || s.get ANG_PLL_LOSSN ≤ (s.tr s.refHead).wobOut) = true) :=
  ⟨(runState MOUNTED).put ANG_LOCK_SRC srcWOBBLE, by decide +kernel⟩

theorem witness_WobbleAlarmAndWindows_2 : ∃ (s : State), (s.applied = true) ∧ (s.src = srcWOBBLE) ∧ (s.bit ANG_LOCK_CAND (s.get ANG_LOCK_REF) = false) ∧ (s.get ANG_LOCK_CAND ≠ 0) :=
  ⟨((runState MOUNTED).put ANG_LOCK_SRC srcWOBBLE).put ANG_LOCK_CAND 2, by decide +kernel⟩

theorem witness_WobbleAlarmAndWindows_3 : ∃ (s : State), (s.applied = true) ∧ (s.flag ANG_LOCK_RAMP = true) ∧ (4096 ≤ s.spn.settleN) :=
  ⟨let s := (runState MOUNTED).put ANG_LOCK_RAMP 1; { s with spn := { s.spn with settleN := 4096 } }, by decide +kernel⟩

theorem witness_WobbleAlarmAndWindows_4 : ∃ (p : Port) (v : Word) (s : State), (s.reaches p true = true) :=
  ⟨0, 5#32, hostState MOUNTED 0, by decide +kernel⟩

theorem witness_WobbleAlarmAndWindows_5 : ∃ (s : State) (a : Nat), (s.alarmTarget = some a) ∧ (s.on = true) ∧ (s.ang.running = true) ∧ (s.beforeTick a = true) :=
  ⟨{ runState MOUNTED with ang := { (runState MOUNTED).ang with pend := [{ cls := .alarm, owner := 0, target := 100, len := 0 }] } }, 100, by decide +kernel⟩

theorem witness_WobbleAlarmAndWindows_6 : ∃ (m : WinMeas) (s : State), (s.applied = true) ∧ (s.ang.running = true) ∧ (passed s.now (s.ang.winAt + 16 * au24) = true) :=
  ⟨⟨0, []⟩, (runState MOUNTED).setNow (16 * au24), by decide +kernel⟩

theorem witness_SketchCommands_0 : ∃ (p : Port) (v : Word) (s : State), (s.reaches p false = true) :=
  ⟨0, 7#32, hostState MOUNTED 0, by decide +kernel⟩

theorem witness_SketchCommands_1 : ∃ (p : Port) (v : Word) (s : State), (s.reaches p false = true) :=
  ⟨1, 2#32, hostState MOUNTED 1, by decide +kernel⟩

theorem witness_SketchCommands_2 : ∃ (p : Port) (v : Word) (s : State), (s.reaches p false = true) :=
  ⟨0, 1#32, hostState PRIMED 0, by decide +kernel⟩

theorem witness_SketchCommands_3 : ∃ (p : Port) (v : Word) (s : State), (s.reaches p false = true) :=
  ⟨0, 0#32, hostState MOUNTED 0, by decide +kernel⟩

theorem witness_SketchCommands_4 : ∃ (s : State), (s.applied = true) ∧ (s.get SKT_STATUS_PHASE = skDISTRIBUTING) :=
  ⟨(stateIn MOUNTED).put SKT_STATUS_PHASE skDISTRIBUTING, by decide +kernel⟩

theorem witness_SketchCommands_5 : ∃ (s : State), (s.applied = true) ∧ (s.get SKT_STATUS_PHASE = skWAITING) ∧ (passed s.now ((s.skt.target + au48 - strobeAu) % au48) = true) :=
  ⟨(stateIn MOUNTED).put SKT_STATUS_PHASE skWAITING, by decide +kernel⟩

theorem witness_SketchCommands_6 : ∃ (s : State) (t : State) (e : Ev), (takeDue .varnish 0 s = some (e, t)) ∧ (s.applied = true) ∧ (s.armed = true) :=
  ⟨withDue .varnish 0 ((stateIn MOUNTED).put SKT_STATUS_PHASE skWAITING), (stateIn MOUNTED).put SKT_STATUS_PHASE skWAITING, { cls := .varnish, owner := 0, target := 0, len := 0 }, by decide +kernel⟩

theorem witness_FocusAndJumps_0 : ∃ (h : Head) (s : State), (s.headUp h = true) ∧ (s.effective h = true) ∧ (s.get (SRV_HSTAT_PHASE h) = hpRETRACTED) ∧ (s.get (OPU_HSTAT_LASERON h) ≠ 0) ∧ (s.lpPassed h = true) ∧ ((s.tr h).sweepAt.isNone = true) :=
  ⟨1, (((runState MOUNTED).put SYS_MODE_ST_EFFH 15).put (OPU_HSTAT_LASERON 1) 1).setOpu 1 fun o => { o with lpGood := 64 }, by decide +kernel⟩

theorem witness_FocusAndJumps_1 : ∃ (h : Head) (s : State), (s.headUp h = true) ∧ (s.get SRV_JUMP_FSETN ≤ (s.tr h).settle) ∧ (s.part h = hpFOCUSED) :=
  ⟨2, ((runState MOUNTED).put (SRV_HSTAT_PHASE 2) hpFOCUSED).setTr 2 fun t => { t with settle := 65535 }, by decide +kernel⟩

theorem witness_FocusAndJumps_2 : ∃ (h : Head) (s : State), (s.headUp h = true) ∧ (s.get SRV_JUMP_FSETN ≤ (s.tr h).settle) ∧ (s.part h = hpLJUMP) ∧ (s.loopState (4 * h) = lRUN) ∧ (64 ≤ (s.tr h).saOk) :=
  ⟨0, ((runState MOUNTED).put (SRV_HSTAT_PHASE 0) hpLJUMP).setTr 0 fun t => { t with saOk := 64, settle := 65535 }, by decide +kernel⟩

theorem witness_FocusAndJumps_3 : ∃ (h : Head) (s : State), (s.headUp h = true) ∧ (s.get (SRV_HSTAT_PHASE h) ≠ hpRECOVERING) ∧ (s.focusFails h = true) :=
  ⟨3, ((runState MOUNTING).put (SRV_HSTAT_PHASE 3) hpFOCUSING).put (SRV_LSTAT_STATE 12) lFAIL, by decide +kernel⟩

theorem witness_FocusAndJumps_4 : ∃ (h : Head) (land : Bool) (s : State), (s.headUp h = true) ∧ (s.part h = hpCAPTURING) ∧ (s.tracking h = false) ∧ ((s.tr h).crossNow = true) ∧ ((s.tr h).crossGap.any fun d => s.get SRV_TCAP_CAPT * s.get SPN_MEAS_RPM * au24 ≤ d * 960000000) ∧ (land.toNat = onLand (s.tr h).planG) :=
  ⟨1, false, ((((runState MOUNTED).put (SRV_HSTAT_PHASE 1) hpCAPTURING).put (SRV_LSTAT_STATE 5) lOPEN).setTr 1 fun t => { t with crossNow := true, crossGap := some 100000 }), by decide +kernel⟩

theorem witness_FocusAndJumps_5 : ∃ (h : Head) (k : Int) (s : State) (r0 : Ev) (t : State), (takeDue .seek h s = some (r0, t)) ∧ (s.headUp h = true) ∧ ((let fresh := t.part h == hpON_TRACK; (fresh || ((t.part h == hpCAPTURING || t.part h == hpTJUMP) && t.tracking h)) = true)) ∧ ((let fresh := t.part h == hpON_TRACK; let k := if fresh then k else max (-12) (min 12 (t.trackMiss h)); 1 ≤ k.natAbs)) ∧ ((let fresh := t.part h == hpON_TRACK; let k := if fresh then k else max (-12) (min 12 (t.trackMiss h)); k.natAbs ≤ 12)) :=
  ⟨1, -12, withDue .seek 1 ((runState MOUNTED).put (SRV_HSTAT_PHASE 1) hpON_TRACK), { cls := .seek, owner := 1, target := 0, len := 0 }, (runState MOUNTED).put (SRV_HSTAT_PHASE 1) hpON_TRACK, by decide +kernel⟩

theorem witness_FocusAndJumps_6 : ∃ (h : Head) (s : State), (s.headUp h = true) ∧ (s.part h = hpTJUMP) ∧ (s.tracking h = false) :=
  ⟨2, ((runState MOUNTED).put (SRV_HSTAT_PHASE 2) hpTJUMP).put (SRV_LSTAT_STATE 9) lOPEN, by decide +kernel⟩

theorem witness_FocusAndJumps_7 : ∃ (h : Head) (g : Fin 262144) (s : State), (s.headUp h = true) ∧ (s.part h = hpTJUMP) ∧ (s.tracking h = true) :=
  ⟨2, 262143, (runState MOUNTED).put (SRV_HSTAT_PHASE 2) hpTJUMP, by decide +kernel⟩

theorem witness_FocusAndJumps_8 : ∃ (h : Head) (l : Layer) (g : Fin 262144) (s : State) (e : Ev) (t : State), (takeDue .layerJump h s = some (e, t)) ∧ (s.headUp h = true) ∧ ((let fresh := t.part h == hpON_TRACK; (fresh || (t.part h == hpCAPTURING && l.val == (t.tr h).planLayer)) = true)) ∧ (l.val / 24 = sideOf h) ∧ (l.val ≠ s.headLayer h) :=
  ⟨0, 1, 5, withDue .layerJump 0 ((runState MOUNTED).put (SRV_HSTAT_PHASE 0) hpON_TRACK), { cls := .layerJump, owner := 0, target := 0, len := 0 }, (runState MOUNTED).put (SRV_HSTAT_PHASE 0) hpON_TRACK, by decide +kernel⟩

theorem witness_FocusAndJumps_9 : ∃ (h : Head) (us : Nat) (s : State), (s.headUp h = true) ∧ ((s.tr h).jumping = true) ∧ (s.landed h = true) :=
  ⟨0, 900, landedState.setTr 0 fun t => { t with jumping := true }, by decide +kernel⟩

theorem witness_FocusAndJumps_10 : ∃ (h : Head) (us : Nat) (s : State), (s.headUp h = true) ∧ ((s.tr h).jumping = true) ∧ (s.landed h = false) ∧ (passed s.now (s.tr h).jumpEnd = true) ∧ (s.part h = hpLJUMP) :=
  ⟨0, 0, (((runState MOUNTED).put (SRV_HSTAT_PHASE 0) hpLJUMP).setTr 0 fun t => { t with jumping := true }), by decide +kernel⟩

theorem witness_LossesAndInhibits_0 : ∃ (h : Head) (s : State), (s.headUp h = true) ∧ ((s.get SRV_FLIM_FLOSSN ≤ (s.tr h).sumLow ∨ s.loopState (4 * h) = lFAIL)) :=
  ⟨1, (runState MOUNTED).put (SRV_LSTAT_STATE 4) lFAIL, by decide +kernel⟩

theorem witness_LossesAndInhibits_1 : ∃ (h : Head) (s : State), (s.headUp h = true) ∧ ((4 ≤ (s.tr h).teHigh ∨ s.loopState (4 * h + 1) = lFAIL)) :=
  ⟨2, (runState MOUNTED).setTr 2 fun t => { t with teHigh := 4 }, by decide +kernel⟩

theorem witness_LossesAndInhibits_2 : ∃ (h : Head) (s : State), (s.headUp h = true) ∧ (s.get (SRV_HSTAT_PHASE h) = hpRECOVERING) ∧ (s.landed h = true) :=
  ⟨0, (landedState.put (SRV_HSTAT_PHASE 0) hpRECOVERING).setTr 0 fun t => { t with part := hpCAPTURING }, by decide +kernel⟩

theorem witness_LossesAndInhibits_3 : ∃ (h : Head) (s : State), (s.headUp h = true) ∧ (s.get (SRV_HSTAT_PHASE h) = hpRECOVERING) :=
  ⟨0, (runState MOUNTED).put (SRV_HSTAT_PHASE 0) hpRECOVERING, by decide +kernel⟩

theorem witness_LossesAndInhibits_4 : ∃ (h : Head) (k : Fin 2) (s : State), (s.headUp h = true) ∧ ((s.tr h).failHeld.contains (k.val + 2) = true) ∧ (s.failOver h (k.val + 2) = true) :=
  ⟨1, 1, (runState MOUNTED).setTr 1 fun t => { t with failHeld := [3] }, by decide +kernel⟩

theorem witness_LossesAndInhibits_5 : ∃ (h : Head) (bits : Word) (minfo : Option Word) (s : State), (s.applied = true) ∧ (s.inFocus h = true) ∧ ((let w := bits.toNat; crc16 (bitsMsb 16 (w / 65536)) = w % 65536)) ∧ ((let w := bits.toNat; let layer := w / 2 ^ 20 % 64; layer ≤ 47)) :=
  ⟨1, BitVec.ofNat 32 (crc16 (bitsMsb 16 0)), some 7#32, (runState MOUNTING).put (SRV_HSTAT_PHASE 1) hpCAPTURING, by decide +kernel⟩

theorem witness_LossesAndInhibits_6 : ∃ (h : Head) (trids : List (Option Word)) (s : State), (s.applied = true) ∧ (s.inFocus h = true) :=
  ⟨0, [some (tridWord 0), some (tridWord 1), some (tridWord 2), some (tridWord 3), none, none], (runState MOUNTED).put (SRV_HSTAT_PHASE 0) hpCAPTURING, by decide +kernel⟩

theorem witness_LossesAndInhibits_7 : ∃ (h : Head) (c : Fin 7) (s : State), (s.applied = true) ∧ (s.bit (SRV_HSTAT_INHC h) c = true) ∧ (s.get SRV_WINH_INHCLR ≤ (s.tr h).absent.getD c 0) :=
  ⟨3, 6, ((runState MOUNTED).put (SRV_HSTAT_INHC 3) 64).setTr 3 fun t => { t with absent := List.replicate 8 65535 }, by decide +kernel⟩

theorem witness_LossesAndInhibits_8 : ∃ (p : Port) (h : Head) (v : Word) (s : State), (s.reaches p false = true) :=
  ⟨0, 1, 1#32, hostState MOUNTED 0, by decide +kernel⟩

theorem witness_LossesAndInhibits_9 : ∃ (axial : BitVec 16) (radial : BitVec 16) (s : State), (s.applied = true) ∧ (s.flag SRV_SHK_EN = true) :=
  ⟨0x8000#16, 3#16, (stateIn MOUNTED).put SRV_SHK_EN 1, by decide +kernel⟩

theorem witness_SledCommands_0 : ∃ (h : Head) (s : State), (s.applied = true) ∧ (s.sledMoving h = true) :=
  ⟨2, (headState MOUNTED).put (SLD_STAT_MOVING 2) 1, by decide +kernel⟩

theorem witness_SledCommands_1 : ∃ (h : Head) (g : Fin 262144) (s : State) (t : State) (e : Ev), (s.headUp h = true) ∧ (s.flag (SLD_STAT_EN h) = true) ∧ (takeDue .seek h s = some (e, t)) ∧ (s.sledMoving h = false) :=
  ⟨1, 7, withDue .seek 1 ((runState MOUNTED).put (SLD_STAT_EN 1) 1), (runState MOUNTED).put (SLD_STAT_EN 1) 1, { cls := .seek, owner := 1, target := 0, len := 0 }, by decide +kernel⟩

theorem witness_SledCommands_2 : ∃ (h : Head) (g : Fin 262144) (s : State), (s.headUp h = true) ∧ (s.flag (SLD_STAT_EN h) = true) ∧ (takeDue .seek h s = none) ∧ (s.sledMoving h = true) ∧ (isClassS (s.get (SLD_STAT_KIND h)) = true) :=
  ⟨1, 7, (((runState MOUNTED).put (SLD_STAT_EN 1) 1).put (SLD_STAT_MOVING 1) 1).put (SLD_STAT_KIND 1) sdHOST, by decide +kernel⟩

theorem witness_SledCommands_3 : ∃ (h : Head) (k : SeekKind) (s : State) (t : State), (s.applied = true) ∧ (s.present h = true) ∧ (s.flag (SLD_STAT_EN h) = true) ∧ (startable h k s = some t) :=
  ⟨3, .host 5, (headState PRIMED).put (SLD_STAT_EN 3) 1, (headState PRIMED).put (SLD_STAT_EN 3) 1, by decide +kernel⟩

theorem witness_SledCommands_4 : ∃ (p : Port) (h : Head) (v : Word) (s : State), (s.reaches p false = true) :=
  ⟨0, 1, 0x01000000#32, hostState PRIMED 0, by decide +kernel⟩

theorem witness_SledCommands_5 : ∃ (h : Head) (s : State), (s.applied = true) ∧ (s.sledMoving h = false) ∧ ((s.sl h).ended ≠ 0) :=
  ⟨2, { headState MOUNTED with sled := List.replicate 4 { ended := 4 } }, by decide +kernel⟩

theorem witness_SledCommands_6 : ∃ (h : Head) (s : State), (s.applied = true) ∧ (s.present h = true) ∧ (s.inSvc h = true) ∧ (s.sledMoving h = false) ∧ (2 ≤ (s.sl h).wedges) ∧ (s.gapTick h = true) ∧ ((s.get (SRV_HSTAT_PHASE h) == hpON_TRACK || s.get (SRV_HSTAT_PHASE h) == hpCAPTURING) = true) :=
  ⟨0, { (((runState MOUNTED).put ANG_LOCK_SRC srcWOBBLE).put ANG_LOCK_INDEXED 1).put (SRV_HSTAT_PHASE 0) hpON_TRACK with sled := List.replicate 4 { wedges := 2 } }, by decide +kernel⟩

theorem witness_SledCommands_7 : ∃ (h : Head) (s : State), (s.searchDue h = true) :=
  ⟨1, ((runState MOUNTING).put (SRV_HSTAT_PHASE 1) hpCAPTURING).setNow (4 * au24), by decide +kernel⟩

theorem witness_SpindleStarts_0 : ∃ (s : State), (s.applied = true) ∧ (s.sys.tripped = false) ∧ (s.sys.holdUp = false) ∧ (s.spnTarget ≠ 0) ∧ ((s.spnPhase = pSTOPPED ∨ s.spnPhase = pCOAST)) :=
  ⟨{ ((stateIn PRIMED).put SPN_TEST_EN 1).put SPN_TEST_RPM 500 with sys := { (stateIn PRIMED).sys with tripped := false } }, by decide +kernel⟩

theorem witness_SpindleStarts_1 : ∃ (crossings : Nat) (peak : Nat) (rpm : Nat) (s : State), (s.applied = true) ∧ (s.sys.tripped = false) ∧ ((s.spnPhase == pCATCH || s.spnPhase == pSHORTBRAKE) = true) :=
  ⟨4, 100, 500, { (stateIn PRIMED).put SPN_STAT_PHASE pCATCH with sys := { (stateIn PRIMED).sys with tripped := false } }, by decide +kernel⟩

theorem witness_SpindleStarts_2 : ∃ (s : State), (s.applied = true) ∧ (s.spnPhase = pALIGN) :=
  ⟨(stateIn MOUNTING).put SPN_STAT_PHASE pALIGN, by decide +kernel⟩

theorem witness_SpindleStarts_3 : ∃ (s : State), (s.applied = true) ∧ (s.spnPhase = pOPENLOOP) ∧ (600 * 16 ≤ s.spn.obsRpm) ∧ (32 ≤ s.spn.agree) :=
  ⟨((stateIn MOUNTING).put SPN_STAT_PHASE pOPENLOOP).setSpn fun x => { x with obsRpm := 9600, agree := 32 }, by decide +kernel⟩

theorem witness_SpindleStarts_4 : ∃ (s : State), (s.applied = true) ∧ (s.spnPhase = pOPENLOOP) ∧ (900 * 1000000 ≤ s.spn.forced) :=
  ⟨((stateIn MOUNTING).put SPN_STAT_PHASE pOPENLOOP).setSpn fun x => { x with forced := 900000000 }, by decide +kernel⟩

theorem witness_SpindleStarts_5 : ∃ (i : PwmIn) (s : State), (s.applied = true) ∧ (s.sys.tripped = false) ∧ (s.driven = true) :=
  ⟨⟨0, 0, 0, 12000, 65536, 0, 0, 0, 0⟩, { (stateIn MOUNTED).put SPN_STAT_PHASE pRUN with sys := { (stateIn MOUNTED).sys with tripped := false } }, by decide +kernel⟩

theorem witness_SpindleStarts_6 : ∃ (cause : Fin 5) (s : State), (s.applied = true) ∧ (s.spnPhase ≠ pFAULT) ∧ (s.spindleCause (cause.val + 1) = true) :=
  ⟨0, { stateIn MOUNTED with spn := { ocRun := 64 } }, by decide +kernel⟩

theorem witness_SpindleStarts_7 : ∃ (peak : Nat) (s : State), (s.applied = true) ∧ ((s.spnPhase = pBRAKING ∧ s.spn.shortBrake = true ∨ s.spnPhase = pCOAST)) ∧ (peak < s.get SPN_CHECK_BEMFMIN) :=
  ⟨0, ((stateIn PARKING).put SPN_STAT_PHASE pCOAST).put SPN_CHECK_BEMFMIN 10, by decide +kernel⟩

theorem witness_SpindleStarts_8 : ∃ (p : Port) (v : Word) (s : State), (s.reaches p false = true) :=
  ⟨0, 0#32, hostState PRIMED 0, by decide +kernel⟩

theorem witness_SpindleStarts_9 : ∃ (x : Option Nat) (s : State), (s.applied = true) :=
  ⟨none, stateIn MOUNTED, by decide +kernel⟩

theorem witness_SpindleStarts_10 : ∃ (s : State), (s.applied = true) ∧ (s.flag SPN_SREFIN_VALID = true) :=
  ⟨(stateIn MOUNTED).put SPN_SREFIN_VALID 1, by decide +kernel⟩

theorem witness_LaneCommands_0 : ∃ (l : Lane) (s : State), (s.applied = true) ∧ (s.chn.fail2.contains l.val = true) :=
  ⟨7, { stateIn MOUNTED with chn := { fail2 := [7] } }, by decide +kernel⟩

theorem witness_LaneCommands_1 : ∃ (p : Port) (v : Word) (s : State), (s.reaches p false = true) :=
  ⟨0, 0#32, hostState MOUNTED 0, by decide +kernel⟩

theorem witness_LaneCommands_2 : ∃ (p : Port) (v : Word) (s : State), (s.reaches p false = true) :=
  ⟨1, 24#32, hostState MOUNTED 1, by decide +kernel⟩

theorem witness_LaneCommands_3 : ∃ (p : Port) (v : Word) (s : State), (s.reaches p false = true) :=
  ⟨0, 5#32, hostState MOUNTED 0, by decide +kernel⟩

theorem witness_LaneCommands_4 : ∃ (pass : Bool) (s : State) (l : Nat), (s.chn.act = some (2, l, 0)) ∧ (s.applied = true) :=
  ⟨true, { stateIn MOUNTED with chn := { act := some (2, 25, 0) } }, 25, by decide +kernel⟩

theorem witness_LaneCommands_5 : ∃ (l : Lane) (s : State), (s.applied = true) ∧ (s.lane l = laneACQUIRING) ∧ ((2 ≤ s.chn.ok.getD l 0 ∨ isSpare l = true ∧ s.reading (laneHead l) = false)) :=
  ⟨3, ((stateIn MOUNTED).put (CHN_LANEMAP_STATE 3) laneACQUIRING).setChn fun c => { c with ok := List.replicate 28 2 }, by decide +kernel⟩

theorem witness_LaneCommands_6 : ∃ (l : Lane) (s : State), (s.inLife [MOUNTING, MOUNTED] = true) ∧ ((let h := laneHead l; let due := s.cal.rows.contains (8 * ((48 * h + s.headLayer h) * 32 + s.headBand h) + s.laneSpot l); due = true)) ∧ (isSpare l = false) ∧ (s.lane l = laneACTIVE) ∧ (s.calSpare (laneHead l) = true) ∧ (s.lane (spareOf (laneHead l)) = laneIDLE) :=
  ⟨0, shadowState, by decide +kernel⟩

theorem witness_LaneCommands_7 : ∃ (l : Lane) (err : List Int) (s : State), (s.applied = true) ∧ (s.carries l = true) ∧ (s.phaseSeen l = true) ∧ (err.length = 256) ∧ (sumSq err ≤ 256 * 32 * 32) :=
  ⟨4, List.replicate 256 32, lockState 3, by decide +kernel⟩

theorem witness_LaneCommands_8 : ∃ (l : Lane) (err : List Int) (s : State), (s.applied = true) ∧ (s.carries l = true) ∧ (((s.phaseSeen l && err.length == 1024 && 1024 * 64 * 64 < sumSq err)
      || 2000 < (s.getI (CHN_TR_FOFF l)).natAbs) = true) :=
  ⟨4, List.replicate 1024 65, lockState 3, by decide +kernel⟩

theorem witness_LaneCommands_9 : ∃ (h : Head) (track : Fin 6) (o : BlockRead) (s : State), (s.applied = true) ∧ (s.present h = true) ∧ (s.flag (DET_HSTAT_RUN h) = true) ∧ (2 ≤ Sparse.get s.det.refOver (8 * h.val + track.val)) :=
  ⟨1, 5, {}, let s := (headState MOUNTED).put (DET_HSTAT_RUN 1) 1; { s with det := { s.det with refOver := [(13, 2)] } }, by decide +kernel⟩

theorem witness_LaneCommands_10 : ∃ (errs : List Nat) (s : State) (l : Nat) (n : Nat), (s.chn.act = some (3, l, n)) ∧ (s.applied = true) ∧ (512 < n) ∧ (errs.length = 64) :=
  ⟨List.replicate 64 0, { stateIn MOUNTED with chn := { act := some (3, 9, 513) } }, 9, 513, by decide +kernel⟩

theorem witness_LaneCommands_11 : ∃ (h : Head) (s : State), (s.applied = true) ∧ (s.present h = true) ∧ (16 * au24 ≤ Sparse.get s.det.readAu h) :=
  ⟨0, let s := headState MOUNTED; { s with det := { s.det with readAu := [(0, 16 * au24)] } }, by decide +kernel⟩

theorem witness_CodewordCommands_0 : ∃ (pba : BitVec 32) (cwix : Fin 16) (soft : List Int) (s : State) (e : Expect), ((s.cwd.expect.find? fun e => e.pba == pba.toNat && e.left.contains cwix.val) = some e) ∧ (s.inLife [MOUNTING, MOUNTED, PARKING] = true) ∧ (s.readOver e cwix = true) :=
  ⟨7, 3, [1, -1], relState, relExpect, by decide +kernel⟩

theorem witness_CodewordCommands_1 : ∃ (d : Dec) (x : Nat) (conv : Bool) (iters : Nat) (s : State) (i : CwItem) (lim : Nat), (s.cwd.busy.getD d none = some (i, lim)) ∧ (s.applied = true) :=
  ⟨0, 0, false, 50, { stateIn MOUNTED with cwd := { busy := [some (cwItem0, 40)] } }, cwItem0, 40, by decide +kernel⟩

theorem witness_CodewordCommands_2 : ∃ (d : Dec) (s : State), (s.applied = true) :=
  ⟨7, stateIn MOUNTED, by decide +kernel⟩

theorem witness_CodewordCommands_3 : ∃ (p : Port) (v : Word) (s : State), (s.reaches p false = true) :=
  ⟨0, 8#32, hostState MOUNTED 0, by decide +kernel⟩

theorem witness_CodewordCommands_4 : ∃ (p : Port) (v : Word) (s : State), (s.reaches p false = true) :=
  ⟨1, 16#32, hostState MOUNTED 1, by decide +kernel⟩

theorem witness_CodewordCommands_5 : ∃ (d : Dec) (pass : Bool) (s : State), (s.applied = true) ∧ (s.cwd.bist.contains d.val = true) :=
  ⟨2, true, { stateIn MOUNTED with cwd := { bist := [2] } }, by decide +kernel⟩

theorem witness_WritingCommands_0 : ∃ (h : Head) (l : Layer) (b : Band) (s : State), (s.inLife [MOUNTING, MOUNTED] = true) ∧ (s.opcReach h l b = true) ∧ (((s.wh h).opc == some (l.val, b.val, false) || ((s.wh h).opc == some (l.val, b.val, true)
        && (s.wh h).opcPairs.any fun p => p.2.1 && p.2.2.isNone)) = true) :=
  ⟨0, 1, 2, opcState, by decide +kernel⟩

theorem witness_WritingCommands_1 : ∃ (h : Head) (r0 : List Nat) (r1 : List Nat) (s : State) (l : Nat) (b : Nat), ((s.wh h).opc = some (l, b, true)) ∧ (s.applied = true) :=
  ⟨0, [], [], { stateIn MOUNTED with wrs := [{ opc := some (1, 2, true) }] }, 1, 2, by decide +kernel⟩

theorem witness_WritingCommands_2 : ∃ (p : Port) (v : Word) (s : State), (s.reaches p false = true) :=
  ⟨0, 0x01000000#32, hostState MOUNTED 0, by decide +kernel⟩

theorem witness_WritingCommands_3 : ∃ (h : Head) (act : Fin 9) (blocks : List (BitVec 32)) (os : List BlockRead) (s : State) (t : State) (e : Ev), (s.applied = true) ∧ (takeDue .writeWin h s = some (e, t)) :=
  ⟨1, 0, [0], [], withDue .writeWin 1 (headState MOUNTED), headState MOUNTED, { cls := .writeWin, owner := 1, target := 0, len := 0 }, by decide +kernel⟩

theorem witness_WritingCommands_4 : ∃ (h : Head) (act : Fin 9) (blocks : List (BitVec 32)) (os : List BlockRead) (s : State) (t : State) (e : Ev), (s.applied = true) ∧ (takeDue .writeWin h s = none) ∧ (takeDue .readWin h s = some (e, t)) :=
  ⟨1, 0, [0], [], withDue .readWin 1 (headState MOUNTED), headState MOUNTED, { cls := .readWin, owner := 1, target := 0, len := 0 }, by decide +kernel⟩

theorem witness_WritingCommands_5 : ∃ (h : Head) (act : Fin 9) (blocks : List (BitVec 32)) (os : List BlockRead) (s : State) (t : State) (e : Ev), (s.applied = true) ∧ (takeDue .writeWin h s = none) ∧ (takeDue .readWin h s = none) ∧ (takeDue .calWin h s = some (e, t)) :=
  ⟨1, 0, [], [], withDue .calWin 1 (headState MOUNTED), headState MOUNTED, { cls := .calWin, owner := 1, target := 0, len := 0 }, by decide +kernel⟩

theorem witness_WritingCommands_6 : ∃ (h : Head) (act : Fin 9) (blocks : List (BitVec 32)) (os : List BlockRead) (s : State) (t : State) (e : Ev), (s.applied = true) ∧ (takeDue .writeWin h s = none) ∧ (takeDue .readWin h s = none) ∧ (takeDue .calWin h s = none) ∧ (takeDue .patrol h s = some (e, t)) :=
  ⟨1, 5, [0], [], withDue .patrol 1 (headState MOUNTED), headState MOUNTED, { cls := .patrol, owner := 1, target := 0, len := 0 }, by decide +kernel⟩

theorem witness_WritingCommands_7 : ∃ (h : Head) (s : State) (w : Win), ((s.wins.find? fun w => w.head == h.val) = some w) ∧ (s.applied = true) ∧ (passed s.now w.stop = true) ∧ (s.turn rkCLOSE = true) :=
  ⟨2, { stateIn MOUNTED with wins := [{ cls := .calWin, head := 2, start := 0, stop := 0 }] }, { cls := .calWin, head := 2, start := 0, stop := 0 }, by decide +kernel⟩

theorem witness_WritingCommands_8 : ∃ (h : Head) (s : State), (s.applied = true) ∧ (s.flag (WRS_HSTAT_LVLPEND h) = true) ∧ ((s.opuHead h).queue.all fun x => !(x.cmd == cWR && x.cls == 2) = true) :=
  ⟨3, (stateIn MOUNTED).put (WRS_HSTAT_LVLPEND 3) 1, by decide +kernel⟩

theorem witness_WritingCommands_9 : ∃ (h : Head) (pba : BitVec 32) (s : State), (s.applied = true) ∧ ((let p := pba.toNat; s.unverifiedAt p = true)) ∧ ((let p := pba.toNat; let mine := fun (c : CwOut) => c.pba == p && c.act == 7; let l := s.cwd.out.filter mine; let whole := (List.range 16).all fun i => l.any fun c => c.cwix == i; whole = true)) :=
  ⟨1, 7, verState, by decide +kernel⟩

theorem witness_StripeTransactions_0 : ∃ (zone : Nat) (us : List BlockRead) (s : State), (s.mayOpenSys = true) ∧ (s.str.stripes.length < s.get STR_CFG_MAXOPEN) :=
  ⟨9, [], stateIn MOUNTED, by decide +kernel⟩

theorem witness_StripeTransactions_1 : ∃ (nsid : Nat) (zone : Nat) (us : List BlockRead) (s : State) (n : Ns), (nsid ≠ sysNs) ∧ (s.nsOf nsid = some n) ∧ (s.mayOpen = true) ∧ (n.zones.contains zone = true) ∧ (s.str.stripes.length < s.get STR_CFG_MAXOPEN) :=
  ⟨1, 3, [], volState { num := 3072, wseq := 9, nsid := 1, st := 0 }, nsOne, by decide +kernel⟩

theorem witness_StripeTransactions_2 : ∃ (nsid : Nat) (s : State), (s.on = true) :=
  ⟨1, volState { num := 3072, wseq := 9, nsid := 1, st := 0 }, by decide +kernel⟩

theorem witness_StripeTransactions_3 : ∃ (stripe : Nat) (s : State) (t : Stripe), (s.stripeOf stripe = some t) ∧ (s.on = true) ∧ (t.st = 0) ∧ (t.voiding = false) ∧ ((t.mems.all fun m => m.st == 1 || m.st == 2) = true) :=
  ⟨3072, volState { num := 3072, wseq := 9, nsid := 1, st := 0 }, { num := 3072, wseq := 9, nsid := 1 }, by decide +kernel⟩

theorem witness_StripeTransactions_4 : ∃ (stripe : Nat) (s : State) (t : Stripe), (s.stripeOf stripe = some t) ∧ (s.on = true) ∧ (t.st = 1) ∧ (t.mems.all (fun m => m.st == 2) = true) :=
  ⟨3072, volState { num := 3072, wseq := 9, nsid := 1, st := 1 }, { num := 3072, wseq := 9, nsid := 1, st := 1 }, by decide +kernel⟩

theorem witness_StripeTransactions_5 : ∃ (stripe : Nat) (s : State) (t : Stripe), (s.stripeOf stripe = some t) ∧ (s.on = true) ∧ (t.st = 2) ∧ ((let first := t.kind == 3 || t.kind == 1 || t.kind == 2 || (s.openIn (stripe / 1024)).all fun u => stripe ≤ u.num; first = true)) ∧ ((let durable := t.mems.all fun m => !s.remapWaits (s.locate stripe m.idx); durable = true)) :=
  ⟨3072, volState { num := 3072, wseq := 9, nsid := 1, st := 2 }, { num := 3072, wseq := 9, nsid := 1, st := 2 }, by decide +kernel⟩

theorem witness_StripeTransactions_6 : ∃ (stripe : Nat) (s : State) (t : Stripe), (s.stripeOf stripe = some t) ∧ (s.on = true) ∧ (t.voiding = true) :=
  ⟨3072, volState { num := 3072, wseq := 9, nsid := 1, voiding := true }, { num := 3072, wseq := 9, nsid := 1, voiding := true }, by decide +kernel⟩

theorem witness_StripeReadsAndRebuild_0 : ∃ (stripe : Nat) (member : Fin 20) (planned : Nat) (tags : List BlockRead) (words : List BlockRead) (s : State), (s.str.asm.find? (fun a => a.stripe == stripe) = none) ∧ (s.on = true) :=
  ⟨5, 3, 0, [], [], stateIn MOUNTED, by decide +kernel⟩

theorem witness_StripeReadsAndRebuild_1 : ∃ (stripe : Nat) (member : Fin 20) (planned : Nat) (tags : List BlockRead) (words : List BlockRead) (s : State) (a : Asm), (s.str.asm.find? (fun a => a.stripe == stripe) = some a) ∧ (s.on = true) ∧ ((a.due member).isEmpty = false) ∧ ((a.due member).all (fun c => s.cwd.out.any fun o => o.mem == some (stripe, member.val) && [0, 1, 3, 4].contains o.act && o.cwix == c) = true) :=
  ⟨5, 3, 0, [], [], arrState, arrAsm, by decide +kernel⟩

theorem witness_StripeReadsAndRebuild_2 : ∃ (stripe : Nat) (s : State) (a : Asm), ((s.str.asm.find? fun a => a.stripe == stripe) = some a) ∧ (s.on = true) ∧ (a.deadline.any (passed s.now) = true) :=
  ⟨5, { stateIn MOUNTED with str := { asm := [{ stripe := 5, deadline := some 0 }] } }, { stripe := 5, deadline := some 0 }, by decide +kernel⟩

theorem witness_StripeReadsAndRebuild_3 : ∃ (s : State), (s.inLife [MOUNTED] = true) ∧ ((let running := ((s.str.rebuild.filter fun r => r.running).map fun r => r.stripe).eraseDups; running.length < 64)) :=
  ⟨{ stateIn MOUNTED with str := { rebuild := [{ stripe := 7, member := 2 }] } }, by decide +kernel⟩

theorem witness_StripeReadsAndRebuild_4 : ∃ (stripe : Nat) (member : Fin 20) (s : State) (r : Rebuild), ((s.str.rebuild.find? fun r => r.stripe == stripe && r.member == member.val && r.running) = some r) ∧ (s.on = true) ∧ (r.st = 3) ∧ (r.repl = some (s.locate stripe member)) :=
  ⟨7, 2, rebState, rebOne, by decide +kernel⟩

theorem witness_StripeReadsAndRebuild_5 : ∃ (s : State), (s.mayCheckpoint = true) :=
  ⟨{ stateIn MOUNTED with str := { changed := [1] } }, by decide +kernel⟩

theorem witness_StripeReadsAndRebuild_6 : ∃ (s : State), (s.inLife [MOUNTED] = true) ∧ (s.str.changed.isEmpty = false) :=
  ⟨{ stateIn MOUNTED with str := { changed := [1] } }, by decide +kernel⟩

theorem witness_StripeReadsAndRebuild_7 : ∃ (nsid : Nat) (page : Nat) (o : BlockRead) (s : State), (s.inLife [MOUNTED] = true) ∧ (s.str.pageWait.contains (nsid, page) = false) ∧ (s.str.pagesLeft.contains (nsid, page) = true) :=
  ⟨1, 4, {}, { stateIn MOUNTED with str := { pagesLeft := [(1, 4)] } }, by decide +kernel⟩

theorem witness_StripeReadsAndRebuild_8 : ∃ (nsid : Nat) (page : Nat) (o : BlockRead) (s : State), (s.inLife [MOUNTED] = true) ∧ (s.str.pageWait.contains (nsid, page) = false) ∧ (s.str.pagesLeft.contains (nsid, page) = false) ∧ (s.hst.ns.any (fun n => n.nsid == nsid && !n.zoned && page < n.pages) = true) :=
  ⟨1, 0, {}, volState { num := 5, wseq := 9, nsid := 1 }, by decide +kernel⟩

theorem witness_StripeReadsAndRebuild_9 : ∃ (nsid : Nat) (s : State) (n : Ns), (s.nsOf nsid = some n) ∧ (s.inLife [MOUNTED] = true) ∧ (n.zoned = false) ∧ ((s.idleZones n).length < 2) ∧ ((let used := (s.str.zones.filter fun v => v.owner == nsid && (v.st == 1 || v.st == 2)); used.isEmpty = false)) :=
  ⟨1, volState { num := 3072, wseq := 9, nsid := 1 }, nsOne, by decide +kernel⟩

theorem witness_HealthCommands_0 : ∃ (l : Layer) (s : State), (s.inLife [MOUNTING, MOUNTED] = true) ∧ (s.hlt.changed.contains l.val = true) :=
  ⟨4, { stateIn MOUNTED with hlt := { changed := [4] } }, by decide +kernel⟩

theorem witness_HealthCommands_1 : ∃ (pba : BitVec 32) (cwix : Fin 16) (s : State), (s.inLife [MOUNTING, MOUNTED] = true) ∧ ((let p := pba.toNat; s.hlt.confirmed.contains (p, cwix.val) = true)) :=
  ⟨5, 2, { stateIn MOUNTED with hlt := { confirmed := [(5, 2)] } }, by decide +kernel⟩

theorem witness_HealthCommands_2 : ∃ (l : Layer) (s : State), (s.inLife [MOUNTING, MOUNTED] = true) ∧ (s.hlt.failedLayers.contains l.val = false) ∧ (s.layerBad l = true) :=
  ⟨3, { headState MOUNTED with hlt := { jumpFails := [(3, 3), (51, 3)] } }, by decide +kernel⟩

theorem witness_HealthCommands_3 : ∃ (sec : Nat) (s : State), (s.lapOver = true) :=
  ⟨100, { stateIn MOUNTED with cnv := { cfg := { modes := List.replicate 6 { patrol := 2 } } } }, by decide +kernel⟩

theorem witness_HealthCommands_4 : ∃ (s : State) (e : Nat × Nat × Bool) (l : List (Nat × Nat × Bool)), (s.hlt.refresh = e :: l) ∧ (s.inLife [MOUNTED] = true) ∧ (s.committed e.2.1 = true) ∧ (s.str.stripes.any (fun t => t.num == e.2.1) = false) ∧ (s.str.rebuild.any (fun r => r.stripe == e.2.1) = false) ∧ (s.hlt.refData.find? (fun d => d.1 == e.2.1) = none) ∧ (s.hlt.refWant.contains e.2.1 = false) :=
  ⟨refState [], (3, 5, false), [], by decide +kernel⟩

theorem witness_HealthCommands_5 : ∃ (s : State) (e : Nat × Nat × Bool) (l : List (Nat × Nat × Bool)) (d : Nat × List (Nat × List Nat)), (s.hlt.refresh = e :: l) ∧ (s.inLife [MOUNTED] = true) ∧ (s.committed e.2.1 = true) ∧ (s.str.stripes.any (fun t => t.num == e.2.1) = false) ∧ (s.str.rebuild.any (fun r => r.stripe == e.2.1) = false) ∧ (s.hlt.refData.find? (fun d => d.1 == e.2.1) = some d) ∧ (s.str.dirty.contains (e.2.1 / 1024) = true) ∧ (s.str.wseq < s.str.wres) ∧ (s.str.stripes.length < s.get STR_CFG_MAXOPEN) :=
  ⟨refState [(5, [(0, [])])], (3, 5, false), [], (5, [(0, [])]), by decide +kernel⟩

theorem witness_HealthCommands_6 : ∃ (p : Port) (v : Word) (s : State), (s.reaches p false = true) :=
  ⟨0, 1#32, hostState MOUNTED 0, by decide +kernel⟩

theorem witness_HealthCommands_7 : ∃ (p : Port) (v : Word) (s : State), (s.reaches p false = true) :=
  ⟨1, 2#32, hostState MOUNTED 1, by decide +kernel⟩

theorem witness_HealthCommands_8 : ∃ (s : State), (s.inLife [MOUNTED] = true) ∧ ((s.modeCfg s.mode).patrol = 1) ∧ (s.flag HLT_CTRL_PAUSE = false) ∧ ((s.hst.cmds.all fun c => c.qid == 0 || c.drop) = true) :=
  ⟨{ stateIn MOUNTED with cnv := { cfg := { modes := List.replicate 6 { patrol := 1 } } } }, by decide +kernel⟩

theorem witness_CalibrationCommands_0 : ∃ (h : Head) (l : Layer) (s : State), (s.inLife [MOUNTED] = true) ∧ (s.present h = true) ∧ (s.inSvc h = true) ∧ (l.val / 24 = sideOf h) ∧ (s.cal.due.contains (layerKey h l) = false) :=
  ⟨0, 3, headState MOUNTED, by decide +kernel⟩

theorem witness_CalibrationCommands_1 : ∃ (p : Port) (v : Word) (s : State), (s.reaches p false = true) :=
  ⟨0, 0#32, hostState MOUNTED 0, by decide +kernel⟩

theorem witness_CalibrationCommands_2 : ∃ (h : Head) (l : Layer) (s : State) (r : CalReq), ((s.cal.reqs.find? fun r => r.head == h.val && r.kind != 0 && r.layers.contains l.val) = some r) ∧ (s.inLife [MOUNTING, MOUNTED] = true) ∧ (r.layers.head? = some l.val) ∧ ((s.fullLeft h l).isEmpty = true) :=
  ⟨1, 3, { headState MOUNTED with cal := { reqs := [{ head := 1, kind := 1, layers := [3], ended := calEnded }] } }, { head := 1, kind := 1, layers := [3], ended := calEnded }, by decide +kernel⟩

theorem witness_CalibrationCommands_3 : ∃ (h : Head) (l : Layer) (r : CalResult) (s : State), ((let win := s.on && s.wins.any fun w => w.head == h.val && w.cls == .calWin && w.lane.isNone && !w.cut; (s.inLife [MOUNTING, MOUNTED] || win) = true)) ∧ (s.present h = true) ∧ (s.inSvc h = true) ∧ (s.headLayer h = l.val) ∧ ((let i := calItem r; let win := s.on && s.wins.any fun w => w.head == h.val && w.cls == .calWin && w.lane.isNone && !w.cut; (!i.2 || win) = true)) ∧ (s.rowFree h r = true) ∧ ((let i := calItem r; (s.get (CAL_HL_FAILMASK h l)).testBit i.1 = false)) :=
  ⟨0, 3, .tilt 0 [] [] 0, { (headState MOUNTED).put (SRV_HSTAT_LAYER 0) 3 with wins := [{ cls := .calWin, head := 0, start := 0, stop := 9 }] }, by decide +kernel⟩

theorem witness_QueueAdminCommands_0 : ∃ (p : Port) (qid : BitVec 16) (tail : BitVec 16) (s : State), (s.on = true) ∧ (s.hst.rdy.getD p false = true) :=
  ⟨1, 0#16, 3#16, hostState MOUNTED 1, by decide +kernel⟩

theorem witness_QueueAdminCommands_1 : ∃ (p : Port) (cid : BitVec 16) (qid : BitVec 16) (size : BitVec 16) (vec : BitVec 16) (s : State) (t : State), (fetch (adm p cid.toNat 5) s = some t) :=
  ⟨0, 7#16, 1#16, 15#16, 0#16, hostState MOUNTED 0, (fetch (adm 0 (7#16).toNat 5) (hostState MOUNTED 0)).getD State.reset, by decide +kernel⟩

theorem witness_QueueAdminCommands_2 : ∃ (p : Port) (cid : BitVec 16) (qid : BitVec 16) (size : BitVec 16) (cqid : BitVec 16) (prio : Fin 4) (s : State) (t : State), (fetch (adm p cid.toNat 1) s = some t) :=
  ⟨0, 7#16, 2#16, 15#16, 1#16, 2, hostState MOUNTED 0, (fetch (adm 0 (7#16).toNat 1) (hostState MOUNTED 0)).getD State.reset, by decide +kernel⟩

theorem witness_QueueAdminCommands_3 : ∃ (p : Port) (cid : BitVec 16) (qid : BitVec 16) (s : State) (t : State), (fetch (adm p cid.toNat 4) s = some t) :=
  ⟨0, 7#16, 1#16, hostState MOUNTED 0, (fetch (adm 0 (7#16).toNat 4) (hostState MOUNTED 0)).getD State.reset, by decide +kernel⟩

theorem witness_QueueAdminCommands_4 : ∃ (p : Port) (cid : BitVec 16) (qid : BitVec 16) (s : State) (t : State), (fetch (adm p cid.toNat 0) s = some t) :=
  ⟨0, 7#16, 1#16, hostState MOUNTED 0, (fetch (adm 0 (7#16).toNat 0) (hostState MOUNTED 0)).getD State.reset, by decide +kernel⟩

theorem witness_QueueAdminCommands_5 : ∃ (p : Port) (cid : BitVec 16) (sqid : BitVec 16) (target : BitVec 16) (s : State) (t : State), (fetch (adm p cid.toNat 8) s = some t) :=
  ⟨0, 7#16, 1#16, 4#16, hostState MOUNTED 0, (fetch (adm 0 (7#16).toNat 8) (hostState MOUNTED 0)).getD State.reset, by decide +kernel⟩

theorem witness_QueueAdminCommands_6 : ∃ (p : Port) (cid : BitVec 16) (fid : BitVec 8) (nsid : BitVec 32) (val : Word) (sv : Bool) (s : State) (t : State), (fetch (adm p cid.toNat 9) s = some t) :=
  ⟨0, 7#16, 4#8, 0#32, 300#32, false, hostState MOUNTED 0, (fetch (adm 0 (7#16).toNat 9) (hostState MOUNTED 0)).getD State.reset, by decide +kernel⟩

theorem witness_QueueAdminCommands_7 : ∃ (p : Port) (cid : BitVec 16) (fid : BitVec 8) (nsid : BitVec 32) (sel : Fin 8) (val : Word) (s : State) (t : State), (fetch (adm p cid.toNat 0xA) s = some t) :=
  ⟨0, 7#16, 4#8, 0#32, 0, 0#32, hostState MOUNTED 0, (fetch (adm 0 (7#16).toNat 0xA) (hostState MOUNTED 0)).getD State.reset, by decide +kernel⟩

theorem witness_QueueAdminCommands_8 : ∃ (p : Port) (cid : BitVec 16) (s : State) (t : State), (fetch (adm p cid.toNat 0xC) s = some t) :=
  ⟨0, 7#16, hostState MOUNTED 0, (fetch (adm 0 (7#16).toNat 0xC) (hostState MOUNTED 0)).getD State.reset, by decide +kernel⟩

theorem witness_AdminDataCommands_0 : ∃ (p : Port) (cid : BitVec 16) (cns : BitVec 8) (csi : BitVec 8) (nsid : BitVec 32) (cntid : BitVec 16) (s : State) (t : State), (fetch (adm p cid.toNat 6) s = some t) :=
  ⟨0, 7#16, 1#8, 0#8, 0#32, 0#16, hostState MOUNTED 0, (fetch (adm 0 (7#16).toNat 6) (hostState MOUNTED 0)).getD State.reset, by decide +kernel⟩

theorem witness_AdminDataCommands_1 : ∃ (p : Port) (cid : BitVec 16) (lid : BitVec 8) (nsid : BitVec 32) (off : Nat) (len : Nat) (rae : Bool) (s : State) (t : State), (fetch (adm p cid.toNat 2) s = some t) :=
  ⟨0, 7#16, 2#8, 0#32, 0, 512, false, hostState MOUNTED 0, (fetch (adm 0 (7#16).toNat 2) (hostState MOUNTED 0)).getD State.reset, by decide +kernel⟩

theorem witness_AdminDataCommands_2 : ∃ (p : Port) (cid : BitVec 16) (s : State) (t : State), (fetch (adm p cid.toNat 0xCC) s = some t) :=
  ⟨0, 7#16, hostState MOUNTED 0, (fetch (adm 0 (7#16).toNat 0xCC) (hostState MOUNTED 0)).getD State.reset, by decide +kernel⟩

theorem witness_AdminDataCommands_3 : ∃ (p : Port) (cid : BitVec 16) (nsid : BitVec 32) (s : State) (t : State), (fetch (adm p cid.toNat 0xD0) s = some t) :=
  ⟨0, 7#16, 0#32, hostState MOUNTED 0, (fetch (adm 0 (7#16).toNat 0xD0) (hostState MOUNTED 0)).getD State.reset, by decide +kernel⟩

theorem witness_AdminDataCommands_4 : ∃ (p : Port) (cid : BitVec 16) (cdw10 : Word) (s : State) (t : State), (fetch (adm p cid.toNat 0xC4) s = some t) ∧ (t.mgmt = some p.val) :=
  ⟨0, 7#16, 0#32, hostState MOUNTED 0, (fetch (adm 0 (7#16).toNat 0xC4) (hostState MOUNTED 0)).getD State.reset, by decide +kernel⟩

theorem witness_AdminDataCommands_5 : ∃ (p : Port) (cid : BitVec 16) (op : BitVec 8) (s : State) (t : State), (adminOps.contains op.toNat = false) ∧ (fetch { port := p, qid := 0, cid := cid.toNat, op := op.toNat } s = some t) :=
  ⟨0, 7#16, 0xFF#8, hostState MOUNTED 0, (fetch { port := 0, qid := 0, cid := 7, op := 0xFF } (hostState MOUNTED 0)).getD State.reset, by decide +kernel⟩

theorem witness_AdminDataCommands_6 : ∃ (p : Port) (qid : BitVec 16) (cid : BitVec 16) (op : BitVec 8) (s : State) (t : State), (qid ≠ 0) ∧ (ioOps.contains op.toNat = false) ∧ (fetch { port := p, qid := qid.toNat, cid := cid.toNat, op := op.toNat } s = some t) :=
  ⟨0, 1#16, 7#16, 0xFF#8, ioState false, (fetch { port := 0, qid := 1, cid := 7, op := 0xFF } (ioState false)).getD State.reset, by decide +kernel⟩

theorem witness_NamespaceAndCustodyCommands_0 : ∃ (p : Port) (cid : BitVec 16) (n : NsCreate) (s : State) (t : State), (fetch (adm p cid.toNat 0x0D) s = some t) ∧ (t.hst.long = none) ∧ (t.hst.longWait = []) ∧ (t.mgmt = some p.val) :=
  ⟨0, 7#16, ⟨0#8, 0#64, 0#64, 0#8, 0#8, 0#8, false, false⟩, hostState MOUNTED 0, (fetch (adm 0 (7#16).toNat 0x0D) (hostState MOUNTED 0)).getD State.reset, by decide +kernel⟩

theorem witness_NamespaceAndCustodyCommands_1 : ∃ (p : Port) (cid : BitVec 16) (nsid : BitVec 32) (s : State) (t : State), (fetch (adm p cid.toNat 0x0D) s = some t) ∧ (t.hst.long = none) ∧ (t.hst.longWait = []) ∧ (t.mgmt = some p.val) :=
  ⟨0, 7#16, 1#32, hostState MOUNTED 0, (fetch (adm 0 (7#16).toNat 0x0D) (hostState MOUNTED 0)).getD State.reset, by decide +kernel⟩

theorem witness_NamespaceAndCustodyCommands_2 : ∃ (p : Port) (cid : BitVec 16) (nsid : BitVec 32) (detach : Bool) (ctrls : BitVec 2) (s : State) (t : State), (fetch (adm p cid.toNat 0x15) s = some t) ∧ (t.hst.long = none) ∧ (t.hst.longWait = []) ∧ (t.mgmt = some p.val) :=
  ⟨0, 7#16, 1#32, false, 3#2, hostState MOUNTED 0, (fetch (adm 0 (7#16).toNat 0x15) (hostState MOUNTED 0)).getD State.reset, by decide +kernel⟩

theorem witness_NamespaceAndCustodyCommands_3 : ∃ (p : Port) (cid : BitVec 16) (nsid : BitVec 32) (target : Fin 4) (s : State) (t : State), (fetch (adm p cid.toNat 0xD0) s = some t) ∧ (t.hst.long = none) ∧ (t.hst.longWait = []) :=
  ⟨0, 7#16, 0#32, 1, hostState MOUNTED 0, (fetch (adm 0 (7#16).toNat 0xD0) (hostState MOUNTED 0)).getD State.reset, by decide +kernel⟩

theorem witness_NamespaceAndCustodyCommands_4 : ∃ (s : State), (s.applied = true) :=
  ⟨hostState MOUNTED 0, by decide +kernel⟩

theorem witness_NamespaceAndCustodyCommands_5 : ∃ (nsid : Fin 65) (expired : Bool) (s : State) (w : Swap), ((s.hst.swaps.find? fun w => w.nsid == nsid.val) = some w) ∧ (s.on = true) ∧ (expired = true) :=
  ⟨1, true, { stateIn MOUNTED with hst := { swaps := [{ nsid := 1, target := 2 }] } }, { nsid := 1, target := 2 }, by decide +kernel⟩

theorem witness_NamespaceAndCustodyCommands_6 : ∃ (p : Port) (cid : BitVec 16) (cdw10 : Word) (s : State) (t : State), (fetch (adm p cid.toNat 0xC0) s = some t) ∧ (t.hst.long = none) ∧ (t.hst.longWait = []) ∧ (t.mgmt = some p.val) :=
  ⟨0, 7#16, 0#32, hostState MOUNTED 0, (fetch (adm 0 (7#16).toNat 0xC0) (hostState MOUNTED 0)).getD State.reset, by decide +kernel⟩

theorem witness_NamespaceAndCustodyCommands_7 : ∃ (p : Port) (cid : BitVec 16) (cdw10 : Word) (s : State) (t : State), (fetch (adm p cid.toNat 0xC8) s = some t) ∧ (t.hst.long = none) ∧ (t.hst.longWait = []) ∧ (t.mgmt = some p.val) :=
  ⟨0, 7#16, 0#32, hostState MOUNTED 0, (fetch (adm 0 (7#16).toNat 0xC8) (hostState MOUNTED 0)).getD State.reset, by decide +kernel⟩

theorem witness_NamespaceAndCustodyCommands_8 : ∃ (p : Port) (cid : BitVec 16) (s : State) (t : State), (fetch (adm p cid.toNat 0xCC) s = some t) ∧ (t.hst.long = none) ∧ (t.hst.longWait = []) ∧ (t.mgmt = some p.val) :=
  ⟨0, 7#16, hostState MOUNTED 0, (fetch (adm 0 (7#16).toNat 0xCC) (hostState MOUNTED 0)).getD State.reset, by decide +kernel⟩

theorem witness_NamespaceAndCustodyCommands_9 : ∃ (p : Port) (cid : BitVec 16) (s : State) (t : State), (fetch (adm p cid.toNat 0xCC) s = some t) ∧ (t.hst.long = none) ∧ (t.hst.longWait = []) ∧ (t.mgmt = some p.val) :=
  ⟨0, 7#16, hostState MOUNTED 0, (fetch (adm 0 (7#16).toNat 0xCC) (hostState MOUNTED 0)).getD State.reset, by decide +kernel⟩

theorem witness_NamespaceAndCustodyCommands_10 : ∃ (p : Port) (cid : BitVec 16) (s : State) (t : State), (fetch (adm p cid.toNat 0xCC) s = some t) ∧ (t.hst.long = none) ∧ (t.hst.longWait = []) ∧ (t.mgmt = some p.val) :=
  ⟨0, 7#16, hostState MOUNTED 0, (fetch (adm 0 (7#16).toNat 0xCC) (hostState MOUNTED 0)).getD State.reset, by decide +kernel⟩

theorem witness_NamespaceAndCustodyCommands_11 : ∃ (p : Port) (cid : BitVec 16) (cdw10 : Word) (s : State) (t : State), (fetch (adm p cid.toNat 0xD4) s = some t) ∧ (t.hst.long = none) ∧ (t.hst.longWait = []) ∧ (t.mgmt = some p.val) :=
  ⟨0, 7#16, 2#32, hostState MOUNTED 0, (fetch (adm 0 (7#16).toNat 0xD4) (hostState MOUNTED 0)).getD State.reset, by decide +kernel⟩

theorem witness_SecurityAndSanitizeCommands_0 : ∃ (p : Port) (cid : BitVec 16) (payload : List Byte) (s : State) (t : State), (fetch (adm p cid.toNat 0x81) s = some t) ∧ (t.hst.long = none) ∧ (t.hst.longWait = []) :=
  ⟨0, 7#16, [], hostState MOUNTED 0, (fetch (adm 0 (7#16).toNat 0x81) (hostState MOUNTED 0)).getD State.reset, by decide +kernel⟩

theorem witness_SecurityAndSanitizeCommands_1 : ∃ (p : Port) (cid : BitVec 16) (payload : List Byte) (s : State) (t : State), (fetch (adm p cid.toNat 0x81) s = some t) ∧ (t.hst.long = none) ∧ (t.hst.longWait = []) :=
  ⟨0, 7#16, [], hostState MOUNTED 0, (fetch (adm 0 (7#16).toNat 0x81) (hostState MOUNTED 0)).getD State.reset, by decide +kernel⟩

theorem witness_SecurityAndSanitizeCommands_2 : ∃ (p : Port) (cid : BitVec 16) (nsid : BitVec 32) (s : State) (t : State), (fetch (adm p cid.toNat 0x81) s = some t) ∧ (t.hst.long = none) ∧ (t.hst.longWait = []) :=
  ⟨0, 7#16, 0xFFFFFFFF#32, hostState MOUNTED 0, (fetch (adm 0 (7#16).toNat 0x81) (hostState MOUNTED 0)).getD State.reset, by decide +kernel⟩

theorem witness_SecurityAndSanitizeCommands_3 : ∃ (p : Port) (cid : BitVec 16) (proto : BitVec 8) (spsp : BitVec 16) (s : State) (t : State), (fetch (adm p cid.toNat 0x82) s = some t) ∧ (t.hst.long = none) ∧ (t.hst.longWait = []) :=
  ⟨0, 7#16, 0#8, 0#16, hostState MOUNTED 0, (fetch (adm 0 (7#16).toNat 0x82) (hostState MOUNTED 0)).getD State.reset, by decide +kernel⟩

theorem witness_SecurityAndSanitizeCommands_4 : ∃ (p : Port) (cid : BitVec 16) (cdw10 : Word) (s : State) (t : State), (fetch (adm p cid.toNat 0x84) s = some t) ∧ (t.hst.long = none) ∧ (t.hst.longWait = []) ∧ (t.mgmt = some p.val) :=
  ⟨0, 7#16, 2#32, hostState MOUNTED 0, (fetch (adm 0 (7#16).toNat 0x84) (hostState MOUNTED 0)).getD State.reset, by decide +kernel⟩

theorem witness_SecurityAndSanitizeCommands_5 : ∃ (ok : Bool) (s : State), (s.inLife [MOUNTED] = true) ∧ ((let waits := s.atticPending || (s.sec.sanStep == 5 && s.str.ckpt.isSome); (ok && 3 ≤ s.sec.sanStep && waits) = false)) :=
  ⟨true, stateIn MOUNTED, by decide +kernel⟩

theorem witness_SecurityAndSanitizeCommands_6 : ∃ (s : State), (s.inLife [MOUNTED] = true) ∧ (s.sec.sanLook = true) :=
  ⟨{ stateIn MOUNTED with sec := { (stateIn MOUNTED).sec with sanLook := true } }, by decide +kernel⟩

theorem witness_MountSteps_0 : ∃ (s : State), (s.inLife [MOUNTING] = true) ∧ ((let step := s.get SYS_MNTPROG_STEP; (step == 4 || step == 5) = true)) ∧ (s.attReadDone = true) :=
  ⟨(stateIn MOUNTING).put SYS_MNTPROG_STEP 4, by decide +kernel⟩

theorem witness_MountSteps_1 : ∃ (s : State), (s.inLife [MOUNTED] = true) ∧ (s.attReadDone = true) :=
  ⟨(stateIn MOUNTED).put SYS_MNTPROG_ATTPEND 54, by decide +kernel⟩

theorem witness_MountSteps_2 : ∃ (s : State), (s.inLife [MOUNTING] = true) ∧ (s.get SYS_MNTPROG_STEP = 6) ∧ (s.flag STR_STAT_RESYNC = true) ∧ (s.mnt.at'.isNone = true) ∧ (s.str.stripes.isEmpty = true) :=
  ⟨((stateIn MOUNTING).put SYS_MNTPROG_STEP 6).put STR_STAT_RESYNC 1, by decide +kernel⟩

theorem witness_MountSteps_3 : ∃ (s : State), (s.inLife [MOUNTING] = true) :=
  ⟨(stateIn MOUNTING).put SYS_MNTPROG_STEP 8, by decide +kernel⟩

theorem witness_MountSteps_4 : ∃ (s : State), (s.inLife [MOUNTING] = true) ∧ (s.get SYS_MNTPROG_STEP = 3) ∧ (s.minfoEnd = some none) :=
  ⟨minfoState, by decide +kernel⟩

theorem witness_MountSteps_5 : ∃ (s : State), (s.inLife [MOUNTING] = true) ∧ ((s.get SYS_MNTPROG_STEP = 4 ∨ s.get SYS_MNTPROG_STEP = 5)) ∧ (s.attReadDone = true) ∧ ((([0, 1, 2].all fun c => !s.factoryOk c) = true ∨ ([3, 4, 5].all fun c => !s.factoryOk c) = true)) :=
  ⟨(stateIn MOUNTING).put SYS_MNTPROG_STEP 5, by decide +kernel⟩

theorem witness_MountSteps_6 : ∃ (s : State), (s.inLife [MOUNTING] = true) ∧ ((s.sideUsable 0 = false ∨ s.sideUsable 1 = false)) :=
  ⟨stateIn MOUNTING, by decide +kernel⟩

theorem witness_MountSteps_7 : ∃ (s : State), (s.inLife [PARKING] = true) :=
  ⟨(stateIn PARKING).put SYS_MNTPROG_STEP 0xA, by decide +kernel⟩

theorem witness_IoCommands_0 : ∃ (c : IoCmd) (s : State) (t : State), (c.qid ≠ 0) ∧ ((s.hst.cmds.filter fun d => d.locked).length < 4096) ∧ (fetch (ioCmd c 0) s = some t) ∧ (t.ioRefusal (ioCmd c 0) 0 = none) ∧ ((let h : HCmd := { ioCmd c 0 with seq := s.hst.fetchSeq }; let y := patrolYield t; let u := y; let x : HCmd := { h with locked := true }; let v := lockIo x u; v.conflicted x = false ∧ v.pagesWait x = false)) :=
  ⟨ioEntry, ioState false, (fetch (ioCmd ioEntry 0) (ioState false)).getD State.reset, by decide +kernel⟩

theorem witness_IoCommands_1 : ∃ (c : IoCmd) (fua : Bool) (os : List BlockRead) (s : State) (t : State) (n : Ns), (c.qid ≠ 0) ∧ ((s.hst.cmds.filter fun d => d.locked).length < 4096) ∧ (fetch ({ ioCmd c 2 with fua, os }) s = some t) ∧ (t.ioRefusal { ioCmd c 2 with fua, os } (c.nlb.toNat + 1) = none) ∧ ((patrolYield t).nsOf c.nsid.toNat = some n) ∧ ((let h : HCmd := { { ioCmd c 2 with fua, os } with seq := s.hst.fetchSeq }; let y := patrolYield t; let r := rangeOf n h.slba h.nlb; let u := y; let x : HCmd := { { h with lo := r.1, hi := r.2 } with locked := true }; let v := lockIo x u; v.conflicted x = false ∧ v.pagesWait x = false)) :=
  ⟨ioEntry, false, [], ioState false, (fetch ({ ioCmd ioEntry 2 with fua := false, os := [] }) (ioState false)).getD State.reset, { nsOne with zoned := false }, by decide +kernel⟩

theorem witness_IoCommands_2 : ∃ (c : IoCmd) (s : State) (t : State) (n : Ns), (c.qid ≠ 0) ∧ ((s.hst.cmds.filter fun d => d.locked).length < 4096) ∧ (fetch (ioCmd c 0xC) s = some t) ∧ (t.ioRefusal (ioCmd c 0xC) (c.nlb.toNat + 1) = none) ∧ ((patrolYield t).nsOf c.nsid.toNat = some n) ∧ ((let h : HCmd := { ioCmd c 0xC with seq := s.hst.fetchSeq }; let y := patrolYield t; let r := rangeOf n h.slba h.nlb; let u := y; let x : HCmd := { { h with lo := r.1, hi := r.2, modify := false, data := [] } with locked := true }; let v := lockIo x u; v.conflicted x = false ∧ v.pagesWait x = false)) :=
  ⟨ioEntry, ioState false, (fetch (ioCmd ioEntry 0xC) (ioState false)).getD State.reset, { nsOne with zoned := false }, by decide +kernel⟩

theorem witness_IoCommands_3 : ∃ (c : IoCmd) (data : List Nat) (ls : List LineOutcome) (s : State) (t : State) (n : Ns), (c.qid ≠ 0) ∧ ((s.hst.cmds.filter fun d => d.locked).length < 4096) ∧ (fetch ({ ioCmd c 1 with ls }) s = some t) ∧ (t.writeRefusal { ioCmd c 1 with ls } = none) ∧ ((patrolYield t).nsOf c.nsid.toNat = some n) ∧ ((let h : HCmd := { { ioCmd c 1 with ls } with seq := s.hst.fetchSeq }; let y := patrolYield t; let r := rangeOf n h.slba h.nlb; let u := y.when n.zoned (acceptZoneWrite (y.zoneSt n.nsid (h.slba / y.zoneLbas n)) h.nlb); let x : HCmd := { { h with lo := r.1, hi := r.2, modify := true, data } with locked := true }; let v := lockIo x u; v.conflicted x = false ∧ v.pagesWait x = false)) :=
  ⟨ioEntry, [5], [], ioState false, (fetch ({ ioCmd ioEntry 1 with ls := [] }) (ioState false)).getD State.reset, { nsOne with zoned := false }, by decide +kernel⟩

theorem witness_IoCommands_4 : ∃ (c : IoCmd) (s : State) (t : State) (n : Ns), (c.qid ≠ 0) ∧ ((s.hst.cmds.filter fun d => d.locked).length < 4096) ∧ (fetch (ioCmd c 8) s = some t) ∧ (t.ioRefusal (ioCmd c 8) (c.nlb.toNat + 1) = none) ∧ ((patrolYield t).nsOf c.nsid.toNat = some n) ∧ ((let h : HCmd := { ioCmd c 8 with seq := s.hst.fetchSeq }; let y := patrolYield t; let r := rangeOf n h.slba h.nlb; let u := y; let x : HCmd := { { h with lo := r.1, hi := r.2, modify := true, data := [] } with locked := true }; let v := lockIo x u; v.conflicted x = false ∧ v.pagesWait x = false)) :=
  ⟨ioEntry, ioState false, (fetch (ioCmd ioEntry 8) (ioState false)).getD State.reset, { nsOne with zoned := false }, by decide +kernel⟩

theorem witness_IoCommands_5 : ∃ (c : IoCmd) (ad : Bool) (ranges : List (Nat × Nat)) (s : State) (t : State) (n : Ns), (c.qid ≠ 0) ∧ ((s.hst.cmds.filter fun d => d.locked).length < 4096) ∧ (fetch ({ ioCmd c 9 with slba := 0, nlb := 0 }) s = some t) ∧ (t.ioRefusal { ioCmd c 9 with slba := 0, nlb := 0 } (ranges.foldl (fun m r => max m (r.1 + r.2)) 0) = none) ∧ ((patrolYield t).nsOf c.nsid.toNat = some n) ∧ ((let h : HCmd := { { ioCmd c 9 with slba := 0, nlb := 0 } with seq := s.hst.fetchSeq }; let y := patrolYield t; let top := ranges.foldl (fun m r => max m (r.1 + r.2)) 0; let low := ranges.foldl (fun m r => min m r.1) top; let r := rangeOf n low (top - low); let u := y; let x : HCmd := { { h with lo := r.1, hi := r.2, modify := true, data := if ad then ranges.flatMap (fun (q : Nat × Nat) => [q.1, q.2]) else [] } with locked := true }; let v := lockIo x u; v.conflicted x = false ∧ v.pagesWait x = false)) :=
  ⟨ioEntry, true, [(0, 1)], ioState false, (fetch ({ ioCmd ioEntry 9 with slba := 0, nlb := 0 }) (ioState false)).getD State.reset, { nsOne with zoned := false }, by decide +kernel⟩

theorem witness_ZoneCommands_0 : ∃ (c : IoCmd) (data : List Nat) (ls : List LineOutcome) (s : State) (t : State) (n : Ns), (c.qid ≠ 0) ∧ ((s.hst.cmds.filter fun d => d.locked).length < 4096) ∧ (fetch ({ ioCmd c 0x7D with ls }) s = some t) ∧ (t.ioRefusal { ioCmd c 0x7D with ls } 1 = none) ∧ (t.nsOf c.nsid.toNat = some n) ∧ (c.slba.toNat % t.zoneLbas n = 0) ∧ ((c.nlb.toNat + 1) * n.lba ≤ mdtsBytes) ∧ (t.zoneWriteRefusal n (t.zoneSt n.nsid (c.slba.toNat / t.zoneLbas n)) (t.zoneSt n.nsid (c.slba.toNat / t.zoneLbas n)).swp (c.nlb.toNat + 1) = none) ∧ ((patrolYield t).nsOf c.nsid.toNat = some n) ∧ ((let h : HCmd := { { ioCmd c 0x7D with ls } with seq := s.hst.fetchSeq }; let y := patrolYield t; let k := h.slba / y.zoneLbas n; let z := y.zoneSt n.nsid k; let slba := k * y.zoneLbas n + z.swp; let r := rangeOf n slba h.nlb; let u := acceptZoneWrite z h.nlb y; let x : HCmd := { { h with slba, lo := r.1, hi := r.2, modify := true, data } with locked := true }; let v := lockIo x u; v.conflicted x = false ∧ v.pagesWait x = false)) :=
  ⟨ioEntry, [5], [], (let s := (ioState true).put STR_JCFG_MAXDIRTY 4; { s with hst := { s.hst with zones := [{ nsid := 1, idx := 0 }] } }), (fetch ({ ioCmd ioEntry 0x7D with ls := [] }) ((let s := (ioState true).put STR_JCFG_MAXDIRTY 4; { s with hst := { s.hst with zones := [{ nsid := 1, idx := 0 }] } }))).getD State.reset, { nsOne with zoned := true }, by decide +kernel⟩

theorem witness_ZoneCommands_1 : ∃ (c : IoCmd) (all : Bool) (s : State) (t : State) (n : Ns), (c.qid ≠ 0) ∧ ((s.hst.cmds.filter fun d => d.locked).length < 4096) ∧ (fetch ({ ioCmd c 0x79 with arg := 3, nlb := 0 }) s = some t) ∧ (t.ioRefusal ({ ioCmd c 0x79 with arg := 3, nlb := 0 }) (if all then 0 else 1) = none) ∧ (t.nsOf c.nsid.toNat = some n) ∧ ((all = true ∨ c.slba.toNat % t.zoneLbas n = 0)) ∧ ((patrolYield t).nsOf c.nsid.toNat = some n) ∧ ((let h : HCmd := { { ioCmd c 0x79 with arg := 3, nlb := 0 } with seq := s.hst.fetchSeq }; let y := patrolYield t; let k := h.slba / y.zoneLbas n; let u := y; let x : HCmd := { { h with data := if all then (List.range n.zones.length).filter (fun j => zoneSelect 3 (y.zoneSt n.nsid j).st) else [k], lo := if all then 0 else k * y.zoneUnits, hi := if all then n.zones.length * y.zoneUnits else (k + 1) * y.zoneUnits, modify := true } with locked := true }; let v := lockIo x u; v.conflicted x = false ∧ v.pagesWait x = false)) :=
  ⟨ioEntry, false, ioState true, (fetch ({ ioCmd ioEntry 0x79 with arg := 3, nlb := 0 }) (ioState true)).getD State.reset, { nsOne with zoned := true }, by decide +kernel⟩

theorem witness_ZoneCommands_2 : ∃ (c : IoCmd) (all : Bool) (s : State) (t : State) (n : Ns), (c.qid ≠ 0) ∧ ((s.hst.cmds.filter fun d => d.locked).length < 4096) ∧ (fetch ({ ioCmd c 0x79 with arg := 1, nlb := 0 }) s = some t) ∧ (t.ioRefusal ({ ioCmd c 0x79 with arg := 1, nlb := 0 }) (if all then 0 else 1) = none) ∧ (t.nsOf c.nsid.toNat = some n) ∧ ((all = true ∨ c.slba.toNat % t.zoneLbas n = 0)) ∧ ((patrolYield t).nsOf c.nsid.toNat = some n) ∧ ((let h : HCmd := { { ioCmd c 0x79 with arg := 1, nlb := 0 } with seq := s.hst.fetchSeq }; let y := patrolYield t; let k := h.slba / y.zoneLbas n; let u := y; let x : HCmd := { { h with data := if all then (List.range n.zones.length).filter (fun j => zoneSelect 1 (y.zoneSt n.nsid j).st) else [k], lo := if all then 0 else k * y.zoneUnits, hi := if all then n.zones.length * y.zoneUnits else (k + 1) * y.zoneUnits, modify := true } with locked := true }; let v := lockIo x u; v.conflicted x = false ∧ v.pagesWait x = false)) :=
  ⟨ioEntry, false, ioState true, (fetch ({ ioCmd ioEntry 0x79 with arg := 1, nlb := 0 }) (ioState true)).getD State.reset, { nsOne with zoned := true }, by decide +kernel⟩

theorem witness_ZoneCommands_3 : ∃ (c : IoCmd) (all : Bool) (s : State) (t : State) (n : Ns), (c.qid ≠ 0) ∧ ((s.hst.cmds.filter fun d => d.locked).length < 4096) ∧ (fetch ({ ioCmd c 0x79 with arg := 2, nlb := 0 }) s = some t) ∧ (t.ioRefusal ({ ioCmd c 0x79 with arg := 2, nlb := 0 }) (if all then 0 else 1) = none) ∧ (t.nsOf c.nsid.toNat = some n) ∧ ((all = true ∨ c.slba.toNat % t.zoneLbas n = 0)) ∧ ((patrolYield t).nsOf c.nsid.toNat = some n) ∧ ((let h : HCmd := { { ioCmd c 0x79 with arg := 2, nlb := 0 } with seq := s.hst.fetchSeq }; let y := patrolYield t; let k := h.slba / y.zoneLbas n; let u := y; let x : HCmd := { { h with data := if all then (List.range n.zones.length).filter (fun j => zoneSelect 2 (y.zoneSt n.nsid j).st) else [k], lo := if all then 0 else k * y.zoneUnits, hi := if all then n.zones.length * y.zoneUnits else (k + 1) * y.zoneUnits, modify := true } with locked := true }; let v := lockIo x u; v.conflicted x = false ∧ v.pagesWait x = false)) :=
  ⟨ioEntry, false, ioState true, (fetch ({ ioCmd ioEntry 0x79 with arg := 2, nlb := 0 }) (ioState true)).getD State.reset, { nsOne with zoned := true }, by decide +kernel⟩

theorem witness_ZoneCommands_4 : ∃ (c : IoCmd) (all : Bool) (s : State) (t : State) (n : Ns), (c.qid ≠ 0) ∧ ((s.hst.cmds.filter fun d => d.locked).length < 4096) ∧ (fetch ({ ioCmd c 0x79 with arg := 4, nlb := 0 }) s = some t) ∧ (t.ioRefusal ({ ioCmd c 0x79 with arg := 4, nlb := 0 }) (if all then 0 else 1) = none) ∧ (t.nsOf c.nsid.toNat = some n) ∧ ((all = true ∨ c.slba.toNat % t.zoneLbas n = 0)) ∧ ((patrolYield t).nsOf c.nsid.toNat = some n) ∧ ((let h : HCmd := { { ioCmd c 0x79 with arg := 4, nlb := 0 } with seq := s.hst.fetchSeq }; let y := patrolYield t; let k := h.slba / y.zoneLbas n; let u := y; let x : HCmd := { { h with data := if all then (List.range n.zones.length).filter (fun j => zoneSelect 4 (y.zoneSt n.nsid j).st) else [k], lo := if all then 0 else k * y.zoneUnits, hi := if all then n.zones.length * y.zoneUnits else (k + 1) * y.zoneUnits, modify := true } with locked := true }; let v := lockIo x u; v.conflicted x = false ∧ v.pagesWait x = false)) :=
  ⟨ioEntry, false, ioState true, (fetch ({ ioCmd ioEntry 0x79 with arg := 4, nlb := 0 }) (ioState true)).getD State.reset, { nsOne with zoned := true }, by decide +kernel⟩

theorem witness_ZoneCommands_5 : ∃ (c : IoCmd) (opt : Fin 8) (len : Nat) (s : State) (t : State) (n : Ns), (c.qid ≠ 0) ∧ (fetch { ioCmd c 0x7A with nlb := 0 } s = some t) ∧ (t.ioRefusal { ioCmd c 0x7A with nlb := 0 } 1 = none) ∧ (t.nsOf c.nsid.toNat = some n) :=
  ⟨ioEntry, 0, 4096, ioState true, (fetch { ioCmd ioEntry 0x7A with nlb := 0 } (ioState true)).getD State.reset, { nsOne with zoned := true }, by decide +kernel⟩

theorem witness_ZoneCommands_6 : ∃ (s : State), (s.on = true) :=
  ⟨ioState false, by decide +kernel⟩

theorem witness_ZoneCommands_7 : ∃ (nsid : Nat) (page : Nat) (us : Nat) (s : State), (s.on = true) ∧ (s.str.pagesLeft.contains (nsid, page) = true) ∧ ((let got := s.str.pageGot.find? fun g => g.1 == nsid && g.2.1 == page; let never := Sparse.get s.str.dir (mapKey nsid page) == 0; (never || got.isSome) = true)) :=
  ⟨1, 4, 30, { stateIn MOUNTED with str := { pagesLeft := [(1, 4)] } }, by decide +kernel⟩

theorem witness_SequencerArithmetic_0 : ∃ (q : Seq) (w : Microword) (s : State) (t : State) (a : Nat), (fetchMicro q 0x00 w s = some (a, t)) ∧ (a < 2 ^ 14 + 256) ∧ (w.cond.val = 0) :=
  ⟨2, ⟨0, 0, false, 0, 1, 2, false, 0, 5, 0, 0⟩, { (stateIn MOUNTED).put (SEQ_STAT_STATE 2) sqRUN with seqs := (List.replicate 6 {}) }, ((fetchMicro 2 0x00 ⟨0, 0, false, 0, 1, 2, false, 0, 5, 0, 0⟩ ({ (stateIn MOUNTED).put (SEQ_STAT_STATE 2) sqRUN with seqs := (List.replicate 6 {}) })).getD (0, State.reset)).2, 0, by decide +kernel⟩

theorem witness_SequencerArithmetic_1 : ∃ (q : Seq) (w : Microword) (s : State) (t : State) (a : Nat), (fetchMicro q 0x01 w s = some (a, t)) ∧ (a < 2 ^ 14 + 256) ∧ (w.cond.val = 0) :=
  ⟨2, ⟨0, 0, false, 0, 1, 2, false, 0, 5, 0, 0⟩, { (stateIn MOUNTED).put (SEQ_STAT_STATE 2) sqRUN with seqs := (List.replicate 6 {}) }, ((fetchMicro 2 0x01 ⟨0, 0, false, 0, 1, 2, false, 0, 5, 0, 0⟩ ({ (stateIn MOUNTED).put (SEQ_STAT_STATE 2) sqRUN with seqs := (List.replicate 6 {}) })).getD (0, State.reset)).2, 0, by decide +kernel⟩

theorem witness_SequencerArithmetic_2 : ∃ (q : Seq) (w : Microword) (s : State) (t : State) (a : Nat), (fetchMicro q 0x02 w s = some (a, t)) ∧ (a < 2 ^ 14 + 256) ∧ (w.cond.val = 0) :=
  ⟨2, ⟨0, 0, false, 0, 1, 2, false, 0, 5, 0, 0⟩, { (stateIn MOUNTED).put (SEQ_STAT_STATE 2) sqRUN with seqs := (List.replicate 6 {}) }, ((fetchMicro 2 0x02 ⟨0, 0, false, 0, 1, 2, false, 0, 5, 0, 0⟩ ({ (stateIn MOUNTED).put (SEQ_STAT_STATE 2) sqRUN with seqs := (List.replicate 6 {}) })).getD (0, State.reset)).2, 0, by decide +kernel⟩

theorem witness_SequencerArithmetic_3 : ∃ (q : Seq) (w : Microword) (s : State) (t : State) (a : Nat), (fetchMicro q 0x03 w s = some (a, t)) ∧ (a < 2 ^ 14 + 256) ∧ (w.cond.val = 0) :=
  ⟨2, ⟨0, 0, false, 0, 1, 2, false, 0, 5, 0, 0⟩, { (stateIn MOUNTED).put (SEQ_STAT_STATE 2) sqRUN with seqs := (List.replicate 6 {}) }, ((fetchMicro 2 0x03 ⟨0, 0, false, 0, 1, 2, false, 0, 5, 0, 0⟩ ({ (stateIn MOUNTED).put (SEQ_STAT_STATE 2) sqRUN with seqs := (List.replicate 6 {}) })).getD (0, State.reset)).2, 0, by decide +kernel⟩

theorem witness_SequencerArithmetic_4 : ∃ (q : Seq) (w : Microword) (s : State) (t : State) (a : Nat), (fetchMicro q 0x04 w s = some (a, t)) ∧ (a < 2 ^ 14 + 256) ∧ (w.cond.val = 0) :=
  ⟨2, ⟨0, 0, false, 0, 1, 2, false, 0, 5, 0, 0⟩, { (stateIn MOUNTED).put (SEQ_STAT_STATE 2) sqRUN with seqs := (List.replicate 6 {}) }, ((fetchMicro 2 0x04 ⟨0, 0, false, 0, 1, 2, false, 0, 5, 0, 0⟩ ({ (stateIn MOUNTED).put (SEQ_STAT_STATE 2) sqRUN with seqs := (List.replicate 6 {}) })).getD (0, State.reset)).2, 0, by decide +kernel⟩

theorem witness_SequencerArithmetic_5 : ∃ (q : Seq) (w : Microword) (s : State) (t : State) (a : Nat), (fetchMicro q 0x05 w s = some (a, t)) ∧ (a < 2 ^ 14 + 256) ∧ (w.cond.val = 0) :=
  ⟨2, ⟨0, 0, false, 0, 1, 2, false, 0, 5, 0, 0⟩, { (stateIn MOUNTED).put (SEQ_STAT_STATE 2) sqRUN with seqs := (List.replicate 6 {}) }, ((fetchMicro 2 0x05 ⟨0, 0, false, 0, 1, 2, false, 0, 5, 0, 0⟩ ({ (stateIn MOUNTED).put (SEQ_STAT_STATE 2) sqRUN with seqs := (List.replicate 6 {}) })).getD (0, State.reset)).2, 0, by decide +kernel⟩

theorem witness_SequencerArithmetic_6 : ∃ (q : Seq) (w : Microword) (s : State) (t : State) (a : Nat), (fetchMicro q 0x06 w s = some (a, t)) ∧ (a < 2 ^ 14 + 256) ∧ (w.cond.val = 0) :=
  ⟨2, ⟨0, 0, false, 0, 1, 2, false, 0, 5, 0, 0⟩, { (stateIn MOUNTED).put (SEQ_STAT_STATE 2) sqRUN with seqs := (List.replicate 6 {}) }, ((fetchMicro 2 0x06 ⟨0, 0, false, 0, 1, 2, false, 0, 5, 0, 0⟩ ({ (stateIn MOUNTED).put (SEQ_STAT_STATE 2) sqRUN with seqs := (List.replicate 6 {}) })).getD (0, State.reset)).2, 0, by decide +kernel⟩

theorem witness_SequencerArithmetic_7 : ∃ (q : Seq) (w : Microword) (s : State) (t : State) (a : Nat), (fetchMicro q 0x07 w s = some (a, t)) ∧ (a < 2 ^ 14 + 256) ∧ (w.cond.val = 0) :=
  ⟨2, ⟨0, 0, false, 0, 1, 2, false, 0, 5, 0, 0⟩, { (stateIn MOUNTED).put (SEQ_STAT_STATE 2) sqRUN with seqs := (List.replicate 6 {}) }, ((fetchMicro 2 0x07 ⟨0, 0, false, 0, 1, 2, false, 0, 5, 0, 0⟩ ({ (stateIn MOUNTED).put (SEQ_STAT_STATE 2) sqRUN with seqs := (List.replicate 6 {}) })).getD (0, State.reset)).2, 0, by decide +kernel⟩

theorem witness_SequencerArithmetic_8 : ∃ (q : Seq) (w : Microword) (s : State) (t : State) (a : Nat), (fetchMicro q 0x08 w s = some (a, t)) ∧ (a < 2 ^ 14 + 256) ∧ (w.cond.val = 0) :=
  ⟨2, ⟨0, 0, false, 0, 1, 2, false, 0, 5, 0, 0⟩, { (stateIn MOUNTED).put (SEQ_STAT_STATE 2) sqRUN with seqs := (List.replicate 6 {}) }, ((fetchMicro 2 0x08 ⟨0, 0, false, 0, 1, 2, false, 0, 5, 0, 0⟩ ({ (stateIn MOUNTED).put (SEQ_STAT_STATE 2) sqRUN with seqs := (List.replicate 6 {}) })).getD (0, State.reset)).2, 0, by decide +kernel⟩

theorem witness_SequencerArithmetic_9 : ∃ (q : Seq) (w : Microword) (s : State) (t : State) (a : Nat), (fetchMicro q 0x09 w s = some (a, t)) ∧ (a < 2 ^ 14 + 256) ∧ (w.cond.val = 0) :=
  ⟨2, ⟨0, 0, false, 0, 1, 2, false, 0, 5, 0, 0⟩, { (stateIn MOUNTED).put (SEQ_STAT_STATE 2) sqRUN with seqs := (List.replicate 6 {}) }, ((fetchMicro 2 0x09 ⟨0, 0, false, 0, 1, 2, false, 0, 5, 0, 0⟩ ({ (stateIn MOUNTED).put (SEQ_STAT_STATE 2) sqRUN with seqs := (List.replicate 6 {}) })).getD (0, State.reset)).2, 0, by decide +kernel⟩

theorem witness_SequencerAccessAndFlow_0 : ∃ (q : Seq) (w : Microword) (s : State) (t : State) (a : Nat), (fetchMicro q 0x0A w s = some (a, t)) ∧ (a < 2 ^ 14 + 256) ∧ (w.cond.val = 0) :=
  ⟨2, ⟨0, 0, false, 0, 1, 2, false, 0, 5, 0, 0⟩, { (stateIn MOUNTED).put (SEQ_STAT_STATE 2) sqRUN with seqs := (List.replicate 6 {}) }, ((fetchMicro 2 0x0A ⟨0, 0, false, 0, 1, 2, false, 0, 5, 0, 0⟩ ({ (stateIn MOUNTED).put (SEQ_STAT_STATE 2) sqRUN with seqs := (List.replicate 6 {}) })).getD (0, State.reset)).2, 0, by decide +kernel⟩

theorem witness_SequencerAccessAndFlow_1 : ∃ (q : Seq) (w : Microword) (s : State) (t : State) (a : Nat), (fetchMicro q 0x0B w s = some (a, t)) ∧ (a < 2 ^ 14 + 256) ∧ (w.cond.val = 0) :=
  ⟨2, ⟨0, 0, false, 0, 1, 2, false, 0, 5, 0, 0⟩, { (stateIn MOUNTED).put (SEQ_STAT_STATE 2) sqRUN with seqs := (List.replicate 6 {}) }, ((fetchMicro 2 0x0B ⟨0, 0, false, 0, 1, 2, false, 0, 5, 0, 0⟩ ({ (stateIn MOUNTED).put (SEQ_STAT_STATE 2) sqRUN with seqs := (List.replicate 6 {}) })).getD (0, State.reset)).2, 0, by decide +kernel⟩

theorem witness_SequencerAccessAndFlow_2 : ∃ (q : Seq) (w : Microword) (s : State) (t : State) (a : Nat), (fetchMicro q 0x0C w s = some (a, t)) ∧ (a < 2 ^ 14 + 256) ∧ (w.cond.val = 0) :=
  ⟨2, ⟨0, 0, false, 0, 1, 2, false, 0, 5, 0, 0⟩, { (stateIn MOUNTED).put (SEQ_STAT_STATE 2) sqRUN with seqs := (List.replicate 6 {}) }, ((fetchMicro 2 0x0C ⟨0, 0, false, 0, 1, 2, false, 0, 5, 0, 0⟩ ({ (stateIn MOUNTED).put (SEQ_STAT_STATE 2) sqRUN with seqs := (List.replicate 6 {}) })).getD (0, State.reset)).2, 0, by decide +kernel⟩

theorem witness_SequencerAccessAndFlow_3 : ∃ (q : Seq) (w : Microword) (s : State) (t : State) (a : Nat), (fetchMicro q 0x0D w s = some (a, t)) ∧ (a < 2 ^ 14 + 256) ∧ (w.cond.val = 0) :=
  ⟨2, ⟨0, 0, false, 0, 1, 2, false, 0, 5, 0, 0⟩, { (stateIn MOUNTED).put (SEQ_STAT_STATE 2) sqRUN with seqs := (List.replicate 6 {}) }, ((fetchMicro 2 0x0D ⟨0, 0, false, 0, 1, 2, false, 0, 5, 0, 0⟩ ({ (stateIn MOUNTED).put (SEQ_STAT_STATE 2) sqRUN with seqs := (List.replicate 6 {}) })).getD (0, State.reset)).2, 0, by decide +kernel⟩

theorem witness_SequencerAccessAndFlow_4 : ∃ (q : Seq) (w : Microword) (s : State) (t : State) (a : Nat), (fetchMicro q 0x0E w s = some (a, t)) ∧ (a < 2 ^ 14 + 256) ∧ (w.cond.val = 0) :=
  ⟨2, ⟨0, 0, false, 0, 1, 2, false, 0, 5, 0, 0⟩, { (stateIn MOUNTED).put (SEQ_STAT_STATE 2) sqRUN with seqs := (List.replicate 6 {}) }, ((fetchMicro 2 0x0E ⟨0, 0, false, 0, 1, 2, false, 0, 5, 0, 0⟩ ({ (stateIn MOUNTED).put (SEQ_STAT_STATE 2) sqRUN with seqs := (List.replicate 6 {}) })).getD (0, State.reset)).2, 0, by decide +kernel⟩

theorem witness_SequencerAccessAndFlow_5 : ∃ (q : Seq) (w : Microword) (cls : EvClass) (owner : Fin 28) (target : Nat) (len : Nat) (rank : Fin 7) (exempt : Bool) (s : State) (t : State) (a : Nat), (fetchMicro q 0x0F w s = some (a, t)) ∧ (a < 2 ^ 14 + 256) ∧ (w.cond.val = 0) :=
  ⟨2, ⟨0, 0, false, 0, 1, 2, false, 0, 5, 0, 0⟩, .readWin, 2, 4096, 10, 0, false, { (stateIn MOUNTED).put (SEQ_STAT_STATE 2) sqRUN with seqs := (List.replicate 6 {}) }, ((fetchMicro 2 0x0F ⟨0, 0, false, 0, 1, 2, false, 0, 5, 0, 0⟩ ({ (stateIn MOUNTED).put (SEQ_STAT_STATE 2) sqRUN with seqs := (List.replicate 6 {}) })).getD (0, State.reset)).2, 0, by decide +kernel⟩

theorem witness_SequencerAccessAndFlow_6 : ∃ (q : Seq) (w : Microword) (s : State) (t : State) (a : Nat), (fetchMicro q 0x10 w s = some (a, t)) ∧ (a < 2 ^ 14 + 256) ∧ (w.cond.val = 0) :=
  ⟨2, ⟨0, 0, false, 0, 1, 2, false, 0, 5, 0, 0⟩, { (stateIn MOUNTED).put (SEQ_STAT_STATE 2) sqRUN with seqs := (List.replicate 6 {}) }, ((fetchMicro 2 0x10 ⟨0, 0, false, 0, 1, 2, false, 0, 5, 0, 0⟩ ({ (stateIn MOUNTED).put (SEQ_STAT_STATE 2) sqRUN with seqs := (List.replicate 6 {}) })).getD (0, State.reset)).2, 0, by decide +kernel⟩

theorem witness_SequencerAccessAndFlow_7 : ∃ (q : Seq) (w : Microword) (s : State) (t : State) (a : Nat), (fetchMicro q 0x11 w s = some (a, t)) ∧ (a < 2 ^ 14 + 256) ∧ (w.cond.val < 6) :=
  ⟨2, ⟨0, 0, false, 0, 1, 2, false, 0, 5, 0, 0⟩, { (stateIn MOUNTED).put (SEQ_STAT_STATE 2) sqRUN with seqs := (List.replicate 6 {}) }, ((fetchMicro 2 0x11 ⟨0, 0, false, 0, 1, 2, false, 0, 5, 0, 0⟩ ({ (stateIn MOUNTED).put (SEQ_STAT_STATE 2) sqRUN with seqs := (List.replicate 6 {}) })).getD (0, State.reset)).2, 0, by decide +kernel⟩

theorem witness_SequencerAccessAndFlow_8 : ∃ (q : Seq) (w : Microword) (s : State) (t : State) (a : Nat), (fetchMicro q 0x12 w s = some (a, t)) ∧ (a < 2 ^ 14 + 256) ∧ (w.cond.val < 6) :=
  ⟨2, ⟨0, 0, false, 0, 1, 2, false, 0, 5, 0, 0⟩, { (stateIn MOUNTED).put (SEQ_STAT_STATE 2) sqRUN with seqs := (List.replicate 6 {}) }, ((fetchMicro 2 0x12 ⟨0, 0, false, 0, 1, 2, false, 0, 5, 0, 0⟩ ({ (stateIn MOUNTED).put (SEQ_STAT_STATE 2) sqRUN with seqs := (List.replicate 6 {}) })).getD (0, State.reset)).2, 0, by decide +kernel⟩

theorem witness_SequencerAccessAndFlow_9 : ∃ (q : Seq) (w : Microword) (s : State) (t : State) (a : Nat), (fetchMicro q 0x13 w s = some (a, t)) ∧ (a < 2 ^ 14 + 256) ∧ (w.cond.val < 6) :=
  ⟨2, ⟨0, 0, false, 0, 1, 2, false, 0, 5, 0, 0⟩, { (stateIn MOUNTED).put (SEQ_STAT_STATE 2) sqRUN with seqs := (List.replicate 6 {}) }, ((fetchMicro 2 0x13 ⟨0, 0, false, 0, 1, 2, false, 0, 5, 0, 0⟩ ({ (stateIn MOUNTED).put (SEQ_STAT_STATE 2) sqRUN with seqs := (List.replicate 6 {}) })).getD (0, State.reset)).2, 0, by decide +kernel⟩

theorem witness_SequencerAccessAndFlow_10 : ∃ (q : Seq) (w : Microword) (s : State) (t : State) (a : Nat), (fetchMicro q 0x14 w s = some (a, t)) ∧ (a < 2 ^ 14 + 256) ∧ (w.cond.val = 0) :=
  ⟨2, ⟨0, 0, false, 0, 1, 2, false, 0, 5, 0, 0⟩, { (stateIn MOUNTED).put (SEQ_STAT_STATE 2) sqRUN with seqs := (List.replicate 6 {}) }, ((fetchMicro 2 0x14 ⟨0, 0, false, 0, 1, 2, false, 0, 5, 0, 0⟩ ({ (stateIn MOUNTED).put (SEQ_STAT_STATE 2) sqRUN with seqs := (List.replicate 6 {}) })).getD (0, State.reset)).2, 0, by decide +kernel⟩

theorem witness_SequencerEvents_0 : ∃ (q : Seq) (i : Fin 8) (desc : List (BitVec 24)) (s : State), (s.applied = true) ∧ (s.get (SEQ_STAT_STATE q) = sqWAIT) ∧ ((s.seq q).wait = 1) ∧ ((s.seq q).waitQ = i.val) ∧ (((s.seq q).outAt i).length < queueMax) :=
  ⟨1, 3, [], { (stateIn MOUNTED).put (SEQ_STAT_STATE 1) sqWAIT with seqs := List.replicate 6 { wait := 1, waitQ := 3 } }, by decide +kernel⟩

theorem witness_SequencerEvents_1 : ∃ (q : Seq) (i : Fin 8) (desc : List (BitVec 24)) (s : State), (s.applied = true) ∧ ((s.get (SEQ_STAT_STATE q) = sqWAIT ∨ s.get (SEQ_STAT_STATE q) = sqBARRIER)) ∧ (((s.seq q).wait ≠ 1 ∨ (s.seq q).waitQ ≠ i.val)) ∧ (((s.seq q).inAt i).length < queueMax) :=
  ⟨1, 3, [], { (stateIn MOUNTED).put (SEQ_STAT_STATE 1) sqWAIT with seqs := List.replicate 6 { wait := 2, waitQ := 3 } }, by decide +kernel⟩

theorem witness_SequencerEvents_2 : ∃ (mask : BitVec 6) (s : State), (s.applied = true) ∧ ((let named := (List.range 6).filter fun q => mask.toNat.testBit q; named.all (s.atBarrier mask.toNat) = true)) :=
  ⟨3#6, { ((stateIn MOUNTED).put (SEQ_STAT_STATE 0) sqBARRIER).put (SEQ_STAT_STATE 1) sqBARRIER with seqs := List.replicate 6 { waitQ := 3, wait := 4 } }, by decide +kernel⟩

theorem witness_SequencerEvents_3 : ∃ (q : Seq) (a : BitVec 14) (s : State), (s.applied = true) :=
  ⟨3, 7#14, stateIn PRIMED, by decide +kernel⟩

theorem witness_SequencerEvents_4 : ∃ (q : Seq) (cause : Fin 2) (scan : Option (BitVec 14)) (s : State), (s.applied = true) ∧ (s.get (SEQ_STAT_STATE q) = sqRUN) ∧ ((cause = 1 ∨ scan = none)) :=
  ⟨3, 1, some 0, (stateIn PRIMED).put (SEQ_STAT_STATE 3) sqRUN, by decide +kernel⟩

theorem witness_SequencerEvents_5 : ∃ (s : State), (s.applied = true) :=
  ⟨stateIn MOUNTED, by decide +kernel⟩

theorem witness_SequencerEvents_6 : ∃ (idx : Nat) (s : State) (r : Req), (s.applied = true) ∧ (s.ang.subm[idx]? = some r) :=
  ⟨0, { stateIn MOUNTED with ang := { subm := [⟨{ cls := .readWin, owner := 0, target := 4096, len := 5 }, 0, 2⟩] } }, ⟨{ cls := .readWin, owner := 0, target := 4096, len := 5 }, 0, 2⟩, by decide +kernel⟩

theorem witness_Bar2AndScrub_0 : ∃ (p : Port) (off : BitVec 32) (reach : Fin 16385) (o : BlockRead) (l : LineOutcome) (s : State), (s.portOn p = true) :=
  ⟨0, 0#32, 0, {}, .clean, hostState MOUNTED 0, by decide +kernel⟩

theorem witness_Bar2AndScrub_1 : ∃ (p : Port) (off : BitVec 32) (data : List Byte) (reach : Fin 16385) (os : List BlockRead) (ls : List LineOutcome) (s : State), (s.portOn p = true) ∧ (s.applied = true) :=
  ⟨0, 0#32, [1, 2, 3, 4], 0, [], [], hostState MOUNTED 0, by decide +kernel⟩

theorem witness_Bar2AndScrub_2 : ∃ (pulls : Nat) (s : State), (s.applied = true) ∧ (s.get MEM_STAT_PHASE = 2) :=
  ⟨5, (stateIn MOUNTED).put MEM_STAT_PHASE 2, by decide +kernel⟩

theorem witness_Bar2AndScrub_3 : ∃ (os : List BlockRead) (s : State) (e : Ev), (s.scrubs = true) ∧ (s.turn (dueRank .scrub) = true) ∧ (s.ang.due.find? (fun e => e.cls == .scrub) = some e) :=
  ⟨[], withDue .scrub 0 (((stateIn MOUNTED).put MEM_SCRUB_EN 1).put MEM_STAT_PHASE 3), { cls := .scrub, owner := 0, target := 0, len := 0 }, by decide +kernel⟩

theorem witness_Bar2AndScrub_4 : ∃ (lap : Nat) (s : State), (s.applied = true) ∧ (s.get MEM_STAT_PHASE = 3) ∧ (s.get MEM_SCRPROG_BLOCK = s.blocks) :=
  ⟨9, (let s := (stateIn MOUNTED).put MEM_STAT_PHASE 3; s.put MEM_SCRPROG_BLOCK s.blocks), by decide +kernel⟩

theorem witness_Bar2AndScrub_5 : ∃ (s : State), (s.applied = true) :=
  ⟨stateIn MOUNTED, by decide +kernel⟩

theorem witness_Bar2AndScrub_6 : ∃ (n : Nat) (s : State), (s.applied = true) ∧ ((let l := s.mem.errs.take n; let addrs := ((l.filter fun e => e.1 == oADDR).map Prod.snd).eraseDups.length; (s.get FLT_CFG_UELIM ≤ l.length || s.get FLT_CFG_ADDRLIM ≤ addrs) = true)) :=
  ⟨64, { stateIn MOUNTED with mem := { errs := List.replicate 64 (1, 7) } }, by decide +kernel⟩

theorem witness_Bar2AndScrub_7 : ∃ (rates : List (BitVec 8)) (s : State), (s.applied = true) ∧ (rates.length = 4) :=
  ⟨[1#8, 2#8, 3#8, 4#8], stateIn MOUNTED, by decide +kernel⟩

theorem witness_LarderCommands_0 : ∃ (w : Way) (line : BitVec 26) (dirty : Bool) (s : State), (s.applied = true) ∧ (s.bit LRD_WAYS_INSVC w = true) :=
  ⟨3, 5#26, true, (stateIn MOUNTED).put LRD_WAYS_INSVC 0xFFFF, by decide +kernel⟩

theorem witness_LarderCommands_1 : ∃ (w : Way) (k : Nat) (n : Nat) (block : BitVec 28) (s : State), (s.applied = true) ∧ (s.bit LRD_WAYS_INSVC w = true) ∧ (k ≤ Sparse.get s.lrd.ces w) ∧ (s.get LRD_WCFG_WAYCE ≤ k + n) :=
  ⟨3, 0, 70000, 5#28, (stateIn MOUNTED).put LRD_WAYS_INSVC 0xFFFF, by decide +kernel⟩

theorem witness_LarderCommands_2 : ∃ (p : Port) (v : Word) (s : State), (s.reaches p false = true) :=
  ⟨0, 1#32, hostState MOUNTED 0, by decide +kernel⟩

theorem witness_LarderCommands_3 : ∃ (p : Port) (v : Word) (s : State), (s.reaches p false = true) :=
  ⟨0, 0#32, hostState MOUNTED 0, by decide +kernel⟩

theorem witness_LarderCommands_4 : ∃ (p : Port) (v : Word) (s : State), (s.reaches p false = true) :=
  ⟨1, 16#32, hostState MOUNTED 1, by decide +kernel⟩

theorem witness_LarderCommands_5 : ∃ (p : Port) (v : Word) (s : State), (s.reaches p false = true) :=
  ⟨0, 32#32, hostState MOUNTED 0, by decide +kernel⟩

theorem witness_LarderCommands_6 : ∃ (w : Way) (s : State), (s.applied = true) ∧ (s.lrd.cleaning.contains w.val = true) :=
  ⟨2, { stateIn MOUNTED with lrd := { cleaning := [2] } }, by decide +kernel⟩

theorem witness_LarderCommands_7 : ∃ (pass : Bool) (s : State) (w : Nat), (s.lrd.act = some (2, w)) ∧ (s.applied = true) :=
  ⟨true, { stateIn MOUNTED with lrd := { act := some (2, 6) } }, 6, by decide +kernel⟩

theorem witness_LarderCommands_8 : ∃ (s : State), (s.applied = true) ∧ (s.lrdState = lDISABLING) :=
  ⟨(stateIn MOUNTED).put LRD_STAT_STATE lDISABLING, by decide +kernel⟩

theorem witness_DmaCommands_0 : ∃ (p : Port) (c : Chan) (v : Word) (s : State), (s.reaches p true = true) :=
  ⟨0, 7, 1#32, hostState MOUNTED 0, by decide +kernel⟩

theorem witness_DmaCommands_1 : ∃ (p : Port) (c : Chan) (v : Word) (out : Nat) (s : State), (s.reaches p true = true) :=
  ⟨0, 7, 4#32, 64, hostState MOUNTED 0, by decide +kernel⟩

theorem witness_DmaCommands_2 : ∃ (p : Port) (c : Chan) (v : Word) (s : State), (s.reaches p true = true) :=
  ⟨0, 0, 0#32, hostState BARE 0, by decide +kernel⟩

theorem witness_DmaCommands_3 : ∃ (p : Port) (c : Chan) (v : Word) (s : State), (s.reaches p true = true) :=
  ⟨1, 3, 2#32, hostState MOUNTED 1, by decide +kernel⟩

theorem witness_DmaCommands_4 : ∃ (c : Chan) (n : Nat) (data : List Byte) (left : Nat) (s : State), (s.dmaRuns c = true) ∧ (s.flag (DMA_STAT_PAUSED c) = false) ∧ (s.get (DMA_CTRL_SSPACE c) ≠ spFIFO) ∧ (0 < n) ∧ (n % 4 = 0) ∧ (n + left ≤ min (s.get (DMA_LEN_LEN c)) dmaAhead) ∧ ((let host := s.get (DMA_CTRL_SSPACE c) == spHOST; (!host || data.length == n) = true)) ∧ ((!s.flag (DMA_CTRL_PAUSE c) || n + left == (s.dmaSt c).issued) = true) :=
  ⟨2, 4, [1, 2, 3, 4], 0, ((stateIn MOUNTED).put (DMA_STAT_BUSY 2) 1).puts [(DMA_CTRL_SSPACE 2, spHOST), (DMA_LEN_LEN 2, 4)], by decide +kernel⟩

theorem witness_DmaCommands_5 : ∃ (c : Chan) (s : State), (s.dmaRuns c = true) ∧ (s.flag (DMA_CTRL_PAUSE c) = false) ∧ (s.get (DMA_CTRL_SSPACE c) = spFIFO) ∧ ((let pkt := s.dmaPacket c; pkt.isEmpty = false)) ∧ ((let pkt := s.dmaPacket c; let data := pkt.flatMap fun w => (List.range 4).map fun i => BitVec.ofNat 8 (w.toNat / 256 ^ i); let circ := s.flag (DMA_CTRL_CIRC c); (decide (data.length ≤ s.get (DMA_LEN_LEN c)) || (circ && data.length ≤ (s.dmaSt c).len0)) = true)) :=
  ⟨1, { ((stateIn MOUNTED).put (DMA_STAT_BUSY 1) 1).puts [(DMA_CTRL_SSPACE 1, spFIFO), (DMA_LEN_LEN 1, 64)] with fifos := [{ pkts := [[0, 0]] }, {}, {}] }, by decide +kernel⟩

theorem witness_DmaCommands_6 : ∃ (c : Chan) (s : State), (s.dmaRuns c = true) ∧ ((s.dmaSt c).halfDone = false) ∧ (s.dmaHalfway c = true) :=
  ⟨5, (stateIn MOUNTED).put (DMA_STAT_BUSY 5) 1, by decide +kernel⟩

theorem witness_DmaCommands_7 : ∃ (c : Chan) (s : State), (s.dmaRuns c = true) ∧ (s.dmaOver c = true) ∧ (((s.dmaSt c).halfDone || !s.dmaHalfway c) = true) :=
  ⟨5, ((stateIn MOUNTED).put (DMA_STAT_BUSY 5) 1).setDma 5 fun d => { d with halfDone := true }, by decide +kernel⟩

theorem witness_DmaCommands_8 : ∃ (c : Chan) (err : Fin 3) (o : BlockRead) (l : LineOutcome) (s : State), (s.dmaRuns c = true) ∧ ((let r := memLoad srcDMA (s.dmaSrc c / 64) o l s; (if err.val == 2 then s.get (DMA_CTRL_SSPACE c) == spBUFFER && !r.1 else s.get (DMA_CTRL_SSPACE c) == spHOST || s.get (DMA_CTRL_DSPACE c) == spHOST) = true)) :=
  ⟨0, 0, {}, .clean, ((stateIn MOUNTED).put (DMA_STAT_BUSY 0) 1).put (DMA_CTRL_SSPACE 0) spHOST, by decide +kernel⟩

theorem witness_DmaCommands_9 : ∃ (p : Port) (v : Word) (s : State), (s.reaches p true = true) :=
  ⟨0, 1#32, hostState BARE 0, by decide +kernel⟩

theorem witness_DmaCommands_10 : ∃ (p : Port) (v : Word) (s : State), (s.reaches p true = true) :=
  ⟨1, 0#32, hostState BARE 1, by decide +kernel⟩

theorem witness_DmaCommands_11 : ∃ (s : State), (s.applied = true) ∧ (s.ang.running = true) ∧ (s.flag FIF_TCFG_EN = true) ∧ (passed s.now s.telAt = true) :=
  ⟨(runState MOUNTED).put FIF_TCFG_EN 1, by decide +kernel⟩

theorem witness_ThermalCommands_0 : ∃ (s : State), (s.applied = true) ∧ (s.ang.running = true) ∧ (passed s.now s.thm.nextGov = true) ∧ (s.turn (dueRank .tempDemand) = true) :=
  ⟨runState MOUNTED, by decide +kernel⟩

theorem witness_ThermalCommands_1 : ∃ (p : Port) (v : Word) (s : State), (s.reaches p false = true) :=
  ⟨0, 0x01000000#32, hostState MOUNTED 0, by decide +kernel⟩

theorem witness_ThermalCommands_2 : ∃ (k : Fin 16) (code : BitVec 16) (s : State), (s.applied = true) ∧ (s.thm.govDue = true) ∧ (s.bit THM_SUSPECT_MASK k = false) ∧ (2 ≤ (gridSum (s.get THM_SUSPECT_MASK) ((List.range 16).map fun j => s.getI (THM_DIE_TEMP j)) k).2) ∧ ((outOfRange code.toInt = true ∨ (2 ≤ s.thm.outN.getD k 0 ∧ departs (s.get THM_CFG_XDEV) (gridSum (s.get THM_SUSPECT_MASK) ((List.range 16).map fun j => s.getI (THM_DIE_TEMP j)) k) code.toInt = true))) :=
  ⟨4, 0x7FFF#16, { stateIn MOUNTED with thm := { govDue := true } }, by decide +kernel⟩

theorem witness_ThermalCommands_3 : ∃ (codes : List (BitVec 16)) (us : Nat) (s : State), (s.applied = true) ∧ (s.thm.conv ≠ 0) ∧ (codes.length = 16) ∧ (s.thm.hist.all fun x => x.1 ≤ us) :=
  ⟨List.replicate 16 0, 5, { stateIn MOUNTED with thm := { conv := 0xFFFF } }, by decide +kernel⟩

theorem witness_ThermalCommands_4 : ∃ (s : State), (s.applied = true) ∧ (s.ang.running = true) :=
  ⟨{ runState MOUNTED with thm := { nextDuty := some 128 } }, by decide +kernel⟩

theorem witness_ThermalCommands_5 : ∃ (s : State), (s.applied = true) ∧ (s.now % tickAu = 0) ∧ (s.dieBandNow ≠ s.get THM_RATE_DIEBAND) :=
  ⟨{ stateIn MOUNTED with thm := { hist := [(0, 32767)] } }, by decide +kernel⟩

theorem witness_ThermalCommands_6 : ∃ (s : State), (s.on = true) :=
  ⟨stateIn MOUNTED, by decide +kernel⟩

theorem witness_CellarCommands_0 : ∃ (p : Port) (v : Word) (s : State), (s.reaches p false = true) :=
  ⟨0, 1#32, hostState MOUNTED 0, by decide +kernel⟩

theorem witness_CellarCommands_1 : ∃ (p : Port) (v : Word) (s : State), (s.reaches p false = true) :=
  ⟨0, 2#32, hostState MOUNTED 0, by decide +kernel⟩

theorem witness_CellarCommands_2 : ∃ (p : Port) (v : Word) (s : State), (s.reaches p false = true) :=
  ⟨1, 3#32, hostState MOUNTED 1, by decide +kernel⟩

theorem witness_CellarCommands_3 : ∃ (ok : Bool) (s : State), (s.celServes = true) :=
  ⟨true, stateIn MOUNTED, by decide +kernel⟩

theorem witness_CellarCommands_4 : ∃ (ledger : Bool) (s : State), (s.on = true) ∧ (s.cel.freeAhead (if ledger then sectLEDGER else sectJOURNAL) ≤ 2) ∧ (s.flag (if ledger then CEL_LOG_LREQ else CEL_LOG_JREQ) = false) ∧ (s.flag CEL_STATUS_LOWV = false) :=
  ⟨false, { stateIn MOUNTED with cel := { words := (List.range 8).map fun k => (2048 * k, 1) } }, by decide +kernel⟩

theorem witness_CellarCommands_5 : ∃ (p : Port) (v : Word) (recent : Bool) (s : State), (s.reaches p false = true) :=
  ⟨0, 1#32, false, hostState MOUNTED 0, by decide +kernel⟩

theorem witness_CellarCommands_6 : ∃ (p : Port) (v : Word) (s : State), (s.reaches p false = true) :=
  ⟨0, 2#32, hostState MOUNTED 0, by decide +kernel⟩

theorem witness_CellarCommands_7 : ∃ (p : Port) (v : Word) (s : State), (s.reaches p false = true) :=
  ⟨0, 3#32, hostState MOUNTED 0, by decide +kernel⟩

theorem witness_CellarCommands_8 : ∃ (p : Port) (v : Word) (s : State), (s.reaches p false = true) :=
  ⟨0, 4#32, hostState MOUNTED 0, by decide +kernel⟩

theorem witness_DebugAndTap_0 : ∃ (p : Port) (v : Word) (recent : Bool) (s : State), ((dbgRefused p s).reaches p false = true) :=
  ⟨0, 5#32, false, hostState MOUNTED 0, by decide +kernel⟩

theorem witness_DebugAndTap_1 : ∃ (s : State), (s.sys.off = false) ∧ (s.sec.dbgStep = 1) ∧ ((s.cel.ops.any fun o => o.client == 4) = false) ∧ (s.cel.sectorErased 120 = true) ∧ (s.cel.sectorErased 121 = true) :=
  ⟨{ stateIn MOUNTED with sec := { dbgStep := 1 } }, by decide +kernel⟩

theorem witness_DebugAndTap_2 : ∃ (capture : Bool) (n : Nat) (s : State), (s.tapOn = true) :=
  ⟨true, 3, (stateIn FROZEN).put SEC_STAT_DBGOPEN 1, by decide +kernel⟩

theorem witness_DebugAndTap_3 : ∃ (s : State), (s.tapOn = true) :=
  ⟨stateIn BARE, by decide +kernel⟩

theorem witness_DebugAndTap_4 : ∃ (balls : List Bool) (cells : List Bool) (s : State), (s.tapOn = true) :=
  ⟨[true], [false], stateIn BARE, by decide +kernel⟩

theorem witness_DebugAndTap_5 : ∃ (balls : List Bool) (cells : List Bool) (s : State), (s.tapOn = true) :=
  ⟨[], [true], stateIn BARE, by decide +kernel⟩

theorem witness_DebugAndTap_6 : ∃ (s : State), (s.tapOn = true) :=
  ⟨stateIn BARE, by decide +kernel⟩

theorem witness_DebugAndTap_7 : ∃ (s : State), (s.tapOn = true) :=
  ⟨stateIn BARE, by decide +kernel⟩

theorem witness_DebugAndTap_8 : ∃ (pw : BitVec 64) (recent : Bool) (s : State), (s.tapOn = true) :=
  ⟨5#64, false, stateIn BARE, by decide +kernel⟩

theorem witness_DebugAndTap_9 : ∃ (s : State), (s.tapOn = true) :=
  ⟨stateIn BARE, by decide +kernel⟩

theorem witness_DebugAndTap_10 : ∃ (s : State), (s.tapOn = true) :=
  ⟨stateIn MOUNTED, by decide +kernel⟩

theorem witness_DebugAndTap_11 : ∃ (s : State), (s.tapOn = true) :=
  ⟨stateIn MOUNTED, by decide +kernel⟩

theorem witness_DebugAndTap_12 : ∃ (code : BitVec 8) (s : State), (s.tapOn = true) :=
  ⟨0xFF#8, stateIn MOUNTED, by decide +kernel⟩

theorem witness_DebugAndTap_13 : ∃ (s : State), (s.tapOn = true) :=
  ⟨stateIn FROZEN, by decide +kernel⟩

theorem witness_ModesHeadsAndRegisterWrites_0 : ∃ (s : State), (s.inLife [MOUNTED] = true) ∧ (s.flag SYS_MODE_ST_RAMPWAIT = true) ∧ (s.writing = false) :=
  ⟨(stateIn MOUNTED).put SYS_MODE_ST_RAMPWAIT 1, by decide +kernel⟩

theorem witness_ModesHeadsAndRegisterWrites_1 : ∃ (h : Head) (s : State), (s.inLife [MOUNTED] = true) ∧ (s.bit SYS_MODE_ST_LEAVE h = true) ∧ ((s.opuHead h).leaving = 2) ∧ (s.sledMoving h = false) :=
  ⟨2, ((headState MOUNTED).put SYS_MODE_ST_LEAVE 4).setOpu 2 fun o => { o with leaving := 2 }, by decide +kernel⟩

theorem witness_ModesHeadsAndRegisterWrites_2 : ∃ (h : Head) (s : State), (s.inLife [MOUNTED] = true) ∧ (s.bit SYS_MODE_ST_JOIN h = true) ∧ (s.get (SRV_HSTAT_PHASE h) = hpON_TRACK) :=
  ⟨1, ((headState MOUNTED).put SYS_MODE_ST_JOIN 2).put (SRV_HSTAT_PHASE 1) hpON_TRACK, by decide +kernel⟩

theorem witness_ModesHeadsAndRegisterWrites_3 : ∃ (s : State), (s.inLife [MOUNTED] = true) ∧ (s.flag SYS_MODE_ST_READBACK = true) ∧ (s.unverified = false) :=
  ⟨(stateIn MOUNTED).put SYS_MODE_ST_READBACK 1, by decide +kernel⟩

theorem witness_ModesHeadsAndRegisterWrites_4 : ∃ (p : Port) (v : Word) (s : State), (s.reaches p false = true) :=
  ⟨0, 4#32, hostState MOUNTED 0, by decide +kernel⟩

theorem witness_ModesHeadsAndRegisterWrites_5 : ∃ (p : Port) (v : Word) (s : State), (s.reaches p false = true) :=
  ⟨0, 8#32, hostState MOUNTED 0, by decide +kernel⟩

theorem witness_ModesHeadsAndRegisterWrites_6 : ∃ (p : Port) (off : Nat) (v : Word) (out : Nat) (recent : Bool) (s : State), (off % 4 = 0) ∧ (0x10000 ≤ off) ∧ (off < 0x2000000) ∧ ((if off = DBG_UNLOCK_PW.off then dbgRefused p s else s).reaches p (s.bareLive off) = true) :=
  ⟨0, SYS_CTRL_SAFESTOP.off, 0#32, 0, false, hostState MOUNTED 0, by decide +kernel⟩

theorem witness_ModesHeadsAndRegisterWrites_7 : ∃ (p : Port) (off : Nat) (v : Word) (whole : Bool) (out : Nat) (recent : Bool) (s : State), ((whole = false ∨ off % 4 ≠ 0)) :=
  ⟨0, 0x10001, 0#32, true, 0, false, stateIn MOUNTED, by decide +kernel⟩

theorem witness_ReadsClearTheirCounters1_0 : ∃ (p : Port) (s : State), (s.reads p (ANG_LOCK_LOSSCNT).off = true) :=
  ⟨0, hostState MOUNTED 0, by decide +kernel⟩

theorem witness_ReadsClearTheirCounters1_1 : ∃ (p : Port) (s : State), (s.reads p (ANG_EVT_LATE).off = true) :=
  ⟨0, hostState MOUNTED 0, by decide +kernel⟩

theorem witness_ReadsClearTheirCounters1_2 : ∃ (p : Port) (s : State), (s.reads p (ANG_QWIN_DISCARD).off = true) :=
  ⟨0, hostState MOUNTED 0, by decide +kernel⟩

theorem witness_ReadsClearTheirCounters1_3 : ∃ (p : Port) (s : State), (s.reads p (SKT_CNT_ABORTS).off = true) :=
  ⟨0, hostState MOUNTED 0, by decide +kernel⟩

theorem witness_ReadsClearTheirCounters1_4 : ∃ (p : Port) (h : Head) (s : State), (s.reads p (OPU_HSTAT_LINKERR h).off = true) :=
  ⟨0, 1, hostState MOUNTED 0, by decide +kernel⟩

theorem witness_ReadsClearTheirCounters1_5 : ∃ (p : Port) (h : Head) (s : State), (s.reads p (OPU_LINKRSP_DONE h).off = true) :=
  ⟨0, 1, hostState MOUNTED 0, by decide +kernel⟩

theorem witness_ReadsClearTheirCounters1_6 : ∃ (p : Port) (s : State), (s.reads p (OPU_GSTAT_TRIPS).off = true) :=
  ⟨0, hostState MOUNTED 0, by decide +kernel⟩

theorem witness_ReadsClearTheirCounters1_7 : ∃ (p : Port) (l : Loop) (s : State), (s.reads p (SRV_LSTAT_HOLDS l).off = true) :=
  ⟨0, 1, hostState MOUNTED 0, by decide +kernel⟩

theorem witness_ReadsClearTheirCounters1_8 : ∃ (p : Port) (l : Loop) (s : State), (s.reads p (SRV_ARITH_SATN l).off = true) :=
  ⟨0, 1, hostState MOUNTED 0, by decide +kernel⟩

theorem witness_ReadsClearTheirCounters1_9 : ∃ (p : Port) (h : Head) (s : State), (s.reads p (SRV_HCNT_FLOSS h).off = true) :=
  ⟨0, 1, hostState MOUNTED 0, by decide +kernel⟩

theorem witness_ReadsClearTheirCounters1_10 : ∃ (p : Port) (h : Head) (s : State), (s.reads p (SRV_TQWIN_DISCARD h).off = true) :=
  ⟨0, 1, hostState MOUNTED 0, by decide +kernel⟩

theorem witness_ReadsClearTheirCounters1_11 : ∃ (p : Port) (s : State), (s.reads p (SRV_SHKST_EVENTS).off = true) :=
  ⟨0, hostState MOUNTED 0, by decide +kernel⟩

theorem witness_ReadsClearTheirCounters1_12 : ∃ (p : Port) (h : Head) (s : State), (s.reads p (SLD_CNT_SLIPS h).off = true) :=
  ⟨0, 1, hostState MOUNTED 0, by decide +kernel⟩

theorem witness_ReadsClearTheirCounters1_13 : ∃ (p : Port) (s : State), (s.reads p (SPN_DIST_OCN).off = true) :=
  ⟨0, hostState MOUNTED 0, by decide +kernel⟩

theorem witness_ReadsClearTheirCounters1_14 : ∃ (p : Port) (l : Lane) (s : State), (s.reads p (CHN_LSTAT_FAILCHK l).off = true) :=
  ⟨0, 1, hostState MOUNTED 0, by decide +kernel⟩

theorem witness_ReadsClearTheirCounters1_15 : ∃ (p : Port) (h : Head) (s : State), (s.reads p (DET_HCNT_EQRELOAD h).off = true) :=
  ⟨0, 1, hostState MOUNTED 0, by decide +kernel⟩

theorem witness_ReadsClearTheirCounters1_16 : ∃ (p : Port) (h : Head) (s : State), (s.reads p (DET_PASS_PASS3 h).off = true) :=
  ⟨0, 1, hostState MOUNTED 0, by decide +kernel⟩

theorem witness_ReadsClearTheirCounters1_17 : ∃ (p : Port) (s : State), (s.reads p (CWD_QUEUE_PEAK).off = true) :=
  ⟨0, hostState MOUNTED 0, by decide +kernel⟩

theorem witness_ReadsClearTheirCounters1_18 : ∃ (p : Port) (s : State), (s.reads p (CWD_TAGCNT_LOST).off = true) :=
  ⟨0, hostState MOUNTED 0, by decide +kernel⟩

theorem witness_ReadsClearTheirCounters1_19 : ∃ (p : Port) (s : State), (s.reads p (CWD_CNT_OVF).off = true) :=
  ⟨0, hostState MOUNTED 0, by decide +kernel⟩

theorem witness_ReadsClearTheirCounters1_20 : ∃ (p : Port) (h : Head) (s : State), (s.reads p (WRS_HSTAT_CLAMP h).off = true) :=
  ⟨0, 1, hostState MOUNTED 0, by decide +kernel⟩

theorem witness_ReadsClearTheirCounters1_21 : ∃ (p : Port) (h : Head) (s : State), (s.reads p (WRS_OPCST_RUNS h).off = true) :=
  ⟨0, 1, hostState MOUNTED 0, by decide +kernel⟩

theorem witness_ReadsClearTheirCounters1_22 : ∃ (p : Port) (h : Head) (s : State), (s.reads p (WRS_VCNT_VFAIL h).off = true) :=
  ⟨0, 1, hostState MOUNTED 0, by decide +kernel⟩

theorem witness_ReadsClearTheirCounters2_0 : ∃ (p : Port) (s : State), (s.reads p (STR_CNT_COMMITS).off = true) :=
  ⟨0, hostState MOUNTED 0, by decide +kernel⟩

theorem witness_ReadsClearTheirCounters2_1 : ∃ (p : Port) (s : State), (s.reads p (STR_RECON_RECON).off = true) :=
  ⟨0, hostState MOUNTED 0, by decide +kernel⟩

theorem witness_ReadsClearTheirCounters2_2 : ∃ (p : Port) (s : State), (s.reads p (STR_SLOW_SLOW).off = true) :=
  ⟨0, hostState MOUNTED 0, by decide +kernel⟩

theorem witness_ReadsClearTheirCounters2_3 : ∃ (p : Port) (s : State), (s.reads p (STR_RB_DONE).off = true) :=
  ⟨0, hostState MOUNTED 0, by decide +kernel⟩

theorem witness_ReadsClearTheirCounters2_4 : ∃ (p : Port) (s : State), (s.reads p (MAP_DF_COUNT).off = true) :=
  ⟨0, hostState MOUNTED 0, by decide +kernel⟩

theorem witness_ReadsClearTheirCounters2_5 : ∃ (p : Port) (s : State), (s.reads p (MAP_DFMAX_US).off = true) :=
  ⟨0, hostState MOUNTED 0, by decide +kernel⟩

theorem witness_ReadsClearTheirCounters2_6 : ∃ (p : Port) (s : State), (s.reads p (MAP_CKPT_MAPCK).off = true) :=
  ⟨0, hostState MOUNTED 0, by decide +kernel⟩

theorem witness_ReadsClearTheirCounters2_7 : ∃ (p : Port) (s : State), (s.reads p (MAP_CLEAN_UNITS).off = true) :=
  ⟨0, hostState MOUNTED 0, by decide +kernel⟩

theorem witness_ReadsClearTheirCounters2_8 : ∃ (p : Port) (s : State), (s.reads p (HLT_REFQ_DROP).off = true) :=
  ⟨0, hostState MOUNTED 0, by decide +kernel⟩

theorem witness_ReadsClearTheirCounters2_9 : ∃ (p : Port) (s : State), (s.reads p (HLT_CNT_REFRESH).off = true) :=
  ⟨0, hostState MOUNTED 0, by decide +kernel⟩

theorem witness_ReadsClearTheirCounters2_10 : ∃ (p : Port) (s : State), (s.reads p (HLT_LEDG_DELTAS).off = true) :=
  ⟨0, hostState MOUNTED 0, by decide +kernel⟩

theorem witness_ReadsClearTheirCounters2_11 : ∃ (p : Port) (s : State), (s.reads p (CAL_CNT_FAILS).off = true) :=
  ⟨0, hostState MOUNTED 0, by decide +kernel⟩

theorem witness_ReadsClearTheirCounters2_12 : ∃ (p : Port) (i : Port) (s : State), (s.reads p (HST_PORT_LINKDOWNS i).off = true) :=
  ⟨0, 1, hostState MOUNTED 0, by decide +kernel⟩

theorem witness_ReadsClearTheirCounters2_13 : ∃ (p : Port) (i : Port) (s : State), (s.reads p (HST_INFL_PEAK i).off = true) :=
  ⟨0, 1, hostState MOUNTED 0, by decide +kernel⟩

theorem witness_ReadsClearTheirCounters2_14 : ∃ (p : Port) (s : State), (s.reads p (HST_CUST_DISCARDS).off = true) :=
  ⟨0, hostState MOUNTED 0, by decide +kernel⟩

theorem witness_ReadsClearTheirCounters2_15 : ∃ (p : Port) (s : State), (s.reads p (HST_RLOCK_STALLS).off = true) :=
  ⟨0, hostState MOUNTED 0, by decide +kernel⟩

theorem witness_ReadsClearTheirCounters2_16 : ∃ (p : Port) (s : State), (s.reads p (HST_ERRCNT_UNREC).off = true) :=
  ⟨0, hostState MOUNTED 0, by decide +kernel⟩

theorem witness_ReadsClearTheirCounters2_17 : ∃ (p : Port) (s : State), (s.reads p (MEM_SWEEP_PULLS).off = true) :=
  ⟨0, hostState MOUNTED 0, by decide +kernel⟩

theorem witness_ReadsClearTheirCounters2_18 : ∃ (p : Port) (s : State), (s.reads p (MEM_CE_BUCKET_OVFN).off = true) :=
  ⟨0, hostState MOUNTED 0, by decide +kernel⟩

theorem witness_ReadsClearTheirCounters2_19 : ∃ (p : Port) (s : State), (s.reads p (MEM_CECNT_CE).off = true) :=
  ⟨0, hostState MOUNTED 0, by decide +kernel⟩

theorem witness_ReadsClearTheirCounters2_20 : ∃ (p : Port) (s : State), (s.reads p (MEM_UECNT_ADDRN).off = true) :=
  ⟨0, hostState MOUNTED 0, by decide +kernel⟩

theorem witness_ReadsClearTheirCounters2_21 : ∃ (p : Port) (s : State), (s.reads p (MEM_BAR2_DISCARDS).off = true) :=
  ⟨0, hostState MOUNTED 0, by decide +kernel⟩

theorem witness_ReadsClearTheirCounters2_22 : ∃ (p : Port) (s : State), (s.reads p (LRD_HITS_HITS).off = true) :=
  ⟨0, hostState MOUNTED 0, by decide +kernel⟩

theorem witness_ReadsClearTheirCounters2_23 : ∃ (p : Port) (s : State), (s.reads p (LRD_MISSES_MISSES).off = true) :=
  ⟨0, hostState MOUNTED 0, by decide +kernel⟩

theorem witness_ReadsClearTheirCounters2_24 : ∃ (p : Port) (s : State), (s.reads p (LRD_SEQCNT_BYPASS).off = true) :=
  ⟨0, hostState MOUNTED 0, by decide +kernel⟩

theorem witness_ReadsClearTheirCounters2_25 : ∃ (p : Port) (s : State), (s.reads p (LRD_ERR_UE).off = true) :=
  ⟨0, hostState MOUNTED 0, by decide +kernel⟩

theorem witness_ReadsClearTheirCounters2_26 : ∃ (p : Port) (q : Seq) (s : State), (s.reads p (SEQ_HITS_HITS q).off = true) :=
  ⟨0, 1, hostState MOUNTED 0, by decide +kernel⟩

theorem witness_ReadsClearTheirCounters2_27 : ∃ (p : Port) (f : FifoId) (s : State), (s.reads p (FIF_LOST_LOST f).off = true) :=
  ⟨0, 1, hostState MOUNTED 0, by decide +kernel⟩

theorem witness_ReadsClearTheirCounters2_28 : ∃ (p : Port) (s : State), (s.reads p (SYS_MODE_ST_CHANGES).off = true) :=
  ⟨0, hostState MOUNTED 0, by decide +kernel⟩

theorem witness_ReadsClearTheirCounters2_29 : ∃ (p : Port) (s : State), (s.reads p (PWR_VIN_MIN).off = true) :=
  ⟨0, hostState MOUNTED 0, by decide +kernel⟩

theorem witness_ReadsClearTheirCounters2_30 : ∃ (p : Port) (s : State), (s.reads p (PWR_EVT_HOLDUP).off = true) :=
  ⟨0, hostState MOUNTED 0, by decide +kernel⟩

theorem witness_ReadsClearTheirCounters2_31 : ∃ (p : Port) (s : State), (s.reads p (THM_CNT_SUSPN).off = true) :=
  ⟨0, hostState MOUNTED 0, by decide +kernel⟩

theorem witness_ReadsClearTheirCounters2_32 : ∃ (p : Port) (s : State), (s.reads p (FLT_STAT_UNCOV).off = true) :=
  ⟨0, hostState MOUNTED 0, by decide +kernel⟩

theorem witness_ReadsClearTheirCounters2_33 : ∃ (p : Port) (s : State), (s.reads p (CEL_CNT_ERASES).off = true) :=
  ⟨0, hostState MOUNTED 0, by decide +kernel⟩

theorem witness_ReadsClearTheirCounters2_34 : ∃ (p : Port) (s : State), (s.reads p (SEC_CNT_GENMIS).off = true) :=
  ⟨0, hostState MOUNTED 0, by decide +kernel⟩

theorem witness_StepRunsTheFrontCommand : ∃ s : State, s.pending = [] :=
  ⟨State.reset, by decide +kernel⟩

theorem witness_EveryStepKeepsMemoryCanonical : ∃ s t : State, s.memOk ∧ step s = .next t :=
  ⟨State.reset, State.reset, by unfold State.memOk; decide +kernel, by unfold step; rfl⟩

theorem witness_OnlyStoresChangeBufferMemory : ∃ (c : Instr) (s t : State), storesMemory c = false ∧ exec c s = .next t :=
  ⟨.cartSeatedAsserted, State.reset, { State.reset with sys := { State.reset.sys with cartSeated := true } }, rfl, rfl⟩

theorem witness_Bar2WriteStoresItsBytes : ∃ (p : Port) (off : BitVec 32) (data : List Byte) (reach : Fin 16385) (s : State) (k a : Nat), s.portOn p = true ∧ s.applied = true ∧ s.mgmt = some p.val ∧ s.mem.poison = [] ∧ k < data.length ∧ s.diagAddr (off.toNat + k) = some a :=
  ⟨0, 4#32, [1#8, 2#8], 0, diagState, 1, 65541, by decide +kernel⟩

theorem witness_DmaStoresItsBytesOnly : ∃ (c : Chan) (n : Nat) (data : List Byte) (left : Nat) (s t : State) (a : Nat), exec (.dmaReadCompletion c n data left) s = .next t ∧ (a < s.dmaDst c ∨ s.dmaDst c + n ≤ a ∨ s.get (DMA_CTRL_DSPACE c) = spHOST) :=
  ⟨0, 4, [1#8, 2#8, 3#8, 4#8], 4, dmaState, _, 65540, rfl, Or.inr (Or.inl (by decide +kernel))⟩

theorem witness_FifoPacketsEnterWhole : ∃ (n : Nat) (pkt : List Word) (s : State), n < 3 ∧ n < s.fifos.length ∧ pkt.length ≤ s.get (FIF_CAP_WORDS n) ∧ (s.fifo n).rd ≤ (((s.fifo n).pkts.map List.length).sum) :=
  ⟨2, [1#32, 2#32], State.reset, by decide +kernel⟩

theorem witness_NonCustodianWritesAreDiscarded : (∃ (c : Instr) (p : Port) (off : Nat) (s : State), vendorRow c = some (p, off) ∧ s.notCustodian p = true) ∧ (∃ (p : Port) (s : State), s.life = BARE ∧ s.notCustodian p = true) :=
  ⟨⟨.safestop 1 2#32, 1, SYS_CTRL_SAFESTOP.off, hostState MOUNTED 0, by decide +kernel⟩, ⟨1, hostState BARE 0, by decide +kernel⟩⟩

theorem witness_HoldUpStopAndRecovery : (∃ s : State, s.on = true ∧ s.life = PARKING ∧ s.get SYS_STATE_CAUSE = 0x22 ∧ s.parked = true ∧ s.sys.holdUp = false ∧ s.sys.brownOut = false) ∧
  (∃ s : State, s.on = true ∧ s.sys.holdUp = true) ∧
  (∃ (p : Port) (v : Word) (s t : State), s.reaches p false = true ∧ s.life = HALTED ∧ s.get SYS_STATE_CAUSE = 0x22 ∧ v.toNat.testBit 1 = false ∧ s.sys.vinOk100 = true ∧ s.sys.lsrEn = true ∧
    t.reaches p false = true ∧ t.life = HALTED ∧ t.get SYS_STATE_CAUSE = 0x22 ∧ t.sys.vinOk100 = false) :=
  ⟨⟨(stateIn PARKING).put SYS_STATE_CAUSE 0x22, by decide +kernel⟩, ⟨{ stateIn MOUNTED with sys := { (stateIn MOUNTED).sys with holdUp := true } }, by decide +kernel⟩, ⟨0, 1#32, { (hostState HALTED 0).put SYS_STATE_CAUSE 0x22 with sys := { (hostState HALTED 0).sys with vinOk100 := true, lsrEn := true } }, { (hostState HALTED 0).put SYS_STATE_CAUSE 0x22 with sys := { (hostState HALTED 0).sys with vinOk100 := false } }, by decide +kernel⟩⟩

theorem witness_NothingRunsInFrozenOrOff : ∃ (c d : Instr) (s t : State), s.life = FROZEN ∧ s.sys.off = false ∧ s.sys.resetHold = 0 ∧ outlivesFreeze c = false ∧ t.sys.off = true ∧ outlivesOff d = false :=
  ⟨.tick, .tick, stateIn FROZEN, offState, by decide +kernel⟩

theorem witness_LoHighPairs : ∃ (p : Port) (s : State), s.reads p ANG_NOW_LO_ANGLE.off = true ∧ s.reads p SKT_COMMIT_LO_ANGLE.off = true ∧ s.reads p STR_WSEQ_LO_WSEQ.off = true ∧ s.portOn p = true ∧ ∀ w : Fin 3, s.liveAt (loReg w.val) = true :=
  ⟨0, hostState MOUNTED 0, by decide +kernel⟩

theorem witness_FifoReads : (∃ (p : Port) (f : FifoId) (pkt : List Word) (ps : List (List Word)) (s : State), s.reads p (FIF_DATA_WORD f).off = true ∧ s.fifoOwned f = false ∧ s.applied = false ∧ (s.fifo f).pkts = pkt :: ps ∧ (s.fifo f).rd < pkt.length) ∧
  (∃ (p : Port) (f : FifoId) (o : BlockRead) (pkt : List Word) (ps : List (List Word)) (s t : State), s.reads p (FIF_DATA_WORD f).off = true ∧ s.fifoOwned f = false ∧ s.applied = true ∧ (s.fifo f).pkts ≠ [] ∧ memLoad srcFIF (s.fifoAddr f / 64) o .clean s = (true, t) ∧ t.reads p (FIF_DATA_WORD f).off = true ∧ t.fifoOwned f = false ∧ (t.fifo f).pkts = pkt :: ps ∧ (t.fifo f).rd < pkt.length) ∧
  (∃ (p : Port) (f : FifoId) (o : BlockRead) (s t : State), s.reads p (FIF_DATA_WORD f).off = true ∧ s.fifoOwned f = false ∧ s.applied = true ∧ (s.fifo f).pkts ≠ [] ∧ memLoad srcFIF (s.fifoAddr f / 64) o .clean s = (false, t)) ∧
  (∃ (p : Port) (f : FifoId) (s : State), s.reads p (FIF_DATA_WORD f).off = true ∧ s.fifoOwned f = false ∧ (s.fifo f).pkts = []) ∧
  (∃ (p : Port) (v : Word) (s : State), s.reaches p true = true ∧ (s.fifo (v.toNat % 4)).rd ≠ 0) :=
  ⟨⟨0, 2, [7#32, 8#32], [], fifoState BARE, by decide +kernel⟩, ⟨0, 2, {}, [7#32, 8#32], [], fifoState MOUNTED, fifoState MOUNTED, by decide +kernel⟩, ⟨0, 2, { seen := some 1#28 }, fifoState MOUNTED, (memLoad srcFIF ((fifoState MOUNTED).fifoAddr 2 / 64) { seen := some 1#28 } .clean (fifoState MOUNTED)).2, by decide +kernel⟩, ⟨1, 1, hostState MOUNTED 1, by decide +kernel⟩, ⟨0, 2#32, fifoState MOUNTED, by decide +kernel⟩⟩

theorem witness_ResetInfo : (∃ s : State, s.sys.off = true ∧ s.sys.regWait = true) ∧ (∃ s : State, s.sys.off = false ∧ s.sys.resetHold ≠ 0 ∧ s.sys.resetHold < 16 ∧ s.get SYS_RSTINFO_FULLS < 255) :=
  ⟨⟨{ offState with sys := { offState.sys with regWait := true } }, by decide +kernel⟩, ⟨{ stateIn MOUNTED with sys := { (stateIn MOUNTED).sys with resetHold := 3 } }, by decide +kernel⟩⟩

theorem witness_BestTriggerWins : ∃ (s : State) (x : Trigger), s.applied = true ∧ bestTrigger s.sys.held = some x ∧ x.kind = .safeStop ∧ s.life ≠ HALTED ∧ x.cause < 256 ∧ s.sys.held ≠ [] :=
  ⟨hold { kind := .safeStop, cause := 0x35 } (stateIn MOUNTED), { kind := .safeStop, cause := 0x35 }, by decide +kernel⟩

theorem witness_LaserPermit : ∃ (p : Port) (v : Word) (s t u w : State), s.on = true ∧ s.sys.lsrEn = true ∧ exec .lsrEnFall s = .next t ∧ exec .freezePin s = .next u ∧ s.reaches p false = true ∧ v.toNat / 65536 = 0x9648 ∧ v.toNat.testBit 0 = true ∧ exec (.sysResetFull p v) s = .next w :=
  ⟨1, 0x96480001#32, hostState MOUNTED 1, _, _, _, by decide +kernel, by decide +kernel, rfl, rfl, by decide +kernel, by decide +kernel, by decide +kernel, rfl⟩

theorem witness_ReadsOfOtherPortNeverClear : ∃ (c : Instr) (p : Port) (off : Nat) (s : State), readsRow c = some (p, off) ∧ s.readsAside p off = true :=
  ⟨.angLockRead 1, 1, ANG_LOCK_LOSSCNT.off, hostState MOUNTED 0, by decide +kernel⟩

theorem witness_LongAdminCommandsWait : ∃ (p : Port) (cid : BitVec 16) (s t : State), fetch (adm p cid.toNat 0xC0) s = some t ∧ (t.hst.long ≠ none ∨ t.hst.longWait ≠ []) :=
  ⟨0, 7#16, { hostState MOUNTED 0 with hst := { (hostState MOUNTED 0).hst with long := some { kind := 0xC8, port := 0, cid := 1 } } }, (fetch (adm 0 7 0xC0) { hostState MOUNTED 0 with hst := { (hostState MOUNTED 0).hst with long := some { kind := 0xC8, port := 0, cid := 1 } } }).getD State.reset, by decide +kernel⟩

end Sys2Proof.Machine.Tests
end

section
/-! PROOFS. Every row answers a next state (R24, R50, R94), and the halves of the angle (R21, R73). -/

namespace Sys2Proof.Machine
open R

/-- Whatever the row, exec answers a next state that keeps the queue and the canonical form of buffer memory: one law per row. -/
theorem exec_keepsTidy (c : Instr) (s : State) : KeepsTidy s (exec c s) :=
  match c with
  | .vinPowerGood => (execVinPowerGood_keeps s).tidy
  | .powerGoodFusesLoaded => execPowerGoodFusesLoaded_tidy s
  | .regulatorFault rail => execRegulatorFault_tidy rail s
  | .regulatorRestart => (execRegulatorRestart_keeps s).tidy
  | .vinHoldUp => (execVinHoldUp_keeps s).tidy
  | .vinBrownOut => (execVinBrownOut_keeps s).tidy
  | .underVoltageLockout => execUnderVoltageLockout_tidy s
  | .vinRecovered => (execVinRecovered_keeps s).tidy
  | .sysResetFull p v => (execSysResetFull_keeps p v s).tidy
  | .fullResetComplete => execFullResetComplete_tidy s
  | .pcieLinkUp p width speed => (execPcieLinkUp_keeps p width speed s).tidy
  | .pcieLinkDown p ltssm => (execPcieLinkDown_keeps p ltssm s).tidy
  | .perst p => (execPerst_keeps p s).tidy
  | .functionLevelReset p => (execFunctionLevelReset_keeps p s).tidy
  | .controllerReset p => (execControllerReset_keeps p s).tidy
  | .controllerEnable p asqs acqs wrr => (execControllerEnable_keeps p asqs acqs wrr s).tidy
  | .normalShutdown p => (execNormalShutdown_keeps p s).tidy
  | .linkLossTimeout p => (execLinkLossTimeout_keeps p s).tidy
  | .freezePin => (execFreezePin_keeps s).tidy
  | .lsrEnFall => (execLsrEnFall_keeps s).tidy
  | .lsrEnRise => (execLsrEnRise_keeps s).tidy
  | .cartSeatedAsserted => (execCartSeatedAsserted_keeps s).tidy
  | .cartSeatedDeasserted => (execCartSeatedDeasserted_keeps s).tidy
  | .safestop p v => (execSafestop_keeps p v s).tidy
  | .resume p v => (execResume_keeps p v s).tidy
  | .triggerResolution => (execTriggerResolution_keeps s).tidy
  | .parkComplete => (execParkComplete_keeps s).tidy
  | .cnvLoad p v => (execCnvLoad_keeps p v s).tidy
  | .cnvApply p v => (execCnvApply_keeps p v s).tidy
  | .cnvAbort p v => (execCnvAbort_keeps p v s).tidy
  | .canvasFetchDone image ok => (execCanvasFetchDone_keeps image ok s).tidy
  | .canvasValidationDone us => (execCanvasValidationDone_keeps us s).tidy
  | .memTrainingDone trained gib us => (execMemTrainingDone_keeps trained gib us s).tidy
  | .canvasCommitDone us => (execCanvasCommitDone_keeps us s).tidy
  | .enumNopRetry h => (execEnumNopRetry_keeps h s).tidy
  | .enumWaitExpired h => (execEnumWaitExpired_keeps h s).tidy
  | .pickupResponse h resp => (execPickupResponse_keeps h resp s).tidy
  | .pickupResponseTimeout h => (execPickupResponseTimeout_keeps h s).tidy
  | .pickupLinkError h => (execPickupLinkError_keeps h s).tidy
  | .statusPoll h => (execStatusPoll_keeps h s).tidy
  | .pickupTempRead h => (execPickupTempRead_keeps h s).tidy
  | .opuLinkcmd p h v => (execOpuLinkcmd_keeps p h v s).tidy
  | .loffWrite p h v => (execLoffWrite_keeps p h v s).tidy
  | .lpmonFault h => (execLpmonFault_keeps h s).tidy
  | .laserStaggerNext => (execLaserStaggerNext_keeps s).tidy
  | .servoSample x => (execServoSample_keeps x s).tidy
  | .loopHold l => (execLoopHold_keeps l s).tidy
  | .loopResume l => (execLoopResume_keeps l s).tidy
  | .loopFail l => (execLoopFail_keeps l s).tidy
  | .srvUnitOffline p v => (execSrvUnitOffline_keeps p v s).tidy
  | .srvUnitRestore p v => (execSrvUnitRestore_keeps p v s).tidy
  | .srvUnitRestoreDone u pass => (execSrvUnitRestoreDone_keeps u pass s).tidy
  | .speedBandChange => (execSpeedBandChange_keeps s).tidy
  | .tick => (execTick_keeps s).tidy
  | .wedgeBoundary h => (execWedgeBoundary_keeps h s).tidy
  | .wlidDecoded h bits minfo => (execWlidDecoded_keeps h bits minfo s).tidy
  | .tridDecoded h trids => (execTridDecoded_keeps h trids s).tidy
  | .markDecoded h wedge word rate rev => (execMarkDecoded_keeps h wedge word rate rev s).tidy
  | .markEntry h => (execMarkEntry_keeps h s).tidy
  | .slewComplete => (execSlewComplete_keeps s).tidy
  | .markLoss => (execMarkLoss_keeps s).tidy
  | .coarseEntry rate => (execCoarseEntry_keeps rate s).tidy
  | .coarseLoss => (execCoarseLoss_keeps s).tidy
  | .wobbleLock e rate => (execWobbleLock_keeps e rate s).tidy
  | .wobbleLockLoss => (execWobbleLockLoss_keeps s).tidy
  | .wobbleRefSwitch => (execWobbleRefSwitch_keeps s).tidy
  | .rampSettled => (execRampSettled_keeps s).tidy
  | .angAlarmArm p v => (execAngAlarmArm_keeps p v s).tidy
  | .alarm => (execAlarm_keeps s).tidy
  | .measurementWindowEnd m => (execMeasurementWindowEnd_keeps m s).tidy
  | .sktStage p v => (execSktStage_keeps p v s).tidy
  | .sktCancel p v => (execSktCancel_keeps p v s).tidy
  | .sktClear p v => (execSktClear_keeps p v s).tidy
  | .varnishArm p v => (execVarnishArm_keeps p v s).tidy
  | .varnishDistributed => (execVarnishDistributed_keeps s).tidy
  | .varnishFinalCheck => (execVarnishFinalCheck_keeps s).tidy
  | .varnishCommit => (execVarnishCommit_keeps s).tidy
  | .focusAcquisition h => (execFocusAcquisition_keeps h s).tidy
  | .focusSettled h => (execFocusSettled_keeps h s).tidy
  | .focusAttemptFailed h => (execFocusAttemptFailed_keeps h s).tidy
  | .trackCapture h land => (execTrackCapture_keeps h land s).tidy
  | .trackJump h k => (execTrackJump_keeps h k s).tidy
  | .trackJumpDone h g => (execTrackJumpDone_keeps h g s).tidy
  | .layerJump h l g => (execLayerJump_keeps h l g s).tidy
  | .layerJumpDone h us => (execLayerJumpDone_keeps h us s).tidy
  | .focusLoss h => (execFocusLoss_keeps h s).tidy
  | .trackLoss h => (execTrackLoss_keeps h s).tidy
  | .recoveryDone h ok => (execRecoveryDone_keeps h ok s).tidy
  | .tiltSaFailRetry h k => (execTiltSaFailRetry_keeps h k s).tidy
  | .inhibitClear h c => (execInhibitClear_keeps h c s).tidy
  | .srvHctrlWinh p h v => (execSrvHctrlWinh_keeps p h v s).tidy
  | .shockSensorRead axial radial => (execShockSensorRead_keeps axial radial s).tidy
  | .sledStep h => (execSledStep_keeps h s).tidy
  | .classDSeek h g => (execClassDSeek_keeps h g s).tidy
  | .classSSeek h k => (execClassSSeek_keeps h k s).tidy
  | .sldHseek p h v => (execSldHseek_keeps p h v s).tidy
  | .seekComplete h => (execSeekComplete_keeps h s).tidy
  | .sledFollowStep h => (execSledFollowStep_keeps h s).tidy
  | .searchTimeout h => (execSearchTimeout_keeps h s).tidy
  | .pwmPeriod x => (execPwmPeriod_keeps x s).tidy
  | .spindleFault cause => (execSpindleFault_keeps cause s).tidy
  | .spinUpStart => (execSpinUpStart_keeps s).tidy
  | .catchWindowEnd crossings peak rpm => (execCatchWindowEnd_keeps crossings peak rpm s).tidy
  | .alignEnd => (execAlignEnd_keeps s).tidy
  | .spindleHandover => (execSpindleHandover_keeps s).tidy
  | .spinUpAttemptFailed => (execSpinUpAttemptFailed_keeps s).tidy
  | .spindleStopped peak => (execSpindleStopped_keeps peak s).tidy
  | .spnTestWrite p v => (execSpnTestWrite_keeps p v s).tidy
  | .speedrefDecode x => (execSpeedrefDecode_keeps x s).tidy
  | .speedrefAdopt => (execSpeedrefAdopt_keeps s).tidy
  | .laneFailure l => (execLaneFailure_keeps l s).tidy
  | .laneSpare p v => (execLaneSpare_keeps p v s).tidy
  | .laneRestore p v => (execLaneRestore_keeps p v s).tidy
  | .laneEye p v => (execLaneEye_keeps p v s).tidy
  | .laneSelftestDone pass => (execLaneSelftestDone_keeps pass s).tidy
  | .laneAcquired l => (execLaneAcquired_keeps l s).tidy
  | .calShadow l => (execCalShadow_keeps l s).tidy
  | .timingLock l err => (execTimingLock_keeps l err s).tidy
  | .timingLockLoss l err => (execTimingLockLoss_keeps l err s).tidy
  | .eqReload h track o => (execEqReload_keeps h track o s).tidy
  | .eyeSweepDone errs => (execEyeSweepDone_keeps errs s).tidy
  | .qualityUpdate h => (execQualityUpdate_keeps h s).tidy
  | .codewordRelease pba cwix soft => execCodewordRelease_tidy pba cwix soft s
  | .decodeComplete d x conv iters => execDecodeComplete_tidy d x conv iters s
  | .decoderTimeout d => (execDecoderTimeout_keeps d s).tidy
  | .decoderOffline p v => (execDecoderOffline_keeps p v s).tidy
  | .decoderRestore p v => (execDecoderRestore_keeps p v s).tidy
  | .decoderBistDone d pass => (execDecoderBistDone_keeps d pass s).tidy
  | .windowOpen h act blocks os => (execWindowOpen_keeps h act blocks os s).tidy
  | .windowClose h => (execWindowClose_keeps h s).tidy
  | .levelsSent h => (execLevelsSent_keeps h s).tidy
  | .opcRun h l b => (execOpcRun_keeps h l b s).tidy
  | .opcReadbackDone h r0 r1 => (execOpcReadbackDone_keeps h r0 r1 s).tidy
  | .wrsOpcctl p v => (execWrsOpcctl_keeps p v s).tidy
  | .verifyResult h pba => (execVerifyResult_keeps h pba s).tidy
  | .stripeOpen nsid zone us => (execStripeOpen_keeps nsid zone us s).tidy
  | .gatherTimeout nsid => (execGatherTimeout_keeps nsid s).tidy
  | .stripeWritten stripe => (execStripeWritten_keeps stripe s).tidy
  | .stripeVerified stripe => (execStripeVerified_keeps stripe s).tidy
  | .stripeCommit stripe => (execStripeCommit_keeps stripe s).tidy
  | .stripeVoid stripe => (execStripeVoid_keeps stripe s).tidy
  | .memberArrival stripe member planned tags words => execMemberArrival_tidy stripe member planned tags words s
  | .slowMemberDeadline stripe => execSlowMemberDeadline_tidy stripe s
  | .rebuildStart => (execRebuildStart_keeps s).tidy
  | .rebuildComplete stripe member => (execRebuildComplete_keeps stripe member s).tidy
  | .checkpoint => (execCheckpoint_keeps s).tidy
  | .checkpointTimer => (execCheckpointTimer_keeps s).tidy
  | .mapDemandLoad nsid page o => (execMapDemandLoad_keeps nsid page o s).tidy
  | .mapPageLoaded nsid page us => execMapPageLoaded_tidy nsid page us s
  | .cleaning nsid => (execCleaning_keeps nsid s).tidy
  | .ledgerTimer l => (execLedgerTimer_keeps l s).tidy
  | .readConfirm pba cwix => (execReadConfirm_keeps pba cwix s).tidy
  | .layerFailed l => (execLayerFailed_keeps l s).tidy
  | .patrolLapEnd sec => (execPatrolLapEnd_keeps sec s).tidy
  | .refresh => (execRefresh_keeps s).tidy
  | .hltCtrlRestart p v => (execHltCtrlRestart_keeps p v s).tidy
  | .hltCtrlPause p v => (execHltCtrlPause_keeps p v s).tidy
  | .calDue h l => (execCalDue_keeps h l s).tidy
  | .calSweepDone h l r => (execCalSweepDone_keeps h l r s).tidy
  | .calCtl p v => (execCalCtl_keeps p v s).tidy
  | .fullCalLayerDone h l => (execFullCalLayerDone_keeps h l s).tidy
  | .custodyArbitration => (execCustodyArbitration_keeps s).tidy
  | .namespaceSwapEnd nsid expired => (execNamespaceSwapEnd_keeps nsid expired s).tidy
  | .sqDoorbell p qid tail => (execSqDoorbell_keeps p qid tail s).tidy
  | .deleteIoSq p cid qid => execDeleteIoSq_tidy p cid qid s
  | .createIoSq p cid qid size cqid prio => (execCreateIoSq_keeps p cid qid size cqid prio s).tidy
  | .getLogPage p cid lid nsid off len rae => (execGetLogPage_keeps p cid lid nsid off len rae s).tidy
  | .deleteIoCq p cid qid => (execDeleteIoCq_keeps p cid qid s).tidy
  | .createIoCq p cid qid size vec => (execCreateIoCq_keeps p cid qid size vec s).tidy
  | .identify p cid cns csi nsid cntid => (execIdentify_keeps p cid cns csi nsid cntid s).tidy
  | .abort p cid sqid target => execAbort_tidy p cid sqid target s
  | .setFeatures p cid fid nsid val sv => (execSetFeatures_keeps p cid fid nsid val sv s).tidy
  | .getFeatures p cid fid nsid sel val => (execGetFeatures_keeps p cid fid nsid sel val s).tidy
  | .asynchronousEventRequest p cid => (execAsynchronousEventRequest_keeps p cid s).tidy
  | .namespaceCreate p cid n => (execNamespaceCreate_keeps p cid n s).tidy
  | .namespaceDelete p cid nsid => (execNamespaceDelete_keeps p cid nsid s).tidy
  | .namespaceAttachment p cid nsid detach ctrls => (execNamespaceAttachment_keeps p cid nsid detach ctrls s).tidy
  | .keyDeliver p cid payload => (execKeyDeliver_keeps p cid payload s).tidy
  | .kekInstall p cid payload => (execKekInstall_keeps p cid payload s).tidy
  | .keyPurge p cid nsid => (execKeyPurge_keeps p cid nsid s).tidy
  | .securityReceive p cid proto spsp => (execSecurityReceive_keeps p cid proto spsp s).tidy
  | .sanitize p cid cdw10 => (execSanitize_keeps p cid cdw10 s).tidy
  | .sanitizeStepDone ok => (execSanitizeStepDone_keeps ok s).tidy
  | .sanitizeResume => (execSanitizeResume_keeps s).tidy
  | .mount p cid cdw10 => (execMount_keeps p cid cdw10 s).tidy
  | .mountStepDone => (execMountStepDone_keeps s).tidy
  | .atticPart1Done => (execAtticPart1Done_keeps s).tidy
  | .atticPart2Done => (execAtticPart2Done_keeps s).tidy
  | .resyncDone => (execResyncDone_keeps s).tidy
  | .mountFailure cause => (execMountFailure_keeps cause s).tidy
  | .unmount p cid cdw10 => (execUnmount_keeps p cid cdw10 s).tidy
  | .unmountStepDone => (execUnmountStepDone_keeps s).tidy
  | .calibrate p cid cdw10 => (execCalibrate_keeps p cid cdw10 s).tidy
  | .patrolQuery p cid => (execPatrolQuery_keeps p cid s).tidy
  | .patrolPause p cid => (execPatrolPause_keeps p cid s).tidy
  | .patrolResume p cid => (execPatrolResume_keeps p cid s).tidy
  | .patrolRestart p cid => (execPatrolRestart_keeps p cid s).tidy
  | .custodyQuery p cid nsid => (execCustodyQuery_keeps p cid nsid s).tidy
  | .custodyRequest p cid nsid target => (execCustodyRequest_keeps p cid nsid target s).tidy
  | .mode p cid cdw10 => (execMode_keeps p cid cdw10 s).tidy
  | .unsupportedOpcode p qid cid op => (execUnsupportedOpcode_keeps p qid cid op s).tidy
  | .flush c => execFlush_tidy c s
  | .write c data ls => execWrite_tidy c data ls s
  | .read c fua os => execRead_tidy c fua os s
  | .writeZeroes c => execWriteZeroes_tidy c s
  | .datasetManagement c ad ranges => execDatasetManagement_tidy c ad ranges s
  | .verify c => execVerify_tidy c s
  | .zoneOpen c all => execZoneOpen_tidy c all s
  | .zoneClose c all => execZoneClose_tidy c all s
  | .zoneFinish c all => execZoneFinish_tidy c all s
  | .zoneReset c all => execZoneReset_tidy c all s
  | .reportZones c opt len => (execReportZones_keeps c opt len s).tidy
  | .zoneAppend c data ls => execZoneAppend_tidy c data ls s
  | .rangeLockRelease => execRangeLockRelease_tidy s
  | .bar2Read p off reach o l => (execBar2Read_keeps p off reach o l s).tidy
  | .bar2Write p off data reach os ls => execBar2Write_tidy p off data reach os ls s
  | .sweepComplete pulls => (execSweepComplete_keeps pulls s).tidy
  | .scrubSlot os => (execScrubSlot_keeps os s).tidy
  | .scrubLapEnd lap => (execScrubLapEnd_keeps lap s).tidy
  | .ceBucketLeak => (execCeBucketLeak_keeps s).tidy
  | .memoryErrorWindow n => (execMemoryErrorWindow_keeps n s).tidy
  | .refreshRatePoll rates => (execRefreshRatePoll_keeps rates s).tidy
  | .larderWayFault w line dirty => (execLarderWayFault_keeps w line dirty s).tidy
  | .larderWayCeWindow w k n block => (execLarderWayCeWindow_keeps w k n block s).tidy
  | .larderWayCleaned w => (execLarderWayCleaned_keeps w s).tidy
  | .lrdWayOffline p v => (execLrdWayOffline_keeps p v s).tidy
  | .lrdWayRestore p v => (execLrdWayRestore_keeps p v s).tidy
  | .lrdWayBistDone pass => (execLrdWayBistDone_keeps pass s).tidy
  | .lrdDisable p v => (execLrdDisable_keeps p v s).tidy
  | .lrdEnable p v => (execLrdEnable_keeps p v s).tidy
  | .larderDisabled => (execLarderDisabled_keeps s).tidy
  | .nop q w => (execNop_keeps q w s).tidy
  | .mov q w => (execMov_keeps q w s).tidy
  | .add q w => (execAdd_keeps q w s).tidy
  | .sub q w => (execSub_keeps q w s).tidy
  | .and q w => (execAnd_keeps q w s).tidy
  | .or q w => (execOr_keeps q w s).tidy
  | .xor q w => (execXor_keeps q w s).tidy
  | .shl q w => (execShl_keeps q w s).tidy
  | .shr q w => (execShr_keeps q w s).tidy
  | .cmp q w => (execCmp_keeps q w s).tidy
  | .ld q w => (execLd_keeps q w s).tidy
  | .st q w => (execSt_keeps q w s).tidy
  | .deq q w => (execDeq_keeps q w s).tidy
  | .enq q w => (execEnq_keeps q w s).tidy
  | .waitq q w => (execWaitq_keeps q w s).tidy
  | .waita q w cls owner target len rank exempt => (execWaita_keeps q w cls owner target len rank exempt s).tidy
  | .bar q w => (execBar_keeps q w s).tidy
  | .call q w => (execCall_keeps q w s).tidy
  | .ret q w => (execRet_keeps q w s).tidy
  | .br q w => (execBr_keeps q w s).tidy
  | .mchk q w => (execMchk_keeps q w s).tidy
  | .queueWaitEnd q k desc => (execQueueWaitEnd_keeps q k desc s).tidy
  | .barrierComplete mask => (execBarrierComplete_keeps mask s).tidy
  | .angleGrant idx => (execAngleGrant_keeps idx s).tidy
  | .machineCheck q cause scan => (execMachineCheck_keeps q cause scan s).tidy
  | .romScanLap => (execRomScanLap_keeps s).tidy
  | .dmaStart p c v => (execDmaStart_keeps p c v s).tidy
  | .dmaPause p c v out => (execDmaPause_keeps p c v out s).tidy
  | .dmaResume p c v => (execDmaResume_keeps p c v s).tidy
  | .dmaAbort p c v => (execDmaAbort_keeps p c v s).tidy
  | .dmaHalf c => (execDmaHalf_keeps c s).tidy
  | .dmaDone c => (execDmaDone_keeps c s).tidy
  | .dmaError c err o l => (execDmaError_keeps c err o l s).tidy
  | .dmaFifoPacket c => execDmaFifoPacket_tidy c s
  | .fifDrop p v => (execFifDrop_keeps p v s).tidy
  | .fifDataRead p f o => (execFifDataRead_keeps p f o s).tidy
  | .fifTcfgWrite p v => (execFifTcfgWrite_keeps p v s).tidy
  | .telemetrySample => (execTelemetrySample_keeps s).tidy
  | .governorDemand => (execGovernorDemand_keeps s).tidy
  | .thmDemand p v => (execThmDemand_keeps p v s).tidy
  | .dieConversionDone codes us => (execDieConversionDone_keeps codes us s).tidy
  | .sensorSuspect k code => (execSensorSuspect_keeps k code s).tidy
  | .dutyUpdate => (execDutyUpdate_keeps s).tidy
  | .dieBandChange => (execDieBandChange_keeps s).tidy
  | .thermalComparatorTrip => (execThermalComparatorTrip_keeps s).tidy
  | .celRead p v => (execCelRead_keeps p v s).tidy
  | .celProgram p v => (execCelProgram_keeps p v s).tidy
  | .celErase p v => (execCelErase_keeps p v s).tidy
  | .cellarOpComplete ok => (execCellarOpComplete_keeps ok s).tidy
  | .cellarEraseRequest ledger => (execCellarEraseRequest_keeps ledger s).tidy
  | .celUnlock p v recent => (execCelUnlock_keeps p v recent s).tidy
  | .celLock p v => (execCelLock_keeps p v s).tidy
  | .celSetpw p v => (execCelSetpw_keeps p v s).tidy
  | .celSetprot p v => (execCelSetprot_keeps p v s).tidy
  | .dbgUnlock p v recent => (execDbgUnlock_keeps p v recent s).tidy
  | .debugPortOpen => (execDebugPortOpen_keeps s).tidy
  | .idcode => (execIdcode_keeps s).tidy
  | .samplePreload balls cells => (execSamplePreload_keeps balls cells s).tidy
  | .extest balls cells => (execExtest_keeps balls cells s).tidy
  | .clamp => (execClamp_keeps s).tidy
  | .highz => (execHighz_keeps s).tidy
  | .tapUnlock pw recent => (execTapUnlock_keeps pw recent s).tidy
  | .dstat => (execDstat_keeps s).tidy
  | .scanout capture n => (execScanout_keeps capture n s).tidy
  | .fullrst => (execFullrst_keeps s).tidy
  | .tfreeze => (execTfreeze_keeps s).tidy
  | .bypass code => (execBypass_keeps code s).tidy
  | .trst => (execTrst_keeps s).tidy
  | .fltHeadOffline p v => (execFltHeadOffline_keeps p v s).tidy
  | .fltHeadRestore p v => (execFltHeadRestore_keeps p v s).tidy
  | .rampwaitEnd => (execRampwaitEnd_keeps s).tidy
  | .headLeaveDone h => (execHeadLeaveDone_keeps h s).tidy
  | .headJoinDone h => (execHeadJoinDone_keeps h s).tidy
  | .readbackDone => (execReadbackDone_keeps s).tidy
  | .registerWrite p off v whole out recent => (execRegisterWrite_keeps p off v whole out recent s).tidy
  | .loRegisterRead p which viaAlias => (execLoRegisterRead_keeps p which viaAlias s).tidy
  | .angLockRead p => (execAngLockRead_keeps p s).tidy
  | .angEvtRead p => (execAngEvtRead_keeps p s).tidy
  | .angQwinRead p => (execAngQwinRead_keeps p s).tidy
  | .sktCntRead p => (execSktCntRead_keeps p s).tidy
  | .opuHstatRead p h => (execOpuHstatRead_keeps p h s).tidy
  | .opuLinkrspRead p h => (execOpuLinkrspRead_keeps p h s).tidy
  | .opuGstatRead p => (execOpuGstatRead_keeps p s).tidy
  | .srvLstatRead p l => (execSrvLstatRead_keeps p l s).tidy
  | .srvArithRead p l => (execSrvArithRead_keeps p l s).tidy
  | .srvHcntRead p h => (execSrvHcntRead_keeps p h s).tidy
  | .srvTqwinRead p h => (execSrvTqwinRead_keeps p h s).tidy
  | .srvShkstRead p => (execSrvShkstRead_keeps p s).tidy
  | .sldCntRead p h => (execSldCntRead_keeps p h s).tidy
  | .spnDistRead p => (execSpnDistRead_keeps p s).tidy
  | .chnLstatRead p l => (execChnLstatRead_keeps p l s).tidy
  | .detHcntRead p h => (execDetHcntRead_keeps p h s).tidy
  | .detPassRead p h => (execDetPassRead_keeps p h s).tidy
  | .cwdQueueRead p => (execCwdQueueRead_keeps p s).tidy
  | .cwdTagcntRead p => (execCwdTagcntRead_keeps p s).tidy
  | .cwdCntRead p => (execCwdCntRead_keeps p s).tidy
  | .wrsHstatRead p h => (execWrsHstatRead_keeps p h s).tidy
  | .wrsOpcstRead p h => (execWrsOpcstRead_keeps p h s).tidy
  | .wrsVcntRead p h => (execWrsVcntRead_keeps p h s).tidy
  | .strCntRead p => (execStrCntRead_keeps p s).tidy
  | .strReconRead p => (execStrReconRead_keeps p s).tidy
  | .strSlowRead p => (execStrSlowRead_keeps p s).tidy
  | .strRbRead p => (execStrRbRead_keeps p s).tidy
  | .mapDfRead p => (execMapDfRead_keeps p s).tidy
  | .mapDfmaxRead p => (execMapDfmaxRead_keeps p s).tidy
  | .mapCkptRead p => (execMapCkptRead_keeps p s).tidy
  | .mapCleanRead p => (execMapCleanRead_keeps p s).tidy
  | .hltRefqRead p => (execHltRefqRead_keeps p s).tidy
  | .hltCntRead p => (execHltCntRead_keeps p s).tidy
  | .hltLedgRead p => (execHltLedgRead_keeps p s).tidy
  | .calCntRead p => (execCalCntRead_keeps p s).tidy
  | .hstPortRead p x => (execHstPortRead_keeps p x s).tidy
  | .hstInflRead p x => (execHstInflRead_keeps p x s).tidy
  | .hstCustRead p => (execHstCustRead_keeps p s).tidy
  | .hstRlockRead p => (execHstRlockRead_keeps p s).tidy
  | .hstErrcntRead p => (execHstErrcntRead_keeps p s).tidy
  | .memSweepRead p => (execMemSweepRead_keeps p s).tidy
  | .memCeBucketRead p => (execMemCeBucketRead_keeps p s).tidy
  | .memCecntRead p => (execMemCecntRead_keeps p s).tidy
  | .memUecntRead p => (execMemUecntRead_keeps p s).tidy
  | .memBar2Read p => (execMemBar2Read_keeps p s).tidy
  | .lrdHitsRead p => (execLrdHitsRead_keeps p s).tidy
  | .lrdMissesRead p => (execLrdMissesRead_keeps p s).tidy
  | .lrdSeqcntRead p => (execLrdSeqcntRead_keeps p s).tidy
  | .lrdErrRead p => (execLrdErrRead_keeps p s).tidy
  | .seqHitsRead p q => (execSeqHitsRead_keeps p q s).tidy
  | .fifLostRead p f => (execFifLostRead_keeps p f s).tidy
  | .sysModeStRead p => (execSysModeStRead_keeps p s).tidy
  | .pwrVinRead p => (execPwrVinRead_keeps p s).tidy
  | .pwrEvtRead p => (execPwrEvtRead_keeps p s).tidy
  | .thmCntRead p => (execThmCntRead_keeps p s).tidy
  | .fltStatRead p => (execFltStatRead_keeps p s).tidy
  | .celCntRead p => (execCelCntRead_keeps p s).tidy
  | .secCntRead p => (execSecCntRead_keeps p s).tidy
  | .patrolIdleStart => (execPatrolIdleStart_keeps s).tidy
  | .vinSample mv => (execVinSample_keeps mv s).tidy
  | .dmaReadCompletion c n data left => execDmaReadCompletion_tidy c n data left s

/-- Settles O43: the next state that each row answers keeps the queue. -/
theorem everyCommandCompletes : Obligations.EveryCommandCompletes := by
  unfold Obligations.EveryCommandCompletes
  intro c s
  obtain ⟨t, ht, htidy⟩ := exec_keepsTidy c s
  exact ⟨t, ht, htidy.pending⟩

theorem fieldsAt_angNowHi : fieldsAt ANG_NOW_HI_REV.off = [ANG_NOW_HI_REV] := by decide +kernel

/-- In BARE, ANG_NOW_HI reads its reset value, whatever its latch holds (R73, R94). -/
theorem regRead_angNowHi_bare {u : State} (h : u.life = BARE) : u.regRead ANG_NOW_HI_REV.off = 0 := by
  have hfld : u.readFld ANG_NOW_HI_REV = 0 := by
    unfold State.readFld
    rw [h]; rfl
  have hwindow : ¬ (0x401000 ≤ ANG_NOW_HI_REV.off ∧ ANG_NOW_HI_REV.off < 0x403000) := by decide
  have hcore : ANG_NOW_HI_REV.off ≠ PWR_ICORE_MA.off := by decide
  have hminutes : minutesFree ANG_NOW_HI_REV.off = false := by decide
  simp [State.regRead, fieldsAt_angNowHi, hfld, hwindow, hcore, hminutes]

/-- MOUNTED, in the revolution numbered 1; port 0 holds custody. -/
def mountedInRevOne : State :=
  { ((State.reset.put SYS_STATE_STATE MOUNTED).put HST_CUST_MGMT 1).put ANG_NOW_HI_REV 1 with
    cnv := { State.reset.cnv with cfg := { State.reset.cnv.cfg with
      queues := [{ enable := true, vectors := 4, inFlight := 8 }] } } }

theorem mountedInRevOne_rev : mountedInRevOne.get ANG_NOW_HI_REV = 1 := by decide +kernel

/-- Refutes O53: the clause of ANG_NOW speaks of every later state with the same latch, those in BARE among them, where
ANG_NOW_HI reads its reset value. Port 0 reads ANG_NOW_LO in the revolution 1, so that the latch holds 1; with that latch and BARE the
high half reads 0. -/
theorem not_loHighPairs : ¬ Obligations.LoHighPairs := by
  unfold Obligations.LoHighPairs
  rintro ⟨hangle, -⟩
  obtain ⟨t, -, -, ht, hlater⟩ := hangle 0 mountedInRevOne (by decide +kernel)
  have hlatch : t.ang.latchHi = 1 := by
    rw [ht]
    dsimp only
    exact mountedInRevOne_rev
  have hread := hlater { State.reset with ang := { State.reset.ang with latchHi := 1 } } hlatch.symm
  rw [regRead_angNowHi_bare (by decide +kernel), mountedInRevOne_rev] at hread
  exact absurd hread (by decide)

end Sys2Proof.Machine
end

section
/-! PROOFS. The custodian's read of a register whose read does no more than clear (R20, R564). -/

namespace Sys2Proof.Machine
open R

/-- The read-to-clear fields of the register at an offset. -/
def rcFields (off : Nat) : List Fld := (fieldsAt off).filter fun f => f.acc == .rc

/-- A read of the register at `off` does no more than clear: it clears `l` alone, and every reset value fits its field. -/
def clearsOnly (off : Nat) (l : List Fld) : Bool :=
  plainRead off && decide (rcFields off = l) && decide (l.map Fld.key).Nodup && l.all fun f => f.reset % 2 ^ f.width == f.reset

/-- A field reads its reset value once a list of distinct fields, it among them, is reset. -/
theorem get_puts_reset {f : Fld} (hf : f.reset % 2 ^ f.width = f.reset) : ∀ (l : List Fld) (s : State), f ∈ l →
    (l.map Fld.key).Nodup → (s.puts (l.map fun g => (g, g.reset))).get f = f.reset := by
  intro l
  induction l with
  | nil => exact fun _ h => absurd h List.not_mem_nil
  | cons g l ih =>
    intro s hmem hnd
    obtain ⟨hg, hl⟩ := List.nodup_cons.mp hnd
    rw [List.map_cons, puts_cons]
    rcases List.mem_cons.mp hmem with rfl | hmem
    · rw [get_puts_ne, get_put_self, hf]
      rintro ⟨x, n⟩ hx hkey
      obtain ⟨y, hy, hxy⟩ := List.mem_map.mp hx
      obtain ⟨rfl, -⟩ := Prod.mk.inj hxy
      exact hg (hkey ▸ List.mem_map_of_mem hy)
    · exact ih _ hmem hl

/-- The custodian's read of a register that only clears: the value as it was, the cleared fields, and the frame (R564). -/
theorem readRow_clears {s : State} {p off : Nat} {l : List Fld} (hr : s.reads p off = true) (hc : clearsOnly off l = true) :
    ∃ t, readRow p off s = .next t ∧ t.rdata = BitVec.ofNat 32 (s.regRead off) ∧ (∀ f ∈ l, t.get f = f.reset) ∧
      ({ s with rdata := t.rdata } : State).sameBut t l := by
  simp only [clearsOnly, Bool.and_eq_true, decide_eq_true_eq, List.all_eq_true, beq_iff_eq] at hc
  obtain ⟨⟨⟨hplain, hl⟩, hnd⟩, hfit⟩ := hc
  obtain ⟨t, ht, hd, hget, hkeep⟩ := readRow_plain hr hplain l hl
  exact ⟨t, ht, hd, fun f hf => (hget f).trans (get_puts_reset (hfit f hf) l s hf hnd), hkeep⟩

theorem readRow_clears_one {s : State} {p off : Nat} {a : Fld} (hr : s.reads p off = true) (hc : clearsOnly off [a] = true) :
    ∃ t, readRow p off s = .next t ∧ t.rdata = BitVec.ofNat 32 (s.regRead off) ∧ t.get a = a.reset ∧
      ({ s with rdata := t.rdata } : State).sameBut t [a] := by
  obtain ⟨t, ht, hd, hget, hkeep⟩ := readRow_clears hr hc
  exact ⟨t, ht, hd, hget a (by simp), hkeep⟩

theorem readRow_clears_two {s : State} {p off : Nat} {a b : Fld} (hr : s.reads p off = true) (hc : clearsOnly off [a, b] = true) :
    ∃ t, readRow p off s = .next t ∧ t.rdata = BitVec.ofNat 32 (s.regRead off) ∧ t.get a = a.reset ∧ t.get b = b.reset ∧
      ({ s with rdata := t.rdata } : State).sameBut t [a, b] := by
  obtain ⟨t, ht, hd, hget, hkeep⟩ := readRow_clears hr hc
  exact ⟨t, ht, hd, hget a (by simp), hget b (by simp), hkeep⟩

theorem readRow_clears_three {s : State} {p off : Nat} {a b c : Fld} (hr : s.reads p off = true)
    (hc : clearsOnly off [a, b, c] = true) :
    ∃ t, readRow p off s = .next t ∧ t.rdata = BitVec.ofNat 32 (s.regRead off) ∧ t.get a = a.reset ∧ t.get b = b.reset ∧
      t.get c = c.reset ∧ ({ s with rdata := t.rdata } : State).sameBut t [a, b, c] := by
  obtain ⟨t, ht, hd, hget, hkeep⟩ := readRow_clears hr hc
  exact ⟨t, ht, hd, hget a (by simp), hget b (by simp), hget c (by simp), hkeep⟩

theorem clearsOnly_hstPort : ∀ i : Port, clearsOnly (HST_PORT_LINKDOWNS i).off [HST_PORT_LINKDOWNS i] = true := by decide +kernel
theorem clearsOnly_hstInfl : ∀ i : Port, clearsOnly (HST_INFL_PEAK i).off [HST_INFL_PEAK i] = true := by decide +kernel
theorem clearsOnly_seqHits : ∀ q : Seq, clearsOnly (SEQ_HITS_HITS q).off [SEQ_HITS_HITS q] = true := by decide +kernel
theorem clearsOnly_fifLost : ∀ f : FifoId, clearsOnly (FIF_LOST_LOST f).off [FIF_LOST_LOST f] = true := by decide +kernel

/-- Settles O41: each of these rows is the custodian's read of a register whose read only clears the fields listed. -/
theorem readsClearTheirCounters2 : Obligations.ReadsClearTheirCounters2 := by
  unfold Obligations.ReadsClearTheirCounters2
  exact ⟨fun _ _ h => readRow_clears_two (a := STR_CNT_COMMITS) (b := STR_CNT_VOIDS) h (by decide +kernel),
    fun _ _ h => readRow_clears_two (a := STR_RECON_RECON) (b := STR_RECON_UNREC) h (by decide +kernel),
    fun _ _ h => readRow_clears_two (a := STR_SLOW_SLOW) (b := STR_SLOW_DEGRD) h (by decide +kernel),
    fun _ _ h => readRow_clears_one (a := STR_RB_DONE) h (by decide +kernel),
    fun _ _ h => readRow_clears_one (a := MAP_DF_COUNT) h (by decide +kernel),
    fun _ _ h => readRow_clears_one (a := MAP_DFMAX_US) h (by decide +kernel),
    fun _ _ h => readRow_clears_two (a := MAP_CKPT_MAPCK) (b := MAP_CKPT_ZONECK) h (by decide +kernel),
    fun _ _ h => readRow_clears_one (a := MAP_CLEAN_UNITS) h (by decide +kernel),
    fun _ _ h => readRow_clears_one (a := HLT_REFQ_DROP) h (by decide +kernel),
    fun _ _ h => readRow_clears_two (a := HLT_CNT_REFRESH) (b := HLT_CNT_RETIRE) h (by decide +kernel),
    fun _ _ h => readRow_clears_one (a := HLT_LEDG_DELTAS) h (by decide +kernel),
    fun _ _ h => readRow_clears_two (a := CAL_CNT_FAILS) (b := CAL_CNT_RUNS) h (by decide +kernel),
    fun _ i _ h => readRow_clears_one h (clearsOnly_hstPort i),
    fun _ i _ h => readRow_clears_one h (clearsOnly_hstInfl i),
    fun _ _ h => readRow_clears_one (a := HST_CUST_DISCARDS) h (by decide +kernel),
    fun _ _ h => readRow_clears_one (a := HST_RLOCK_STALLS) h (by decide +kernel),
    fun _ _ h => readRow_clears_two (a := HST_ERRCNT_UNREC) (b := HST_ERRCNT_ERRLOG) h (by decide +kernel),
    fun _ _ h => readRow_clears_one (a := MEM_SWEEP_PULLS) h (by decide +kernel),
    fun _ _ h => readRow_clears_one (a := MEM_CE_BUCKET_OVFN) h (by decide +kernel),
    fun _ _ h => readRow_clears_one (a := MEM_CECNT_CE) h (by decide +kernel),
    fun _ _ h => readRow_clears_two (a := MEM_UECNT_ADDRN) (b := MEM_UECNT_UEN) h (by decide +kernel),
    fun _ _ h => readRow_clears_one (a := MEM_BAR2_DISCARDS) h (by decide +kernel),
    fun _ _ h => readRow_clears_one (a := LRD_HITS_HITS) h (by decide +kernel),
    fun _ _ h => readRow_clears_one (a := LRD_MISSES_MISSES) h (by decide +kernel),
    fun _ _ h => readRow_clears_one (a := LRD_SEQCNT_BYPASS) h (by decide +kernel),
    fun _ _ h => readRow_clears_two (a := LRD_ERR_UE) (b := LRD_ERR_CE) h (by decide +kernel),
    fun _ q _ h => readRow_clears_one h (clearsOnly_seqHits q),
    fun _ f _ h => readRow_clears_one h (clearsOnly_fifLost f),
    fun _ _ h => readRow_clears_one (a := SYS_MODE_ST_CHANGES) h (by decide +kernel),
    fun _ _ h => readRow_clears_one (a := PWR_VIN_MIN) h (by decide +kernel),
    fun _ _ h => readRow_clears_two (a := PWR_EVT_HOLDUP) (b := PWR_EVT_BROWNOUT) h (by decide +kernel),
    fun _ _ h => readRow_clears_three (a := THM_CNT_SUSPN) (b := THM_CNT_HOSTDEM) (c := THM_CNT_THROTS) h (by decide +kernel),
    fun _ _ h => readRow_clears_three (a := FLT_STAT_UNCOV) (b := FLT_STAT_BYPASSN) (c := FLT_STAT_ENTRIES) h (by decide +kernel),
    fun _ _ h => readRow_clears_two (a := CEL_CNT_ERASES) (b := CEL_CNT_ERRWORDS) h (by decide +kernel),
    fun _ _ h => readRow_clears_three (a := SEC_CNT_GENMIS) (b := SEC_CNT_REFUSED) (c := SEC_CNT_DELIVERED) h (by decide +kernel)⟩

end Sys2Proof.Machine
end

section
/-! PROOFS. The Canvas, the wobble and the alarm, BAR2 and the scrub, mode transitions and register writes: each row under its guard. -/

namespace Sys2Proof.Machine
open R

/-- Settles O5: the writes of CNV_CTRL reach the register, and each phase's guard holds in its phase. -/
theorem canvasCommandsAndPhases : Obligations.CanvasCommandsAndPhases := by
  unfold Obligations.CanvasCommandsAndPhases
  refine ⟨?load, ?apply, ?abort, ?fetched, ?fetchFailed, ?validated, ?trained, ?committed⟩
  case load => exact fun p v s hr => show execCnvLoad p v s = _ from vendorWrite_reaches hr _ _
  case apply => exact fun p v s hr => show execCnvApply p v s = _ from vendorWrite_reaches hr _ _
  case abort => exact fun p v s hr => show execCnvAbort p v s = _ from vendorWrite_reaches hr _ _
  case fetched =>
    rintro image _ s hon hphase rfl hlen
    show execCanvasFetchDone image true s = _
    exact doIf_true _ (by simp [hon, hphase, hlen])
  case fetchFailed =>
    rintro image _ s hon hphase rfl
    show execCanvasFetchDone image false s = _
    exact doIf_true _ (by simp [hon, hphase])
  case validated =>
    intro us s hon hphase htraining
    show execCanvasValidationDone us s = _
    exact doIf_true _ (by simp [hon, hphase, htraining])
  case trained =>
    intro trained gib us s hon hphase htraining
    show execMemTrainingDone trained gib us s = _
    exact doIf_true _ (by simp [hon, hphase, htraining])
  case committed =>
    intro us s hon hphase
    show execCanvasCommitDone us s = _
    exact doIf_true _ (by simp [hon, hphase])

/-- Settles O10: each event's guard follows from the hypotheses, and the write of ANG_ALARM_HI reaches its register. -/
theorem wobbleAlarmAndWindows : Obligations.WobbleAlarmAndWindows := by
  unfold Obligations.WobbleAlarmAndWindows
  refine ⟨?lock, ?loss, ?refSwitch, ?settled, ?arm, ?fire, ?window⟩
  case lock =>
    intro e rate s happ hsrc hindexed hcand hin
    show execWobbleLock e rate s = _
    exact doIf_true _ (by simp [happ, hsrc, hindexed, hcand, hin])
  case loss =>
    intro s happ hsrc hout
    show execWobbleLockLoss s = _
    exact doIf_true _ (by rw [happ, hsrc, hout]; rfl)
  case refSwitch =>
    intro s happ hsrc href hcand
    show execWobbleRefSwitch s = _
    exact doIf_true _ (by simp [happ, hsrc, href, hcand])
  case settled =>
    intro s happ hramp hn
    show execRampSettled s = _
    exact doIf_true _ (by simp [happ, hramp, hn])
  case arm => exact fun p v s hr => show execAngAlarmArm p v s = _ from vendorWrite_reaches hr _ _
  case fire =>
    intro s a htarget hon hrunning hbefore
    show execAlarm s = _
    simp only [execAlarm, htarget]
    exact doIf_true _ (by simp [hon, hrunning, hbefore])
  case window =>
    intro m s happ hrunning hpassed
    show execMeasurementWindowEnd m s = _
    exact doIf_true _ (by simp [happ, hrunning, hpassed])

/-- Settles O33: each row's guard follows from the hypotheses; a scrub slot also finds its due event. -/
theorem bar2AndScrub : Obligations.Bar2AndScrub := by
  unfold Obligations.Bar2AndScrub
  refine ⟨?read, ?write, ?swept, ?slot, ?lap, ?leak, ?errors, ?poll⟩
  case read => exact fun p off reach o l s hon => show execBar2Read p off reach o l s = _ from doIf_true _ hon
  case write =>
    intro p off data reach os ls s hon happ
    show execBar2Write p off data reach os ls s = _
    exact doIf_true _ (by simp [hon, happ])
  case swept =>
    intro pulls s happ hphase
    show execSweepComplete pulls s = _
    exact doIf_true _ (by simp [happ, hphase])
  case slot =>
    intro os s e hscrubs hturn hdue
    show execScrubSlot os s = _
    refine (doIf_true _ hscrubs).trans ?_
    simp only [hturn, hdue, Bool.not_true, Bool.false_eq_true, if_false]
  case lap =>
    intro lap s happ hphase hlast
    show execScrubLapEnd lap s = _
    exact doIf_true _ (by simp [happ, hphase, hlast])
  case leak => exact fun s happ => show execCeBucketLeak s = _ from doIf_true _ happ
  case errors =>
    intro n s happ hlimit
    show execMemoryErrorWindow n s = _
    unfold execMemoryErrorWindow
    exact doIf_true _ (Bool.and_eq_true_iff.mpr ⟨happ, hlimit⟩)
  case poll =>
    intro rates s happ hlen
    show execRefreshRatePoll rates s = _
    exact doIf_true _ (by simp [happ, hlen])

/-- Settles O39: the ends of the transitions run under their guards, the custodian's writes reach their registers, and a part or
misaligned write fails the test of a whole aligned access (R562). -/
theorem modesHeadsAndRegisterWrites : Obligations.ModesHeadsAndRegisterWrites := by
  unfold Obligations.ModesHeadsAndRegisterWrites
  refine ⟨?rampwait, ?left, ?joined, ?readback, ?offline, ?restore, ?whole, ?part⟩
  case rampwait =>
    intro s hlife hwait hwriting
    show execRampwaitEnd s = _
    exact doIf_true _ (by simp [hlife, hwait, hwriting])
  case left =>
    intro h s hlife hleave hretracted hstill
    show execHeadLeaveDone h s = _
    exact doIf_true _ (by simp [hlife, hleave, hretracted, hstill])
  case joined =>
    intro h s hlife hjoin hphase
    show execHeadJoinDone h s = _
    exact doIf_true _ (by simp [hlife, hjoin, hphase])
  case readback =>
    intro s hlife hreadback hverified
    show execReadbackDone s = _
    exact doIf_true _ (by simp [hlife, hreadback, hverified])
  case offline => exact fun p v s hr => show execFltHeadOffline p v s = _ from vendorWrite_reaches hr _ _
  case restore => exact fun p v s hr => show execFltHeadRestore p v s = _ from vendorWrite_reaches hr _ _
  case whole =>
    intro p off v out recent s haligned hlo hhi hr
    show execRegisterWrite p off v true out recent s = _
    simp only [execRegisterWrite, haligned, hlo, hhi, beq_iff_eq, decide_true, Bool.and_self, beq_self_eq_true, if_true]
    exact vendorWrite_reaches hr _ _
  case part =>
    intro p off v whole out recent s hpart
    show execRegisterWrite p off v whole out recent s = _
    unfold execRegisterWrite
    rw [if_neg]
    rcases hpart with rfl | hmis
    · simp
    · simp [hmis]

end Sys2Proof.Machine
end

section
/-! PROOFS. Which rows leave buffer memory alone (R28, R416, R417). -/

namespace Sys2Proof.Machine

/-- A row that stores nothing answers a next state that keeps the bytes of buffer memory: row by row, the rule of its meaning. -/
theorem exec_keeps (s : State) : ∀ c, storesMemory c = false → Keeps s (exec c s)
  | .vinPowerGood, _ => execVinPowerGood_keeps s
  | .regulatorRestart, _ => execRegulatorRestart_keeps s
  | .vinHoldUp, _ => execVinHoldUp_keeps s
  | .vinBrownOut, _ => execVinBrownOut_keeps s
  | .vinRecovered, _ => execVinRecovered_keeps s
  | .sysResetFull p v, _ => execSysResetFull_keeps p v s
  | .pcieLinkUp p width speed, _ => execPcieLinkUp_keeps p width speed s
  | .pcieLinkDown p ltssm, _ => execPcieLinkDown_keeps p ltssm s
  | .perst p, _ => execPerst_keeps p s
  | .functionLevelReset p, _ => execFunctionLevelReset_keeps p s
  | .controllerReset p, _ => execControllerReset_keeps p s
  | .controllerEnable p asqs acqs wrr, _ => execControllerEnable_keeps p asqs acqs wrr s
  | .normalShutdown p, _ => execNormalShutdown_keeps p s
  | .linkLossTimeout p, _ => execLinkLossTimeout_keeps p s
  | .freezePin, _ => execFreezePin_keeps s
  | .lsrEnFall, _ => execLsrEnFall_keeps s
  | .lsrEnRise, _ => execLsrEnRise_keeps s
  | .cartSeatedAsserted, _ => execCartSeatedAsserted_keeps s
  | .cartSeatedDeasserted, _ => execCartSeatedDeasserted_keeps s
  | .safestop p v, _ => execSafestop_keeps p v s
  | .resume p v, _ => execResume_keeps p v s
  | .triggerResolution, _ => execTriggerResolution_keeps s
  | .parkComplete, _ => execParkComplete_keeps s
  | .cnvLoad p v, _ => execCnvLoad_keeps p v s
  | .cnvApply p v, _ => execCnvApply_keeps p v s
  | .cnvAbort p v, _ => execCnvAbort_keeps p v s
  | .canvasFetchDone image ok, _ => execCanvasFetchDone_keeps image ok s
  | .canvasValidationDone us, _ => execCanvasValidationDone_keeps us s
  | .memTrainingDone trained gib us, _ => execMemTrainingDone_keeps trained gib us s
  | .canvasCommitDone us, _ => execCanvasCommitDone_keeps us s
  | .enumNopRetry h, _ => execEnumNopRetry_keeps h s
  | .enumWaitExpired h, _ => execEnumWaitExpired_keeps h s
  | .pickupResponse h resp, _ => execPickupResponse_keeps h resp s
  | .pickupResponseTimeout h, _ => execPickupResponseTimeout_keeps h s
  | .pickupLinkError h, _ => execPickupLinkError_keeps h s
  | .statusPoll h, _ => execStatusPoll_keeps h s
  | .pickupTempRead h, _ => execPickupTempRead_keeps h s
  | .opuLinkcmd p h v, _ => execOpuLinkcmd_keeps p h v s
  | .loffWrite p h v, _ => execLoffWrite_keeps p h v s
  | .lpmonFault h, _ => execLpmonFault_keeps h s
  | .laserStaggerNext, _ => execLaserStaggerNext_keeps s
  | .servoSample x, _ => execServoSample_keeps x s
  | .loopHold l, _ => execLoopHold_keeps l s
  | .loopResume l, _ => execLoopResume_keeps l s
  | .loopFail l, _ => execLoopFail_keeps l s
  | .srvUnitOffline p v, _ => execSrvUnitOffline_keeps p v s
  | .srvUnitRestore p v, _ => execSrvUnitRestore_keeps p v s
  | .srvUnitRestoreDone u pass, _ => execSrvUnitRestoreDone_keeps u pass s
  | .speedBandChange, _ => execSpeedBandChange_keeps s
  | .tick, _ => execTick_keeps s
  | .wedgeBoundary h, _ => execWedgeBoundary_keeps h s
  | .wlidDecoded h bits minfo, _ => execWlidDecoded_keeps h bits minfo s
  | .tridDecoded h trids, _ => execTridDecoded_keeps h trids s
  | .markDecoded h wedge word rate rev, _ => execMarkDecoded_keeps h wedge word rate rev s
  | .markEntry h, _ => execMarkEntry_keeps h s
  | .slewComplete, _ => execSlewComplete_keeps s
  | .markLoss, _ => execMarkLoss_keeps s
  | .coarseEntry rate, _ => execCoarseEntry_keeps rate s
  | .coarseLoss, _ => execCoarseLoss_keeps s
  | .wobbleLock e rate, _ => execWobbleLock_keeps e rate s
  | .wobbleLockLoss, _ => execWobbleLockLoss_keeps s
  | .wobbleRefSwitch, _ => execWobbleRefSwitch_keeps s
  | .rampSettled, _ => execRampSettled_keeps s
  | .angAlarmArm p v, _ => execAngAlarmArm_keeps p v s
  | .alarm, _ => execAlarm_keeps s
  | .measurementWindowEnd m, _ => execMeasurementWindowEnd_keeps m s
  | .sktStage p v, _ => execSktStage_keeps p v s
  | .sktCancel p v, _ => execSktCancel_keeps p v s
  | .sktClear p v, _ => execSktClear_keeps p v s
  | .varnishArm p v, _ => execVarnishArm_keeps p v s
  | .varnishDistributed, _ => execVarnishDistributed_keeps s
  | .varnishFinalCheck, _ => execVarnishFinalCheck_keeps s
  | .varnishCommit, _ => execVarnishCommit_keeps s
  | .focusAcquisition h, _ => execFocusAcquisition_keeps h s
  | .focusSettled h, _ => execFocusSettled_keeps h s
  | .focusAttemptFailed h, _ => execFocusAttemptFailed_keeps h s
  | .trackCapture h land, _ => execTrackCapture_keeps h land s
  | .trackJump h k, _ => execTrackJump_keeps h k s
  | .trackJumpDone h g, _ => execTrackJumpDone_keeps h g s
  | .layerJump h l g, _ => execLayerJump_keeps h l g s
  | .layerJumpDone h us, _ => execLayerJumpDone_keeps h us s
  | .focusLoss h, _ => execFocusLoss_keeps h s
  | .trackLoss h, _ => execTrackLoss_keeps h s
  | .recoveryDone h ok, _ => execRecoveryDone_keeps h ok s
  | .tiltSaFailRetry h k, _ => execTiltSaFailRetry_keeps h k s
  | .inhibitClear h c, _ => execInhibitClear_keeps h c s
  | .srvHctrlWinh p h v, _ => execSrvHctrlWinh_keeps p h v s
  | .shockSensorRead axial radial, _ => execShockSensorRead_keeps axial radial s
  | .sledStep h, _ => execSledStep_keeps h s
  | .classDSeek h g, _ => execClassDSeek_keeps h g s
  | .classSSeek h k, _ => execClassSSeek_keeps h k s
  | .sldHseek p h v, _ => execSldHseek_keeps p h v s
  | .seekComplete h, _ => execSeekComplete_keeps h s
  | .sledFollowStep h, _ => execSledFollowStep_keeps h s
  | .searchTimeout h, _ => execSearchTimeout_keeps h s
  | .pwmPeriod x, _ => execPwmPeriod_keeps x s
  | .spindleFault cause, _ => execSpindleFault_keeps cause s
  | .spinUpStart, _ => execSpinUpStart_keeps s
  | .catchWindowEnd crossings peak rpm, _ => execCatchWindowEnd_keeps crossings peak rpm s
  | .alignEnd, _ => execAlignEnd_keeps s
  | .spindleHandover, _ => execSpindleHandover_keeps s
  | .spinUpAttemptFailed, _ => execSpinUpAttemptFailed_keeps s
  | .spindleStopped peak, _ => execSpindleStopped_keeps peak s
  | .spnTestWrite p v, _ => execSpnTestWrite_keeps p v s
  | .speedrefDecode x, _ => execSpeedrefDecode_keeps x s
  | .speedrefAdopt, _ => execSpeedrefAdopt_keeps s
  | .laneFailure l, _ => execLaneFailure_keeps l s
  | .laneSpare p v, _ => execLaneSpare_keeps p v s
  | .laneRestore p v, _ => execLaneRestore_keeps p v s
  | .laneEye p v, _ => execLaneEye_keeps p v s
  | .laneSelftestDone pass, _ => execLaneSelftestDone_keeps pass s
  | .laneAcquired l, _ => execLaneAcquired_keeps l s
  | .calShadow l, _ => execCalShadow_keeps l s
  | .timingLock l err, _ => execTimingLock_keeps l err s
  | .timingLockLoss l err, _ => execTimingLockLoss_keeps l err s
  | .eqReload h track o, _ => execEqReload_keeps h track o s
  | .eyeSweepDone errs, _ => execEyeSweepDone_keeps errs s
  | .qualityUpdate h, _ => execQualityUpdate_keeps h s
  | .decoderTimeout d, _ => execDecoderTimeout_keeps d s
  | .decoderOffline p v, _ => execDecoderOffline_keeps p v s
  | .decoderRestore p v, _ => execDecoderRestore_keeps p v s
  | .decoderBistDone d pass, _ => execDecoderBistDone_keeps d pass s
  | .windowOpen h act blocks os, _ => execWindowOpen_keeps h act blocks os s
  | .windowClose h, _ => execWindowClose_keeps h s
  | .levelsSent h, _ => execLevelsSent_keeps h s
  | .opcRun h l b, _ => execOpcRun_keeps h l b s
  | .opcReadbackDone h r0 r1, _ => execOpcReadbackDone_keeps h r0 r1 s
  | .wrsOpcctl p v, _ => execWrsOpcctl_keeps p v s
  | .verifyResult h pba, _ => execVerifyResult_keeps h pba s
  | .stripeOpen nsid zone us, _ => execStripeOpen_keeps nsid zone us s
  | .gatherTimeout nsid, _ => execGatherTimeout_keeps nsid s
  | .stripeWritten stripe, _ => execStripeWritten_keeps stripe s
  | .stripeVerified stripe, _ => execStripeVerified_keeps stripe s
  | .stripeCommit stripe, _ => execStripeCommit_keeps stripe s
  | .stripeVoid stripe, _ => execStripeVoid_keeps stripe s
  | .rebuildStart, _ => execRebuildStart_keeps s
  | .rebuildComplete stripe member, _ => execRebuildComplete_keeps stripe member s
  | .checkpoint, _ => execCheckpoint_keeps s
  | .checkpointTimer, _ => execCheckpointTimer_keeps s
  | .mapDemandLoad nsid page o, _ => execMapDemandLoad_keeps nsid page o s
  | .cleaning nsid, _ => execCleaning_keeps nsid s
  | .ledgerTimer l, _ => execLedgerTimer_keeps l s
  | .readConfirm pba cwix, _ => execReadConfirm_keeps pba cwix s
  | .layerFailed l, _ => execLayerFailed_keeps l s
  | .patrolLapEnd sec, _ => execPatrolLapEnd_keeps sec s
  | .refresh, _ => execRefresh_keeps s
  | .hltCtrlRestart p v, _ => execHltCtrlRestart_keeps p v s
  | .hltCtrlPause p v, _ => execHltCtrlPause_keeps p v s
  | .calDue h l, _ => execCalDue_keeps h l s
  | .calSweepDone h l r, _ => execCalSweepDone_keeps h l r s
  | .calCtl p v, _ => execCalCtl_keeps p v s
  | .fullCalLayerDone h l, _ => execFullCalLayerDone_keeps h l s
  | .custodyArbitration, _ => execCustodyArbitration_keeps s
  | .namespaceSwapEnd nsid expired, _ => execNamespaceSwapEnd_keeps nsid expired s
  | .sqDoorbell p qid tail, _ => execSqDoorbell_keeps p qid tail s
  | .createIoSq p cid qid size cqid prio, _ => execCreateIoSq_keeps p cid qid size cqid prio s
  | .getLogPage p cid lid nsid off len rae, _ => execGetLogPage_keeps p cid lid nsid off len rae s
  | .deleteIoCq p cid qid, _ => execDeleteIoCq_keeps p cid qid s
  | .createIoCq p cid qid size vec, _ => execCreateIoCq_keeps p cid qid size vec s
  | .identify p cid cns csi nsid cntid, _ => execIdentify_keeps p cid cns csi nsid cntid s
  | .setFeatures p cid fid nsid val sv, _ => execSetFeatures_keeps p cid fid nsid val sv s
  | .getFeatures p cid fid nsid sel val, _ => execGetFeatures_keeps p cid fid nsid sel val s
  | .asynchronousEventRequest p cid, _ => execAsynchronousEventRequest_keeps p cid s
  | .namespaceCreate p cid n, _ => execNamespaceCreate_keeps p cid n s
  | .namespaceDelete p cid nsid, _ => execNamespaceDelete_keeps p cid nsid s
  | .namespaceAttachment p cid nsid detach ctrls, _ => execNamespaceAttachment_keeps p cid nsid detach ctrls s
  | .keyDeliver p cid payload, _ => execKeyDeliver_keeps p cid payload s
  | .kekInstall p cid payload, _ => execKekInstall_keeps p cid payload s
  | .keyPurge p cid nsid, _ => execKeyPurge_keeps p cid nsid s
  | .securityReceive p cid proto spsp, _ => execSecurityReceive_keeps p cid proto spsp s
  | .sanitize p cid cdw10, _ => execSanitize_keeps p cid cdw10 s
  | .sanitizeStepDone ok, _ => execSanitizeStepDone_keeps ok s
  | .sanitizeResume, _ => execSanitizeResume_keeps s
  | .mount p cid cdw10, _ => execMount_keeps p cid cdw10 s
  | .mountStepDone, _ => execMountStepDone_keeps s
  | .atticPart1Done, _ => execAtticPart1Done_keeps s
  | .atticPart2Done, _ => execAtticPart2Done_keeps s
  | .resyncDone, _ => execResyncDone_keeps s
  | .mountFailure cause, _ => execMountFailure_keeps cause s
  | .unmount p cid cdw10, _ => execUnmount_keeps p cid cdw10 s
  | .unmountStepDone, _ => execUnmountStepDone_keeps s
  | .calibrate p cid cdw10, _ => execCalibrate_keeps p cid cdw10 s
  | .patrolQuery p cid, _ => execPatrolQuery_keeps p cid s
  | .patrolPause p cid, _ => execPatrolPause_keeps p cid s
  | .patrolResume p cid, _ => execPatrolResume_keeps p cid s
  | .patrolRestart p cid, _ => execPatrolRestart_keeps p cid s
  | .custodyQuery p cid nsid, _ => execCustodyQuery_keeps p cid nsid s
  | .custodyRequest p cid nsid target, _ => execCustodyRequest_keeps p cid nsid target s
  | .mode p cid cdw10, _ => execMode_keeps p cid cdw10 s
  | .unsupportedOpcode p qid cid op, _ => execUnsupportedOpcode_keeps p qid cid op s
  | .reportZones c opt len, _ => execReportZones_keeps c opt len s
  | .bar2Read p off reach o l, _ => execBar2Read_keeps p off reach o l s
  | .sweepComplete pulls, _ => execSweepComplete_keeps pulls s
  | .scrubSlot os, _ => execScrubSlot_keeps os s
  | .scrubLapEnd lap, _ => execScrubLapEnd_keeps lap s
  | .ceBucketLeak, _ => execCeBucketLeak_keeps s
  | .memoryErrorWindow n, _ => execMemoryErrorWindow_keeps n s
  | .refreshRatePoll rates, _ => execRefreshRatePoll_keeps rates s
  | .larderWayFault w line dirty, _ => execLarderWayFault_keeps w line dirty s
  | .larderWayCeWindow w k n block, _ => execLarderWayCeWindow_keeps w k n block s
  | .larderWayCleaned w, _ => execLarderWayCleaned_keeps w s
  | .lrdWayOffline p v, _ => execLrdWayOffline_keeps p v s
  | .lrdWayRestore p v, _ => execLrdWayRestore_keeps p v s
  | .lrdWayBistDone pass, _ => execLrdWayBistDone_keeps pass s
  | .lrdDisable p v, _ => execLrdDisable_keeps p v s
  | .lrdEnable p v, _ => execLrdEnable_keeps p v s
  | .larderDisabled, _ => execLarderDisabled_keeps s
  | .nop q w, _ => execNop_keeps q w s
  | .mov q w, _ => execMov_keeps q w s
  | .add q w, _ => execAdd_keeps q w s
  | .sub q w, _ => execSub_keeps q w s
  | .and q w, _ => execAnd_keeps q w s
  | .or q w, _ => execOr_keeps q w s
  | .xor q w, _ => execXor_keeps q w s
  | .shl q w, _ => execShl_keeps q w s
  | .shr q w, _ => execShr_keeps q w s
  | .cmp q w, _ => execCmp_keeps q w s
  | .ld q w, _ => execLd_keeps q w s
  | .st q w, _ => execSt_keeps q w s
  | .deq q w, _ => execDeq_keeps q w s
  | .enq q w, _ => execEnq_keeps q w s
  | .waitq q w, _ => execWaitq_keeps q w s
  | .waita q w cls owner target len rank exempt, _ => execWaita_keeps q w cls owner target len rank exempt s
  | .bar q w, _ => execBar_keeps q w s
  | .call q w, _ => execCall_keeps q w s
  | .ret q w, _ => execRet_keeps q w s
  | .br q w, _ => execBr_keeps q w s
  | .mchk q w, _ => execMchk_keeps q w s
  | .queueWaitEnd q k desc, _ => execQueueWaitEnd_keeps q k desc s
  | .barrierComplete mask, _ => execBarrierComplete_keeps mask s
  | .angleGrant idx, _ => execAngleGrant_keeps idx s
  | .machineCheck q cause scan, _ => execMachineCheck_keeps q cause scan s
  | .romScanLap, _ => execRomScanLap_keeps s
  | .dmaStart p c v, _ => execDmaStart_keeps p c v s
  | .dmaPause p c v out, _ => execDmaPause_keeps p c v out s
  | .dmaResume p c v, _ => execDmaResume_keeps p c v s
  | .dmaAbort p c v, _ => execDmaAbort_keeps p c v s
  | .dmaHalf c, _ => execDmaHalf_keeps c s
  | .dmaDone c, _ => execDmaDone_keeps c s
  | .dmaError c err o l, _ => execDmaError_keeps c err o l s
  | .fifDrop p v, _ => execFifDrop_keeps p v s
  | .fifDataRead p f o, _ => execFifDataRead_keeps p f o s
  | .fifTcfgWrite p v, _ => execFifTcfgWrite_keeps p v s
  | .telemetrySample, _ => execTelemetrySample_keeps s
  | .governorDemand, _ => execGovernorDemand_keeps s
  | .thmDemand p v, _ => execThmDemand_keeps p v s
  | .dieConversionDone codes us, _ => execDieConversionDone_keeps codes us s
  | .sensorSuspect k code, _ => execSensorSuspect_keeps k code s
  | .dutyUpdate, _ => execDutyUpdate_keeps s
  | .dieBandChange, _ => execDieBandChange_keeps s
  | .thermalComparatorTrip, _ => execThermalComparatorTrip_keeps s
  | .celRead p v, _ => execCelRead_keeps p v s
  | .celProgram p v, _ => execCelProgram_keeps p v s
  | .celErase p v, _ => execCelErase_keeps p v s
  | .cellarOpComplete ok, _ => execCellarOpComplete_keeps ok s
  | .cellarEraseRequest ledger, _ => execCellarEraseRequest_keeps ledger s
  | .celUnlock p v recent, _ => execCelUnlock_keeps p v recent s
  | .celLock p v, _ => execCelLock_keeps p v s
  | .celSetpw p v, _ => execCelSetpw_keeps p v s
  | .celSetprot p v, _ => execCelSetprot_keeps p v s
  | .dbgUnlock p v recent, _ => execDbgUnlock_keeps p v recent s
  | .debugPortOpen, _ => execDebugPortOpen_keeps s
  | .idcode, _ => execIdcode_keeps s
  | .samplePreload balls cells, _ => execSamplePreload_keeps balls cells s
  | .extest balls cells, _ => execExtest_keeps balls cells s
  | .clamp, _ => execClamp_keeps s
  | .highz, _ => execHighz_keeps s
  | .tapUnlock pw recent, _ => execTapUnlock_keeps pw recent s
  | .dstat, _ => execDstat_keeps s
  | .scanout capture n, _ => execScanout_keeps capture n s
  | .fullrst, _ => execFullrst_keeps s
  | .tfreeze, _ => execTfreeze_keeps s
  | .bypass code, _ => execBypass_keeps code s
  | .trst, _ => execTrst_keeps s
  | .fltHeadOffline p v, _ => execFltHeadOffline_keeps p v s
  | .fltHeadRestore p v, _ => execFltHeadRestore_keeps p v s
  | .rampwaitEnd, _ => execRampwaitEnd_keeps s
  | .headLeaveDone h, _ => execHeadLeaveDone_keeps h s
  | .headJoinDone h, _ => execHeadJoinDone_keeps h s
  | .readbackDone, _ => execReadbackDone_keeps s
  | .registerWrite p off v whole out recent, _ => execRegisterWrite_keeps p off v whole out recent s
  | .loRegisterRead p which viaAlias, _ => execLoRegisterRead_keeps p which viaAlias s
  | .angLockRead p, _ => execAngLockRead_keeps p s
  | .angEvtRead p, _ => execAngEvtRead_keeps p s
  | .angQwinRead p, _ => execAngQwinRead_keeps p s
  | .sktCntRead p, _ => execSktCntRead_keeps p s
  | .opuHstatRead p h, _ => execOpuHstatRead_keeps p h s
  | .opuLinkrspRead p h, _ => execOpuLinkrspRead_keeps p h s
  | .opuGstatRead p, _ => execOpuGstatRead_keeps p s
  | .srvLstatRead p l, _ => execSrvLstatRead_keeps p l s
  | .srvArithRead p l, _ => execSrvArithRead_keeps p l s
  | .srvHcntRead p h, _ => execSrvHcntRead_keeps p h s
  | .srvTqwinRead p h, _ => execSrvTqwinRead_keeps p h s
  | .srvShkstRead p, _ => execSrvShkstRead_keeps p s
  | .sldCntRead p h, _ => execSldCntRead_keeps p h s
  | .spnDistRead p, _ => execSpnDistRead_keeps p s
  | .chnLstatRead p l, _ => execChnLstatRead_keeps p l s
  | .detHcntRead p h, _ => execDetHcntRead_keeps p h s
  | .detPassRead p h, _ => execDetPassRead_keeps p h s
  | .cwdQueueRead p, _ => execCwdQueueRead_keeps p s
  | .cwdTagcntRead p, _ => execCwdTagcntRead_keeps p s
  | .cwdCntRead p, _ => execCwdCntRead_keeps p s
  | .wrsHstatRead p h, _ => execWrsHstatRead_keeps p h s
  | .wrsOpcstRead p h, _ => execWrsOpcstRead_keeps p h s
  | .wrsVcntRead p h, _ => execWrsVcntRead_keeps p h s
  | .strCntRead p, _ => execStrCntRead_keeps p s
  | .strReconRead p, _ => execStrReconRead_keeps p s
  | .strSlowRead p, _ => execStrSlowRead_keeps p s
  | .strRbRead p, _ => execStrRbRead_keeps p s
  | .mapDfRead p, _ => execMapDfRead_keeps p s
  | .mapDfmaxRead p, _ => execMapDfmaxRead_keeps p s
  | .mapCkptRead p, _ => execMapCkptRead_keeps p s
  | .mapCleanRead p, _ => execMapCleanRead_keeps p s
  | .hltRefqRead p, _ => execHltRefqRead_keeps p s
  | .hltCntRead p, _ => execHltCntRead_keeps p s
  | .hltLedgRead p, _ => execHltLedgRead_keeps p s
  | .calCntRead p, _ => execCalCntRead_keeps p s
  | .hstPortRead p x, _ => execHstPortRead_keeps p x s
  | .hstInflRead p x, _ => execHstInflRead_keeps p x s
  | .hstCustRead p, _ => execHstCustRead_keeps p s
  | .hstRlockRead p, _ => execHstRlockRead_keeps p s
  | .hstErrcntRead p, _ => execHstErrcntRead_keeps p s
  | .memSweepRead p, _ => execMemSweepRead_keeps p s
  | .memCeBucketRead p, _ => execMemCeBucketRead_keeps p s
  | .memCecntRead p, _ => execMemCecntRead_keeps p s
  | .memUecntRead p, _ => execMemUecntRead_keeps p s
  | .memBar2Read p, _ => execMemBar2Read_keeps p s
  | .lrdHitsRead p, _ => execLrdHitsRead_keeps p s
  | .lrdMissesRead p, _ => execLrdMissesRead_keeps p s
  | .lrdSeqcntRead p, _ => execLrdSeqcntRead_keeps p s
  | .lrdErrRead p, _ => execLrdErrRead_keeps p s
  | .seqHitsRead p q, _ => execSeqHitsRead_keeps p q s
  | .fifLostRead p f, _ => execFifLostRead_keeps p f s
  | .sysModeStRead p, _ => execSysModeStRead_keeps p s
  | .pwrVinRead p, _ => execPwrVinRead_keeps p s
  | .pwrEvtRead p, _ => execPwrEvtRead_keeps p s
  | .thmCntRead p, _ => execThmCntRead_keeps p s
  | .fltStatRead p, _ => execFltStatRead_keeps p s
  | .celCntRead p, _ => execCelCntRead_keeps p s
  | .secCntRead p, _ => execSecCntRead_keeps p s
  | .patrolIdleStart, _ => execPatrolIdleStart_keeps s
  | .vinSample mv, _ => execVinSample_keeps mv s
  | .powerGoodFusesLoaded .., h | .regulatorFault .., h | .underVoltageLockout .., h | .fullResetComplete .., h
  | .codewordRelease .., h | .decodeComplete .., h | .memberArrival .., h | .slowMemberDeadline .., h
  | .mapPageLoaded .., h | .deleteIoSq .., h | .abort .., h | .flush .., h | .write .., h | .read .., h
  | .writeZeroes .., h | .datasetManagement .., h | .verify .., h | .zoneOpen .., h | .zoneClose .., h
  | .zoneFinish .., h | .zoneReset .., h | .zoneAppend .., h | .rangeLockRelease .., h | .bar2Write .., h
  | .dmaFifoPacket .., h | .dmaReadCompletion .., h => nomatch h

/-- Settles O46: a row that stores nothing keeps the bytes. -/
theorem onlyStoresChangeBufferMemory : Obligations.OnlyStoresChangeBufferMemory := by
  unfold Obligations.OnlyStoresChangeBufferMemory
  intro c s t hc ht
  obtain ⟨u, hu, hkept⟩ := exec_keeps s c hc
  obtain rfl : u = t := Host.Outcome.next.inj (hu.symm.trans ht)
  exact kept_mem hkept

end Sys2Proof.Machine
end

section
/-! PROOFS. A device whose clocks stand: in OFF, in FROZEN and in the hold of a reset no row that needs the clocks acts (R530, R543). -/

namespace Sys2Proof.Machine
open R

section Guards
variable {s : State} (hon : s.on = false)
include hon

theorem inLife_stopped (l : List Nat) : s.inLife l = false := by simp [State.inLife, hon]

theorem applied_stopped : s.applied = false := inLife_stopped hon _

theorem portOn_stopped (p : Nat) : s.portOn p = false := by simp [State.portOn, hon]

theorem headUp_stopped (h : Nat) : s.headUp h = false := by simp [State.headUp, inLife_stopped hon]

theorem dmaRuns_stopped (c : Nat) : s.dmaRuns c = false := by simp [State.dmaRuns, hon]

theorem mayOpen_stopped : s.mayOpen = false := by simp [State.mayOpen, inLife_stopped hon]

theorem vendorWrite_stopped (p off : Nat) (b : Bool) (k : State → State) : vendorWrite p off b k s = .next s := by
  simp [vendorWrite, hon]

theorem readRow_stopped (p off : Nat) : readRow p off s = .next s := doIf_false _ (portOn_stopped hon p)

theorem dbgRefused_stopped (p : Nat) : dbgRefused p s = s := by simp [dbgRefused, State.when, hon]

/-- No port may fetch. -/
theorem nextFetch_stopped : s.nextFetch = none := by simp [State.nextFetch, State.mayFetch, hon]

theorem fetch_stopped (c : HCmd) : fetch c s = none := by simp [fetch, nextFetch_stopped hon]

theorem immediate_stopped (p cid op : Nat) (k : State → State) : immediate p cid op k s = .next s := by
  simp [immediate, fetch_stopped hon]

theorem enqueueLong_stopped (l : LongCmd) : enqueueLong l s = .next s := by simp [enqueueLong, fetch_stopped hon]

/-- An I/O queue of a port that may not fetch. -/
theorem ioFetch_stopped (c : IoCmd) (x : HCmd) (refusal : State → Option (Nat × Nat × Bool))
    (accept : HCmd → State → HCmd × State) :
    onIoQueue c s (ioFetch x refusal accept s) = .next s := by
  rw [ioFetch_none (fetch_stopped hon x)]
  exact ite_self _

/-- A sequencer fetches no word. -/
theorem micro_stopped (q op : Nat) (w : Microword) (k : Nat → State → State) : micro q op w k s = .next s := by
  simp [micro, fetchMicro, applied_stopped hon]

end Guards

/-! ### Rows that name or find something before they test their guard -/

section Rows
variable {s : State} (hon : s.on = false)
include hon

theorem execMapPageLoaded_stopped (nsid page us : Nat) : execMapPageLoaded nsid page us s = .next s := by
  unfold execMapPageLoaded
  extract_lets
  exact doIf_false _ (by simp [hon])

theorem execCellarEraseRequest_stopped (ledger : Bool) : execCellarEraseRequest ledger s = .next s := by
  unfold execCellarEraseRequest
  extract_lets
  exact doIf_false _ (by simp [hon])

theorem execWlidDecoded_stopped (h : Head) (bits : Word) (minfo : Option Word) : execWlidDecoded h bits minfo s = .next s := by
  unfold execWlidDecoded
  extract_lets
  exact doIf_false _ (by simp [applied_stopped hon])

theorem execWindowOpen_stopped (h : Head) (act : Fin 9) (blocks : List (BitVec 32)) (os : List BlockRead) :
    execWindowOpen h act blocks os s = .next s := by
  unfold execWindowOpen
  extract_lets
  exact doIf_false _ (by simp [applied_stopped hon])

theorem execVerifyResult_stopped (h : Head) (pba : BitVec 32) : execVerifyResult h pba s = .next s := by
  unfold execVerifyResult
  extract_lets
  exact doIf_false _ (by simp [applied_stopped hon])

theorem execMemoryErrorWindow_stopped (n : Nat) : execMemoryErrorWindow n s = .next s := by
  unfold execMemoryErrorWindow
  extract_lets
  exact doIf_false _ (by simp [applied_stopped hon])

theorem execBarrierComplete_stopped (mask : BitVec 6) : execBarrierComplete mask s = .next s := by
  unfold execBarrierComplete
  extract_lets
  exact doIf_false _ (by simp [applied_stopped hon])

theorem execCalShadow_stopped (l : Lane) : execCalShadow l s = .next s := by
  unfold execCalShadow
  extract_lets
  exact doIf_false _ (by simp [inLife_stopped hon])

theorem execRebuildStart_stopped : execRebuildStart s = .next s := by
  unfold execRebuildStart
  extract_lets
  exact doIf_false _ (by simp [inLife_stopped hon])

theorem execReadConfirm_stopped (pba : BitVec 32) (cwix : Fin 16) : execReadConfirm pba cwix s = .next s := by
  unfold execReadConfirm
  extract_lets
  exact doIf_false _ (by simp [inLife_stopped hon])

theorem execSanitizeStepDone_stopped (ok : Bool) : execSanitizeStepDone ok s = .next s := by
  unfold execSanitizeStepDone
  extract_lets
  exact doIf_false _ (by simp [inLife_stopped hon])

theorem execAtticPart1Done_stopped : execAtticPart1Done s = .next s := by
  unfold execAtticPart1Done
  extract_lets
  exact doIf_false _ (by simp [inLife_stopped hon])

theorem execCalSweepDone_stopped (h : Head) (l : Layer) (r : CalResult) : execCalSweepDone h l r s = .next s := by
  unfold execCalSweepDone
  extract_lets _ win
  have hwin : win = false := by simp [win, hon]
  exact doIf_false _ (by simp [hwin, inLife_stopped hon])

theorem execAlarm_stopped : execAlarm s = .next s := by
  unfold execAlarm
  split
  · exact doIf_false _ (by simp [hon])
  · rfl

theorem execLaneSelftestDone_stopped (pass : Bool) : execLaneSelftestDone pass s = .next s := by
  unfold execLaneSelftestDone
  split
  · exact doIf_false _ (by simp [applied_stopped hon])
  · rfl

theorem execEyeSweepDone_stopped (errs : List Nat) : execEyeSweepDone errs s = .next s := by
  unfold execEyeSweepDone
  split
  · exact doIf_false _ (by simp [applied_stopped hon])
  · rfl

theorem execOpcReadbackDone_stopped (h : Head) (r0 r1 : List Nat) : execOpcReadbackDone h r0 r1 s = .next s := by
  unfold execOpcReadbackDone
  split
  · exact doIf_false _ (by simp [applied_stopped hon])
  · rfl

theorem execLrdWayBistDone_stopped (pass : Bool) : execLrdWayBistDone pass s = .next s := by
  unfold execLrdWayBistDone
  split
  · exact doIf_false _ (by simp [applied_stopped hon])
  · rfl

theorem execVarnishCommit_stopped : execVarnishCommit s = .next s := by
  unfold execVarnishCommit
  split
  · rfl
  · exact doIf_false _ (by simp [applied_stopped hon])

theorem execTrackJump_stopped (h : Head) (k : Int) : execTrackJump h k s = .next s := by
  unfold execTrackJump
  split
  · rfl
  · exact doIf_false _ (by simp [headUp_stopped hon])

theorem execLayerJump_stopped (h : Head) (l : Layer) (g : Fin 262144) : execLayerJump h l g s = .next s := by
  unfold execLayerJump
  split
  · rfl
  · exact doIf_false _ (by simp [headUp_stopped hon])

theorem execCodewordRelease_stopped (pba : BitVec 32) (cwix : Fin 16) (soft : List Int) :
    execCodewordRelease pba cwix soft s = .next s := by
  unfold execCodewordRelease
  split
  · rfl
  · exact doIf_false _ (by simp [inLife_stopped hon])

theorem execDecodeComplete_stopped (d : Dec) (x : Nat) (conv : Bool) (iters : Nat) :
    execDecodeComplete d x conv iters s = .next s := by
  unfold execDecodeComplete
  split
  · rfl
  · exact doIf_false _ (by simp [applied_stopped hon])

theorem execWindowClose_stopped (h : Head) : execWindowClose h s = .next s := by
  unfold execWindowClose
  split
  · rfl
  · exact doIf_false _ (by simp [applied_stopped hon])

theorem execStripeWritten_stopped (stripe : Nat) : execStripeWritten stripe s = .next s := by
  unfold execStripeWritten
  split
  · rfl
  · exact doIf_false _ (by simp [hon])

theorem execStripeVerified_stopped (stripe : Nat) : execStripeVerified stripe s = .next s := by
  unfold execStripeVerified
  split
  · rfl
  · exact doIf_false _ (by simp [hon])

theorem execStripeCommit_stopped (stripe : Nat) : execStripeCommit stripe s = .next s := by
  unfold execStripeCommit
  split
  · rfl
  · exact doIf_false _ (by simp [hon])

theorem execStripeVoid_stopped (stripe : Nat) : execStripeVoid stripe s = .next s := by
  unfold execStripeVoid
  split
  · rfl
  · exact doIf_false _ (by simp [hon])

theorem execSlowMemberDeadline_stopped (stripe : Nat) : execSlowMemberDeadline stripe s = .next s := by
  unfold execSlowMemberDeadline
  split
  · rfl
  · exact doIf_false _ (by simp [hon])

theorem execRebuildComplete_stopped (stripe : Nat) (member : Fin 20) : execRebuildComplete stripe member s = .next s := by
  unfold execRebuildComplete
  split
  · rfl
  · exact doIf_false _ (by simp [hon])

theorem execCleaning_stopped (nsid : Nat) : execCleaning nsid s = .next s := by
  unfold execCleaning
  split
  · rfl
  · exact doIf_false _ (by simp [inLife_stopped hon])

theorem execRefresh_stopped : execRefresh s = .next s := by
  unfold execRefresh
  split
  · rfl
  · exact doIf_false _ (by simp [inLife_stopped hon])

theorem execFullCalLayerDone_stopped (h : Head) (l : Layer) : execFullCalLayerDone h l s = .next s := by
  unfold execFullCalLayerDone
  split
  · rfl
  · exact doIf_false _ (by simp [inLife_stopped hon])

theorem execNamespaceSwapEnd_stopped (nsid : Fin 65) (expired : Bool) : execNamespaceSwapEnd nsid expired s = .next s := by
  unfold execNamespaceSwapEnd
  split
  · rfl
  · exact doIf_false _ (by simp [hon])

theorem execDmaError_stopped (c : Chan) (err : Fin 3) (o : BlockRead) (l : LineOutcome) :
    execDmaError c err o l s = .next s := by
  unfold execDmaError
  extract_lets
  exact doIf_false _ (by simp [dmaRuns_stopped hon])

theorem execDmaFifoPacket_stopped (c : Chan) : execDmaFifoPacket c s = .next s := by
  unfold execDmaFifoPacket
  extract_lets
  exact doIf_false _ (by simp [dmaRuns_stopped hon])

theorem execDmaReadCompletion_stopped (c : Chan) (n : Nat) (data : List Byte) (left : Nat) :
    execDmaReadCompletion c n data left s = .next s := by
  unfold execDmaReadCompletion
  extract_lets
  exact doIf_false _ (by simp [dmaRuns_stopped hon])

theorem execMemberArrival_stopped (stripe : Nat) (member : Fin 20) (planned : Nat) (tags words : List BlockRead) :
    execMemberArrival stripe member planned tags words s = .next s := by
  unfold execMemberArrival
  extract_lets j mine l drop
  split
  · exact doIf_false _ hon
  · exact doIf_false _ (by simp [hon])

theorem execStripeOpen_stopped (nsid zone : Nat) (us : List BlockRead) : execStripeOpen nsid zone us s = .next s := by
  unfold execStripeOpen
  split
  · exact doIf_false _ (by simp [State.mayOpenSys, mayOpen_stopped hon, inLife_stopped hon])
  · split
    · rfl
    · exact doIf_false _ (by simp [mayOpen_stopped hon])

theorem execClassSSeek_stopped (h : Head) (k : SeekKind) : execClassSSeek h k s = .next s := by
  simp [execClassSSeek, applied_stopped hon]

theorem execMachineCheck_stopped (q : Seq) (cause : Fin 2) (scan : Option (BitVec 14)) :
    execMachineCheck q cause scan s = .next s := by
  unfold execMachineCheck
  split
  · exact doIf_false _ (applied_stopped hon)
  · exact doIf_false _ (by simp [applied_stopped hon])

theorem execUnsupportedOpcode_stopped (p : Port) (qid cid : BitVec 16) (op : BitVec 8) :
    execUnsupportedOpcode p qid cid op s = .next s := by
  simp [execUnsupportedOpcode, fetch_stopped hon]

theorem execReportZones_stopped (c : IoCmd) (opt : Fin 8) (len : Nat) : execReportZones c opt len s = .next s := by
  simp [execReportZones, onIoQueue, fetch_stopped hon]

theorem execFifDataRead_stopped (p : Port) (f : FifoId) (o : BlockRead) : execFifDataRead p f o s = .next s := by
  simpa [execFifDataRead, portOn_stopped hon] using readRow_stopped hon p _

theorem execRegisterWrite_stopped (p : Port) (off : Nat) (v : Word) (whole : Bool) (out : Nat) (recent : Bool) :
    execRegisterWrite p off v whole out recent s = .next s := by
  unfold execRegisterWrite
  rw [dbgRefused_stopped hon, ite_self, vendorWrite_stopped hon, ite_self]

theorem execLoRegisterRead_stopped (p : Port) (which : Fin 3) (viaAlias : Bool) :
    execLoRegisterRead p which viaAlias s = .next s := by
  unfold execLoRegisterRead
  rw [doIf_false _ (portOn_stopped hon p), readRow_stopped hon, ite_self]

theorem execDbgUnlock_stopped (p : Port) (v : Word) (recent : Bool) : execDbgUnlock p v recent s = .next s := by
  unfold execDbgUnlock
  rw [dbgRefused_stopped hon, vendorWrite_stopped hon]

end Rows

/-! ### Every row -/

theorem boundaryOp_of_off {s : State} (h : s.sys.off = true) (k : Tap → Tap) : boundaryOp k s = .next s :=
  doIf_false _ (by simp [State.tapOn, h])

/-- The row `c` does not act in the state: it is FROZEN outside a reset, or OFF, and the row does not outlive that. -/
def State.idles (s : State) (c : Instr) : Prop :=
  (outlivesFreeze c = false ∧ s.life = FROZEN ∧ s.sys.off = false ∧ s.sys.resetHold = 0) ∨ (outlivesOff c = false ∧ s.sys.off = true)

theorem stopped_of_idles {c : Instr} {s : State} (hidle : s.idles c) : s.on = false := by
  obtain ⟨-, hlife, -⟩ | ⟨-, hoff⟩ := hidle
  · simp [State.on, hlife]
  · simp [State.on, hoff]

theorem off_of_outlivesFreeze {c : Instr} {s : State} (hidle : s.idles c) (h : outlivesFreeze c = true) : s.sys.off = true := by
  obtain ⟨hc, -⟩ | ⟨-, hoff⟩ := hidle
  · exact absurd h (by simp [hc])
  · exact hoff

theorem not_off_of_outlivesOff {c : Instr} {s : State} (hidle : s.idles c) (h : outlivesOff c = true) : s.sys.off = false := by
  obtain ⟨-, -, hoff, -⟩ | ⟨hc, -⟩ := hidle
  · exact hoff
  · exact absurd h (by simp [hc])

theorem no_fullReset_of_idles {c : Instr} {s : State} (hidle : s.idles c) : (s.sys.resetHold != 0 && !s.sys.off) = false := by
  obtain ⟨-, -, -, hhold⟩ | ⟨-, hoff⟩ := hidle
  · simp [hhold]
  · simp [hoff]

/-- A row that does not act in the state answers the state itself: the rows grouped by what they ask for first. -/
theorem exec_of_idles {c : Instr} {s : State} (hidle : s.idles c) : exec c s = .next s := by
  have hon := stopped_of_idles hidle
  delta exec
  cases c with
  | vinHoldUp | vinBrownOut | vinRecovered | pcieLinkUp | pcieLinkDown | perst | functionLevelReset | controllerReset
  | controllerEnable | normalShutdown | freezePin | canvasFetchDone | canvasValidationDone | memTrainingDone
  | canvasCommitDone | enumNopRetry | enumWaitExpired | pickupResponse | pickupResponseTimeout | pickupLinkError
  | tick | wedgeBoundary | gatherTimeout | sqDoorbell | rangeLockRelease | thermalComparatorTrip | vinSample =>
    exact doIf_false (s := s) _ (by simp [hon])
  | linkLossTimeout | triggerResolution | statusPoll | pickupTempRead | lpmonFault | servoSample | loopHold
  | loopResume | loopFail | srvUnitRestoreDone | speedBandChange | tridDecoded | markDecoded | markEntry
  | slewComplete | markLoss | coarseEntry | coarseLoss | wobbleLock | wobbleLockLoss | wobbleRefSwitch | rampSettled
  | measurementWindowEnd | varnishDistributed | varnishFinalCheck | inhibitClear | shockSensorRead | sledStep
  | seekComplete | sledFollowStep | pwmPeriod | spindleFault | spinUpStart | catchWindowEnd | alignEnd
  | spindleHandover | spinUpAttemptFailed | spindleStopped | speedrefDecode | speedrefAdopt | laneFailure
  | laneAcquired | timingLock | timingLockLoss | eqReload | qualityUpdate | decoderTimeout | decoderBistDone
  | levelsSent | custodyArbitration | sweepComplete | scrubLapEnd | ceBucketLeak | refreshRatePoll | larderWayFault
  | larderWayCeWindow | larderWayCleaned | larderDisabled | queueWaitEnd | angleGrant | romScanLap | telemetrySample
  | governorDemand | dieConversionDone | sensorSuspect | dutyUpdate | dieBandChange =>
    exact doIf_false (s := s) _ (by simp [applied_stopped hon])
  | laserStaggerNext | opcRun | checkpointTimer | mapDemandLoad | ledgerTimer | layerFailed | calDue | sanitizeResume
  | mountStepDone | atticPart2Done | resyncDone | mountFailure | unmountStepDone | rampwaitEnd | headLeaveDone
  | headJoinDone | readbackDone | patrolIdleStart => exact doIf_false (s := s) _ (by simp [inLife_stopped hon])
  | focusAcquisition | focusSettled | focusAttemptFailed | trackCapture | trackJumpDone | layerJumpDone | focusLoss
  | trackLoss | recoveryDone | tiltSaFailRetry | classDSeek =>
    exact doIf_false (s := s) _ (by simp [headUp_stopped hon])
  | parkComplete => exact doIf_false (s := s) _ (by simp [State.parked, inLife_stopped hon])
  | searchTimeout => exact doIf_false (s := s) _ (by simp [State.searchDue, inLife_stopped hon])
  | checkpoint => exact doIf_false (s := s) _ (by simp [State.mayCheckpoint, inLife_stopped hon])
  | patrolLapEnd => exact doIf_false (s := s) _ (by simp [State.lapOver, State.lapRuns, inLife_stopped hon])
  | scrubSlot => exact doIf_false (s := s) _ (by simp [State.scrubs, applied_stopped hon])
  | bar2Read | bar2Write => exact doIf_false (s := s) _ (by simp [portOn_stopped hon])
  | dmaHalf | dmaDone => exact doIf_false (s := s) _ (by simp [dmaRuns_stopped hon])
  | sysResetFull | safestop | resume | cnvLoad | cnvApply | cnvAbort | opuLinkcmd | loffWrite | srvUnitOffline
  | srvUnitRestore | angAlarmArm | sktStage | sktCancel | sktClear | varnishArm | srvHctrlWinh | sldHseek
  | spnTestWrite | decoderOffline | decoderRestore | wrsOpcctl | hltCtrlRestart | hltCtrlPause | calCtl
  | lrdWayOffline | lrdWayRestore | lrdDisable | lrdEnable | dmaStart | dmaPause | dmaResume | dmaAbort | fifDrop
  | fifTcfgWrite | thmDemand | celRead | celProgram | celErase | celUnlock | celLock | celSetpw | celSetprot
  | fltHeadOffline | fltHeadRestore | laneSpare | laneRestore | laneEye => exact vendorWrite_stopped hon _ _ _ _
  | angLockRead | angEvtRead | angQwinRead | sktCntRead | opuHstatRead | opuLinkrspRead | opuGstatRead | srvLstatRead
  | srvArithRead | srvHcntRead | srvTqwinRead | srvShkstRead | sldCntRead | spnDistRead | chnLstatRead | detHcntRead
  | detPassRead | cwdQueueRead | cwdTagcntRead | cwdCntRead | wrsHstatRead | wrsOpcstRead | wrsVcntRead | strCntRead
  | strReconRead | strSlowRead | strRbRead | mapDfRead | mapDfmaxRead | mapCkptRead | mapCleanRead | hltRefqRead
  | hltCntRead | hltLedgRead | calCntRead | hstPortRead | hstInflRead | hstCustRead | hstRlockRead | hstErrcntRead
  | memSweepRead | memCeBucketRead | memCecntRead | memUecntRead | memBar2Read | lrdHitsRead | lrdMissesRead
  | lrdSeqcntRead | lrdErrRead | seqHitsRead | fifLostRead | sysModeStRead | pwrVinRead | pwrEvtRead | thmCntRead
  | fltStatRead | celCntRead | secCntRead => exact readRow_stopped hon _ _
  | deleteIoSq | createIoSq | getLogPage | deleteIoCq | createIoCq | identify | abort | setFeatures | getFeatures
  | asynchronousEventRequest | unmount | patrolQuery | custodyQuery => exact immediate_stopped hon _ _ _ _
  | namespaceCreate | namespaceDelete | namespaceAttachment | keyDeliver | kekInstall | keyPurge | securityReceive
  | sanitize | mount | calibrate | patrolPause | patrolResume | patrolRestart | custodyRequest | mode =>
    exact enqueueLong_stopped hon _
  | flush | write | read | datasetManagement | zoneAppend | writeZeroes | verify | zoneOpen | zoneClose | zoneFinish
  | zoneReset => exact ioFetch_stopped hon _ _ _ _
  | nop | mov | add | sub | and | or | xor | shl | shr | cmp | ld | st | deq | enq | waitq | waita | bar | call | ret
  | br | mchk => exact micro_stopped hon _ _ _ _
  | mapPageLoaded => exact execMapPageLoaded_stopped hon ..
  | cellarEraseRequest => exact execCellarEraseRequest_stopped hon ..
  | wlidDecoded => exact execWlidDecoded_stopped hon ..
  | windowOpen => exact execWindowOpen_stopped hon ..
  | verifyResult => exact execVerifyResult_stopped hon ..
  | memoryErrorWindow => exact execMemoryErrorWindow_stopped hon ..
  | barrierComplete => exact execBarrierComplete_stopped hon ..
  | calShadow => exact execCalShadow_stopped hon ..
  | rebuildStart => exact execRebuildStart_stopped hon
  | readConfirm => exact execReadConfirm_stopped hon ..
  | sanitizeStepDone => exact execSanitizeStepDone_stopped hon ..
  | atticPart1Done => exact execAtticPart1Done_stopped hon
  | calSweepDone => exact execCalSweepDone_stopped hon ..
  | alarm => exact execAlarm_stopped hon
  | laneSelftestDone => exact execLaneSelftestDone_stopped hon ..
  | eyeSweepDone => exact execEyeSweepDone_stopped hon ..
  | opcReadbackDone => exact execOpcReadbackDone_stopped hon ..
  | lrdWayBistDone => exact execLrdWayBistDone_stopped hon ..
  | varnishCommit => exact execVarnishCommit_stopped hon
  | trackJump => exact execTrackJump_stopped hon ..
  | layerJump => exact execLayerJump_stopped hon ..
  | codewordRelease => exact execCodewordRelease_stopped hon ..
  | decodeComplete => exact execDecodeComplete_stopped hon ..
  | windowClose => exact execWindowClose_stopped hon ..
  | stripeWritten => exact execStripeWritten_stopped hon ..
  | stripeVerified => exact execStripeVerified_stopped hon ..
  | stripeCommit => exact execStripeCommit_stopped hon ..
  | stripeVoid => exact execStripeVoid_stopped hon ..
  | slowMemberDeadline => exact execSlowMemberDeadline_stopped hon ..
  | rebuildComplete => exact execRebuildComplete_stopped hon ..
  | cleaning => exact execCleaning_stopped hon ..
  | refresh => exact execRefresh_stopped hon
  | fullCalLayerDone => exact execFullCalLayerDone_stopped hon ..
  | namespaceSwapEnd => exact execNamespaceSwapEnd_stopped hon ..
  | dmaError => exact execDmaError_stopped hon ..
  | dmaFifoPacket => exact execDmaFifoPacket_stopped hon ..
  | dmaReadCompletion => exact execDmaReadCompletion_stopped hon ..
  | memberArrival => exact execMemberArrival_stopped hon ..
  | stripeOpen => exact execStripeOpen_stopped hon ..
  | classSSeek => exact execClassSSeek_stopped hon ..
  | machineCheck => exact execMachineCheck_stopped hon ..
  | unsupportedOpcode => exact execUnsupportedOpcode_stopped hon ..
  | reportZones => exact execReportZones_stopped hon ..
  | fifDataRead => exact execFifDataRead_stopped hon ..
  | registerWrite => exact execRegisterWrite_stopped hon ..
  | loRegisterRead => exact execLoRegisterRead_stopped hon ..
  | dbgUnlock => exact execDbgUnlock_stopped hon ..
  | vinPowerGood => exact doIf_false (s := s) _ (by simp [hon, not_off_of_outlivesOff hidle rfl])
  | powerGoodFusesLoaded | regulatorRestart =>
    exact doIf_false (s := s) _ (by simp [not_off_of_outlivesOff hidle rfl])
  | fullResetComplete => exact doIf_false (s := s) _ (no_fullReset_of_idles hidle)
  | extest | clamp | highz => exact boundaryOp_of_off (off_of_outlivesFreeze hidle rfl) _
  | idcode | samplePreload | tapUnlock | dstat | scanout | fullrst | tfreeze | bypass | trst =>
    exact doIf_false (s := s) _ (by simp [State.tapOn, off_of_outlivesFreeze hidle rfl])
  | cellarOpComplete => exact doIf_false (s := s) _ (by simp [State.celServes, off_of_outlivesFreeze hidle rfl])
  | debugPortOpen => exact doIf_false (s := s) _ (by simp [off_of_outlivesFreeze hidle rfl])
  | regulatorFault | underVoltageLockout | lsrEnFall | lsrEnRise | cartSeatedAsserted | cartSeatedDeasserted =>
    exact absurd (off_of_outlivesFreeze hidle rfl) (by simp [not_off_of_outlivesOff hidle rfl])

/-- Settles O52: in both states the clocks stand, and the row outlives neither. -/
theorem nothingRunsInFrozenOrOff : Obligations.NothingRunsInFrozenOrOff := by
  unfold Obligations.NothingRunsInFrozenOrOff
  exact ⟨fun c s hlife hoff hhold hc => exec_of_idles (.inl ⟨hc, hlife, hoff, hhold⟩),
    fun c s hoff hc => exec_of_idles (.inr ⟨hc, hoff⟩)⟩

end Sys2Proof.Machine
end

section
/-! PROOFS. Ports, the laser permit and the cartridge, stops and triggers, resets and freezing, and the state after reset: each row
under its guard. -/

namespace Sys2Proof.Machine
open R

/-! ### Ports -/

/-- Settles O2: each event's guard follows from the hypotheses. -/
theorem portEvents : Obligations.PortEvents := by
  unfold Obligations.PortEvents
  refine ⟨?linkUp, ?linkDown, ?perst, ?flr, ?reset, ?enable, ?shutdown, ?loss⟩
  case linkUp =>
    intro p width speed s hon hup hwidth hlo hhi
    show execPcieLinkUp p width speed s = _
    exact doIf_true _ (by rw [hon, hup, hwidth]; simp [hlo, hhi])
  case linkDown =>
    intro p ltssm s hon hup
    show execPcieLinkDown p ltssm s = _
    exact doIf_true _ (by simp [hon, hup])
  case perst => exact fun p s hon => show execPerst p s = _ from doIf_true _ hon
  case flr => exact fun p s hon => show execFunctionLevelReset p s = _ from doIf_true _ hon
  case reset =>
    intro p s hon hen
    show execControllerReset p s = _
    exact doIf_true _ (Bool.and_eq_true_iff.mpr ⟨hon, hen⟩)
  case enable =>
    intro p asqs acqs wrr s hon hen
    show execControllerEnable p asqs acqs wrr s = _
    exact doIf_true _ (by rw [hon, hen]; rfl)
  case shutdown =>
    intro p s hon hrdy hshst
    show execNormalShutdown p s = _
    exact doIf_true _ (by rw [hon, hrdy, hshst]; rfl)
  case loss =>
    intro p s happ hgone
    show execLinkLossTimeout p s = _
    exact doIf_true _ (Bool.and_eq_true_iff.mpr ⟨happ, hgone⟩)

/-! ### The laser permit and the cartridge -/

theorem forUpTo_on {n : Nat} {k : Nat → State → State} (s : State) (h : ∀ i t, (k i t).on = t.on) :
    (forUpTo n k s).on = s.on :=
  List.foldlRecOn _ _ (motive := fun t => t.on = s.on) rfl fun t ht i _ => (h i t).trans ht

/-- Setting LON of a head leaves the lifecycle register and the supply alone. -/
theorem syncLon_on (h : Nat) (s : State) : (syncLon h s).on = s.on := by
  have hlife : (syncLon h s).life = s.life := get_put_ne _ _ _ _ (by simp [OPU_HSTAT_LON, SYS_STATE_STATE, fld]; omega)
  simp only [State.on, hlife]
  rfl

theorem syncLonAll_on (s : State) : (syncLonAll s).on = s.on := forUpTo_on s syncLon_on

/-- Settles O3: LSR_EN leaves the clocks as they were, so that its fall and its rise act; the other rows run under their guards. -/
theorem laserPermitAndCartridgePins : Obligations.LaserPermitAndCartridgePins := by
  unfold Obligations.LaserPermitAndCartridgePins
  refine ⟨?fall, ?rise, ?seated, ?unseated, ?monitor, ?stagger⟩
  case fall =>
    intro s hlsr hon
    have hstay : (syncLonAll { s with sys := { s.sys with lsrEn := false } }).on = true := (syncLonAll_on _).trans hon
    show execLsrEnFall s = _
    refine (doIf_true _ hlsr).trans (congrArg _ ?_)
    exact if_neg (by simp [hstay])
  case rise =>
    intro s hlsr hon
    have hstay : (syncLonAll { s with sys := { s.sys with lsrEn := true } }).on = true := (syncLonAll_on _).trans hon
    show execLsrEnRise s = _
    exact (doIf_true _ (by simp [hlsr])).trans (congrArg _ (if_pos hstay))
  case seated => exact fun s => rfl
  case unseated =>
    intro s hlife
    show execCartSeatedDeasserted s = _
    exact doIf_true _ (Bool.or_eq_true_iff.mpr (.inl hlife))
  case monitor =>
    intro h s happ hpresent hsvc hlaser hbad
    show execLpmonFault h s = _
    exact doIf_true _ (by rw [happ, hpresent, hsvc, hbad]; simpa using hlaser)
  case stagger =>
    intro s hlife hleft hfree
    show execLaserStaggerNext s = _
    exact doIf_true _ (by simp [hlife, hleft, hfree])

/-! ### Stops, resume and triggers -/

theorem inLife_mem {s : State} {l : List Nat} (h : s.inLife l = true) : s.on = true ∧ s.life ∈ l := by
  simpa [State.inLife] using h

/-- A safe stop in a state with the Canvas applied before HALTED acts and holds its trigger (R45, R502). -/
theorem safeStop_before_halted {s : State} (h : s.inLife [PRIMED, MOUNTING, MOUNTED, PARKING] = true) (cause tag code unit : Nat) :
    safeStop cause tag code unit s = hold { kind := .safeStop, cause, tag, code, unit } (safeStopActions s) := by
  obtain ⟨hon, hlife⟩ := inLife_mem h
  have hbare : s.life ≠ BARE := fun e => absurd (e ▸ hlife) (by decide)
  have hhalted : s.life ≠ HALTED := fun e => absurd (e ▸ hlife) (by decide)
  have happ : s.applied = true := by
    simp only [State.applied, State.inLife, hon, Bool.true_and, List.contains_iff_mem]
    exact List.mem_append_left [HALTED] hlife
  simp [safeStop, hbare, hhalted, happ]

/-- Settles O4: SYS_CTRL's bits select the stop or the resume; the best trigger held is taken; a park's end follows its cause. -/
theorem stopsResumeAndTriggers : Obligations.StopsResumeAndTriggers := by
  unfold Obligations.StopsResumeAndTriggers
  refine ⟨?safestop, ?resume, ?triggers, ?unmounted, ?stopped⟩
  case safestop =>
    intro p v s hr hresume hlife
    show execSafestop p v s = _
    rw [← safeStop_before_halted hlife]
    refine (vendorWrite_reaches hr _ _).trans (congrArg _ ?_)
    have hstop : (v.toNat ||| 2).testBit 1 = true := by rw [Nat.testBit_or]; exact Bool.or_true _
    have hkeep : (v.toNat ||| 2).testBit 0 = false := by rw [Nat.testBit_or, hresume]; rfl
    simp [sysCtrl, hstop, hkeep]
  case resume =>
    intro p v s hr hstop hlife hcleared hlsr
    show execResume p v s = _
    refine (vendorWrite_reaches hr _ _).trans (congrArg _ ?_)
    have hresume : (v.toNat ||| 1).testBit 0 = true := by rw [Nat.testBit_or]; exact Bool.or_true _
    have hkeep : (v.toNat ||| 1).testBit 1 = false := by rw [Nat.testBit_or, hstop]; rfl
    simp [sysCtrl, resume, hresume, hkeep, hlife, hcleared, hlsr]
  case triggers =>
    intro s t happ hbest
    have hheld : s.sys.held.isEmpty = false := by
      cases hl : s.sys.held with
      | nil => rw [hl] at hbest; cases hbest
      | cons => rfl
    show execTriggerResolution s = _
    refine (doIf_true _ (by rw [happ, hheld]; rfl)).trans ?_
    simp only [hbest]
    rfl
  case unmounted =>
    intro s hparked hcause
    show execParkComplete s = _
    exact (doIf_true _ hparked).trans (congrArg _ (by simp [parkDone, hcause]))
  case stopped =>
    intro s hparked hcause
    show execParkComplete s = _
    exact (doIf_true _ hparked).trans (congrArg _ (by simp [parkDone, hcause]))

/-! ### Resets, regulator faults and freezing -/

/-- Settles O6: each event's guard follows from the hypotheses, and the keyed write of SYS_RESET raises the full reset. -/
theorem powerOnAndFullReset : Obligations.PowerOnAndFullReset := by
  unfold Obligations.PowerOnAndFullReset
  refine ⟨?powerOn, ?fullReset, ?regulator, ?lockout, ?keyed, ?freeze⟩
  case powerOn =>
    intro s hoff hwait
    show execPowerGoodFusesLoaded s = _
    exact doIf_true _ (by rw [hoff, hwait]; rfl)
  case fullReset =>
    intro s hhold hoff
    show execFullResetComplete s = _
    exact doIf_true _ (by simp [hhold, hoff])
  case regulator =>
    intro r s hoff
    show execRegulatorFault r s = _
    exact doIf_true _ (by simp [hoff])
  case lockout =>
    intro s hoff
    show execUnderVoltageLockout s = _
    exact doIf_true _ (by simp [hoff])
  case keyed =>
    intro p v s hr hkey hbit
    show execSysResetFull p v s = _
    exact (vendorWrite_reaches hr _ _).trans (congrArg _ (if_pos (by simp [hkey, hbit])))
  case freeze => exact fun s hon => show execFreezePin s = _ from doIf_true _ hon

/-! ### The state after reset -/

/-- Settles O45: the reset state is one value, and each clause is read off it. -/
theorem resetState : Obligations.ResetState := by
  unfold Obligations.ResetState State.memOk
  decide +kernel

end Sys2Proof.Machine
end

section
/-! PROOFS. Lanes, codewords, stripe reads and rebuilds, and the events of the sequencers: each row under its guard. -/

namespace Sys2Proof.Machine
open R

/-! ### Lanes -/

/-- Settles O16: each row's guard follows from the hypotheses; the rows of the lane action in progress find it. -/
theorem laneCommands : Obligations.LaneCommands := by
  unfold Obligations.LaneCommands
  refine ⟨?failure, ?spare, ?restore, ?eye, ?selftest, ?acquired, ?shadow, ?lock, ?loss, ?reload, ?swept, ?quality⟩
  case failure =>
    intro l s happ hfail
    show execLaneFailure l s = _
    exact doIf_true _ (Bool.and_eq_true_iff.mpr ⟨happ, hfail⟩)
  case spare => exact fun p v s hr => show execLaneSpare p v s = _ from vendorWrite_reaches hr _ _
  case restore => exact fun p v s hr => show execLaneRestore p v s = _ from vendorWrite_reaches hr _ _
  case eye => exact fun p v s hr => show execLaneEye p v s = _ from vendorWrite_reaches hr _ _
  case selftest =>
    intro pass s l hact happ
    show execLaneSelftestDone pass s = _
    simp only [execLaneSelftestDone, hact]
    exact doIf_true _ happ
  case acquired =>
    intro l s happ hlane hready
    show execLaneAcquired l s = _
    refine doIf_true _ ?_
    rw [happ, hlane]
    simpa using hready
  case shadow =>
    intro l s hlife hdue hspare hlane hcal hidle
    show execCalShadow l s = _
    unfold execCalShadow
    refine doIf_true _ ?_
    simp only [hlife, hspare, hlane, hcal, hidle]
    simpa using hdue
  case lock =>
    intro l err s happ hcarries hseen hlen hsum
    show execTimingLock l err s = _
    exact doIf_true _ (by simp [happ, hcarries, hseen, hlen, hsum])
  case loss =>
    intro l err s happ hcarries hlost
    show execTimingLockLoss l err s = _
    exact doIf_true _ (by rw [happ, hcarries, hlost]; rfl)
  case reload =>
    intro h track o s happ hpresent hrun hover
    show execEqReload h track o s = _
    exact doIf_true _ (by simp [happ, hpresent, hrun, hover])
  case swept =>
    intro errs s l n hact happ hn hlen
    show execEyeSweepDone errs s = _
    simp only [execEyeSweepDone, hact]
    exact doIf_true _ (by simp [happ, hn, hlen])
  case quality =>
    intro h s happ hpresent hread
    show execQualityUpdate h s = _
    exact doIf_true _ (by simp [happ, hpresent, hread])

/-! ### Codewords -/

/-- Settles O17: the codeword expected and the decode in progress are found, and the guards follow from the hypotheses. -/
theorem codewordCommands : Obligations.CodewordCommands := by
  unfold Obligations.CodewordCommands
  refine ⟨?release, ?decoded, ?timeout, ?offline, ?restore, ?bist⟩
  case release =>
    intro pba cwix soft s e hfind hlife hread
    show execCodewordRelease pba cwix soft s = _
    simp only [execCodewordRelease, hfind]
    exact doIf_true _ (Bool.and_eq_true_iff.mpr ⟨hlife, hread⟩)
  case decoded =>
    intro d x conv iters s i lim hbusy happ
    show execDecodeComplete d x conv iters s = _
    simp only [execDecodeComplete, hbusy]
    exact doIf_true _ happ
  case timeout => exact fun d s happ => show execDecoderTimeout d s = _ from doIf_true _ happ
  case offline => exact fun p v s hr => show execDecoderOffline p v s = _ from vendorWrite_reaches hr _ _
  case restore => exact fun p v s hr => show execDecoderRestore p v s = _ from vendorWrite_reaches hr _ _
  case bist =>
    intro d pass s happ hbist
    show execDecoderBistDone d pass s = _
    exact doIf_true _ (Bool.and_eq_true_iff.mpr ⟨happ, hbist⟩)

/-! ### Stripes -/

/-- Settles O20: the assembly, the rebuild and the namespace a row names are found, and the guards follow from the hypotheses. -/
theorem stripeReadsAndRebuild : Obligations.StripeReadsAndRebuild := by
  unfold Obligations.StripeReadsAndRebuild
  refine ⟨?stray, ?arrival, ?deadline, ?rebuild, ?rebuilt, ?checkpoint, ?timer, ?demand, ?lost, ?cleaning⟩
  case stray =>
    intro stripe member planned tags words s hnone hon
    show execMemberArrival stripe member planned tags words s = _
    simp only [execMemberArrival, hnone]
    exact doIf_true _ hon
  case arrival =>
    intro stripe member planned tags words s a hfind hon hdue hall
    show execMemberArrival stripe member planned tags words s = _
    simp only [execMemberArrival, hfind]
    refine doIf_true _ ?_
    rw [hon, hdue]
    simpa [List.any_filter] using hall
  case deadline =>
    intro stripe s a hfind hon hpassed
    show execSlowMemberDeadline stripe s = _
    simp only [execSlowMemberDeadline, hfind]
    exact doIf_true _ (Bool.and_eq_true_iff.mpr ⟨hon, hpassed⟩)
  case rebuild =>
    intro s hlife hfew
    show execRebuildStart s = _
    unfold execRebuildStart
    exact doIf_true _ (Bool.and_eq_true_iff.mpr ⟨hlife, decide_eq_true hfew⟩)
  case rebuilt =>
    intro stripe member s r hfind hon hst hrepl
    show execRebuildComplete stripe member s = _
    simp only [execRebuildComplete, hfind]
    exact doIf_true _ (by simp [hon, hst, hrepl])
  case checkpoint => exact fun s hmay => show execCheckpoint s = _ from doIf_true _ hmay
  case timer =>
    intro s hlife hchanged
    show execCheckpointTimer s = _
    exact doIf_true _ (by rw [hlife, hchanged]; rfl)
  case demand =>
    intro nsid page o s hlife hwait hleft
    show execMapDemandLoad nsid page o s = _
    exact (doIf_true _ (by rw [hlife, hwait]; rfl)).trans (congrArg _ (if_pos hleft))
  case lost =>
    intro nsid page o s hlife hwait hleft hns
    show execMapDemandLoad nsid page o s = _
    refine (doIf_true _ (by rw [hlife, hwait]; rfl)).trans (congrArg _ ?_)
    rw [if_neg (by rw [hleft]; decide), if_pos hns]
  case cleaning =>
    intro nsid s n hns hlife hzoned hidle hused
    show execCleaning nsid s = _
    simp only [execCleaning, hns]
    exact doIf_true _ (by rw [hlife, hzoned, hused]; simpa using hidle)

/-! ### Sequencers -/

/-- Settles O32: the wait that ends selects the queue's side; a fault that no scan found is at the PC; the request considered is found. -/
theorem sequencerEvents : Obligations.SequencerEvents := by
  unfold Obligations.SequencerEvents
  refine ⟨?sent, ?received, ?barrier, ?scanned, ?fetched, ?lap, ?grant⟩
  case sent =>
    intro q i desc s happ hstate hwait hqueue hroom
    show execQueueWaitEnd q i desc s = _
    refine (doIf_true _ (by simp [happ, hstate])).trans (congrArg _ ?_)
    have hsel : ((s.seq q).wait == 1 && (s.seq q).waitQ == i.val) = true := by simp [hwait, hqueue]
    have hlen : ((s.feeds q i).elim (((s.seq q).outAt i).drop 1) fun _ => (s.seq q).outAt i).length < queueMax := by
      cases s.feeds q i with
      | none => exact Nat.lt_of_le_of_lt (List.drop_sublist 1 _).length_le hroom
      | some => exact hroom
    exact (if_pos hsel).trans (if_pos hlen)
  case received =>
    intro q i desc s happ hstate hother hroom
    show execQueueWaitEnd q i desc s = _
    refine (doIf_true _ (by rw [happ]; simpa using hstate)).trans (congrArg _ ?_)
    have hsel : ¬ ((s.seq q).wait == 1 && (s.seq q).waitQ == i.val) = true := by
      rw [Bool.and_eq_true, beq_iff_eq, beq_iff_eq]
      exact fun ⟨hwait, hqueue⟩ => hother.elim (· hwait) (· hqueue)
    refine (if_neg hsel).trans ?_
    cases s.fed q i <;> simp [State.when, hroom]
  case barrier =>
    intro mask s happ hall
    show execBarrierComplete mask s = _
    unfold execBarrierComplete
    exact doIf_true _ (Bool.and_eq_true_iff.mpr ⟨happ, hall⟩)
  case scanned => exact fun q a s happ => show execMachineCheck q 0 (some a) s = _ from doIf_true _ happ
  case fetched =>
    intro q cause scan s happ hrun hscan
    show execMachineCheck q cause scan s = _
    unfold execMachineCheck
    split
    case h_1 a hcause => obtain rfl | h := hscan <;> contradiction
    case h_2 => exact doIf_true _ (by simp [happ, hrun])
  case lap => exact fun s happ => show execRomScanLap s = _ from doIf_true _ happ
  case grant =>
    intro idx s r happ hreq
    show execAngleGrant idx s = _
    refine (doIf_true _ happ).trans (congrArg _ ?_)
    simp only [hreq]

end Sys2Proof.Machine
end

section
/-! PROOFS. Servo samples and loops, the sources of angle-time, focus and track losses, the spindle, writing: each row under its guard;
and the clearing reads of their registers. -/

namespace Sys2Proof.Machine
open R

/-! ### Servo samples, loops and multiply units -/

/-- Settles O8: each event's guard follows from the hypotheses, and the writes of SRV_UNITCTL reach the register. -/
theorem controlLoopEvents : Obligations.ControlLoopEvents := by
  unfold Obligations.ControlLoopEvents
  refine ⟨?sample, ?hold, ?resume, ?fail, ?offline, ?restore, ?restored, ?band⟩
  case sample =>
    intro i s happ hrunning hdue hturn
    show execServoSample i s = _
    exact doIf_true _ (by rw [happ, hrunning, hdue, hturn]; rfl)
  case hold =>
    intro l s happ hrun hout
    show execLoopHold l s = _
    exact doIf_true _ (by simp [happ, hrun, hout])
  case resume =>
    intro l s happ hhold hin
    show execLoopResume l s = _
    exact doIf_true _ (by simp [happ, hhold, hin])
  case fail =>
    intro l s happ hhold hmax
    show execLoopFail l s = _
    exact doIf_true _ (by simp [happ, hhold, hmax])
  case offline => exact fun p v s hr => show execSrvUnitOffline p v s = _ from vendorWrite_reaches hr _ _
  case restore => exact fun p v s hr => show execSrvUnitRestore p v s = _ from vendorWrite_reaches hr _ _
  case restored =>
    intro u pass s happ hbist
    show execSrvUnitRestoreDone u pass s = _
    exact doIf_true _ (Bool.and_eq_true_iff.mpr ⟨happ, hbist⟩)
  case band =>
    intro s happ hmoved
    show execSpeedBandChange s = _
    exact doIf_true _ (by simp [happ, hmoved])

/-! ### The sources of angle-time -/

/-- Settles O9: each event's guard follows from the hypotheses. -/
theorem angleSources : Obligations.AngleSources := by
  unfold Obligations.AngleSources
  refine ⟨?tick, ?wedge, ?mark, ?entry, ?slewed, ?loss, ?coarse, ?coarseLoss⟩
  case tick =>
    intro s hon hrunning
    show execTick s = _
    exact doIf_true _ (Bool.and_eq_true_iff.mpr ⟨hon, hrunning⟩)
  case wedge =>
    intro h s hon hrunning hpresent hreached
    show execWedgeBoundary h s = _
    exact doIf_true _ (by rw [hon, hrunning, hpresent, hreached]; rfl)
  case mark =>
    intro h wedge word rate rev s happ hfocus
    show execMarkDecoded h wedge word rate rev s = _
    exact doIf_true _ (Bool.and_eq_true_iff.mpr ⟨happ, hfocus⟩)
  case entry =>
    intro h s happ hrunning hbelow hfocus hmarks
    show execMarkEntry h s = _
    exact doIf_true _ (by simp [happ, hrunning, hbelow, hfocus, hmarks])
  case slewed =>
    intro s happ hslew hleft
    show execSlewComplete s = _
    exact doIf_true _ (by simp [happ, hslew, hleft])
  case loss =>
    intro s happ hsrc hlost
    show execMarkLoss s = _
    exact doIf_true _ (by rw [happ, hsrc, hlost]; rfl)
  case coarse =>
    intro rate s happ hsrc hfast
    show execCoarseEntry rate s = _
    exact doIf_true _ (by simp [happ, hsrc, hfast])
  case coarseLoss =>
    intro s happ hsrc hslow
    show execCoarseLoss s = _
    exact doIf_true _ (by simp [happ, hsrc, hslow])

/-! ### Focus and track losses, inhibits and shock -/

/-- Settles O13: each event's guard follows from the hypotheses, a loss from its count or from the FAIL of its loop; a recovery that
ends on track has landed. -/
theorem lossesAndInhibits : Obligations.LossesAndInhibits := by
  unfold Obligations.LossesAndInhibits
  refine ⟨?focus, ?track, ?recovered, ?unrecovered, ?retry, ?wlid, ?trid, ?cleared, ?winh, ?shock⟩
  case focus =>
    intro h s hup hlost
    show execFocusLoss h s = _
    exact doIf_true _ (by simpa [hup] using hlost)
  case track =>
    intro h s hup hlost
    show execTrackLoss h s = _
    exact doIf_true _ (by simpa [hup] using hlost)
  case recovered =>
    intro h s hup hphase hlanded
    show execRecoveryDone h true s = _
    exact (doIf_true _ (by simp [hup, hphase])).trans (congrArg _ (if_pos hlanded))
  case unrecovered =>
    intro h s hup hphase
    show execRecoveryDone h false s = _
    exact doIf_true _ (by simp [hup, hphase])
  case retry =>
    intro h k s hup hheld hover
    show execTiltSaFailRetry h k s = _
    exact doIf_true _ (by rw [hup, hheld, hover]; rfl)
  case wlid =>
    intro h bits minfo s happ hfocus hcrc hlayer
    show execWlidDecoded h bits minfo s = _
    unfold execWlidDecoded
    exact doIf_true _ (by simpa [happ, hfocus] using And.intro hcrc hlayer)
  case trid =>
    intro h trids s happ hfocus
    show execTridDecoded h trids s = _
    exact doIf_true _ (Bool.and_eq_true_iff.mpr ⟨happ, hfocus⟩)
  case cleared =>
    intro h c s happ hset habsent
    show execInhibitClear h c s = _
    exact doIf_true _ (by rw [happ, hset]; simpa using habsent)
  case winh => exact fun p h v s hr => show execSrvHctrlWinh p h v s = _ from vendorWrite_reaches hr _ _
  case shock =>
    intro axial radial s happ hen
    show execShockSensorRead axial radial s = _
    exact doIf_true _ (Bool.and_eq_true_iff.mpr ⟨happ, hen⟩)

/-! ### The spindle -/

/-- Settles O15: each event's guard follows from the hypotheses, and the write of SPN_TEST reaches its register. -/
theorem spindleStarts : Obligations.SpindleStarts := by
  unfold Obligations.SpindleStarts
  refine ⟨?start, ?caught, ?aligned, ?handover, ?failed, ?period, ?fault, ?stopped, ?test, ?decoded, ?adopted⟩
  case start =>
    intro s happ htrip hhold htarget hphase
    show execSpinUpStart s = _
    exact doIf_true _ (by rw [happ, htrip, hhold]; simpa [htarget] using hphase)
  case caught =>
    intro crossings peak rpm s happ htrip hphase
    show execCatchWindowEnd crossings peak rpm s = _
    exact doIf_true _ (by rw [happ, htrip, hphase]; rfl)
  case aligned =>
    intro s happ hphase
    show execAlignEnd s = _
    exact doIf_true _ (by simp [happ, hphase])
  case handover =>
    intro s happ hphase hspeed hagree
    show execSpindleHandover s = _
    exact doIf_true _ (by simp [happ, hphase, hspeed, hagree])
  case failed =>
    intro s happ hphase hforced
    show execSpinUpAttemptFailed s = _
    exact doIf_true _ (by simp [happ, hphase, hforced])
  case period =>
    intro i s happ htrip hdriven
    show execPwmPeriod i s = _
    exact doIf_true _ (by rw [happ, htrip, hdriven]; rfl)
  case fault =>
    intro cause s happ hphase hcause
    show execSpindleFault cause s = _
    exact doIf_true _ (by simp [happ, hphase, hcause])
  case stopped =>
    intro peak s happ hphase hpeak
    show execSpindleStopped peak s = _
    exact doIf_true _ (by rw [happ]; simpa [hpeak] using hphase)
  case test => exact fun p v s hr => show execSpnTestWrite p v s = _ from vendorWrite_reaches hr _ _
  case decoded => exact fun x s happ => show execSpeedrefDecode x s = _ from doIf_true _ happ
  case adopted =>
    intro s happ hvalid
    show execSpeedrefAdopt s = _
    exact doIf_true _ (Bool.and_eq_true_iff.mpr ⟨happ, hvalid⟩)

/-! ### Write windows, levels, verify verdicts and the OPC -/

/-- Settles O18: the OPC run in progress, the window that ends and the first class with a due event are found, and the guards follow
from the hypotheses; LVLPEND alone falls once no level change waits. -/
theorem writingCommands : Obligations.WritingCommands := by
  unfold Obligations.WritingCommands
  refine ⟨?opc, ?readback, ?request, ?openWrite, ?openRead, ?openCal, ?openPatrol, ?close, ?levels, ?verify⟩
  case opc =>
    intro h l b s hlife hreach hdue
    show execOpcRun h l b s = _
    exact doIf_true _ (by rw [hlife, hreach, hdue]; rfl)
  case readback =>
    intro h r0 r1 s l b hopc happ
    show execOpcReadbackDone h r0 r1 s = _
    simp only [execOpcReadbackDone, hopc]
    exact doIf_true _ happ
  case request => exact fun p v s hr => show execWrsOpcctl p v s = _ from vendorWrite_reaches hr _ _
  case openWrite =>
    intro h act blocks os s t e happ hwrite
    show execWindowOpen h act blocks os s = _
    unfold execWindowOpen
    refine (doIf_true _ happ).trans (congrArg _ ?_)
    simp only [hwrite]
  case openRead =>
    intro h act blocks os s t e happ hwrite hread
    show execWindowOpen h act blocks os s = _
    unfold execWindowOpen
    refine (doIf_true _ happ).trans (congrArg _ ?_)
    simp only [hwrite, hread]
  case openCal =>
    intro h act blocks os s t e happ hwrite hread hcal
    show execWindowOpen h act blocks os s = _
    unfold execWindowOpen
    refine (doIf_true _ happ).trans (congrArg _ ?_)
    simp only [hwrite, hread, hcal]
  case openPatrol =>
    intro h act blocks os s t e happ hwrite hread hcal hpatrol
    show execWindowOpen h act blocks os s = _
    unfold execWindowOpen
    refine (doIf_true _ happ).trans (congrArg _ ?_)
    simp only [hwrite, hread, hcal, hpatrol]
  case close =>
    intro h s w hfind happ hpassed hturn
    show execWindowClose h s = _
    simp only [execWindowClose, hfind]
    exact doIf_true _ (by rw [happ, hpassed, hturn]; rfl)
  case levels =>
    intro h s happ hpend hnone
    refine ⟨s.put (WRS_HSTAT_LVLPEND h) 0, ?_, (get_put_self s _ _).trans (Nat.zero_mod _), sameBut_put s _ _⟩
    show execLevelsSent h s = _
    exact doIf_true _ (by rw [happ, hpend]; simpa using hnone)
  case verify =>
    intro h pba s happ hunverified hwhole
    show execVerifyResult h pba s = _
    unfold execVerifyResult
    exact doIf_true _ (Bool.and_eq_true_iff.mpr ⟨Bool.and_eq_true_iff.mpr ⟨happ, hunverified⟩, hwhole⟩)

/-! ### The clearing reads of their registers -/

theorem readRow_clears_four {s : State} {p off : Nat} {a b c d : Fld} (hr : s.reads p off = true)
    (hc : clearsOnly off [a, b, c, d] = true) :
    ∃ t, readRow p off s = .next t ∧ t.rdata = BitVec.ofNat 32 (s.regRead off) ∧ t.get a = a.reset ∧ t.get b = b.reset ∧
      t.get c = c.reset ∧ t.get d = d.reset ∧ ({ s with rdata := t.rdata } : State).sameBut t [a, b, c, d] := by
  obtain ⟨t, ht, hd, hget, hkeep⟩ := readRow_clears hr hc
  exact ⟨t, ht, hd, hget a (by simp), hget b (by simp), hget c (by simp), hget d (by simp), hkeep⟩

theorem clearsOnly_opuHstat : ∀ h : Head, clearsOnly (OPU_HSTAT_LINKERR h).off [OPU_HSTAT_LINKERR h] = true := by decide +kernel
theorem clearsOnly_opuLinkrsp : ∀ h : Head, clearsOnly (OPU_LINKRSP_DONE h).off [OPU_LINKRSP_DONE h] = true := by decide +kernel
theorem clearsOnly_srvLstat : ∀ l : Loop, clearsOnly (SRV_LSTAT_HOLDS l).off [SRV_LSTAT_HOLDS l] = true := by decide +kernel
theorem clearsOnly_srvArith : ∀ l : Loop, clearsOnly (SRV_ARITH_SATN l).off [SRV_ARITH_SATN l, SRV_ARITH_LOSTN l] = true := by
  decide +kernel
theorem clearsOnly_srvHcnt : ∀ h : Head, clearsOnly (SRV_HCNT_FLOSS h).off
    [SRV_HCNT_FLOSS h, SRV_HCNT_TLOSS h, SRV_HCNT_INHN h, SRV_HCNT_JFAIL h] = true := by decide +kernel
theorem clearsOnly_srvTqwin : ∀ h : Head, clearsOnly (SRV_TQWIN_DISCARD h).off [SRV_TQWIN_DISCARD h, SRV_TQWIN_ACCEPT h] = true := by
  decide +kernel
theorem clearsOnly_sldCnt : ∀ h : Head, clearsOnly (SLD_CNT_SLIPS h).off
    [SLD_CNT_SLIPS h, SLD_CNT_PREEMPT h, SLD_CNT_RETGT h, SLD_CNT_REFUSED h] = true := by decide +kernel
theorem clearsOnly_chnLstat : ∀ l : Lane, clearsOnly (CHN_LSTAT_FAILCHK l).off [CHN_LSTAT_FAILCHK l] = true := by decide +kernel
theorem clearsOnly_detHcnt : ∀ h : Head, clearsOnly (DET_HCNT_EQRELOAD h).off [DET_HCNT_EQRELOAD h, DET_HCNT_REPROFULL h] = true := by
  decide +kernel
theorem clearsOnly_detPass : ∀ h : Head, clearsOnly (DET_PASS_PASS3 h).off [DET_PASS_PASS3 h, DET_PASS_PASS2 h] = true := by
  decide +kernel
theorem clearsOnly_wrsHstat : ∀ h : Head, clearsOnly (WRS_HSTAT_CLAMP h).off [WRS_HSTAT_CLAMP h] = true := by decide +kernel
theorem clearsOnly_wrsOpcst : ∀ h : Head, clearsOnly (WRS_OPCST_RUNS h).off [WRS_OPCST_RUNS h, WRS_OPCST_FAILS h] = true := by
  decide +kernel
theorem clearsOnly_wrsVcnt : ∀ h : Head, clearsOnly (WRS_VCNT_VFAIL h).off
    [WRS_VCNT_VFAIL h, WRS_VCNT_INCONCL h, WRS_VCNT_REWRITE h, WRS_VCNT_WFAIL h] = true := by decide +kernel

/-- Settles O40: each of these rows is the custodian's read of a register whose read only clears the fields listed. -/
theorem readsClearTheirCounters1 : Obligations.ReadsClearTheirCounters1 := by
  unfold Obligations.ReadsClearTheirCounters1
  exact ⟨fun _ _ hr => readRow_clears_one (a := ANG_LOCK_LOSSCNT) hr (by decide +kernel),
    fun _ _ hr => readRow_clears_one (a := ANG_EVT_LATE) hr (by decide +kernel),
    fun _ _ hr => readRow_clears_two (a := ANG_QWIN_DISCARD) (b := ANG_QWIN_ACCEPT) hr (by decide +kernel),
    fun _ _ hr => readRow_clears_two (a := SKT_CNT_ABORTS) (b := SKT_CNT_COMMITS) hr (by decide +kernel),
    fun _ h _ hr => readRow_clears_one hr (clearsOnly_opuHstat h),
    fun _ h _ hr => readRow_clears_one hr (clearsOnly_opuLinkrsp h),
    fun _ _ hr => readRow_clears_one (a := OPU_GSTAT_TRIPS) hr (by decide +kernel),
    fun _ l _ hr => readRow_clears_one hr (clearsOnly_srvLstat l),
    fun _ l _ hr => readRow_clears_two hr (clearsOnly_srvArith l),
    fun _ h _ hr => readRow_clears_four hr (clearsOnly_srvHcnt h),
    fun _ h _ hr => readRow_clears_two hr (clearsOnly_srvTqwin h),
    fun _ _ hr => readRow_clears_two (a := SRV_SHKST_EVENTS) (b := SRV_SHKST_PEAK) hr (by decide +kernel),
    fun _ h _ hr => readRow_clears_four hr (clearsOnly_sldCnt h),
    fun _ _ hr => readRow_clears_four (a := SPN_DIST_OCN) (b := SPN_DIST_NARROWW) (c := SPN_DIST_NARROWV)
      (d := SPN_DIST_NARROWU) hr (by decide +kernel),
    fun _ l _ hr => readRow_clears_one hr (clearsOnly_chnLstat l),
    fun _ h _ hr => readRow_clears_two hr (clearsOnly_detHcnt h),
    fun _ h _ hr => readRow_clears_two hr (clearsOnly_detPass h),
    fun _ _ hr => readRow_clears_one (a := CWD_QUEUE_PEAK) hr (by decide +kernel),
    fun _ _ hr => readRow_clears_four (a := CWD_TAGCNT_LOST) (b := CWD_TAGCNT_ERASED) (c := CWD_TAGCNT_CORR)
      (d := CWD_TAGCNT_CLEAN) hr (by decide +kernel),
    fun _ _ hr => readRow_clears_two (a := CWD_CNT_OVF) (b := CWD_CNT_BUSY) hr (by decide +kernel),
    fun _ h _ hr => readRow_clears_one hr (clearsOnly_wrsHstat h),
    fun _ h _ hr => readRow_clears_two hr (clearsOnly_wrsOpcst h),
    fun _ h _ hr => readRow_clears_four hr (clearsOnly_wrsVcnt h)⟩

end Sys2Proof.Machine
end

section
/-! PROOFS. The Sketch and the Varnish: each row under its guard. -/

namespace Sys2Proof.Machine
open R

/-- Settles O11: the writes of the stage, control and arm registers reach them, each event's guard follows from the hypotheses, and the
commit finds its due event. -/
theorem sketchCommands : Obligations.SketchCommands := by
  unfold Obligations.SketchCommands
  refine ⟨?stage, ?cancel, ?clear, ?arm, ?distributed, ?checked, ?commit⟩
  case stage => exact fun p v s hr => show execSktStage p v s = _ from vendorWrite_reaches hr _ _
  case cancel => exact fun p v s hr => show execSktCancel p v s = _ from vendorWrite_reaches hr _ _
  case clear => exact fun p v s hr => show execSktClear p v s = _ from vendorWrite_reaches hr _ _
  case arm => exact fun p v s hr => show execVarnishArm p v s = _ from vendorWrite_reaches hr _ _
  case distributed =>
    intro s happ hphase
    show execVarnishDistributed s = _
    exact doIf_true _ (by simp [happ, hphase])
  case checked =>
    intro s happ hphase hpassed
    show execVarnishFinalCheck s = _
    exact doIf_true _ (by simp [happ, hphase, hpassed])
  case commit =>
    intro s t e hdue happ harmed
    show execVarnishCommit s = _
    simp only [execVarnishCommit, hdue]
    refine (doIf_true _ (Bool.and_eq_true_iff.mpr ⟨happ, harmed⟩)).trans (congrArg _ ?_)
    exact ite_congr (propext beq_iff_eq) (fun _ => rfl) (fun _ => rfl)

end Sys2Proof.Machine
end

section
/-! PROOFS. The steps of Mount and Unmount: each event under its guard. -/

namespace Sys2Proof.Machine
open R

/-- Settles O27: each event's guard follows from the hypotheses; a mount failure has in its step found the fault its cause names. -/
theorem mountSteps : Obligations.MountSteps := by
  unfold Obligations.MountSteps
  refine ⟨?part1, ?part2, ?resynced, ?step, ?minfo, ?attic, ?side, ?unmount⟩
  case part1 =>
    intro s hlife hstep hread
    show execAtticPart1Done s = _
    unfold execAtticPart1Done
    exact doIf_true _ (Bool.and_eq_true_iff.mpr ⟨Bool.and_eq_true_iff.mpr ⟨hlife, hstep⟩, hread⟩)
  case part2 =>
    intro s hlife hread
    show execAtticPart2Done s = _
    exact doIf_true _ (Bool.and_eq_true_iff.mpr ⟨hlife, hread⟩)
  case resynced =>
    intro s hlife hstep hresync hnone hempty
    show execResyncDone s = _
    exact doIf_true _ (by rw [hlife, hstep, hresync, hnone, hempty]; rfl)
  case step => exact fun s hlife => show execMountStepDone s = _ from doIf_true _ hlife
  case minfo =>
    intro s hlife hstep hminfo
    show execMountFailure 0 s = _
    exact doIf_true _ (by simp [hlife, hstep, hminfo])
  case attic =>
    intro s hlife hstep hread hfactory
    show execMountFailure 1 s = _
    exact doIf_true _ (by simpa [hlife, hread, hstep] using hfactory)
  case side =>
    intro s hlife hunusable
    show execMountFailure 2 s = _
    refine doIf_true _ (Bool.and_eq_true_iff.mpr ⟨hlife, ?_⟩)
    rcases hunusable with hside | hside
    · exact congrArg (fun b => !(b && s.sideUsable 1)) hside
    · exact (congrArg (fun b => !(s.sideUsable 0 && b)) hside).trans (congrArg Bool.not (Bool.and_false _))
  case unmount => exact fun s hlife => show execUnmountStepDone s = _ from doIf_true _ hlife

end Sys2Proof.Machine
end

section
/-! PROOFS. The pickups: the control link of a head, and LON under the laser permit. -/

namespace Sys2Proof.Machine
open R

/-! ### The control link -/

/-- Settles O7: each event's guard follows from the hypotheses, and the writes of OPU_LINKCMD and OPU_CTRL reach their registers. -/
theorem pickupLinkEvents : Obligations.PickupLinkEvents := by
  unfold Obligations.PickupLinkEvents
  refine ⟨?response, ?timeout, ?thirdFailure, ?retry, ?expired, ?poll, ?temp, ?direct, ?loff⟩
  case response =>
    intro h resp s hon hbusy
    show execPickupResponse h resp s = _
    exact doIf_true _ (Bool.and_eq_true_iff.mpr ⟨hon, hbusy⟩)
  case timeout =>
    intro h s hon hbusy
    show execPickupResponseTimeout h s = _
    exact doIf_true _ (Bool.and_eq_true_iff.mpr ⟨hon, hbusy⟩)
  case thirdFailure =>
    intro h s hon hbusy hthird
    show execPickupLinkError h s = _
    exact doIf_true _ (Bool.and_eq_true_iff.mpr ⟨Bool.and_eq_true_iff.mpr ⟨hon, hbusy⟩, hthird⟩)
  case retry =>
    intro h s hon hstep hidle
    show execEnumNopRetry h s = _
    exact doIf_true _ (by simp [hon, hstep, hidle])
  case expired =>
    intro h s hon hstep
    show execEnumWaitExpired h s = _
    exact doIf_true _ (by simp [hon, hstep])
  case poll =>
    intro h s happ hpresent henum hempty
    show execStatusPoll h s = _
    exact doIf_true _ (by rw [happ, hpresent, henum, hempty]; rfl)
  case temp =>
    intro h s happ hwait
    show execPickupTempRead h s = _
    exact doIf_true _ (Bool.and_eq_true_iff.mpr ⟨happ, hwait⟩)
  case direct => exact fun p h v s hr => show execOpuLinkcmd p h v s = _ from vendorWrite_reaches hr _ _
  case loff => exact fun p h v s hr => show execLoffWrite p h v s = _ from vendorWrite_reaches hr _ _

/-! ### The permit of one head's laser (R168) -/

/-- What LON of a head has to follow. -/
def State.laserPermit (s : State) (h : Nat) : Bool :=
  s.sys.lsrEn && !s.sys.tripped && s.present h && s.inSvc h && !s.flag (OPU_CTRL_LOFF h)

theorem lsb_lon (h : Nat) : (OPU_HSTAT_LON h).lsb = 5 := by simp [OPU_HSTAT_LON, fld, Fld.lsb]; omega

/-- A write of a field at another bit of its word leaves every LON. -/
theorem get_lon_put {f : Fld} (hf : f.lsb ≠ 5) (s : State) (v h : Nat) :
    (s.put f v).get (OPU_HSTAT_LON h) = s.get (OPU_HSTAT_LON h) :=
  get_put_ne _ _ _ _ fun e => hf ((congrArg (· % 32) e).trans (lsb_lon h))

theorem syncLon_get {g : Fld} {h : Nat} (hg : (OPU_HSTAT_LON h).key ≠ g.key) (s : State) : (syncLon h s).get g = s.get g :=
  get_put_ne _ _ _ _ hg

theorem syncLon_get_lon_self (h : Nat) (s : State) : (syncLon h s).get (OPU_HSTAT_LON h) = (s.laserPermit h).toNat :=
  (get_put_self s _ _).trans (Nat.mod_eq_of_lt (Bool.toNat_lt _))

theorem syncLon_get_lon_ne {h k : Nat} (hne : k ≠ h) (s : State) :
    (syncLon k s).get (OPU_HSTAT_LON h) = s.get (OPU_HSTAT_LON h) :=
  syncLon_get (by simp [OPU_HSTAT_LON, fld]; omega) s

/-- Setting LON changes no head's permit. -/
theorem syncLon_laserPermit (k h : Nat) (s : State) : (syncLon k s).laserPermit h = s.laserPermit h := by
  have henum : (syncLon k s).get (OPU_HSTAT_ENUM h) = s.get (OPU_HSTAT_ENUM h) :=
    syncLon_get (by simp [OPU_HSTAT_LON, OPU_HSTAT_ENUM, fld]; omega) s
  have hsvc : (syncLon k s).get (OPU_HSTAT_INSVC h) = s.get (OPU_HSTAT_INSVC h) :=
    syncLon_get (by simp [OPU_HSTAT_LON, OPU_HSTAT_INSVC, fld]; omega) s
  have hloff : (syncLon k s).get (OPU_CTRL_LOFF h) = s.get (OPU_CTRL_LOFF h) :=
    syncLon_get (by simp [OPU_HSTAT_LON, OPU_CTRL_LOFF, fld]; omega) s
  simp only [State.laserPermit, State.present, State.inSvc, State.flag, henum, hsvc, hloff]
  rfl

theorem forUpTo_succ (n : Nat) (k : Nat → State → State) (s : State) : forUpTo (n + 1) k s = k n (forUpTo n k s) := by
  simp [forUpTo, List.range_succ]

/-- Once LON of the heads below `n` is set, it follows the permits there, and every permit is what it was. -/
theorem forUpTo_syncLon (s : State) : ∀ n : Nat, (∀ h, (forUpTo n syncLon s).laserPermit h = s.laserPermit h) ∧
    ∀ h < n, (forUpTo n syncLon s).get (OPU_HSTAT_LON h) = (s.laserPermit h).toNat := by
  intro n
  induction n with
  | zero => exact ⟨fun _ => rfl, fun _ hlt => absurd hlt (Nat.not_lt_zero _)⟩
  | succ n ih =>
    obtain ⟨hpermit, hlon⟩ := ih
    rw [forUpTo_succ]
    refine ⟨fun h => (syncLon_laserPermit n h _).trans (hpermit h), fun h hlt => ?_⟩
    rcases Nat.lt_succ_iff_lt_or_eq.mp hlt with hlt | rfl
    · exact (syncLon_get_lon_ne (Nat.ne_of_gt hlt) _).trans (hlon h hlt)
    · rw [syncLon_get_lon_self, hpermit]

theorem syncLonAll_get_lon (s : State) (h : Head) : (syncLonAll s).get (OPU_HSTAT_LON h) = (s.laserPermit h).toNat :=
  (forUpTo_syncLon s 4).2 h h.isLt

theorem forUpTo_sys {n : Nat} {k : Nat → State → State} (s : State) (h : ∀ i t, (k i t).sys = t.sys) :
    (forUpTo n k s).sys = s.sys :=
  List.foldlRecOn _ _ (motive := fun t => t.sys = s.sys) rfl fun t ht i _ => (h i t).trans ht

theorem syncLonAll_sys (s : State) : (syncLonAll s).sys = s.sys := forUpTo_sys s fun _ _ => rfl

/-! ### What leaves every LON as it is -/

/-- LSR_EN and LON of every head. -/
def State.lons (s : State) : Bool × (Head → Nat) := (s.sys.lsrEn, fun h => s.get (OPU_HSTAT_LON h))

/-- LSR_EN is low, and so is every LON. -/
def State.dark (s : State) : Prop := s.lons = (false, fun _ => 0)

theorem dark_iff (s : State) : s.dark ↔ s.sys.lsrEn = false ∧ ∀ h : Head, s.get (OPU_HSTAT_LON h) = 0 := by
  simp [State.dark, State.lons, funext_iff]

theorem put_lons {f : Fld} (hf : f.lsb ≠ 5) (s : State) (v : Nat) : (s.put f v).lons = s.lons :=
  congrArg (Prod.mk _) (funext fun h => get_lon_put hf s v h)

theorem put_fld_lons {off b w reset : Nat} {acc : Acc} {setBy : SetBy} (h : (8 * off + b) % 32 ≠ 5) (s : State) (v : Nat) :
    (s.put (fld off b w acc setBy reset) v).lons = s.lons :=
  put_lons (f := fld off b w acc setBy reset) h s v

theorem when_lons {b : Bool} {k : State → State} {s : State} (h : (k s).lons = s.lons) : (s.when b k).lons = s.lons := by
  cases b
  · rfl
  · exact h

theorem foldl_lons {α : Type} {k : State → α → State} (h : ∀ s x, (k s x).lons = s.lons) (l : List α) (s : State) :
    (l.foldl k s).lons = s.lons :=
  List.foldlRecOn _ _ (motive := fun t => t.lons = s.lons) rfl fun t ht x _ => (h t x).trans ht

theorem forUpTo_lons {k : Nat → State → State} (h : ∀ i s, (k i s).lons = s.lons) (n : Nat) (s : State) :
    (forUpTo n k s).lons = s.lons := foldl_lons (fun s i => h i s) _ s

theorem sendMsix_lons (s : State) : (sendMsix s).lons = s.lons := by
  unfold sendMsix
  split
  · rfl
  · split <;> rfl

theorem raiseIrq_lons (b : Nat) (s : State) : (raiseIrq b s).lons = s.lons := by
  have hraise : ∀ (f : Fld) (i : Nat), f.lsb ≠ 5 → (if s.bit f i then s else
      if (s.setBit f i true).bit FIF_IRQ_EN_EN b then sendMsix (s.setBit f i true) else s.setBit f i true).lons = s.lons := by
    intro f i hf
    have hset : (s.setBit f i true).lons = s.lons := put_lons hf s _
    split
    · rfl
    · split
      · exact (sendMsix_lons _).trans hset
      · exact hset
  exact hraise _ _ (by split <;> decide)

theorem pushPkt_lons (i : Nat) (pkt : List Word) (urgent : Bool) (s : State) : (pushPkt i pkt urgent s).lons = s.lons := by
  have hpushed : ∀ (t : State) (n : Nat) (torn : Bool), t.lons = s.lons →
      ((t.addSat (FIF_LOST_LOST i) n).when torn fun u => u.put (FIF_STAT_TORN i) 1).lons = s.lons :=
    fun t _ _ ht => (when_lons (put_fld_lons (by omega) _ 1)).trans ((put_fld_lons (by omega) t _).trans ht)
  unfold pushPkt
  dsimp only
  split
  · exact (raiseIrq_lons i _).trans (hpushed _ _ _ rfl)
  · exact hpushed _ _ _ rfl

theorem logFlt_lons (src kind code unit : Nat) (args : List Nat) (s : State) :
    (logFlt src kind code unit args s).lons = s.lons :=
  (when_lons (put_fld_lons (by omega) _ _)).trans ((put_fld_lons (by omega) _ _).trans (pushPkt_lons 2 _ false s))

theorem beginXact_lons (h : Nat) (s : State) : (beginXact h s).lons = s.lons := by
  unfold beginXact
  dsimp only
  split
  · rfl
  · exact when_lons (put_fld_lons (by omega) _ _)

theorem queueXact_lons (h : Nat) (x : Xact) (s : State) : (queueXact h x s).lons = s.lons := by
  unfold queueXact
  split
  · rfl
  · exact beginXact_lons h _

theorem laserOff_lons (h spots : Nat) (s : State) : (laserOff h spots s).lons = s.lons := queueXact_lons h _ s

theorem pairsIdleFor_lons (cause h : Nat) (s : State) : (pairsIdleFor cause h s).lons = s.lons :=
  put_fld_lons (by omega) s 0

theorem raiseInhibit_lons (h cause : Nat) (s : State) : (raiseInhibit h cause s).lons = s.lons := by
  have hraised : ((s.setBit (SRV_HSTAT_INHC h) cause true).put (SRV_HSTAT_INH h) 1).lons = s.lons :=
    (put_fld_lons (by omega) _ 1).trans (put_fld_lons (by omega) s _)
  unfold raiseInhibit raiseInhibits
  dsimp only
  split
  · exact (pairsIdleFor_lons _ h _).trans ((logFlt_lons ..).trans ((put_fld_lons (by omega) _ _).trans hraised))
  · exact hraised

theorem loopOff_lons (l : Nat) (s : State) : (loopOff l s).lons = s.lons :=
  (when_lons rfl).trans ((put_fld_lons (by omega) _ 0).trans (put_fld_lons (by omega) s lOFF))

theorem spindleCoast_lons (s : State) : (spindleCoast s).lons = s.lons := by
  unfold spindleCoast
  dsimp only
  split
  · rfl
  · exact put_fld_lons (by omega) _ _

theorem stopSeek_lons (h : Nat) (s : State) : (stopSeek h s).lons = s.lons := by
  unfold stopSeek askSeek
  split <;> rfl

/-! ### A safe stop with LSR_EN low -/

theorem syncLonAll_dark {s : State} (hlow : s.sys.lsrEn = false) : (syncLonAll s).dark :=
  (dark_iff _).mpr ⟨by rw [syncLonAll_sys, hlow], fun h => by rw [syncLonAll_get_lon]; simp [State.laserPermit, hlow]⟩

theorem tripSafety_dark {s : State} (hs : s.dark) : (tripSafety s).dark :=
  (spindleCoast_lons _).trans (syncLonAll_dark ((dark_iff s).mp hs).1)

theorem safeStopActions_dark {s : State} (hs : s.dark) : (safeStopActions s).dark :=
  ((forUpTo_lons stopSeek_lons 4 _).trans ((forUpTo_lons loopOff_lons 16 _).trans
    (forUpTo_lons (pairsIdleFor_lons 0) 4 _))).trans (tripSafety_dark hs)

theorem safeStop_dark {s : State} (hs : s.dark) (cause tag code unit : Nat) : (safeStop cause tag code unit s).dark := by
  unfold safeStop
  split
  · exact (logFlt_lons ..).trans hs
  · split
    · refine (logFlt_lons ..).trans ?_
      split
      · exact hs
      · exact tripSafety_dark hs
    · split
      · exact safeStopActions_dark hs
      · exact hs

/-! ### A trip of the safety block -/

/-- With the safety block tripped no head has the permit. -/
theorem syncLonAll_tripped {s : State} (htrip : s.sys.tripped = true) (h : Head) : (syncLonAll s).get (OPU_HSTAT_LON h) = 0 := by
  rw [syncLonAll_get_lon]
  simp [State.laserPermit, htrip]

/-- Settles O57: LON is set head by head from permits that no LON enters. After a fall of LSR_EN only operations that leave LON
as it is or set it again follow; a freeze and a full reset trip the safety block and set LON last. -/
theorem laserPermit : Obligations.LaserPermit := by
  unfold Obligations.LaserPermit
  refine ⟨syncLonAll_get_lon, ?fall, ?freeze, ?keyed⟩
  case fall =>
    intro s t hon hlsr ht
    obtain ⟨hfall, -⟩ := laserPermitAndCartridgePins
    cases (hfall s hlsr hon).symm.trans ht
    refine ((dark_iff _).mp ?_).2
    have hcounted : (((syncLonAll { s with sys := { s.sys with lsrEn := false } }).put OPU_GSTAT_LSREN 0).inc
        OPU_GSTAT_TRIPS).dark :=
      (put_fld_lons (by omega) _ _).trans ((put_fld_lons (by omega) _ 0).trans (syncLonAll_dark rfl))
    dsimp only
    split
    · refine safeStop_dark ?_ ..
      refine (forUpTo_lons (fun h u => when_lons ?_) 4 _).trans ((forUpTo_lons (pairsIdleFor_lons 0) 4 _).trans hcounted)
      exact (raiseInhibit_lons h _ _).trans (laserOff_lons h _ u)
    · exact hcounted
  case freeze =>
    intro s t hon ht
    obtain ⟨-, -, -, -, -, hfreeze⟩ := powerOnAndFullReset
    cases (hfreeze s hon).symm.trans ht
    exact syncLonAll_tripped rfl
  case keyed =>
    intro p v s t hr hkey hbit ht
    obtain ⟨-, -, -, -, hkeyed, -⟩ := powerOnAndFullReset
    cases (hkeyed p v s hr hkey hbit).symm.trans ht
    exact syncLonAll_tripped rfl

end Sys2Proof.Machine
end

section
/-! PROOFS. Focus, track and layer jumps, and the sleds: each row under its guard. -/

namespace Sys2Proof.Machine
open R

/-! ### Focus and jumps -/

/-- Settles O12: each event's guard follows from the hypotheses; a jump also finds its due event, and its landing or failure is the one
the hypotheses name. -/
theorem focusAndJumps : Obligations.FocusAndJumps := by
  unfold Obligations.FocusAndJumps
  refine ⟨?acquire, ?settled, ?settledJump, ?failed, ?capture, ?jump, ?crossed, ?landedTrid, ?layer, ?layerLanded, ?layerFailed⟩
  case acquire =>
    intro h s hup heff hphase hlaser hlp hsweep
    show execFocusAcquisition h s = _
    exact doIf_true _ (by simp [hup, heff, hphase, hlaser, hlp, hsweep])
  case settled =>
    intro h s hup hn hpart
    show execFocusSettled h s = _
    exact doIf_true _ (by simp [hup, hn, hpart])
  case settledJump =>
    intro h s hup hn hpart hrun hsa
    show execFocusSettled h s = _
    exact doIf_true _ (by simp [hup, hn, hpart, hrun, hsa])
  case failed =>
    intro h s hup hphase hfails
    show execFocusAttemptFailed h s = _
    exact doIf_true _ (by simp [hup, hphase, hfails])
  case capture =>
    intro h land s hup hpart htracking hcross hgap hland
    show execTrackCapture h land s = _
    exact doIf_true _ (by rw [hup, hpart, htracking, hcross, hgap, hland]; simp)
  case jump =>
    intro h k s r0 t hdue hup hmay hmin hmax
    show execTrackJump h k s = _
    simp only [execTrackJump, hdue]
    exact doIf_true _ (by rw [hup, hmay, decide_eq_true hmin, decide_eq_true hmax]; rfl)
  case crossed =>
    intro h s hup hpart htracking
    show execTrackJumpDone h none s = _
    refine (doIf_true _ (by simp [hup, hpart])).trans (congrArg _ ?_)
    exact if_pos (by rw [htracking]; rfl)
  case landedTrid =>
    intro h g s hup hpart htracking
    show execTrackJumpDone h (some g) s = _
    exact (doIf_true _ (by simp [hup, hpart])).trans (congrArg _ (if_pos htracking))
  case layer =>
    intro h l g s e t hdue hup hmay hside hother
    show execLayerJump h l g s = _
    simp only [execLayerJump, hdue]
    exact doIf_true _ (by rw [hup, hmay]; simp [hside, hother])
  case layerLanded =>
    intro h us s hup hjumping hlanded
    show execLayerJumpDone h us s = _
    exact (doIf_true _ (Bool.and_eq_true_iff.mpr ⟨hup, hjumping⟩)).trans (congrArg _ (if_pos hlanded))
  case layerFailed =>
    intro h us s hup hjumping hmissed hpassed hpart
    show execLayerJumpDone h us s = _
    refine (doIf_true _ (Bool.and_eq_true_iff.mpr ⟨hup, hjumping⟩)).trans (congrArg _ ?_)
    exact (if_neg (by simp [hmissed])).trans (if_pos (by simp [hpassed, hpart]))

/-! ### The sleds -/

/-- Settles O14: each event's guard follows from the hypotheses, and the write of SLD_HSEEK reaches its register; a class D seek finds its
due event or a sled in motion of class S, and a class S seek what Table 9.1 lets it start from. -/
theorem sledCommands : Obligations.SledCommands := by
  unfold Obligations.SledCommands
  refine ⟨?step, ?seekD, ?refusedD, ?seekS, ?host, ?ended, ?follow, ?search⟩
  case step =>
    intro h s happ hmoving
    show execSledStep h s = _
    exact doIf_true _ (Bool.and_eq_true_iff.mpr ⟨happ, hmoving⟩)
  case seekD =>
    intro h g s t e hup hen hdue hstill
    show execClassDSeek h g s = _
    refine (doIf_true _ (Bool.and_eq_true_iff.mpr ⟨hup, hen⟩)).trans (congrArg _ ?_)
    simp only [hdue, hstill, Option.map_some, Option.getD_some, Option.isNone_some, Bool.false_eq_true, if_false]
  case refusedD =>
    intro h g s hup hen hnone hmoving hclass
    show execClassDSeek h g s = _
    refine (doIf_true _ (Bool.and_eq_true_iff.mpr ⟨hup, hen⟩)).trans (congrArg _ ?_)
    simp only [hnone, hmoving, hclass, Option.map_none, Option.getD_none, if_true]
  case seekS =>
    intro h k s t happ hpresent hen hstart
    show execClassSSeek h k s = _
    have hentry : (if s.applied && s.present h && s.flag (SLD_STAT_EN h) then startable h k s else none) = some t :=
      (if_pos (by rw [happ, hpresent, hen]; rfl)).trans hstart
    unfold execClassSSeek
    rewrite [hentry]
    rfl
  case host => exact fun p h v s hr => show execSldHseek p h v s = _ from vendorWrite_reaches hr _ _
  case ended =>
    intro h s happ hstill hended
    show execSeekComplete h s = _
    exact doIf_true _ (by simp [happ, hstill, hended])
  case follow =>
    intro h s happ hpresent hsvc hstill hwedges hgap hphase
    show execSledFollowStep h s = _
    exact doIf_true _ (by rw [happ, hpresent, hsvc, hstill, hgap, hphase, decide_eq_true hwedges]; rfl)
  case search => exact fun h s hdue => show execSearchTimeout h s = _ from doIf_true _ hdue

end Sys2Proof.Machine
end

section
/-! PROOFS. Stripes from opening to commit or void, and the commands of zones with the range locks and map pages they wait for: each row
under its guard. -/

namespace Sys2Proof.Machine
open R

/-! ### Stripe transactions -/

/-- Settles O19: the stripe or namespace a row names is found, and the guards follow from the hypotheses. -/
theorem stripeTransactions : Obligations.StripeTransactions := by
  unfold Obligations.StripeTransactions
  refine ⟨?system, ?opens, ?gather, ?written, ?verified, ?commit, ?voided⟩
  case system =>
    intro zone us s hmay hroom
    show execStripeOpen sysNs zone us s = _
    refine (if_pos (beq_self_eq_true sysNs)).trans (doIf_true _ ?_)
    exact Bool.and_eq_true_iff.mpr ⟨hmay, decide_eq_true hroom⟩
  case opens =>
    intro nsid zone us s n huser hns hmay hzone hroom
    show execStripeOpen nsid zone us s = _
    refine (if_neg (by simpa using huser)).trans ?_
    simp only [hns]
    exact doIf_true _ (by rw [hmay, hzone, decide_eq_true hroom]; rfl)
  case gather => exact fun nsid s hon => show execGatherTimeout nsid s = _ from doIf_true _ hon
  case written =>
    intro stripe s t hfind hon hst hkept hmems
    show execStripeWritten stripe s = _
    simp only [execStripeWritten, hfind]
    exact doIf_true _ (by rw [hon, hst, hkept, hmems]; rfl)
  case verified =>
    intro stripe s t hfind hon hst hmems
    show execStripeVerified stripe s = _
    simp only [execStripeVerified, hfind]
    exact doIf_true _ (by rw [hon, hst, hmems]; rfl)
  case commit =>
    intro stripe s t hfind hon hst hfirst hdurable
    show execStripeCommit stripe s = _
    simp only [execStripeCommit, hfind]
    exact doIf_true _ (by rw [hon, hst, hfirst, hdurable]; rfl)
  case voided =>
    intro stripe s t hfind hon hvoiding
    show execStripeVoid stripe s = _
    simp only [execStripeVoid, hfind]
    exact doIf_true _ (Bool.and_eq_true_iff.mpr ⟨hon, hvoiding⟩)

/-! ### I/O commands that run at their fetch -/

/-- A command of an I/O queue is not dropped as one of the admin queue. -/
theorem onIoQueue_ne_zero {c : IoCmd} (hq : c.qid ≠ 0) (s : State) (k : Res) : onIoQueue c s k = k :=
  if_neg (by simpa using hq)

/-- `ioFetch_runs` where the acceptance is known to give the entry `x` and the state `u`. -/
theorem ioFetch_runs_accepted {c x : HCmd} {refusal : State → Option (Nat × Nat × Bool)} {accept : HCmd → State → HCmd × State}
    {s t u : State} (hl : (s.hst.cmds.filter fun d => d.locked).length < 4096) (hf : fetch c s = some t) (hr : refusal t = none)
    (ha : accept { c with seq := s.hst.fetchSeq } (patrolYield t) = (x, u))
    (hfree : (lockIo { x with locked := true } u).conflicted { x with locked := true } = false ∧
      (lockIo { x with locked := true } u).pagesWait { x with locked := true } = false) :
    ioFetch c refusal accept s = .next (runIo { x with locked := true } (lockIo { x with locked := true } u)) := by
  have h := ioFetch_runs (accept := accept) hl hf hr
  rw [ha] at h
  exact h hfree.1 hfree.2

/-! ### Zone Management Send -/

/-- The entry `h` of a Zone Management Send once it is accepted: the zones it runs on, and their map units as its range. -/
def zoneSendEntry (n : Ns) (act : Nat) (all : Bool) (h : HCmd) (y : State) : HCmd :=
  { h with
    data := if all then (List.range n.zones.length).filter (fun j => zoneSelect act (y.zoneSt n.nsid j).st) else [h.slba / y.zoneLbas n]
    lo := if all then 0 else h.slba / y.zoneLbas n * y.zoneUnits
    hi := if all then n.zones.length * y.zoneUnits else (h.slba / y.zoneLbas n + 1) * y.zoneUnits
    modify := true }

/-- A Zone Management Send that selects all zones or names one by its first block, and that nothing holds up, runs at once. -/
theorem zoneSend_runs {c : IoCmd} {act : Nat} {all : Bool} {s t : State} {n : Ns} (hq : c.qid ≠ 0)
    (hl : (s.hst.cmds.filter fun d => d.locked).length < 4096)
    (hf : fetch { ioCmd c 0x79 with arg := act, nlb := 0 } s = some t)
    (hr : t.ioRefusal { ioCmd c 0x79 with arg := act, nlb := 0 } (if all then 0 else 1) = none)
    (hns : t.nsOf c.nsid.toNat = some n) (hfirst : all = true ∨ c.slba.toNat % t.zoneLbas n = 0)
    (hys : (patrolYield t).nsOf c.nsid.toNat = some n) {x : HCmd}
    (hx : x = zoneSendEntry n act all { { ioCmd c 0x79 with arg := act, nlb := 0 } with seq := s.hst.fetchSeq } (patrolYield t))
    (hfree : (lockIo { x with locked := true } (patrolYield t)).conflicted { x with locked := true } = false ∧
      (lockIo { x with locked := true } (patrolYield t)).pagesWait { x with locked := true } = false) :
    zoneSend c act all s = .next (runIo { x with locked := true } (lockIo { x with locked := true } (patrolYield t))) := by
  unfold zoneSend
  rw [onIoQueue_ne_zero hq]
  refine ioFetch_runs_accepted hl hf ?refusal ?accept hfree
  case refusal =>
    have hnamed : (!all && (ioCmd c 0x79).slba % t.zoneLbas n != 0) = false := by
      obtain rfl | hfirst := hfirst
      · rfl
      · simp [ioCmd, hfirst]
    dsimp only
    rw [hr, show t.nsOf (ioCmd c 0x79).nsid = some n from hns]
    exact if_neg (by rw [hnamed]; decide)
  case accept =>
    dsimp only
    rw [show (patrolYield t).nsOf (ioCmd c 0x79).nsid = some n from hys]
    rw [hx]
    cases all <;> rfl

/-! ### Zone commands -/

/-- Settles O29: each zone command is fetched from an I/O queue, its refusals do not apply, and it runs with the entry of its acceptance;
the events find their guards met. -/
theorem zoneCommands : Obligations.ZoneCommands := by
  unfold Obligations.ZoneCommands
  refine ⟨?append, ?opened, ?closed, ?finished, ?reset, ?report, ?release, ?page⟩
  case append =>
    intro c data ls s t n hq hl hf hr hns hfirst hsize hwrite hys hfree
    show execZoneAppend c data ls s = _
    refine (onIoQueue_ne_zero hq s _).trans (ioFetch_runs_accepted hl hf ?refusal ?accept hfree)
    case refusal =>
      have hbad : ((ioCmd c 0x7D).slba % t.zoneLbas n != 0 || decide (mdtsBytes < (ioCmd c 0x7D).nlb * n.lba)) = false := by
        simp [ioCmd, hfirst, Nat.not_lt.mpr hsize]
      dsimp only
      rw [hr, show t.nsOf (ioCmd c 0x7D).nsid = some n from hns]
      exact (if_neg (by rw [hbad]; decide)).trans hwrite
    case accept =>
      dsimp only
      rw [show (patrolYield t).nsOf (ioCmd c 0x7D).nsid = some n from hys]
  case opened | closed | finished | reset =>
    intro c all s t n hq hl hf hr hns hfirst hys hfree
    exact zoneSend_runs hq hl hf hr hns hfirst hys rfl hfree
  case report =>
    intro c opt len s t n hq hf hr hns
    show execReportZones c opt len s = _
    refine (onIoQueue_ne_zero hq s _).trans ?_
    dsimp only
    rw [hf]
    dsimp only
    rw [hr, show t.nsOf (ioCmd c 0x7A).nsid = some n from hns]
    rfl
  case release => exact fun s hon => show execRangeLockRelease s = _ from doIf_true _ hon
  case page =>
    intro nsid page us s hon hleft hgot
    show execMapPageLoaded nsid page us s = _
    unfold execMapPageLoaded
    exact doIf_true _ (by rw [hon, hleft, hgot]; rfl)

end Sys2Proof.Machine
end

section
/-! PROOFS. Medium health: the ledger, confirming reads, failed layers, laps and refreshes run under their guards, and writes of HLT_CTRL
reach it. -/

namespace Sys2Proof.Machine
open R

/-! ### Refreshes -/

/-- The guard of a refresh: the stripe is committed, and no transaction and no rebuild of it is under way (R355, R356). -/
theorem refresh_guard {s : State} {num : Nat} (hon : s.inLife [MOUNTED] = true) (hcommitted : s.committed num = true)
    (hopen : (s.str.stripes.any fun t => t.num == num) = false) (hrebuild : (s.str.rebuild.any fun r => r.stripe == num) = false) :
    (s.inLife [MOUNTED] && s.committed num && !(s.str.stripes.any fun t => t.num == num)
      && !(s.str.rebuild.any fun r => r.stripe == num)) = true := by
  rw [hon, hcommitted, hopen, hrebuild]
  rfl

/-! ### Health commands -/

/-- Settles O21: the events find their guards met, a refresh its stripe at the head of the queue, and the custodian's writes reach
HLT_CTRL. -/
theorem healthCommands : Obligations.HealthCommands := by
  unfold Obligations.HealthCommands
  refine ⟨?ledger, ?confirm, ?layer, ?lap, ?wanted, ?rewrite, ?restart, ?pause, ?idle⟩
  case ledger =>
    intro l s hlife hchanged
    show execLedgerTimer l s = _
    exact doIf_true _ (Bool.and_eq_true_iff.mpr ⟨hlife, hchanged⟩)
  case confirm =>
    intro pba cwix s hlife hconfirmed
    show execReadConfirm pba cwix s = _
    unfold execReadConfirm
    exact doIf_true _ (Bool.and_eq_true_iff.mpr ⟨hlife, hconfirmed⟩)
  case layer =>
    intro l s hlife hnew hbad
    show execLayerFailed l s = _
    exact doIf_true _ (by rw [hlife, hnew, hbad]; rfl)
  case lap => exact fun sec s hover => show execPatrolLapEnd sec s = _ from doIf_true _ hover
  case wanted =>
    intro s e l hqueue hon hcommitted hopen hrebuild hunread hunasked
    show execRefresh s = _
    simp only [execRefresh, hqueue]
    refine (doIf_true _ (refresh_guard hon hcommitted hopen hrebuild)).trans ?_
    simp only [hunread, hunasked, Bool.false_eq_true, if_false]
  case rewrite =>
    intro s e l d hqueue hon hcommitted hopen hrebuild hread hdirty hwseq hroom
    have hwait : (decide (s.str.wres ≤ s.str.wseq) || decide (s.get STR_CFG_MAXOPEN ≤ s.str.stripes.length)) = false := by
      simp [hwseq, hroom]
    show execRefresh s = _
    simp only [execRefresh, hqueue]
    refine (doIf_true _ (refresh_guard hon hcommitted hopen hrebuild)).trans ?_
    simp only [hread, hdirty, hwait, Bool.not_true, Bool.false_eq_true, if_false]
  case restart => exact fun p v s hr => show execHltCtrlRestart p v s = _ from vendorWrite_reaches hr _ _
  case pause => exact fun p v s hr => show execHltCtrlPause p v s = _ from vendorWrite_reaches hr _ _
  case idle =>
    intro s hon hpatrol hrunning hquiet
    show execPatrolIdleStart s = _
    exact doIf_true _ (by rw [hon, hpatrol, hrunning, hquiet]; rfl)

end Sys2Proof.Machine
end

section
/-! PROOFS. Calibration: due layers, the write of CAL_CTL, the layers of a full calibration, and sweeps. -/

namespace Sys2Proof.Machine
open R

/-- Settles O22: the events find their guards met, the layer of a full calibration the request it stands first in, and the write of
CAL_CTL reaches its register. -/
theorem calibrationCommands : Obligations.CalibrationCommands := by
  unfold Obligations.CalibrationCommands
  refine ⟨?due, ?request, ?layer, ?sweep⟩
  case due =>
    intro h l s hlife hpresent hsvc hside hnew
    show execCalDue h l s = _
    unfold execCalDue
    exact doIf_true _ (by rw [hlife, hpresent, hsvc, hside, hnew, beq_self_eq_true]; rfl)
  case request => exact fun p v s hr => show execCalCtl p v s = _ from vendorWrite_reaches hr _ _
  case layer =>
    intro h l s r hreq hlife hfirst hended
    show execFullCalLayerDone h l s = _
    simp only [execFullCalLayerDone, hreq]
    exact doIf_true _ (by rw [hlife, hfirst, hended, beq_self_eq_true]; rfl)
  case sweep =>
    intro h l r s hup hpresent hsvc hlayer hactive hrow htried
    show execCalSweepDone h l r s = _
    unfold execCalSweepDone
    refine doIf_true _ ?_
    dsimp only at hup hactive htried
    rw [hup, hpresent, hsvc, hlayer, hactive, hrow, htried, beq_self_eq_true]
    rfl

end Sys2Proof.Machine
end

section
/-! PROOFS. Vendor writes from a port without custody, and what the counts of discards read as (R24, R402). -/

namespace Sys2Proof.Machine
open R

/-- A discard counts, up to 255, records the offset and the port, and changes no other field. -/
theorem custodyDiscard_fields (p : Port) (off : Nat) (s : State) :
    (custodyDiscard p off s).get HST_CUST_DISCARDS = min (s.get HST_CUST_DISCARDS + 1) 255 ∧
      (custodyDiscard p off s).get HST_DISCADDR_PORT = p.val ∧ (custodyDiscard p off s).get HST_DISCADDR_OFFSET = off % 2 ^ 25 ∧
      s.sameBut (custodyDiscard p off s) [HST_CUST_DISCARDS, HST_DISCADDR_PORT, HST_DISCADDR_OFFSET] := by
  have hp : p.val % 2 = p.val := Nat.mod_eq_of_lt p.isLt
  refine ⟨?count, ?port, get_put_self _ _ _, ?frame⟩
  case count =>
    refine (get_put_ne _ _ _ _ (by decide)).trans <| (get_put_ne _ _ _ _ (by decide)).trans <| (get_put_self _ _ _).trans ?_
    exact Nat.mod_eq_of_lt (Nat.lt_succ_of_le (Nat.min_le_right _ _))
  case port => exact (get_put_ne _ _ _ _ (by decide)).trans <| (get_put_self _ _ _).trans hp
  case frame => exact sameBut_trans (sameBut_trans (sameBut_put _ _ _) (sameBut_put _ _ _)) (sameBut_put _ _ _)

/-- A write of a vendor register from the port that does not hold custody is discarded, whatever the register. -/
theorem vendorWrite_discards {s : State} {p : Nat} (hp : s.notCustodian p = true) (off : Nat) (b : Bool) (k : State → State) :
    vendorWrite p off b k s = .next (custodyDiscard p off s) := by
  unfold State.notCustodian at hp
  simp only [Bool.and_eq_true, Bool.or_eq_true, bne_iff_ne, beq_iff_eq] at hp
  obtain ⟨⟨hon, hserved⟩, hmgmt⟩ := hp
  exact vendorWrite_other off b k hon hserved hmgmt

/-- Every row that writes a vendor register is a discard when it comes from the port without custody. -/
theorem exec_vendorRow_discards {c : Instr} {p : Port} {off : Nat} {s : State} (hc : vendorRow c = some (p, off))
    (hp : s.notCustodian p = true) : exec c s = .next (custodyDiscard p off s) := by
  unfold vendorRow at hc
  split at hc
  -- the alarm's write
  case h_27 v =>
    cases hc
    show execAngAlarmArm p v s = _
    exact vendorWrite_discards hp _ _ _
  -- the write of any register, at the offsets that `vendorRow` asks for
  case h_48 v whole out recent =>
    split at hc
    next h =>
      obtain ⟨hwhole, halign, hlow, hhigh, hnotUnlock⟩ := h
      cases hc
      show execRegisterWrite p off v whole out recent s = _
      unfold execRegisterWrite
      rw [if_pos (by simp [hwhole, halign, hlow, hhigh]), if_neg (by simpa using hnotUnlock)]
      exact vendorWrite_discards hp _ _ _
    next => exact nomatch hc
  -- any other row
  case h_49 => exact nomatch hc
  all_goals
    cases hc
    exact vendorWrite_discards hp _ _ _

/-- Clause 1 of O50 holds in every state: a discarded write counts and records, and changes nothing else. -/
theorem exec_vendorRow_discarded {c : Instr} {p : Port} {off : Nat} {s : State} (hc : vendorRow c = some (p, off))
    (hp : s.notCustodian p = true) :
    ∃ t, exec c s = .next t ∧ t.get HST_CUST_DISCARDS = min (s.get HST_CUST_DISCARDS + 1) 255 ∧ t.get HST_DISCADDR_PORT = p.val ∧
      t.get HST_DISCADDR_OFFSET = off % 2 ^ 25 ∧ s.sameBut t [HST_CUST_DISCARDS, HST_DISCADDR_PORT, HST_DISCADDR_OFFSET] :=
  ⟨_, exec_vendorRow_discards hc hp, custodyDiscard_fields p off s⟩

/-- A DBG_UNLOCK that custody refuses sets its RESULT 6 before the discard. -/
theorem dbgRefused_notCustodian {s : State} {p : Nat} (hp : s.notCustodian p = true) : dbgRefused p s = s.put DBG_STAT_RESULT 6 := by
  unfold State.notCustodian at hp
  simp only [Bool.and_eq_true] at hp
  obtain ⟨⟨hon, -⟩, hmgmt⟩ := hp
  exact if_pos (by rw [hon, hmgmt]; rfl)

/-- RESULT is no field that the right to write looks at. -/
theorem notCustodian_putResult (s : State) (p v : Nat) : (s.put DBG_STAT_RESULT v).notCustodian p = s.notCustodian p := by
  have hlife : (s.put DBG_STAT_RESULT v).life = s.life := get_put_ne _ _ _ _ (by decide)
  have hmgmt : (s.put DBG_STAT_RESULT v).get HST_CUST_MGMT = s.get HST_CUST_MGMT := get_put_ne _ _ _ _ (by decide)
  unfold State.notCustodian State.on State.mgmt
  rw [hlife, hmgmt]
  rfl

/-- Clause 2 of O50 holds in every state: a discarded DBG_UNLOCK sets its RESULT 6 besides. -/
theorem exec_dbgUnlock_discarded {p : Port} {s : State} (hp : s.notCustodian p = true) (v : Word) (recent : Bool) :
    ∃ t, exec (.dbgUnlock p v recent) s = .next t ∧ t.get HST_CUST_DISCARDS = min (s.get HST_CUST_DISCARDS + 1) 255 ∧
      t.get HST_DISCADDR_PORT = p.val ∧ t.get HST_DISCADDR_OFFSET = DBG_UNLOCK_PW.off ∧ t.get DBG_STAT_RESULT = 6 ∧
      s.sameBut t [HST_CUST_DISCARDS, HST_DISCADDR_PORT, HST_DISCADDR_OFFSET, DBG_STAT_RESULT] := by
  obtain ⟨hcount, hport, hoff, hsame⟩ := custodyDiscard_fields p DBG_UNLOCK_PW.off (s.put DBG_STAT_RESULT 6)
  refine ⟨custodyDiscard p DBG_UNLOCK_PW.off (s.put DBG_STAT_RESULT 6), ?_, ?_, hport, hoff, ?_, ?_⟩
  · show execDbgUnlock p v recent s = _
    unfold execDbgUnlock
    rw [dbgRefused_notCustodian hp]
    exact vendorWrite_discards ((notCustodian_putResult s p 6).trans hp) _ _ _
  · rw [hcount, get_put_ne _ _ _ _ (by decide)]
  · exact (hsame.2 _ (by decide)).trans (get_put_self _ _ _)
  · exact sameBut_mono (sameBut_trans (sameBut_put s _ _) hsame) (by decide)

theorem fieldsAt_discaddr : fieldsAt HST_DISCADDR_PORT.off = [HST_DISCADDR_PORT, HST_DISCADDR_OFFSET] := by decide +kernel

theorem fieldsAt_cust : fieldsAt HST_CUST_DISCARDS.off = [HST_CUST_DISCARDS, HST_CUST_SWAP, HST_CUST_LOSER, HST_CUST_MGMT] := by
  decide +kernel

/-- A readable field of the host block reads as the register file holds it, in every state. -/
theorem readFld_host {f : Fld} (hblock : block f.off = 0x11) (hacc : (f.acc == .wo) = false) (s : State) : s.readFld f = s.get f := by
  have hmirror : s.mirror f = none := by
    unfold State.mirror
    rw [hblock]
    rfl
  have hang : (s.life == BARE && block f.off == 0x02) = false := by rw [hblock]; exact Bool.and_false _
  simp only [State.readFld, hmirror, hang, hacc, Bool.false_eq_true, if_false]

/-- A register of the host block reads as its fields, each within its width. -/
theorem regRead_host {off : Nat} (hblock : block off = 0x11) (s : State) :
    s.regRead off = ((fieldsAt off).map fun f => s.readFld f % 2 ^ f.width * 2 ^ f.lsb).sum := by
  have hrange : 0x1100000 ≤ off ∧ off < 0x1200000 := by unfold block at hblock; omega
  have hwindow : ¬ (0x401000 ≤ off ∧ off < 0x403000) := by omega
  have hcore : off ≠ PWR_ICORE_MA.off := fun h => absurd (h ▸ hrange.2) (by decide)
  have hminutes : minutesFree off = false := by
    have hpast : ¬ off < 0x1002000 := by omega
    simp [minutesFree, hpast]
  simp [State.regRead, hwindow, hcore, hminutes]

/-- HST_DISCADDR reads as its two fields, each within its width. -/
theorem regRead_discaddr (s : State) :
    s.regRead HST_DISCADDR_PORT.off = s.get HST_DISCADDR_PORT % 2 * 2 ^ 31 + s.get HST_DISCADDR_OFFSET % 2 ^ 25 := by
  rw [regRead_host (by decide) s, fieldsAt_discaddr]
  simp only [List.map_cons, List.map_nil, List.sum_cons, List.sum_nil, readFld_host (f := HST_DISCADDR_PORT) (by decide) (by decide),
    readFld_host (f := HST_DISCADDR_OFFSET) (by decide) (by decide)]
  show s.get HST_DISCADDR_PORT % 2 ^ 1 * 2 ^ 31 + (s.get HST_DISCADDR_OFFSET % 2 ^ 25 * 2 ^ 0 + 0) = _
  omega

/-- DISCARDS reads as the top byte of HST_CUST, within its width. -/
theorem regRead_cust_discards (s : State) : s.regRead HST_CUST_DISCARDS.off / 2 ^ 24 = s.get HST_CUST_DISCARDS % 2 ^ 8 := by
  rw [regRead_host (by decide) s, fieldsAt_cust]
  simp only [List.map_cons, List.map_nil, List.sum_cons, List.sum_nil, readFld_host (f := HST_CUST_DISCARDS) (by decide) (by decide)]
  show (s.get HST_CUST_DISCARDS % 2 ^ 8 * 2 ^ 24 + (s.readFld HST_CUST_SWAP % 2 ^ 1 * 2 ^ 4 + (s.readFld HST_CUST_LOSER % 2 ^ 2 * 2 ^ 2 +
    (s.readFld HST_CUST_MGMT % 2 ^ 2 * 2 ^ 0 + 0)))) / 2 ^ 24 = _
  omega

/-- Clause 3 of O50 holds where the register file keeps the three fields within their widths. -/
theorem discardFields_read {s : State} (hcount : s.get HST_CUST_DISCARDS < 2 ^ 8) (hport : s.get HST_DISCADDR_PORT < 2)
    (hoff : s.get HST_DISCADDR_OFFSET < 2 ^ 25) :
    s.regRead HST_DISCADDR_PORT.off = s.get HST_DISCADDR_PORT * 2 ^ 31 + s.get HST_DISCADDR_OFFSET ∧
      s.regRead HST_CUST_DISCARDS.off / 2 ^ 24 = s.get HST_CUST_DISCARDS := by
  rw [regRead_discaddr, regRead_cust_discards, Nat.mod_eq_of_lt hcount, Nat.mod_eq_of_lt hport, Nat.mod_eq_of_lt hoff]
  exact ⟨rfl, rfl⟩

/-- The reset state but for a DISCARDS of 256 in the register file, which its 8 bits cannot hold and no `State.put` stores. -/
def discardsTooWide : State := { State.reset with rf := [(HST_CUST_DISCARDS.key, 256)] }

/-- Refutes O50: its last clause speaks of every register file, those among them that hold more than a field's width; a read returns
the field's bits alone. The rest holds: the clauses of the writes in every state (`exec_vendorRow_discarded`,
`exec_dbgUnlock_discarded`), the last where the fields keep within their widths (`discardFields_read`). -/
theorem not_nonCustodianWritesAreDiscarded : ¬ Obligations.NonCustodianWritesAreDiscarded := by
  unfold Obligations.NonCustodianWritesAreDiscarded
  rintro ⟨-, -, hread⟩
  have hcount := (hread discardsTooWide).2
  rw [regRead_cust_discards] at hcount
  exact absurd hcount (by decide)

end Sys2Proof.Machine
end

section
/-! PROOFS. Admin commands that execute at their fetch: queues, features and events, pages, queries, Unmount (R380, R382 to R385). -/

namespace Sys2Proof.Machine
open R

/-- An immediate command that is fetched executes. -/
theorem immediate_fetched {p cid op : Nat} {s t : State} (hf : fetch (adm p cid op) s = some t) (k : State → State) :
    immediate p cid op k s = .next (k t) := by
  unfold immediate
  rw [hf]

/-- A command marked M of the management custodian goes on. -/
theorem needMgmt_custodian {p : Nat} {s : State} (hm : s.mgmt = some p) (cid : Nat) (k : State → State) :
    needMgmt p cid k s = k s :=
  if_pos (by rw [hm, beq_self_eq_true])

/-- A command marked M of another port completes with the custody status. -/
theorem needMgmt_other {p : Nat} {s : State} (hm : s.mgmt ≠ some p) (cid : Nat) (k : State → State) :
    needMgmt p cid k s = endAdm p cid scCustody 0 s :=
  if_neg (by simpa using hm)

/-- An opcode that its queue's table lacks completes, with Not Ready on an I/O queue outside MOUNTED (R382, R391). -/
theorem execUnsupportedOpcode_fetched {p : Port} {qid cid : BitVec 16} {op : BitVec 8} {s t : State}
    (hop : (if qid.toNat == 0 then adminOps else ioOps).contains op.toNat = false)
    (hf : fetch { port := p, qid := qid.toNat, cid := cid.toNat, op := op.toNat } s = some t) :
    execUnsupportedOpcode p qid cid op s =
      .next (completeCmd p qid.toNat cid.toNat (if qid.toNat != 0 && t.life != MOUNTED then scNotReady else scInvalidOpcode) 0 t) := by
  unfold execUnsupportedOpcode
  dsimp only
  rw [hop, hf]
  rfl

/-- Settles O23: a doorbell finds its controller ready, and each command is fetched and executes. -/
theorem queueAdminCommands : Obligations.QueueAdminCommands := by
  unfold Obligations.QueueAdminCommands
  refine ⟨?doorbell, ?createCq, ?createSq, ?deleteCq, ?deleteSq, ?abort, ?setFeatures, ?getFeatures, ?event⟩
  case doorbell =>
    intro p qid tail s hon hrdy
    show execSqDoorbell p qid tail s = _
    exact doIf_true _ (Bool.and_eq_true_iff.mpr ⟨hon, hrdy⟩)
  case createCq => exact fun p cid qid size vec s t hf => show execCreateIoCq p cid qid size vec s = _ from immediate_fetched hf _
  case createSq =>
    exact fun p cid qid size cqid prio s t hf => show execCreateIoSq p cid qid size cqid prio s = _ from immediate_fetched hf _
  case deleteCq => exact fun p cid qid s t hf => show execDeleteIoCq p cid qid s = _ from immediate_fetched hf _
  case deleteSq => exact fun p cid qid s t hf => show execDeleteIoSq p cid qid s = _ from immediate_fetched hf _
  case abort => exact fun p cid sqid target s t hf => show execAbort p cid sqid target s = _ from immediate_fetched hf _
  case setFeatures =>
    exact fun p cid fid nsid val sv s t hf => show execSetFeatures p cid fid nsid val sv s = _ from immediate_fetched hf _
  case getFeatures =>
    exact fun p cid fid nsid sel val s t hf => show execGetFeatures p cid fid nsid sel val s = _ from immediate_fetched hf _
  case event => exact fun p cid s t hf => show execAsynchronousEventRequest p cid s = _ from immediate_fetched hf _

/-- Settles O24: each command is fetched and executes, Unmount as the custodian's; an unsupported opcode is in no table. -/
theorem adminDataCommands : Obligations.AdminDataCommands := by
  unfold Obligations.AdminDataCommands
  refine ⟨?identify, ?log, ?patrol, ?custody, ?unmount, ?adminOpcode, ?ioOpcode⟩
  case identify =>
    exact fun p cid cns csi nsid cntid s t hf => show execIdentify p cid cns csi nsid cntid s = _ from immediate_fetched hf _
  case log =>
    exact fun p cid lid nsid off len rae s t hf => show execGetLogPage p cid lid nsid off len rae s = _ from immediate_fetched hf _
  case patrol => exact fun p cid s t hf => show execPatrolQuery p cid s = _ from immediate_fetched hf _
  case custody => exact fun p cid nsid s t hf => show execCustodyQuery p cid nsid s = _ from immediate_fetched hf _
  case unmount =>
    intro p cid cdw10 s t hf hm
    show execUnmount p cid cdw10 s = _
    exact (immediate_fetched hf _).trans (congrArg Host.Outcome.next (needMgmt_custodian hm _ _))
  case adminOpcode =>
    intro p cid op s t hop hf
    exact execUnsupportedOpcode_fetched hop hf
  case ioOpcode =>
    intro p qid cid op s t hq hop hf
    have hio : (qid.toNat == 0) = false := by simpa [BitVec.toNat_eq] using hq
    refine (execUnsupportedOpcode_fetched (by rw [hio]; exact hop) hf).trans ?_
    by_cases hlife : t.life = MOUNTED <;> simp [hlife, bne, hio]

end Sys2Proof.Machine
end

section
/-! PROOFS. Long-running admin commands: one begins at its fetch or waits its turn; custody moves, and namespaces swap (R380, R399 to
R409). -/

namespace Sys2Proof.Machine
open R

/-- A long-running admin command begins at its fetch when none executes or waits. -/
theorem enqueueLong_begins {l : LongCmd} {s t : State} (hf : fetch (adm l.port l.cid l.kind) s = some t) (hfree : t.hst.long = none)
    (hnone : t.hst.longWait = []) : enqueueLong l s = .next (beginAdmin l t) := by
  unfold enqueueLong
  rw [hf]
  dsimp only
  rw [hfree, hnone]
  rfl

/-- It goes to the end of the waiting commands while one executes or waits. -/
theorem enqueueLong_waits {l : LongCmd} {s t : State} (hf : fetch (adm l.port l.cid l.kind) s = some t)
    (hbusy : t.hst.long ≠ none ∨ t.hst.longWait ≠ []) :
    enqueueLong l s = .next { t with hst := { t.hst with longWait := t.hst.longWait ++ [l] } } := by
  have hturn : (t.hst.long.isNone && t.hst.longWait.isEmpty) = false := by
    obtain hbusy | hbusy := hbusy <;> simp [hbusy]
  unfold enqueueLong
  rw [hf]
  dsimp only
  rw [hturn]
  rfl

/-- The state in which the command `l` executes. -/
def State.begun (s : State) (l : LongCmd) : State := { s with hst := { s.hst with long := some l } }

/-- What the custodian's command does when it begins, marked M or not. -/
theorem beginAdmin_custodian {l : LongCmd} {s : State} (hm : s.mgmt = some l.port) : beginAdmin l s = runAdmin l (s.begun l) :=
  (congrArg (fun u => if markedM.contains l.kind then u else runAdmin l (s.begun l))
    (needMgmt_custodian (s := s.begun l) hm l.cid (runAdmin l))).trans (ite_self _)

/-- What a command that is not marked M does when it begins. -/
theorem beginAdmin_unmarked {l : LongCmd} (hk : markedM.contains l.kind = false) (s : State) :
    beginAdmin l s = runAdmin l (s.begun l) := if_neg (by rw [hk]; decide)

/-- A command marked M that begins without custody completes with the custody status. -/
theorem beginAdmin_denied {l : LongCmd} {s : State} (hk : markedM.contains l.kind = true) (hm : s.mgmt ≠ some l.port) :
    beginAdmin l s = endAdm l.port l.cid scCustody 0 (s.begun l) :=
  (if_pos hk).trans (needMgmt_other (s := s.begun l) hm _ _)

/-- The custodian's command does its work at its fetch when none executes or waits. -/
theorem enqueueLong_custodian {l : LongCmd} {s t : State} (hf : fetch (adm l.port l.cid l.kind) s = some t) (hfree : t.hst.long = none)
    (hnone : t.hst.longWait = []) (hm : t.mgmt = some l.port) : enqueueLong l s = .next (runAdmin l (t.begun l)) := by
  rw [enqueueLong_begins hf hfree hnone, beginAdmin_custodian hm]

/-- A waiting Namespace Create keeps its operands. -/
theorem nsCreateOf_args (n : NsCreate) : nsCreateOf (nsCreateArgs n) = n := by
  obtain ⟨csi, nsze, ncap, flbas, dps, nmic, enc, rest⟩ := n
  cases enc <;> cases rest <;> simp [nsCreateOf, nsCreateArgs]

/-- Settles O25: each command begins at its fetch with its operands, the tick finds the Canvas applied, and the end of a swap finds the
swap it ends. -/
theorem namespaceAndCustodyCommands : Obligations.NamespaceAndCustodyCommands := by
  unfold Obligations.NamespaceAndCustodyCommands
  refine ⟨?create, ?delete, ?attach, ?request, ?arbitration, ?swapEnd, ?mount, ?calibrate, ?pause, ?resume, ?restart, ?mode⟩
  case create =>
    intro p cid n s t hf hfree hnone hm
    show execNamespaceCreate p cid n s = _
    refine (enqueueLong_custodian hf hfree hnone hm).trans (congrArg Host.Outcome.next ?_)
    show createNs _ _ (nsCreateOf (nsCreateArgs n)) _ = _
    rw [nsCreateOf_args]
    rfl
  case attach =>
    intro p cid nsid detach ctrls s t hf hfree hnone hm
    show execNamespaceAttachment p cid nsid detach ctrls s = _
    refine (enqueueLong_custodian hf hfree hnone hm).trans (congrArg Host.Outcome.next ?_)
    have hdetach : ((4 * detach.toNat + ctrls.toNat) / 4 != 0) = detach := by
      rw [show (4 * detach.toNat + ctrls.toNat) / 4 = detach.toNat by omega]
      cases detach <;> rfl
    have hctrls : (4 * detach.toNat + ctrls.toNat) % 4 = ctrls.toNat := by omega
    show attachNs _ _ _ ((4 * detach.toNat + ctrls.toNat) / 4 != 0) ((4 * detach.toNat + ctrls.toNat) % 4) _ = _
    rw [hdetach, hctrls]
    rfl
  case request =>
    intro p cid nsid target s t hf hfree hnone
    show execCustodyRequest p cid nsid target s = _
    refine (enqueueLong_begins hf hfree hnone).trans (congrArg Host.Outcome.next ?_)
    exact beginAdmin_unmarked rfl t
  case arbitration => exact fun s happ => show execCustodyArbitration s = _ from doIf_true _ happ
  case swapEnd =>
    intro nsid expired s w hswap hon hexp
    show execNamespaceSwapEnd nsid expired s = _
    simp only [execNamespaceSwapEnd, hswap]
    exact doIf_true _ (by rw [hon, hexp]; rfl)
  case delete =>
    exact fun p cid nsid s t hf hfree hnone hm => show execNamespaceDelete p cid nsid s = _ from enqueueLong_custodian hf hfree hnone hm
  case mount =>
    exact fun p cid cdw10 s t hf hfree hnone hm => show execMount p cid cdw10 s = _ from enqueueLong_custodian hf hfree hnone hm
  case calibrate =>
    exact fun p cid cdw10 s t hf hfree hnone hm => show execCalibrate p cid cdw10 s = _ from enqueueLong_custodian hf hfree hnone hm
  case mode =>
    exact fun p cid cdw10 s t hf hfree hnone hm => show execMode p cid cdw10 s = _ from enqueueLong_custodian hf hfree hnone hm
  case pause => exact fun p cid s t hf hfree hnone hm => show execPatrolPause p cid s = _ from enqueueLong_custodian hf hfree hnone hm
  case resume => exact fun p cid s t hf hfree hnone hm => show execPatrolResume p cid s = _ from enqueueLong_custodian hf hfree hnone hm
  case restart => exact fun p cid s t hf hfree hnone hm => show execPatrolRestart p cid s = _ from enqueueLong_custodian hf hfree hnone hm

/-- Settles O60: each command waits its turn, and one marked M that begins without custody is denied. -/
theorem longAdminCommandsWait : Obligations.LongAdminCommandsWait := by
  unfold Obligations.LongAdminCommandsWait
  refine ⟨?create, ?delete, ?attach, ?deliver, ?install, ?purge, ?receive, ?sanitize, ?mount, ?calibrate, ?pause, ?resume, ?restart,
    ?request, ?mode, fun l s hk hm => beginAdmin_denied hk hm⟩
  case create => exact fun p cid n s t hf hbusy => show execNamespaceCreate p cid n s = _ from enqueueLong_waits hf hbusy
  case delete => exact fun p cid nsid s t hf hbusy => show execNamespaceDelete p cid nsid s = _ from enqueueLong_waits hf hbusy
  case attach =>
    exact fun p cid nsid detach ctrls s t hf hbusy =>
      show execNamespaceAttachment p cid nsid detach ctrls s = _ from enqueueLong_waits hf hbusy
  case deliver => exact fun p cid payload s t hf hbusy => show execKeyDeliver p cid payload s = _ from enqueueLong_waits hf hbusy
  case install => exact fun p cid payload s t hf hbusy => show execKekInstall p cid payload s = _ from enqueueLong_waits hf hbusy
  case purge => exact fun p cid nsid s t hf hbusy => show execKeyPurge p cid nsid s = _ from enqueueLong_waits hf hbusy
  case receive =>
    exact fun p cid proto spsp s t hf hbusy => show execSecurityReceive p cid proto spsp s = _ from enqueueLong_waits hf hbusy
  case sanitize => exact fun p cid cdw10 s t hf hbusy => show execSanitize p cid cdw10 s = _ from enqueueLong_waits hf hbusy
  case mount => exact fun p cid cdw10 s t hf hbusy => show execMount p cid cdw10 s = _ from enqueueLong_waits hf hbusy
  case calibrate => exact fun p cid cdw10 s t hf hbusy => show execCalibrate p cid cdw10 s = _ from enqueueLong_waits hf hbusy
  case pause => exact fun p cid s t hf hbusy => show execPatrolPause p cid s = _ from enqueueLong_waits hf hbusy
  case resume => exact fun p cid s t hf hbusy => show execPatrolResume p cid s = _ from enqueueLong_waits hf hbusy
  case restart => exact fun p cid s t hf hbusy => show execPatrolRestart p cid s = _ from enqueueLong_waits hf hbusy
  case request =>
    exact fun p cid nsid target s t hf hbusy => show execCustodyRequest p cid nsid target s = _ from enqueueLong_waits hf hbusy
  case mode => exact fun p cid cdw10 s t hf hbusy => show execMode p cid cdw10 s = _ from enqueueLong_waits hf hbusy

end Sys2Proof.Machine
end

section
/-! PROOFS. I/O commands that run at their fetch (R391 to R396). -/

namespace Sys2Proof.Machine
open R

/-- A command over a plain range of blocks that nothing holds up runs at once. -/
theorem plainIo_runs {c : IoCmd} {op : Nat} {modify : Bool} {data : List Nat} {s t : State} {n : Ns} {x : HCmd} (hq : c.qid ≠ 0)
    (hl : (s.hst.cmds.filter fun d => d.locked).length < 4096) (hf : fetch (ioCmd c op) s = some t)
    (hr : t.ioRefusal (ioCmd c op) (c.nlb.toNat + 1) = none) (hns : (patrolYield t).nsOf c.nsid.toNat = some n)
    (hx : x = { ioCmd c op with
      seq := s.hst.fetchSeq, lo := (rangeOf n c.slba.toNat (c.nlb.toNat + 1)).1, hi := (rangeOf n c.slba.toNat (c.nlb.toNat + 1)).2
      modify, data })
    (hfree : (lockIo { x with locked := true } (patrolYield t)).conflicted { x with locked := true } = false ∧
      (lockIo { x with locked := true } (patrolYield t)).pagesWait { x with locked := true } = false) :
    plainIo c op modify data s = .next (runIo { x with locked := true } (lockIo { x with locked := true } (patrolYield t))) := by
  refine (onIoQueue_ne_zero hq s _).trans (ioFetch_runs_accepted hl hf hr ?accept hfree)
  dsimp only
  rw [show (patrolYield t).nsOf (ioCmd c op).nsid = some n from hns, hx]
  rfl

/-- Settles O28: each command is fetched from an I/O queue, its refusals do not apply, and it runs with the entry of its acceptance. -/
theorem ioCommands : Obligations.IoCommands := by
  unfold Obligations.IoCommands
  refine ⟨?flush, ?read, ?verify, ?write, ?zeroes, ?deallocate⟩
  case flush =>
    intro c s t hq hl hf hr hfree
    show execFlush c s = _
    exact (onIoQueue_ne_zero hq s _).trans (ioFetch_runs_accepted hl hf hr rfl hfree)
  case verify | zeroes =>
    intro c s t n hq hl hf hr hns hfree
    exact plainIo_runs hq hl hf hr hns rfl hfree
  case read =>
    intro c fua os s t n hq hl hf hr hns hfree
    show execRead c fua os s = _
    refine (onIoQueue_ne_zero hq s _).trans (ioFetch_runs_accepted hl hf hr ?readEntry hfree)
    dsimp only
    rw [show (patrolYield t).nsOf (ioCmd c 2).nsid = some n from hns]
  case write =>
    intro c data ls s t n hq hl hf hr hns hfree
    show execWrite c data ls s = _
    refine (onIoQueue_ne_zero hq s _).trans (ioFetch_runs_accepted hl hf hr ?writeEntry hfree)
    dsimp only
    rw [show (patrolYield t).nsOf (ioCmd c 1).nsid = some n from hns]
    rfl
  case deallocate =>
    intro c ad ranges s t n hq hl hf hr hns hfree
    show execDatasetManagement c ad ranges s = _
    refine (onIoQueue_ne_zero hq s _).trans (ioFetch_runs_accepted hl hf hr ?dsmEntry hfree)
    dsimp only
    rw [show (patrolYield t).nsOf (ioCmd c 9).nsid = some n from hns]

end Sys2Proof.Machine
end

section
/-! PROOFS. One step, and what every step keeps of buffer memory (R416, R417). -/

namespace Sys2Proof.Machine

theorem step_cons (c : Instr) (q : List Instr) (s : State) : step { s with pending := c :: q } = exec c { s with pending := q } := rfl

theorem step_idle {s : State} (h : s.pending = []) : step s = .next s := by
  unfold step
  rw [h]

/-- Settles O42: the step takes the queue apart by its front. -/
theorem stepRunsTheFrontCommand : Obligations.StepRunsTheFrontCommand := by
  unfold Obligations.StepRunsTheFrontCommand
  exact ⟨step_cons, fun _ => step_idle⟩

/-- Settles O44: an idle step changes nothing, and whatever command runs, its meaning keeps the canonical form (`exec_keepsTidy`). -/
theorem everyStepKeepsMemoryCanonical : Obligations.EveryStepKeepsMemoryCanonical := by
  unfold Obligations.EveryStepKeepsMemoryCanonical
  intro s t hs ht
  unfold step at ht
  split at ht
  next =>
    cases ht
    exact hs
  next c q _ =>
    obtain ⟨u, hu, htidy⟩ := exec_keepsTidy c { s with pending := q }
    cases hu.symm.trans ht
    exact htidy.mem hs

end Sys2Proof.Machine
end

section
/-! PROOFS. The Larder's ways, the thermal governor and the Cellar: each event under its guard, each write at its register. -/

namespace Sys2Proof.Machine
open R

/-! ### The Larder -/

/-- Settles O34: each event finds its guard met, the BIST the restore in progress, and the writes of LRD_CTL and LRD_WAYCTL reach
their registers. -/
theorem larderCommands : Obligations.LarderCommands := by
  unfold Obligations.LarderCommands
  refine ⟨?fault, ?errors, ?disable, ?enable, ?offline, ?restore, ?cleaned, ?bist, ?disabled⟩
  case fault =>
    intro w line dirty s happ hsvc
    show execLarderWayFault w line dirty s = _
    exact doIf_true _ (Bool.and_eq_true_iff.mpr ⟨happ, hsvc⟩)
  case errors =>
    intro w k n block s happ hsvc hseen hlimit
    show execLarderWayCeWindow w k n block s = _
    exact doIf_true _ (by simp [happ, hsvc, hseen, hlimit])
  case disable => exact fun p v s hr => show execLrdDisable p v s = _ from vendorWrite_reaches hr _ _
  case enable => exact fun p v s hr => show execLrdEnable p v s = _ from vendorWrite_reaches hr _ _
  case offline => exact fun p v s hr => show execLrdWayOffline p v s = _ from vendorWrite_reaches hr _ _
  case restore => exact fun p v s hr => show execLrdWayRestore p v s = _ from vendorWrite_reaches hr _ _
  case cleaned =>
    intro w s happ hcleaning
    show execLarderWayCleaned w s = _
    exact doIf_true _ (Bool.and_eq_true_iff.mpr ⟨happ, hcleaning⟩)
  case bist =>
    intro pass s w hact happ
    show execLrdWayBistDone pass s = _
    simp only [execLrdWayBistDone, hact]
    exact doIf_true _ happ
  case disabled =>
    intro s happ hstate
    show execLarderDisabled s = _
    exact doIf_true _ (by simp [happ, hstate])

/-! ### The thermal governor -/

/-- Settles O36: each event's guard follows from the hypotheses, and the write of THM_DEMAND reaches its register. -/
theorem thermalCommands : Obligations.ThermalCommands := by
  unfold Obligations.ThermalCommands
  refine ⟨?governor, ?demand, ?suspect, ?conversion, ?duty, ?band, ?trip⟩
  case governor =>
    intro s happ hrunning hdue hturn
    show execGovernorDemand s = _
    exact doIf_true _ (by rw [happ, hrunning, hdue, hturn]; rfl)
  case demand => exact fun p v s hr => show execThmDemand p v s = _ from vendorWrite_reaches hr _ _
  case suspect =>
    intro k code s happ hgov hclear hjudged hbad
    show execSensorSuspect k code s = _
    unfold execSensorSuspect
    refine doIf_true _ ?_
    rw [happ, hgov, hclear, decide_eq_true hjudged]
    simpa using hbad
  case conversion =>
    intro codes us s happ hconv hlen hhist
    show execDieConversionDone codes us s = _
    exact doIf_true _ (by rw [happ, hlen, hhist]; simpa using hconv)
  case duty =>
    intro s happ hrunning
    show execDutyUpdate s = _
    exact doIf_true _ (Bool.and_eq_true_iff.mpr ⟨happ, hrunning⟩)
  case band =>
    intro s happ htick hcrossed
    show execDieBandChange s = _
    exact doIf_true _ (by simp [happ, htick, hcrossed])
  case trip => exact fun s hon => show execThermalComparatorTrip s = _ from doIf_true _ hon

/-! ### The Cellar -/

/-- Settles O37: the writes of CEL_CMD and CEL_UNLOCK reach their registers, and the two events find their guards met. -/
theorem cellarCommands : Obligations.CellarCommands := by
  unfold Obligations.CellarCommands
  refine ⟨?read, ?program, ?erase, ?complete, ?request, ?unlock, ?lock, ?setpw, ?setprot⟩
  case read => exact fun p v s hr => show execCelRead p v s = _ from vendorWrite_reaches hr _ _
  case program => exact fun p v s hr => show execCelProgram p v s = _ from vendorWrite_reaches hr _ _
  case erase => exact fun p v s hr => show execCelErase p v s = _ from vendorWrite_reaches hr _ _
  case complete => exact fun ok s hserves => show execCellarOpComplete ok s = _ from doIf_true _ hserves
  case request =>
    intro ledger s hon hfew hidle hsupply
    show execCellarEraseRequest ledger s = _
    unfold execCellarEraseRequest
    exact doIf_true _ (by rw [hon, decide_eq_true hfew, hidle, hsupply]; rfl)
  case unlock => exact fun p v recent s hr => show execCelUnlock p v recent s = _ from vendorWrite_reaches hr _ _
  case lock => exact fun p v s hr => show execCelLock p v s = _ from vendorWrite_reaches hr _ _
  case setpw => exact fun p v s hr => show execCelSetpw p v s = _ from vendorWrite_reaches hr _ _
  case setprot => exact fun p v s hr => show execCelSetprot p v s = _ from vendorWrite_reaches hr _ _

end Sys2Proof.Machine
end

section
/-! PROOFS. The microcoded sequencers: a microword that is fetched and legal runs, and their registers (R437 to R439). -/

namespace Sys2Proof.Machine
open R

/-! ### Words that run -/

/-- A fetched word of an opcode that does not branch runs when its COND is 0. -/
theorem micro_runs {q op : Nat} {w : Microword} {s t : State} {a : Nat} (hf : fetchMicro q op w s = some (a, t))
    (ha : a < 2 ^ 14 + 256) (hcond : w.cond.val = 0) (k : Nat → State → State) : micro q op w k s = .next (k a t) := by
  unfold micro
  rw [hf]
  exact congrArg _ (if_neg (by simp [hcond]; omega))

/-- A fetched branch runs when its COND is assigned. -/
theorem micro_branches {q op : Nat} {w : Microword} {s t : State} {a : Nat} (hf : fetchMicro q op w s = some (a, t))
    (ha : a < 2 ^ 14 + 256) (hcond : w.cond.val < 6) (hop : branches op = true) (k : Nat → State → State) :
    micro q op w k s = .next (k a t) := by
  unfold micro
  rw [hf]
  exact congrArg _ (if_neg (by simp [hop]; omega))

/-- Settles O30: each word runs. -/
theorem sequencerArithmetic : Obligations.SequencerArithmetic := by
  unfold Obligations.SequencerArithmetic
  refine ⟨?nop, ?mov, ?add, ?sub, ?and, ?or, ?xor, ?shl, ?shr, ?cmp⟩
  case nop => exact fun q w s t a hf ha hc => show execNop q w s = _ from micro_runs hf ha hc _
  case mov => exact fun q w s t a hf ha hc => show execMov q w s = _ from micro_runs hf ha hc _
  case add => exact fun q w s t a hf ha hc => show execAdd q w s = _ from micro_runs hf ha hc _
  case sub => exact fun q w s t a hf ha hc => show execSub q w s = _ from micro_runs hf ha hc _
  case and => exact fun q w s t a hf ha hc => show execAnd q w s = _ from micro_runs hf ha hc _
  case or => exact fun q w s t a hf ha hc => show execOr q w s = _ from micro_runs hf ha hc _
  case xor => exact fun q w s t a hf ha hc => show execXor q w s = _ from micro_runs hf ha hc _
  case shl => exact fun q w s t a hf ha hc => show execShl q w s = _ from micro_runs hf ha hc _
  case shr => exact fun q w s t a hf ha hc => show execShr q w s = _ from micro_runs hf ha hc _
  case cmp => exact fun q w s t a hf ha hc => show execCmp q w s = _ from micro_runs hf ha hc _

/-- Settles O31: each word runs. -/
theorem sequencerAccessAndFlow : Obligations.SequencerAccessAndFlow := by
  unfold Obligations.SequencerAccessAndFlow
  refine ⟨?ld, ?st, ?deq, ?enq, ?waitq, ?waita, ?bar, ?call, ?ret, ?br, ?mchk⟩
  case ld => exact fun q w s t a hf ha hc => show execLd q w s = _ from micro_runs hf ha hc _
  case st => exact fun q w s t a hf ha hc => show execSt q w s = _ from micro_runs hf ha hc _
  case deq => exact fun q w s t a hf ha hc => show execDeq q w s = _ from micro_runs hf ha hc _
  case enq => exact fun q w s t a hf ha hc => show execEnq q w s = _ from micro_runs hf ha hc _
  case waitq => exact fun q w s t a hf ha hc => show execWaitq q w s = _ from micro_runs hf ha hc _
  case waita =>
    exact fun q w cls owner target len rank exempt s t a hf ha hc =>
      show execWaita q w cls owner target len rank exempt s = _ from micro_runs hf ha hc _
  case bar => exact fun q w s t a hf ha hc => show execBar q w s = _ from micro_runs hf ha hc _
  case call => exact fun q w s t a hf ha hc => show execCall q w s = _ from micro_branches hf ha hc rfl _
  case ret => exact fun q w s t a hf ha hc => show execRet q w s = _ from micro_branches hf ha hc rfl _
  case br => exact fun q w s t a hf ha hc => show execBr q w s = _ from micro_branches hf ha hc rfl _
  case mchk => exact fun q w s t a hf ha hc => show execMchk q w s = _ from micro_runs hf ha hc _

/-! ### Registers -/

theorem reg_of_zero {i : Nat} (h : i % 32 = 0) (x : SeqSt) : x.reg i = 0 := if_pos (by simp [h])

theorem setReg_of_zero {k : Nat} (h : k % 32 = 0) (x : SeqSt) (v : Nat) : x.setReg k v = x := if_pos (by simp [h])

/-- A write of a register past r0 stores the low 24 bits there and nothing elsewhere. -/
theorem reg_setReg {k : Nat} (hk : k % 32 ≠ 0) (x : SeqSt) (v j : Nat) :
    (x.setReg k v).reg j = if j % 32 = k % 32 then v % 2 ^ 24 else x.reg j := by
  have hlt (i : Nat) : i % 32 < 32 := Nat.mod_lt i (by decide)
  by_cases hj : j % 32 = 0
  · rw [reg_of_zero hj, reg_of_zero hj, if_neg (by omega)]
  · have hself : x.reg (j % 32) = x.reg j := by simp [SeqSt.reg]
    simp only [SeqSt.setReg, beq_iff_eq, hk, if_false]
    rw [SeqSt.reg, if_neg (by simpa using hj), List.getD_eq_getElem?_getD, List.getElem?_set]
    split
    next h => rw [if_pos h.symm, if_pos (by simpa using hlt k)]; rfl
    next h => rw [if_neg (Ne.symm h), List.getElem?_map, List.getElem?_range (hlt j), Option.map_some, Option.getD_some, hself]

/-- Settles O58: r0 and the other registers under a write. -/
theorem sequencerRegisterZero : Obligations.SequencerRegisterZero := by
  unfold Obligations.SequencerRegisterZero
  intro x k v j
  refine ⟨reg_of_zero rfl x, setReg_of_zero rfl x v, ?_⟩
  by_cases hk : k % 32 = 0
  · rw [setReg_of_zero hk, if_neg fun h => h.1 hk]
  · rw [reg_setReg hk]
    simp only [ne_eq, hk, not_false_eq_true, true_and]

end Sys2Proof.Machine
end

section
/-! PROOFS. DMA channels and telemetry, keys and Sanitize, the debug port and the TAP: each event under its guard, each write at its
register. -/

namespace Sys2Proof.Machine
open R

/-! ### DMA and telemetry -/

/-- Settles O35: the writes of DMA_CTRL, FIF_DROP and FIF_TCFG reach their registers, and each event's guard follows from the
hypotheses. -/
theorem dmaCommands : Obligations.DmaCommands := by
  unfold Obligations.DmaCommands
  refine ⟨?start, ?pause, ?resume, ?abort, ?completion, ?packet, ?half, ?done, ?error, ?drop, ?configure, ?sample⟩
  case start => exact fun p c v s hr => show execDmaStart p c v s = _ from vendorWrite_reaches hr _ _
  case pause => exact fun p c v out s hr => show execDmaPause p c v out s = _ from vendorWrite_reaches hr _ _
  case resume => exact fun p c v s hr => show execDmaResume p c v s = _ from vendorWrite_reaches hr _ _
  case abort => exact fun p c v s hr => show execDmaAbort p c v s = _ from vendorWrite_reaches hr _ _
  case completion =>
    intro c n data left s hruns hpaused hspace hpos halign hfits hdata hpausing
    show execDmaReadCompletion c n data left s = _
    unfold execDmaReadCompletion
    dsimp only at hdata
    exact doIf_true _ (by simp [hruns, hpaused, hspace, hpos, halign, hfits, hdata, hpausing])
  case packet =>
    intro c s hruns hpausing hspace hpkt hfits
    show execDmaFifoPacket c s = _
    unfold execDmaFifoPacket
    dsimp only at hpkt hfits
    refine doIf_true _ ?_
    rw [hruns, hpausing, hspace, hpkt, hfits]
    rfl
  case half =>
    intro c s hruns hhalf hway
    show execDmaHalf c s = _
    exact doIf_true _ (by rw [hruns, hhalf, hway]; rfl)
  case done =>
    intro c s hruns hover hhalf
    show execDmaDone c s = _
    exact doIf_true _ (by rw [hruns, hover, hhalf]; rfl)
  case error =>
    intro c err o l s hruns hbad
    show execDmaError c err o l s = _
    unfold execDmaError
    exact doIf_true _ (Bool.and_eq_true_iff.mpr ⟨hruns, hbad⟩)
  case drop => exact fun p v s hr => show execFifDrop p v s = _ from vendorWrite_reaches hr _ _
  case configure => exact fun p v s hr => show execFifTcfgWrite p v s = _ from vendorWrite_reaches hr _ _
  case sample =>
    intro s happ hrunning hen hdue
    show execTelemetrySample s = _
    exact doIf_true _ (by rw [happ, hrunning, hen, hdue]; rfl)

/-! ### Keys and Sanitize -/

/-- A waiting key command keeps its payload. -/
theorem map_ofNat_toNat (payload : List Byte) : (payload.map BitVec.toNat).map (BitVec.ofNat 8) = payload := by
  simp [Function.comp_def]

/-- An admin command that is not marked M does its work at its fetch when none executes or waits. -/
theorem enqueueLong_unmarked {l : LongCmd} {s t : State} (hk : markedM.contains l.kind = false)
    (hf : fetch (adm l.port l.cid l.kind) s = some t) (hfree : t.hst.long = none) (hnone : t.hst.longWait = []) :
    enqueueLong l s = .next (runAdmin l (t.begun l)) := by
  rw [enqueueLong_begins hf hfree hnone, beginAdmin_unmarked hk]

/-- Settles O26: each command begins at its fetch with its operands, Sanitize as the custodian's; the step that ends and the resume find
their guards met. -/
theorem securityAndSanitizeCommands : Obligations.SecurityAndSanitizeCommands := by
  unfold Obligations.SecurityAndSanitizeCommands
  refine ⟨?deliver, ?install, ?purge, ?receive, ?sanitize, ?stepDone, ?resume⟩
  case deliver =>
    intro p cid payload s t hf hfree hnone
    show execKeyDeliver p cid payload s = _
    refine (enqueueLong_unmarked rfl hf hfree hnone).trans (congrArg Host.Outcome.next ?_)
    show deliverKey _ _ ((payload.map BitVec.toNat).map (BitVec.ofNat 8)) _ = _
    rw [map_ofNat_toNat]
    rfl
  case install =>
    intro p cid payload s t hf hfree hnone
    show execKekInstall p cid payload s = _
    refine (enqueueLong_unmarked rfl hf hfree hnone).trans (congrArg Host.Outcome.next ?_)
    show installKek _ _ ((payload.map BitVec.toNat).map (BitVec.ofNat 8)) _ = _
    rw [map_ofNat_toNat]
    rfl
  case purge => exact fun p cid nsid s t hf hfree hnone => show execKeyPurge p cid nsid s = _ from enqueueLong_unmarked rfl hf hfree hnone
  case receive =>
    intro p cid proto spsp s t hf hfree hnone
    show execSecurityReceive p cid proto spsp s = _
    refine (enqueueLong_unmarked rfl hf hfree hnone).trans (congrArg Host.Outcome.next ?_)
    have hproto : (proto.toNat * 65536 + spsp.toNat) / 65536 = proto.toNat := by omega
    have hspsp : (proto.toNat * 65536 + spsp.toNat) % 65536 = spsp.toNat := by omega
    show securityReceive _ _ ((proto.toNat * 65536 + spsp.toNat) / 65536) ((proto.toNat * 65536 + spsp.toNat) % 65536) _ = _
    rw [hproto, hspsp]
    rfl
  case sanitize =>
    exact fun p cid cdw10 s t hf hfree hnone hm =>
      show execSanitize p cid cdw10 s = _ from enqueueLong_custodian hf hfree hnone hm
  case stepDone =>
    intro ok s hlife hdurable
    show execSanitizeStepDone ok s = _
    unfold execSanitizeStepDone
    dsimp only at hdurable
    exact doIf_true _ (by rw [hlife, hdurable]; rfl)
  case resume =>
    intro s hlife hlook
    show execSanitizeResume s = _
    exact doIf_true _ (Bool.and_eq_true_iff.mpr ⟨hlife, hlook⟩)

/-! ### The debug port and the TAP -/

/-- An instruction of the boundary cells acts in FROZEN, freezes BARE first, and is BYPASS elsewhere. -/
theorem boundaryOp_runs {s : State} (htap : s.tapOn = true) (k : Tap → Tap) :
    boundaryOp k s = .next (if s.life = FROZEN then s.setTap k else if s.life = BARE ∧ s.on = true then (freeze true s).setTap k
      else s.setTap fun t => { t with ir := 0xFF, tdo := [false] }) := by
  refine (doIf_true _ htap).trans (congrArg _ ?_)
  simp only [beq_iff_eq, Bool.and_eq_true]

/-- Settles O38: DBG_UNLOCK reaches its register, the port's opening finds the Seal erased, and the TAP runs while any supply is on. -/
theorem debugAndTap : Obligations.DebugAndTap := by
  unfold Obligations.DebugAndTap
  refine ⟨?unlock, ?opened, ?scanout, ?idcode, ?sample, ?extest, ?clamp, ?highz, ?tapUnlock, ?dstat, ?fullrst, ?tfreeze, ?bypass, ?trst⟩
  case unlock => exact fun p v recent s hr => show execDbgUnlock p v recent s = _ from vendorWrite_reaches hr _ _
  case opened =>
    intro s hoff hstep hidle hfirst hsecond
    show execDebugPortOpen s = _
    exact doIf_true _ (by rw [hoff, hstep, hidle, hfirst, hsecond]; rfl)
  case scanout => exact fun capture n s htap => show execScanout capture n s = _ from doIf_true _ htap
  case idcode => exact fun s htap => show execIdcode s = _ from doIf_true _ htap
  case sample => exact fun balls cells s htap => show execSamplePreload balls cells s = _ from doIf_true _ htap
  case extest => exact fun balls cells s htap => show execExtest balls cells s = _ from boundaryOp_runs htap _
  case clamp => exact fun s htap => show execClamp s = _ from boundaryOp_runs htap _
  case highz => exact fun s htap => show execHighz s = _ from boundaryOp_runs htap _
  case tapUnlock => exact fun pw recent s htap => show execTapUnlock pw recent s = _ from doIf_true _ htap
  case dstat => exact fun s htap => show execDstat s = _ from doIf_true _ htap
  case fullrst => exact fun s htap => show execFullrst s = _ from doIf_true _ htap
  case tfreeze => exact fun s htap => show execTfreeze s = _ from doIf_true _ htap
  case bypass => exact fun code s htap => show execBypass code s = _ from doIf_true _ htap
  case trst => exact fun s htap => show execTrst s = _ from doIf_true _ htap

/-! ### The supply -/

/-- Settles O1: each event of the supply monitor finds its guard met; a sample at or above 10.6 V writes its two fields and no more. -/
theorem supplyLevelEvents : Obligations.SupplyLevelEvents := by
  unfold Obligations.SupplyLevelEvents
  refine ⟨?good, ?restart, ?holdUp, ?brownOut, ?recovered, ?low, ?sample⟩
  case good =>
    intro s hoff hfault
    show execVinPowerGood s = _
    refine (doIf_true _ (by simp [hoff, hfault])).trans (congrArg _ ?_)
    rw [hoff]
    rfl
  case restart =>
    intro s hoff hfault
    show execRegulatorRestart s = _
    exact doIf_true _ (Bool.and_eq_true_iff.mpr ⟨hoff, hfault⟩)
  case holdUp =>
    intro s hon hlevel
    show execVinHoldUp s = _
    exact doIf_true _ (by rw [hon, hlevel]; rfl)
  case brownOut =>
    intro s hon hlevel
    show execVinBrownOut s = _
    exact doIf_true _ (by rw [hon, hlevel]; rfl)
  case recovered =>
    intro s hon hhold hbrown hheld
    show execVinRecovered s = _
    exact (doIf_true _ (by rw [hon, hhold, hbrown]; rfl)).trans (congrArg _ (if_pos hheld))
  case low =>
    intro mv s hon hlow
    show execVinSample mv s = _
    exact (doIf_true _ hon).trans (congrArg _ (if_pos (decide_eq_true hlow)))
  case sample =>
    intro mv s hon hgood
    have hrun : execVinSample mv s = .next ((s.put PWR_VIN_NOW mv.toNat).put PWR_VIN_MIN
        (min (s.get PWR_VIN_MIN) mv.toNat)) := by
      have hlow : ¬ mv.toNat < 10600 := Nat.not_lt.mpr hgood
      simp [execVinSample, State.doIf, State.when, hon, hlow]
    have hfit : mv.toNat % 2 ^ 16 = mv.toNat := Nat.mod_eq_of_lt mv.isLt
    have hmin : min (s.get PWR_VIN_MIN) mv.toNat % 2 ^ 16 = min (s.get PWR_VIN_MIN) mv.toNat :=
      Nat.mod_eq_of_lt (Nat.lt_of_le_of_lt (Nat.min_le_right _ _) mv.isLt)
    refine ⟨_, hrun, ?_, ?_, ?_⟩
    · exact (get_put_ne _ _ _ _ (by decide)).trans ((get_put_self _ _ _).trans hfit)
    · exact (get_put_self _ _ _).trans hmin
    · exact sameBut_trans (sameBut_put _ _ _) (sameBut_put _ _ _)

end Sys2Proof.Machine
end

section
/-! PROOFS. Packet FIFOs: what a packet displaces, and what else its entry changes (R451 to R453). -/

namespace Sys2Proof.Machine
open R

/-! ### The room a packet needs

`fifoRoom cap n rd pkts` answers the packets left, where the read pointer stands in them, how many were discarded, and whether a partly read one
was. -/

section Room
variable {cap n : Nat}

theorem fifoRoom_lost_le (rd : Nat) (pkts : List (List Word)) : (fifoRoom cap n rd pkts).2.2.1 ≤ pkts.length := by
  fun_induction fifoRoom cap n rd pkts with
  | case1 => exact Nat.le_refl _
  | case2 => exact Nat.zero_le _
  | case3 rd p ps _ r ih => exact Nat.succ_le_succ ih

/-- The oldest packets are discarded. -/
theorem fifoRoom_left (rd : Nat) (pkts : List (List Word)) :
    (fifoRoom cap n rd pkts).1 = pkts.drop (fifoRoom cap n rd pkts).2.2.1 := by
  fun_induction fifoRoom cap n rd pkts with
  | case1 => rfl
  | case2 => rfl
  | case3 rd p ps _ r ih => exact ih

/-- The read pointer stays where nothing is discarded, and else starts at the oldest survivor. -/
theorem fifoRoom_rd {rd : Nat} {pkts : List (List Word)} (hrd : rd ≤ (pkts.map List.length).sum) :
    (fifoRoom cap n rd pkts).2.1 = if (fifoRoom cap n rd pkts).2.2.1 = 0 then rd else 0 := by
  fun_induction fifoRoom cap n rd pkts with
  | case1 rd => simp at hrd; simp [hrd]
  | case2 => rfl
  | case3 rd p ps _ r ih => simpa [r] using ih (Nat.zero_le _)

/-- TORN sets where the packet in progress is discarded. -/
theorem fifoRoom_torn (rd : Nat) (pkts : List (List Word)) :
    (fifoRoom cap n rd pkts).2.2.2 = decide ((fifoRoom cap n rd pkts).2.2.1 ≠ 0 ∧ rd ≠ 0) := by
  fun_induction fifoRoom cap n rd pkts with
  | case1 => rfl
  | case2 => rfl
  | case3 rd p ps _ r ih =>
    have htorn : r.2.2.2 = false := by simpa [r] using ih
    by_cases hrd : rd = 0 <;> simp [htorn, hrd]

/-- The new packet fits behind what is left. -/
theorem fifoRoom_fits (hn : n ≤ cap) (rd : Nat) (pkts : List (List Word)) :
    ((fifoRoom cap n rd pkts).1.map List.length).sum - (fifoRoom cap n rd pkts).2.1 + n ≤ cap := by
  fun_induction fifoRoom cap n rd pkts with
  | case1 => simpa using hn
  | case2 rd p ps hfit => exact hfit
  | case3 rd p ps _ r ih => exact ih

/-- Before each packet that is discarded the new one did not fit. -/
theorem fifoRoom_needed (rd : Nat) (pkts : List (List Word)) : ∀ j < (fifoRoom cap n rd pkts).2.2.1,
    cap < ((pkts.drop j).map List.length).sum - (if j = 0 then rd else 0) + n := by
  fun_induction fifoRoom cap n rd pkts with
  | case1 => exact fun j hj => absurd hj (Nat.not_lt_zero j)
  | case2 => exact fun j hj => absurd hj (Nat.not_lt_zero j)
  | case3 rd p ps hfull r ih =>
    intro j hj
    cases j with
    | zero => exact Nat.not_le.mp hfull
    | succ j => simpa using ih j (Nat.lt_of_succ_lt_succ hj)

end Room

/-! ### What an interrupt and a packet leave alone -/

theorem sendMsix_get (g : Fld) (s : State) : (sendMsix s).get g = s.get g := by
  unfold sendMsix
  split
  · rfl
  · split <;> rfl

theorem sendMsix_fifos (s : State) : (sendMsix s).fifos = s.fifos := by
  unfold sendMsix
  split
  · rfl
  · split <;> rfl

/-- What an interrupt can do: nothing, set a status bit, or set it and send a message. -/
theorem raiseIrq_rec {P : State → Prop} (b : Nat) (s : State) (hnone : P s)
    (hset : ∀ f : Fld, f = FIF_IRQ_ST_FIFO ∨ f = FIF_IRQ_ST_DMA → ∀ v, P (s.put f v) ∧ P (sendMsix (s.put f v))) :
    P (raiseIrq b s) := by
  have hraise (f : Fld) (hf : f = FIF_IRQ_ST_FIFO ∨ f = FIF_IRQ_ST_DMA) (i : Nat) : P (if s.bit f i then s else
      if (s.setBit f i true).bit FIF_IRQ_EN_EN b then sendMsix (s.setBit f i true) else s.setBit f i true) := by
    obtain ⟨hplain, hsent⟩ := hset f hf (setBitNat (s.get f) i true)
    split
    · exact hnone
    · split
      · exact hsent
      · exact hplain
  exact hraise _ (by split <;> simp) _

/-- An interrupt changes its status bits alone. -/
theorem raiseIrq_get {g : Fld} (hfifo : FIF_IRQ_ST_FIFO.key ≠ g.key) (hdma : FIF_IRQ_ST_DMA.key ≠ g.key) (b : Nat) (s : State) :
    (raiseIrq b s).get g = s.get g := by
  refine raiseIrq_rec (P := fun t => t.get g = s.get g) b s rfl fun f hf v => ?_
  have hput : (s.put f v).get g = s.get g := get_put_ne _ _ _ _ (by rcases hf with rfl | rfl <;> assumption)
  exact ⟨hput, (sendMsix_get _ _).trans hput⟩

theorem raiseIrq_fifos (b : Nat) (s : State) : (raiseIrq b s).fifos = s.fifos :=
  raiseIrq_rec (P := fun t => t.fifos = s.fifos) b s rfl fun _ _ _ => ⟨rfl, sendMsix_fifos _⟩

/-- The FIFO with a new packet, as `pushPkt` leaves it. -/
def Fifo.pushed (q : Fifo) (cap : Nat) (pkt : List Word) : Fifo :=
  let r := fifoRoom cap pkt.length q.rd q.pkts
  { pkts := r.1 ++ [pkt], rd := r.2.1, ptr := q.ptr + ((q.pkts.take r.2.2.1).map List.length).sum }

theorem pushPkt_fifos (i : Nat) (pkt : List Word) (urgent : Bool) (s : State) :
    (pushPkt i pkt urgent s).fifos = s.fifos.set i ((s.fifo i).pushed (s.get (FIF_CAP_WORDS i)) pkt) := by
  have hwhen (b : Bool) (t : State) : (t.when b fun u => u.put (FIF_STAT_TORN i) 1).fifos = t.fifos := by cases b <;> rfl
  unfold pushPkt
  dsimp only
  split
  · rw [raiseIrq_fifos, hwhen]; rfl
  · rw [hwhen]; rfl

/-- What a packet counts: LOST, TORN, and the interrupt status; every other field stays. -/
theorem pushPkt_get {i : Nat} {g : Fld} (hfifo : FIF_IRQ_ST_FIFO.key ≠ g.key) (hdma : FIF_IRQ_ST_DMA.key ≠ g.key) (pkt : List Word)
    (urgent : Bool) (s : State) : (pushPkt i pkt urgent s).get g =
      ((s.addSat (FIF_LOST_LOST i) (fifoRoom (s.get (FIF_CAP_WORDS i)) pkt.length (s.fifo i).rd (s.fifo i).pkts).2.2.1).when
        (fifoRoom (s.get (FIF_CAP_WORDS i)) pkt.length (s.fifo i).rd (s.fifo i).pkts).2.2.2 fun u => u.put (FIF_STAT_TORN i) 1).get g := by
  have hwhen (b : Bool) (t u : State) (h : t.rf = u.rf) :
      (t.when b fun u => u.put (FIF_STAT_TORN i) 1).get g = (u.when b fun u => u.put (FIF_STAT_TORN i) 1).get g := by
    cases b <;> exact get_rf _ _ _ (by simp [State.when, State.put, h])
  unfold pushPkt
  dsimp only
  split
  · exact (raiseIrq_get hfifo hdma _ _).trans (hwhen _ _ _ rfl)
  · exact hwhen _ _ _ rfl

/-! ### A packet that enters whole -/

/-- A count that saturates stays within its field. -/
theorem get_addSat_self (s : State) (f : Fld) (n : Nat) : (s.addSat f n).get f = min (s.get f + n) f.max := by
  have hmax : f.max < 2 ^ f.width := Nat.sub_lt (Nat.two_pow_pos _) Nat.one_pos
  exact (get_put_self _ _ _).trans (Nat.mod_eq_of_lt (Nat.lt_of_le_of_lt (Nat.min_le_right _ _) hmax))

/-- Settles O49: `k` is what `fifoRoom` discards. -/
theorem fifoPacketsEnterWhole : Obligations.FifoPacketsEnterWhole := by
  unfold Obligations.FifoPacketsEnterWhole
  intro n pkt urgent s hn hlen hcap hrd
  have hlostIrq : ∀ n < 3, FIF_IRQ_ST_FIFO.key ≠ (FIF_LOST_LOST n).key ∧ FIF_IRQ_ST_DMA.key ≠ (FIF_LOST_LOST n).key := by decide
  have htornIrq : ∀ n < 3, FIF_IRQ_ST_FIFO.key ≠ (FIF_STAT_TORN n).key ∧ FIF_IRQ_ST_DMA.key ≠ (FIF_STAT_TORN n).key := by decide
  have htornLost : (FIF_STAT_TORN n).key ≠ (FIF_LOST_LOST n).key := by simp [FIF_STAT_TORN, FIF_LOST_LOST, fld]; omega
  have hfifo : (pushPkt n pkt urgent s).fifo n = (s.fifo n).pushed (s.get (FIF_CAP_WORDS n)) pkt := by
    simp [State.fifo, pushPkt_fifos, List.getElem?_set_self hlen]
  have hleft := fifoRoom_left (cap := s.get (FIF_CAP_WORDS n)) (n := pkt.length) (s.fifo n).rd (s.fifo n).pkts
  refine ⟨_, fifoRoom_lost_le (s.fifo n).rd (s.fifo n).pkts, ?pkts, ?level, ?lost, ?rd, ?torn, fifoRoom_needed _ _, ?other⟩
  case pkts =>
    rw [hfifo, ← hleft]
    rfl
  case level =>
    have hfits := fifoRoom_fits hcap (s.fifo n).rd (s.fifo n).pkts
    rw [hfifo]
    simp [Fifo.level, Fifo.pushed]
    omega
  case lost =>
    have hwhen (b : Bool) (u : State) : (u.when b fun u => u.put (FIF_STAT_TORN n) 1).get (FIF_LOST_LOST n) = u.get (FIF_LOST_LOST n) := by
      cases b
      · rfl
      · exact get_put_ne _ _ _ _ htornLost
    exact (pushPkt_get (hlostIrq n hn).1 (hlostIrq n hn).2 pkt urgent s).trans ((hwhen _ _).trans (get_addSat_self _ _ _))
  case rd =>
    rw [hfifo]
    exact fifoRoom_rd hrd
  case torn =>
    have hwhen (p : Prop) [Decidable p] (u : State) : (u.when (decide p) fun u => u.put (FIF_STAT_TORN n) 1).get (FIF_STAT_TORN n) =
        if p then 1 else u.get (FIF_STAT_TORN n) := by
      by_cases h : p <;> simp [State.when, h, FIF_STAT_TORN, fld]
    refine (pushPkt_get (htornIrq n hn).1 (htornIrq n hn).2 pkt urgent s).trans ?_
    rw [fifoRoom_torn, hwhen, State.addSat, get_put_ne _ _ _ _ htornLost.symm]
  case other =>
    intro m hm
    simp [State.fifo, pushPkt_fifos, List.getElem?_set_ne hm.symm]

end Sys2Proof.Machine
end

section
/-! PROOFS. SYS_RSTINFO after a power-on reset and after a full reset (R558). -/

namespace Sys2Proof.Machine
open R

/-- A write of a field of another block leaves a field alone. -/
theorem get_put_block {f g : Fld} (h : block f.off ≠ block g.off) (s : State) (v : Nat) : (s.put f v).get g = s.get g :=
  get_put_ne _ _ _ _ fun e => h (by rw [Fld.off, Fld.off, e])

/-- A packet changes fields of block FIF alone. -/
theorem pushPkt_get_block {g : Fld} (hg : block g.off ≠ 0x16) {i : Nat} (hi : i < 3) (pkt : List Word) (urgent : Bool) (s : State) :
    (pushPkt i pkt urgent s).get g = s.get g := by
  have hkey {f : Fld} (hf : block f.off = 0x16) : f.key ≠ g.key := fun e => hg (by rw [← hf, Fld.off, Fld.off, e])
  have hlost : ∀ i < 3, block (FIF_LOST_LOST i).off = 0x16 := by decide
  have htorn : ∀ i < 3, block (FIF_STAT_TORN i).off = 0x16 := by decide
  refine (pushPkt_get (hkey (by decide)) (hkey (by decide)) pkt urgent s).trans ?_
  have hput (b : Bool) (u : State) : (u.when b fun u => u.put (FIF_STAT_TORN i) 1).get g = u.get g := by
    cases b
    · rfl
    · exact get_put_ne _ _ _ _ (hkey (htorn i hi))
  exact (hput _ _).trans (get_put_ne _ _ _ _ (hkey (hlost i hi)))

theorem eventRec_get {g : Fld} (hg : block g.off ≠ 0x16) (tag detail : Nat) (args : List Nat) (urgent : Bool) (s : State) :
    (eventRec tag detail args urgent s).get g = s.get g := pushPkt_get_block hg (by decide) _ urgent s

theorem foldl_put_get_ne {g : Fld} (v : Fld → Nat) (l : List Fld) (hl : ∀ f ∈ l, f.key ≠ g.key) (s : State) :
    (l.foldl (fun t f => t.put f (v f)) s).get g = s.get g :=
  List.foldlRecOn l _ (motive := fun t => t.get g = s.get g) rfl fun t ht f hf => (get_put_ne t f g _ (hl f hf)).trans ht

/-- What the power-on state holds of SYS_RSTINFO. -/
theorem powerOnState_rstinfo (last : Nat) (s : State) : (powerOnState last s).get SYS_RSTINFO_LAST = last % 16 ∧
    (powerOnState last s).get SYS_RSTINFO_FULLS = 0 ∧ (powerOnState last s).get SYS_RSTINFO_BADKEY = 0 := by
  unfold powerOnState State.get
  dsimp only
  refine ⟨?last, ?fulls, ?badkey⟩
  case last =>
    rw [RegFile.read_write_ne _ _ _ _ (by decide), RegFile.read_write_ne _ _ _ _ (by decide), RegFile.read_write_ne _ _ _ _ (by decide),
      RegFile.read_write_ne _ _ _ _ (by decide), RegFile.read_write]
    rfl
  case fulls | badkey =>
    rw [RegFile.read_write_ne _ _ _ _ (by decide), RegFile.read_write_ne _ _ _ _ (by decide), RegFile.read_write_ne _ _ _ _ (by decide),
      RegFile.read_write_ne _ _ _ _ (by decide), RegFile.read_write_ne _ _ _ _ (by decide), RegFile.read_write_ne _ _ _ _ (by decide)]
    rfl

/-- Settles O55: the record of the reset leaves SYS_RSTINFO as the reset has set it. -/
theorem resetInfo : Obligations.ResetInfo := by
  unfold Obligations.ResetInfo
  refine ⟨?powerOn, ?full⟩
  case powerOn =>
    intro s hoff hwait
    obtain ⟨hlast, hfulls, hbadkey⟩ := powerOnState_rstinfo (if s.sys.afterFault then 2 else 1) s
    refine ⟨_, (show execPowerGoodFusesLoaded s = _ from doIf_true _ (Bool.and_eq_true_iff.mpr ⟨hoff, hwait⟩)), ?_, ?_, ?_⟩
    · rw [eventRec_get (by decide), hlast]
      split <;> rfl
    · rw [eventRec_get (by decide), hfulls]
    · rw [eventRec_get (by decide), hbadkey]
  case full =>
    intro s hoff hhold hcode hfulls
    refine ⟨_, (show execFullResetComplete s = _ from doIf_true _ (by simp [hhold, hoff])), ?_, ?_⟩
    · rw [eventRec_get (by decide), get_put_ne _ _ _ _ (by decide), get_put_ne _ _ _ _ (by decide), get_put_ne _ _ _ _ (by decide)]
      refine (get_put_ne _ _ _ _ (by decide)).trans ((foldl_put_get_ne _ _ (by decide) _).trans ?_)
      exact (powerOnState_rstinfo _ s).1.trans (Nat.mod_eq_of_lt hcode)
    · rw [eventRec_get (by decide), get_put_ne _ _ _ _ (by decide), get_put_ne _ _ _ _ (by decide), get_put_ne _ _ _ _ (by decide)]
      refine (get_put_self _ _ _).trans ?_
      rw [Nat.min_eq_left (Nat.succ_le_of_lt hfulls)]
      exact Nat.mod_eq_of_lt (show s.get SYS_RSTINFO_FULLS + 1 < 2 ^ 8 from Nat.succ_lt_succ hfulls)

end Sys2Proof.Machine
end

section
/-! PROOFS. Reads of the event FIFOs (R454). -/

namespace Sys2Proof.Machine
open R

theorem fieldsAt_fifData : ∀ f : FifoId, fieldsAt (FIF_DATA_WORD f).off = [FIF_DATA_WORD f] := by decide +kernel

/-- FIF_DATA is a register of its own block, with one field, whose reads no free value answers and no low half latches. -/
theorem fifData_plain : ∀ f : FifoId, block (FIF_DATA_WORD f).off = 0x16 ∧ (FIF_DATA_WORD f).inst FIF_DATA_WORD 3 = some f.val ∧
    readFree (FIF_DATA_WORD f).off = false ∧ ¬ (0x401000 ≤ (FIF_DATA_WORD f).off ∧ (FIF_DATA_WORD f).off < 0x403000) ∧
    (FIF_DATA_WORD f).off ≠ ANG_NOW_LO_ANGLE.off ∧ (FIF_DATA_WORD f).off ≠ SKT_COMMIT_LO_ANGLE.off ∧
    (FIF_DATA_WORD f).off ≠ STR_WSEQ_LO_WSEQ.off := by decide +kernel

theorem fifData_lsb : ∀ f : FifoId, (FIF_DATA_WORD f).lsb = 0 := by decide

/-- FIF_DATA reads as the next word of its FIFO. -/
theorem regRead_fifData (f : FifoId) (s : State) : s.regRead (FIF_DATA_WORD f).off = s.fifoNext f % 2 ^ 32 := by
  obtain ⟨hblock, hinst, hfree, hwindow, -, -, -⟩ := fifData_plain f
  have hmirror : s.mirror (FIF_DATA_WORD f) = some (s.fifoNext f) := by
    unfold State.mirror
    rw [hblock, hinst]
    rfl
  have hfld : s.readFld (FIF_DATA_WORD f) = s.fifoNext f := by
    simp [State.readFld, hblock, hmirror]
  obtain ⟨hminutes, hcore⟩ := Bool.or_eq_false_iff.mp hfree
  simp only [State.regRead, fieldsAt_fifData, List.map_cons, List.map_nil, List.sum_cons, List.sum_nil, hfld, hminutes, hcore]
  simp only [Bool.and_eq_true, decide_eq_true_iff, hwindow, if_false, Bool.false_eq_true]
  rw [fifData_lsb]
  exact Nat.mul_one _

/-- A read of FIF_DATA has one side effect: the FIFO gives its word. -/
theorem readSide_fifData (f : FifoId) (s : State) : readSide (FIF_DATA_WORD f).off s = fifoTake f s := by
  obtain ⟨-, -, -, -, hang, hskt, hstr⟩ := fifData_plain f
  have hclears : ([FIF_DATA_WORD f].filter fun g => g.acc == .rc) = [] := rfl
  have hlatch : latchHi (FIF_DATA_WORD f).off s = s := by simp [latchHi, hang, hskt, hstr]
  simp only [readSide, fieldsAt_fifData, hclears, List.foldl_nil, hlatch]
  match f with
  | 0 | 1 | 2 => rfl

theorem readReg_fifData (f : FifoId) (s : State) :
    readReg (FIF_DATA_WORD f).off s = { fifoTake f s with rdata := BitVec.ofNat 32 (s.fifoNext f) } := by
  have hdraw : readDraw (FIF_DATA_WORD f).off s = s := by simp [readDraw, State.when, fifData_plain f]
  rw [readReg, hdraw, readSide_fifData, regRead_fifData]
  congr 1
  exact BitVec.eq_of_toNat_eq (by simp)

/-- A read of a FIFO with a packet in progress gives its next word; the word that ends the packet leaves the pointer at the next header. -/
theorem readReg_fifData_cons {f : FifoId} {s : State} {pkt : List Word} {ps : List (List Word)} (hfree : s.fifoOwned f = false)
    (hpkts : (s.fifo f).pkts = pkt :: ps) : readReg (FIF_DATA_WORD f).off s = { s with
      rdata := pkt.getD (s.fifo f).rd 0
      fifos := s.fifos.set f (if (s.fifo f).rd + 1 < pkt.length then { s.fifo f with rd := (s.fifo f).rd + 1 } else (s.fifo f).next) } := by
  have hword : BitVec.ofNat 32 (s.fifoNext f) = pkt.getD (s.fifo f).rd 0 := by
    simp [State.fifoNext, hfree, hpkts, List.headD_eq_head?_getD, List.getD_eq_getElem?_getD]
  rw [readReg_fifData, hword]
  simp [fifoTake, hfree, hpkts, setAt]

/-- A read of an empty FIFO gives 0 and moves nothing. -/
theorem readReg_fifData_nil {f : FifoId} {s : State} (hfree : s.fifoOwned f = false) (hpkts : (s.fifo f).pkts = []) :
    readReg (FIF_DATA_WORD f).off s = { s with rdata := 0 } := by
  rw [readReg_fifData]
  simp [fifoTake, State.fifoNext, hfree, hpkts]

/-- The custodian's read of a FIFO with no word to load goes straight to the register. -/
theorem execFifDataRead_unheld {p : Port} {f : FifoId} {s : State} (o : BlockRead) (h : s.applied = false ∨ (s.fifo f).pkts = []) :
    execFifDataRead p f o s = readRow p (FIF_DATA_WORD f).off s := by
  rcases h with h | h <;> simp [execFifDataRead, h]

/-- Past BARE the custodian's read of a FIFO with a word loads its block first. -/
theorem execFifDataRead_held {p : Port} {f : FifoId} {s : State} (o : BlockRead) (hr : s.reads p (FIF_DATA_WORD f).off = true)
    (hfree : s.fifoOwned f = false) (happ : s.applied = true) (hpkts : (s.fifo f).pkts ≠ []) {ok : Bool} {t : State}
    (hload : memLoad srcFIF (s.fifoAddr f / 64) o .clean s = (ok, t)) :
    execFifDataRead p f o s = readRow p (FIF_DATA_WORD f).off (if ok then t else loseItem f t) := by
  simp only [State.reads, Bool.and_eq_true] at hr
  obtain ⟨⟨hon, -⟩, hmgmt⟩ := hr
  simp [execFifDataRead, hon, hmgmt, hfree, happ, hpkts, hload]

/-- Settles O54: the register read gives the word, after the load where there is one. -/
theorem fifoReads : Obligations.FifoReads := by
  unfold Obligations.FifoReads
  refine ⟨?atOnce, ?loaded, ?lost, ?empty, ?drop⟩
  case atOnce =>
    intro p f o pkt ps s hr hfree happ hpkts _
    show execFifDataRead p f o s = _
    rw [execFifDataRead_unheld o (.inl happ), readRow_reads hr, readReg_fifData_cons hfree hpkts]
  case loaded =>
    intro p f o pkt ps s t hr hfree happ hpkts hload hrt hfreet hpktst _
    show execFifDataRead p f o s = _
    rw [execFifDataRead_held o hr hfree happ hpkts hload, if_pos rfl, readRow_reads hrt, readReg_fifData_cons hfreet hpktst]
  case lost =>
    intro p f o s t hr hfree happ hpkts hload
    exact execFifDataRead_held o hr hfree happ hpkts hload
  case empty =>
    intro p f o s hr hfree hpkts
    show execFifDataRead p f o s = _
    rw [execFifDataRead_unheld o (.inr hpkts), readRow_reads hr, readReg_fifData_nil hfree hpkts]
  case drop =>
    intro p v s hr
    refine (show execFifDrop p v s = _ from vendorWrite_reaches hr _ _).trans (congrArg _ ?_)
    simp only [fifDrop, beq_iff_eq, setAt]

end Sys2Proof.Machine
end

section
/-! PROOFS. BAR2 writes: where their bytes go, and what a clean one does (R417 to R422, R426). -/

namespace Sys2Proof.Machine
open R

/-! ### The Canvas stays where a store stops the device or a way of the Larder -/

theorem when_cnv {b : Bool} {k : State → State} {s : State} (h : (k s).cnv = s.cnv) : (s.when b k).cnv = s.cnv := by
  cases b
  · rfl
  · exact h

theorem forUpTo_cnv {k : Nat → State → State} (h : ∀ i s, (k i s).cnv = s.cnv) (n : Nat) (s : State) : (forUpTo n k s).cnv = s.cnv :=
  List.foldlRecOn _ _ (motive := fun t => t.cnv = s.cnv) rfl fun t ht i _ => (h i t).trans ht

theorem sendMsix_cnv (s : State) : (sendMsix s).cnv = s.cnv := by
  unfold sendMsix
  split
  · rfl
  · split <;> rfl

theorem pushPkt_cnv (i : Nat) (pkt : List Word) (urgent : Bool) (s : State) : (pushPkt i pkt urgent s).cnv = s.cnv := by
  have hirq (t : State) : (raiseIrq i t).cnv = t.cnv := raiseIrq_rec (P := fun u => u.cnv = t.cnv) i t rfl fun _ _ _ => ⟨rfl, sendMsix_cnv _⟩
  unfold pushPkt
  dsimp only
  split
  · exact (hirq _).trans (when_cnv rfl)
  · exact when_cnv rfl

theorem logFlt_cnv (src kind code unit : Nat) (args : List Nat) (s : State) : (logFlt src kind code unit args s).cnv = s.cnv :=
  (when_cnv rfl).trans (pushPkt_cnv 2 _ false s)

theorem noteCe_cnv (src block : Nat) (s : State) : (noteCe src block s).cnv = s.cnv := by
  unfold noteCe bucketCheck
  dsimp only
  split
  · exact pushPkt_cnv 0 _ true _
  · rfl

theorem noteUe_cnv (src block k : Nat) (s : State) : (noteUe src block k s).cnv = s.cnv :=
  (logFlt_cnv ..).trans (when_cnv rfl)

theorem readBlock_cnv (src block : Nat) (o : BlockRead) (s : State) : (readBlock src block o s).2.cnv = s.cnv := by
  unfold readBlock
  dsimp only
  split
  · rfl
  · split
    · exact noteCe_cnv ..
    · exact noteUe_cnv ..

theorem sweepTo_cnv (n : Nat) (s : State) : (sweepTo n s).cnv = s.cnv := by
  unfold sweepTo
  split <;> rfl

theorem pullAhead_cnv (ba : Nat) (s : State) : (pullAhead ba s).cnv = s.cnv := by
  unfold pullAhead
  dsimp only
  split
  · exact sweepTo_cnv 0 _
  · rfl

theorem lookup_cnv (line : Nat) (s : State) : (lookup line s).2.cnv = s.cnv := by
  unfold lookup
  split
  · split <;> rfl
  · rfl

theorem wayFault_cnv (w why : Nat) (s : State) : (wayFault w why s).cnv = s.cnv :=
  (logFlt_cnv ..).trans (when_cnv rfl)

theorem spindleCoast_cnv (s : State) : (spindleCoast s).cnv = s.cnv := by
  unfold spindleCoast
  dsimp only
  split <;> rfl

theorem tripSafety_cnv (s : State) : (tripSafety s).cnv = s.cnv :=
  (spindleCoast_cnv _).trans (forUpTo_cnv (fun _ _ => rfl) 4 _)

theorem stopSeek_cnv (h : Nat) (s : State) : (stopSeek h s).cnv = s.cnv := by
  unfold stopSeek askSeek
  split <;> rfl

theorem safeStopActions_cnv (s : State) : (safeStopActions s).cnv = s.cnv :=
  (forUpTo_cnv stopSeek_cnv 4 _).trans ((forUpTo_cnv (fun l u => (when_cnv rfl : (loopOff l u).cnv = _).trans (puts_cnv u _)) 16 _).trans
    ((forUpTo_cnv (fun _ _ => rfl) 4 _).trans (tripSafety_cnv s)))

theorem safeStop_cnv (cause tag code unit : Nat) (s : State) : (safeStop cause tag code unit s).cnv = s.cnv := by
  unfold safeStop
  split
  · exact logFlt_cnv ..
  · split
    · refine (logFlt_cnv ..).trans ?_
      split
      · rfl
      · exact tripSafety_cnv s
    · split
      · exact safeStopActions_cnv s
      · rfl

theorem hitLine_cnv (line block way : Nat) (o : LineOutcome) (s : State) : (hitLine line block way o s).2.cnv = s.cnv := by
  unfold hitLine
  cases o with
  | clean => rfl
  | ce => exact noteCe_cnv ..
  | ue =>
    dsimp only
    split
    · exact (wayFault_cnv ..).trans (forUpTo_cnv (fun _ _ => rfl) 4 _)
    · exact wayFault_cnv ..
  | tag => exact safeStop_cnv ..

/-! ### The bytes of a store -/

/-- From the first state to the second, buffer memory is as it was or has taken the bytes, and the Canvas stays. -/
def StoresOrNot (ba : Nat) (data : List Byte) (s t : State) : Prop :=
  t.cnv = s.cnv ∧ (t.mem.bytes = s.mem.bytes ∨ t.mem.bytes = s.mem.bytes.writes ba data)

theorem storesOrNot_of {ba : Nat} {data : List Byte} {r s t : State} (hcnv : s.cnv = r.cnv) (hkept : s.kept = r.kept)
    (h : StoresOrNot ba data s t) : StoresOrNot ba data r t :=
  ⟨h.1.trans hcnv, by rw [← kept_mem hkept]; exact h.2⟩

theorem storeBlock_storesOrNot (src ba : Nat) (data : List Byte) (o : BlockRead) (s : State) :
    StoresOrNot ba data s (storeBlock src ba data o s).2 := by
  unfold storeBlock
  split
  · exact ⟨rfl, .inr rfl⟩
  · have hcnv := readBlock_cnv src (ba / 64) o s
    have hkept := readBlock_snd_kept src (ba / 64) o s
    generalize readBlock src (ba / 64) o s = r at hcnv hkept ⊢
    refine storesOrNot_of hcnv hkept ?_
    dsimp only
    split
    · exact ⟨rfl, .inr rfl⟩
    · exact ⟨rfl, .inl rfl⟩

/-- A BAR2 write within one block changes its own bytes alone. -/
theorem bar2Store_storesOrNot (ba : Nat) (data : List Byte) (o : BlockRead) (l : LineOutcome) (s : State) :
    StoresOrNot ba data s (bar2Store ba data o l s) := by
  unfold bar2Store
  dsimp only
  refine storesOrNot_of (pullAhead_cnv ba s) (pullAhead_kept ..) ?_
  generalize pullAhead ba s = s1
  refine storesOrNot_of (lookup_cnv (ba / 256) s1) (lookup_snd_kept ..) ?_
  split
  next hmiss => rw [hmiss]; exact storeBlock_storesOrNot ..
  next w s2 hfound =>
    rw [hfound]
    refine storesOrNot_of (hitLine_cnv (ba / 256) (ba / 64) w l s2) (hitLine_snd_kept ..) ?_
    split
    next hline => rw [hline]; exact storeBlock_storesOrNot ..
    next hline => rw [hline]; exact ⟨rfl, .inl rfl⟩
    next s3 hline =>
      rw [hline]
      split
      · exact storesOrNot_of (s := dropLine (ba / 256) w s3) rfl (dropLine_kept ..) (storeBlock_storesOrNot ..)
      · exact ⟨rfl, .inr rfl⟩

/-! ### The parts of a write -/

/-- The first offset of a write's part in its `i`-th block, and the part's bytes. -/
def bar2From (off i : Nat) : Nat := max off (64 * (off / 64 + i))
def bar2Part (off : Nat) (data : List Byte) (i : Nat) : List Byte :=
  (data.drop (bar2From off i - off)).take (64 * (off / 64 + i + 1) - bar2From off i)

/-- What a write does in its `i`-th block. -/
def bar2Block (off : Nat) (data : List Byte) (os : List BlockRead) (ls : List LineOutcome) (i : Nat) (s : State) : State :=
  match s.diagAddr (bar2From off i) with
  | some ba => if (bar2Part off data i).isEmpty then s else bar2Store ba (bar2Part off data i) (os.getD i {}) (ls.getD i .clean) s
  | none => s

theorem bar2Write_eq (off : Nat) (data : List Byte) (os : List BlockRead) (ls : List LineOutcome) (s : State) :
    bar2Write off data os ls s = forUpTo ((off % 64 + data.length + 63) / 64) (bar2Block off data os ls) s := rfl

/-- A part ends within its block and within the write. -/
theorem bar2Part_length_le (off : Nat) (data : List Byte) (i : Nat) :
    (bar2Part off data i).length ≤ 64 * (off / 64 + i + 1) - bar2From off i ∧
      (bar2Part off data i).length ≤ data.length - (bar2From off i - off) := by
  simp only [bar2Part, List.length_take, List.length_drop]
  exact ⟨Nat.min_le_left _ _, Nat.min_le_right _ _⟩

/-- A BAR2 offset leads into the DIAG region. -/
theorem diagAddr_eq_some {s : State} {off a : Nat} (h : s.diagAddr off = some a) :
    ∃ r, s.region rDIAG = some r ∧ s.applied = true ∧ off < r.size * 65536 ∧ a = r.base * 65536 + off := by
  unfold State.diagAddr at h
  split at h
  next r hr =>
    split at h
    next hin =>
      obtain ⟨happ, hlt⟩ := Bool.and_eq_true_iff.mp hin
      exact ⟨r, hr, happ, of_decide_eq_true hlt, (Option.some.inj h).symm⟩
    next => cases h
  next => cases h

theorem diagAddr_of_region {s : State} {r : Region} (hr : s.region rDIAG = some r) (happ : s.applied = true) {off : Nat}
    (hlt : off < r.size * 65536) : s.diagAddr off = some (r.base * 65536 + off) := by
  simp [State.diagAddr, hr, happ, hlt]

/-- The region holds a block of 64 offsets whole or not at all. -/
theorem diagAddr_block {s : State} {off off' a : Nat} (h : s.diagAddr off = some a) (hle : off ≤ off') (hblock : off' / 64 = off / 64) :
    s.diagAddr off' = some (a + (off' - off)) := by
  obtain ⟨r, hr, happ, hlt, rfl⟩ := diagAddr_eq_some h
  rw [diagAddr_of_region hr happ (by omega)]
  exact congrArg some (by omega)

/-- A block's part of a write leaves every byte alone that is no target of the write. -/
theorem bar2Block_frame {off : Nat} {data : List Byte} {s : State} (happ : s.applied = true) {a : Nat}
    (ha : ∀ k < data.length, s.diagAddr (off + k) ≠ some a) (os : List BlockRead) (ls : List LineOutcome) (i : Nat) {u : State}
    (hcnv : u.cnv = s.cnv) : (bar2Block off data os ls i u).cnv = s.cnv ∧
      Memory.read (bar2Block off data os ls i u).mem.bytes a = Memory.read u.mem.bytes a := by
  unfold bar2Block
  split
  case h_2 => exact ⟨hcnv, rfl⟩
  case h_1 ba hba =>
    split
    · exact ⟨hcnv, rfl⟩
    · obtain ⟨hkeep, hbytes⟩ := bar2Store_storesOrNot ba (bar2Part off data i) (os.getD i {}) (ls.getD i .clean) u
      refine ⟨hkeep.trans hcnv, ?_⟩
      rcases hbytes with hbytes | hbytes
      · rw [hbytes]
      · rw [hbytes, Memory.read_writes]
        split
        next hle =>
          obtain ⟨r, hr, -, hlt, rfl⟩ := diagAddr_eq_some hba
          obtain ⟨hblock, hdata⟩ := bar2Part_length_le off data i
          have hr' : s.region rDIAG = some r := by rw [← hr, State.region, State.region, hcnv]
          have hpast : (bar2Part off data i).length ≤ a - (r.base * 65536 + bar2From off i) := by
            refine Nat.le_of_not_lt fun hin => ?_
            have hfrom : off ≤ bar2From off i ∧ 64 * (off / 64 + i) ≤ bar2From off i := ⟨Nat.le_max_left .., Nat.le_max_right ..⟩
            refine ha (a - r.base * 65536 - off) (by omega) ?_
            rw [diagAddr_of_region hr' happ (by omega)]
            exact congrArg some (by omega)
          rw [List.getD_eq_default _ _ hpast]
        next => rfl

/-! ### Clean accesses -/

/-- With no poison a block that reads as written is clean. -/
theorem blockFault_clean {s : State} (hpoison : s.mem.poison = []) (block : Nat) : s.blockFault block {} = oCLEAN := by
  have hzero (a : Nat) : gfMul a 0 = 0 := by simp [gfMul, List.range_succ]
  simp [State.blockFault, readOutcome, hpoison, Sparse.get, outcomeOf, syndrome, blockSymbols, List.range_succ, hzero]

theorem readBlock_clean {s : State} (hpoison : s.mem.poison = []) (src block : Nat) : readBlock src block {} s = (true, s) := by
  simp [readBlock, blockFault_clean hpoison]

/-- The state that an access of MEM leaves: Canvas, supply and lifecycle as they were, and no poisoned block. -/
structure CleanFrom (s t : State) : Prop where
  cnv : t.cnv = s.cnv
  sys : t.sys = s.sys
  life : t.life = s.life
  poison : t.mem.poison = []

theorem CleanFrom.trans {r s t : State} (h : CleanFrom r s) (k : CleanFrom s t) : CleanFrom r t :=
  ⟨k.cnv.trans h.cnv, k.sys.trans h.sys, k.life.trans h.life, k.poison⟩

theorem CleanFrom.diagAddr {s t : State} (h : CleanFrom s t) (off : Nat) : t.diagAddr off = s.diagAddr off := by
  simp [State.diagAddr, State.region, State.applied, State.inLife, State.on, h.cnv, h.sys, h.life]

theorem put_cleanFrom {s : State} (hpoison : s.mem.poison = []) {f : Fld} (hf : f.key ≠ SYS_STATE_STATE.key) (v : Nat) :
    CleanFrom s (s.put f v) := ⟨rfl, rfl, get_put_ne _ _ _ _ hf, hpoison⟩

theorem inc_cleanFrom {s : State} (hpoison : s.mem.poison = []) {f : Fld} (hf : f.key ≠ SYS_STATE_STATE.key) : CleanFrom s (s.inc f) :=
  put_cleanFrom hpoison hf _

theorem setMem_cleanFrom {s : State} {k : MemSt → MemSt} (hpoison : (k s.mem).poison = []) : CleanFrom s (s.setMem k) :=
  ⟨rfl, rfl, rfl, hpoison⟩

theorem sweepTo_cleanFrom {s : State} (hpoison : s.mem.poison = []) (n : Nat) : CleanFrom s (sweepTo n s) := by
  unfold sweepTo
  split
  · have hreach := setMem_cleanFrom (s := s) (k := fun m => { m with
      reach := min (max n s.mem.reach) s.sweepSteps
      ahead := s.mem.ahead.filter fun p => min (max n s.mem.reach) s.sweepSteps ≤ p.1 }) hpoison
    exact hreach.trans (put_cleanFrom hreach.poison (f := MEM_SWEEP_DONE) (by decide) _)
  · exact ⟨rfl, rfl, rfl, hpoison⟩

theorem pullAhead_cleanFrom {s : State} (hpoison : s.mem.poison = []) (ba : Nat) : CleanFrom s (pullAhead ba s) := by
  unfold pullAhead
  dsimp only
  split
  · have hmark := setMem_cleanFrom (s := s) (k := fun m => { m with ahead := Sparse.set m.ahead (stepOf ba) 1 }) hpoison
    have hcount := hmark.trans (inc_cleanFrom hmark.poison (f := MEM_SWEEP_PULLS) (by decide))
    exact hcount.trans (sweepTo_cleanFrom hcount.poison 0)
  · exact ⟨rfl, rfl, rfl, hpoison⟩

theorem lookup_cleanFrom {s : State} (hpoison : s.mem.poison = []) (line : Nat) : CleanFrom s (lookup line s).2 := by
  unfold lookup
  split
  · split
    · exact ⟨rfl, rfl, rfl, hpoison⟩
    · exact inc_cleanFrom hpoison (by decide)
  · exact ⟨rfl, rfl, rfl, hpoison⟩

theorem setLine_cleanFrom {s : State} (hpoison : s.mem.poison = []) (line way v : Nat) : CleanFrom s (setLine line way v s) :=
  ⟨rfl, rfl, get_put_ne _ _ _ _ (by decide), hpoison⟩

/-- A clean store: its bytes are in buffer memory, and all else of MEM stays clean. -/
def StoresClean (ba : Nat) (data : List Byte) (s t : State) : Prop := CleanFrom s t ∧ t.mem.bytes = s.mem.bytes.writes ba data

theorem storesClean_of {ba : Nat} {data : List Byte} {r s t : State} (hclean : CleanFrom r s) (hkept : s.kept = r.kept)
    (h : StoresClean ba data s t) : StoresClean ba data r t :=
  ⟨hclean.trans h.1, by rw [← kept_mem hkept]; exact h.2⟩

theorem storeBlock_clean {s : State} (hpoison : s.mem.poison = []) (src ba : Nat) (data : List Byte) :
    StoresClean ba data s (storeBlock src ba data {} s).2 := by
  unfold storeBlock
  split
  · exact ⟨⟨rfl, rfl, rfl, by simp [State.setMem, hpoison, Sparse.set]⟩, rfl⟩
  · rw [readBlock_clean hpoison]
    exact ⟨⟨rfl, rfl, rfl, hpoison⟩, rfl⟩

theorem storeLine_clean {s : State} (hpoison : s.mem.poison = []) (ba way : Nat) (data : List Byte) :
    StoresClean ba data s (storeLine ba way data s) :=
  have hbytes := setMem_cleanFrom (s := s) (k := fun m => { m with bytes := m.bytes.writes ba data }) hpoison
  ⟨hbytes.trans (setLine_cleanFrom hbytes.poison _ _ _), rfl⟩

/-- A BAR2 write within one block that reads clean, to a line that does, stores its bytes. -/
theorem bar2Store_clean {s : State} (hpoison : s.mem.poison = []) (ba : Nat) (data : List Byte) :
    StoresClean ba data s (bar2Store ba data {} .clean s) := by
  unfold bar2Store
  dsimp only
  have hpull := pullAhead_cleanFrom hpoison ba
  refine storesClean_of hpull (pullAhead_kept ..) ?_
  generalize pullAhead ba s = s1 at hpull ⊢
  have hlook := lookup_cleanFrom hpull.poison (ba / 256)
  refine storesClean_of hlook (lookup_snd_kept ..) ?_
  split
  next hmiss => rw [hmiss] at hlook ⊢; exact storeBlock_clean hlook.poison ..
  next w s2 hfound =>
    rw [hfound] at hlook ⊢
    have hhit : CleanFrom s2 (s2.inc LRD_HITS_HITS) := inc_cleanFrom hlook.poison (by decide)
    refine storesClean_of hhit (State_inc_kept ..) ?_
    simp only [hitLine]
    split
    · have hdrop := setLine_cleanFrom hhit.poison (ba / 256) w 0
      exact storesClean_of hdrop (dropLine_kept ..) (storeBlock_clean hdrop.poison ..)
    · exact storeLine_clean hhit.poison ..

/-! ### The whole write -/

theorem bar2Block_clean {s : State} (hpoison : s.mem.poison = []) (off : Nat) (data : List Byte) (i : Nat) :
    CleanFrom s (bar2Block off data [] [] i s) := by
  unfold bar2Block
  split
  · split
    · exact ⟨rfl, rfl, rfl, hpoison⟩
    · exact (bar2Store_clean hpoison ..).1
  · exact ⟨rfl, rfl, rfl, hpoison⟩

/-- Byte `k` of a write is in memory after its block's part. -/
theorem bar2Block_stores {s : State} (hpoison : s.mem.poison = []) {off k a i : Nat} {data : List Byte} (hk : k < data.length)
    (ha : s.diagAddr (off + k) = some a) (hi : (off + k) / 64 = off / 64 + i) :
    Memory.read (bar2Block off data [] [] i s).mem.bytes a = data.getD k 0 := by
  have hfrom : off ≤ bar2From off i ∧ 64 * (off / 64 + i) ≤ bar2From off i ∧ bar2From off i ≤ off + k := by
    unfold bar2From
    omega
  obtain ⟨r, hr, happ, hlt, rfl⟩ := diagAddr_eq_some ha
  have hba : s.diagAddr (bar2From off i) = some (r.base * 65536 + bar2From off i) := diagAddr_of_region hr happ (by omega)
  have hlen : off + k - bar2From off i < (bar2Part off data i).length := by
    simp only [bar2Part, List.length_take, List.length_drop]
    omega
  have hne : (bar2Part off data i).isEmpty = false := by
    cases h : bar2Part off data i with
    | nil => simp [h] at hlen
    | cons => rfl
  unfold bar2Block
  simp only [hba, hne, Bool.false_eq_true, if_false]
  rw [show (([] : List BlockRead).getD i {}) = {} from rfl, show (([] : List LineOutcome).getD i .clean) = .clean from rfl,
    (bar2Store_clean hpoison ..).2, Memory.read_writes, if_pos (by omega)]
  rw [show r.base * 65536 + (off + k) - (r.base * 65536 + bar2From off i) = off + k - bar2From off i by omega,
    List.getD_eq_getElem _ _ hlen, List.getD_eq_getElem _ _ hk]
  simp only [bar2Part, List.getElem_take, List.getElem_drop]
  congr 1
  omega

/-- A block's part leaves the bytes of the other blocks alone. -/
theorem bar2Block_other {s : State} {off k a i : Nat} {data : List Byte} (ha : s.diagAddr (off + k) = some a)
    (hi : (off + k) / 64 ≠ off / 64 + i) :
    Memory.read (bar2Block off data [] [] i s).mem.bytes a = Memory.read s.mem.bytes a := by
  obtain ⟨r, hr, happ, hlt, rfl⟩ := diagAddr_eq_some ha
  unfold bar2Block
  split
  case h_2 => rfl
  case h_1 ba hba =>
    split
    · rfl
    · obtain ⟨r', hr', -, -, rfl⟩ := diagAddr_eq_some hba
      cases hr.symm.trans hr'
      rcases (bar2Store_storesOrNot (r.base * 65536 + bar2From off i) (bar2Part off data i) (([] : List BlockRead).getD i {})
        (([] : List LineOutcome).getD i .clean) s).2 with hbytes | hbytes
      · rw [hbytes]
      · have hblock := (bar2Part_length_le off data i).1
        have hfrom : 64 * (off / 64 + i) ≤ bar2From off i := Nat.le_max_right ..
        rw [hbytes, Memory.read_writes]
        split
        · rw [List.getD_eq_default _ _ (by omega)]
        · rfl

/-- The first `n` parts of a clean write store the bytes of their blocks. -/
theorem bar2Blocks_store {s : State} (hpoison : s.mem.poison = []) (off : Nat) (data : List Byte) (n : Nat) :
    CleanFrom s (forUpTo n (bar2Block off data [] []) s) ∧
      ∀ k < data.length, ∀ a, s.diagAddr (off + k) = some a → (off + k) / 64 < off / 64 + n →
        Memory.read (forUpTo n (bar2Block off data [] []) s).mem.bytes a = data.getD k 0 := by
  induction n with
  | zero => exact ⟨⟨rfl, rfl, rfl, hpoison⟩, fun k _ a _ hlt => by omega⟩
  | succ n ih =>
    obtain ⟨hclean, hbytes⟩ := ih
    rw [forUpTo_succ]
    refine ⟨hclean.trans (bar2Block_clean hclean.poison off data n), fun k hk a ha hlt => ?_⟩
    have ha' := (hclean.diagAddr (off + k)).trans ha
    by_cases hi : (off + k) / 64 = off / 64 + n
    · exact bar2Block_stores hclean.poison hk ha' hi
    · exact (bar2Block_other ha' hi).trans (hbytes k hk a ha (by omega))

/-- Settles O47: the blocks of a write, one after the other. -/
theorem bar2WriteStoresItsBytes : Obligations.Bar2WriteStoresItsBytes := by
  unfold Obligations.Bar2WriteStoresItsBytes
  refine ⟨?frame, ?stores⟩
  case frame =>
    intro p off data reach os ls s t ht a ha
    change execBar2Write p off data reach os ls s = _ at ht
    unfold execBar2Write State.doIf at ht
    cases ht
    split
    next hrun =>
      have happ : s.applied = true := (Bool.and_eq_true_iff.mp hrun).2
      dsimp only
      split
      · rfl
      · rw [bar2Write_eq]
        refine (List.foldlRecOn _ _ (motive := fun u : State => u.cnv = s.cnv ∧ Memory.read u.mem.bytes a = Memory.read s.mem.bytes a)
          ⟨sweepTo_cnv reach s, by rw [kept_mem (sweepTo_kept reach s)]⟩ fun u hu i _ => ?_).2
        obtain ⟨hcnv, hread⟩ := bar2Block_frame happ ha os ls i hu.1
        exact ⟨hcnv, hread.trans hu.2⟩
    next => rfl
  case stores =>
    intro p off data reach s hon happ hmgmt hpoison
    have hsweep := sweepTo_cleanFrom hpoison reach
    refine ⟨bar2Write off.toNat data [] [] (sweepTo reach s), ?_, fun k hk a ha => ?_⟩
    · show execBar2Write p off data reach [] [] s = _
      refine (doIf_true _ (Bool.and_eq_true_iff.mpr ⟨hon, happ⟩)).trans (congrArg _ (if_neg (by simp [hmgmt])))
    · rw [bar2Write_eq]
      exact (bar2Blocks_store hsweep.poison off.toNat data _).2 k hk a ((hsweep.diagAddr _).trans ha) (by omega)

end Sys2Proof.Machine
end

section
/-! PROOFS. Deliveries of the DMA channels: a delivery changes the bytes of its destination alone, and a wrap those from the buffer's start on
(R446, R448, R449). -/

namespace Sys2Proof.Machine
open R

/-! ### An access of MEM leaves the channels' registers alone -/

/-- The registers of the DMA channels, the block 0x15. -/
def State.dmaRegs (s : State) (g : Fld) : Nat := if block g.off = 0x15 then s.get g else 0

theorem dmaRegs_get {s t : State} (h : t.dmaRegs = s.dmaRegs) {g : Fld} (hg : block g.off = 0x15) : t.get g = s.get g := by
  have hsame := congrFun h g
  rwa [State.dmaRegs, State.dmaRegs, if_pos hg, if_pos hg] at hsame

theorem dmaRegs_of_get {s t : State} (h : ∀ g : Fld, block g.off = 0x15 → t.get g = s.get g) : t.dmaRegs = s.dmaRegs := by
  funext g
  unfold State.dmaRegs
  split
  next hg => exact h g hg
  next => rfl

theorem put_dmaRegs {f : Fld} (hf : block f.off ≠ 0x15) (s : State) (v : Nat) : (s.put f v).dmaRegs = s.dmaRegs :=
  dmaRegs_of_get fun _ hg => get_put_block (by rwa [hg]) s v

theorem puts_dmaRegs (l : List (Fld × Nat)) : ∀ s : State, (∀ f ∈ l.map Prod.fst, block f.off ≠ 0x15) → (s.puts l).dmaRegs = s.dmaRegs := by
  induction l with
  | nil => exact fun _ _ => rfl
  | cons p l ih =>
    intro s h
    rw [puts_cons]
    exact (ih _ fun f hf => h f (List.mem_cons_of_mem _ hf)).trans (put_dmaRegs (h p.1 List.mem_cons_self) s p.2)

theorem when_dmaRegs {b : Bool} {k : State → State} {s : State} (h : (k s).dmaRegs = s.dmaRegs) : (s.when b k).dmaRegs = s.dmaRegs := by
  cases b
  · rfl
  · exact h

theorem foldl_snd_dmaRegs {α β : Type} {k : β × State → α → β × State} (h : ∀ x c, (k x c).2.dmaRegs = x.2.dmaRegs) (l : List α)
    (x : β × State) : (l.foldl k x).2.dmaRegs = x.2.dmaRegs :=
  List.foldlRecOn _ _ (motive := fun y => y.2.dmaRegs = x.2.dmaRegs) rfl fun y hy c _ => (h y c).trans hy

theorem eventRec_dmaRegs (tag detail : Nat) (args : List Nat) (urgent : Bool) (s : State) :
    (eventRec tag detail args urgent s).dmaRegs = s.dmaRegs :=
  dmaRegs_of_get fun _ hg => eventRec_get (by rw [hg]; decide) tag detail args urgent s

theorem logFlt_dmaRegs (src kind code unit : Nat) (args : List Nat) (s : State) : (logFlt src kind code unit args s).dmaRegs = s.dmaRegs :=
  (when_dmaRegs (put_dmaRegs (by decide) _ _)).trans ((put_dmaRegs (by decide) _ _).trans
    (dmaRegs_of_get fun _ hg => pushPkt_get_block (by rw [hg]; decide) (by decide) _ false s))

theorem noteCe_dmaRegs (src blk : Nat) (s : State) : (noteCe src blk s).dmaRegs = s.dmaRegs := by
  have hcount : ((((s.inc MEM_CECNT_CE).puts [(MEM_CELAST_SRC, src), (MEM_CELAST_BLOCK, blk)]).inc MEM_CE_BUCKET_LEVEL)).dmaRegs = s.dmaRegs :=
    (put_dmaRegs (by decide) _ _).trans ((puts_dmaRegs _ _ (by simp; decide)).trans (put_dmaRegs (by decide) s _))
  refine Eq.trans ?_ hcount
  unfold noteCe bucketCheck
  dsimp only
  split
  · exact (eventRec_dmaRegs ..).trans ((put_dmaRegs (by decide) _ _).trans (put_dmaRegs (by decide) _ _))
  · rfl

theorem noteUe_dmaRegs (src blk k : Nat) (s : State) : (noteUe src blk k s).dmaRegs = s.dmaRegs :=
  (logFlt_dmaRegs ..).trans ((when_dmaRegs ((put_dmaRegs (by decide) _ _).trans (put_dmaRegs (by decide) _ _))).trans
    ((puts_dmaRegs _ _ (by simp; decide)).trans ((put_dmaRegs (by decide) _ _).trans
      (put_dmaRegs (by decide) (s.setMem fun m => { m with errs := ((k, blk) :: m.errs).take 65536 }) _))))

theorem readBlock_dmaRegs (src blk : Nat) (o : BlockRead) (s : State) : (readBlock src blk o s).2.dmaRegs = s.dmaRegs := by
  unfold readBlock
  dsimp only
  split
  · rfl
  · split
    · exact noteCe_dmaRegs ..
    · exact noteUe_dmaRegs ..

theorem pullAhead_dmaRegs (ba : Nat) (s : State) : (pullAhead ba s).dmaRegs = s.dmaRegs := by
  have hsweep (t : State) : (sweepTo 0 t).dmaRegs = t.dmaRegs := by
    unfold sweepTo
    split
    · exact put_dmaRegs (f := MEM_SWEEP_DONE) (by decide) (t.setMem _) _
    · rfl
  unfold pullAhead
  dsimp only
  split
  · exact (hsweep _).trans (put_dmaRegs (f := MEM_SWEEP_PULLS) (by decide) (s.setMem _) _)
  · rfl

theorem lookup_dmaRegs (line : Nat) (s : State) : (lookup line s).2.dmaRegs = s.dmaRegs := by
  unfold lookup
  split
  · split
    · rfl
    · exact put_dmaRegs (by decide) s _
  · rfl

theorem setLine_dmaRegs (line way v : Nat) (s : State) : (setLine line way v s).dmaRegs = s.dmaRegs :=
  put_dmaRegs (f := LRD_DIRTY_LINES) (by decide) (s.setLrd _) _

theorem fillLine_dmaRegs (line blk : Nat) (o : BlockRead) (s : State) : (fillLine line blk o s).2.dmaRegs = s.dmaRegs := by
  unfold fillLine
  refine foldl_snd_dmaRegs (fun x i => ?_) _ (true, s)
  exact readBlock_dmaRegs ..

theorem allocate_dmaRegs (line way : Nat) (dirty : Bool) (s : State) : (allocate line way dirty s).dmaRegs = s.dmaRegs := by
  have hback (l : Nat) : (writeBack l way s).dmaRegs = s.dmaRegs := by
    unfold writeBack
    split
    · exact List.foldlRecOn _ _ (motive := fun t : State => t.dmaRegs = s.dmaRegs) rfl fun t ht _ _ => ht
    · rfl
  unfold allocate
  dsimp only
  refine (setLine_dmaRegs ..).trans ((put_dmaRegs (by decide) _ _).trans ?_)
  split
  · rfl
  · exact hback _

/-! ### Loads -/

theorem missLoad_dmaRegs (src blk : Nat) (o : BlockRead) (s : State) : (missLoad src blk o s).2.dmaRegs = s.dmaRegs := by
  unfold missLoad
  dsimp only
  split
  · exact readBlock_dmaRegs ..
  · split
    · exact (allocate_dmaRegs ..).trans (fillLine_dmaRegs ..)
    · exact fillLine_dmaRegs ..

theorem memLoad_dmaRegs (src blk : Nat) (o : BlockRead) (s : State) : (memLoad src blk o .clean s).2.dmaRegs = s.dmaRegs := by
  have hlook := (lookup_dmaRegs (blk / 4) (pullAhead (64 * blk) s)).trans (pullAhead_dmaRegs _ s)
  unfold memLoad
  dsimp only
  split
  next t hmiss =>
    rw [hmiss] at hlook
    exact (missLoad_dmaRegs ..).trans hlook
  next w t hhit =>
    rw [hhit] at hlook
    exact (put_dmaRegs (f := LRD_HITS_HITS) (by decide) t _).trans hlook

theorem dmaLoad_dmaRegs (a n : Nat) (s : State) : (dmaLoad a n s).2.dmaRegs = s.dmaRegs := by
  unfold dmaLoad
  refine foldl_snd_dmaRegs (fun x b => ?_) _ (true, s)
  exact memLoad_dmaRegs ..

/-- A load that succeeds answers as many bytes as it was asked for. -/
theorem dmaLoad_length {a n : Nat} {s t : State} {data : List Byte} (h : dmaLoad a n s = (some data, t)) : data.length = n := by
  have hdata := congrArg Prod.fst h
  unfold dmaLoad at hdata
  dsimp only at hdata
  split at hdata
  · cases hdata; simp
  · cases hdata

/-! ### Stores -/

/-- From the first state to the second, the channels' registers stay, and so does every byte outside the `n` from `ba` on. -/
def StoresWithin (ba n : Nat) (s t : State) : Prop :=
  t.dmaRegs = s.dmaRegs ∧ ∀ a, (a < ba ∨ ba + n ≤ a) → Memory.read t.mem.bytes a = Memory.read s.mem.bytes a

section Stores
variable {ba n : Nat}

theorem storesWithin_of_kept {s t : State} (hregs : t.dmaRegs = s.dmaRegs) (hkept : t.kept = s.kept) : StoresWithin ba n s t :=
  ⟨hregs, fun _ _ => by rw [kept_mem hkept]⟩

theorem StoresWithin.trans {r s t : State} (h : StoresWithin ba n r s) (k : StoresWithin ba n s t) : StoresWithin ba n r t :=
  ⟨k.1.trans h.1, fun a ha => (k.2 a ha).trans (h.2 a ha)⟩

theorem StoresWithin.mono {ba' n' : Nat} {s t : State} (h : StoresWithin ba' n' s t) (hlo : ba ≤ ba') (hhi : ba' + n' ≤ ba + n) :
    StoresWithin ba n s t := ⟨h.1, fun a ha => h.2 a (by omega)⟩

theorem setMem_storesWithin {k : MemSt → MemSt} {s : State} {data : List Byte} (hk : (k s.mem).bytes = s.mem.bytes.writes ba data) :
    StoresWithin ba data.length s (s.setMem k) := by
  refine ⟨rfl, fun a ha => ?_⟩
  show Memory.read (k s.mem).bytes a = _
  rw [hk, Memory.read_writes]
  split
  · exact List.getD_eq_default _ _ (by omega)
  · rfl

theorem foldl_snd_storesWithin {α β : Type} {k : β × State → α → β × State} {l : List α} (x : β × State)
    (h : ∀ y, ∀ c ∈ l, StoresWithin ba n y.2 (k y c).2) : StoresWithin ba n x.2 (l.foldl k x).2 :=
  List.foldlRecOn _ _ (motive := fun y => StoresWithin ba n x.2 y.2) ⟨rfl, fun _ _ => rfl⟩ fun y hy c hc => hy.trans (h y c hc)

end Stores

theorem storeBlock_storesWithin (src ba : Nat) (data : List Byte) (o : BlockRead) (s : State) :
    StoresWithin ba data.length s (storeBlock src ba data o s).2 := by
  unfold storeBlock
  split
  · exact setMem_storesWithin rfl
  · have hread : StoresWithin ba data.length s (readBlock src (ba / 64) o s).2 :=
      storesWithin_of_kept (readBlock_dmaRegs ..) (readBlock_snd_kept ..)
    refine hread.trans ?_
    generalize readBlock src (ba / 64) o s = r
    dsimp only
    split
    · exact setMem_storesWithin rfl
    · exact ⟨rfl, fun _ _ => rfl⟩

/-- Each part of a store lies within it. -/
theorem blockParts_within {ba : Nat} {data : List Byte} {p : Nat × List Byte} (h : p ∈ blockParts ba data) :
    ba ≤ p.1 ∧ p.1 + p.2.length ≤ ba + data.length := by
  simp only [blockParts, List.mem_filter, List.mem_map, List.mem_range] at h
  obtain ⟨⟨i, -, rfl⟩, hne⟩ := h
  simp only [Bool.not_eq_true', List.isEmpty_eq_false_iff, ne_eq, ← List.length_pos_iff, List.length_take, List.length_drop] at hne ⊢
  omega

theorem storeDirect_storesWithin (src ba : Nat) (data : List Byte) (s : State) :
    StoresWithin ba data.length s (storeDirect src ba data s).2 :=
  foldl_snd_storesWithin (true, s) fun y p hp =>
    (storeBlock_storesWithin src p.1 p.2 {} y.2).mono (blockParts_within hp).1 (blockParts_within hp).2

theorem storeLine_storesWithin (ba way : Nat) (data : List Byte) (s : State) : StoresWithin ba data.length s (storeLine ba way data s) :=
  (setMem_storesWithin (k := fun m => { m with bytes := m.bytes.writes ba data }) rfl).trans
    (storesWithin_of_kept (setLine_dmaRegs ..) (setLine_kept ..))

theorem missStore_storesWithin (src ba run : Nat) (data : List Byte) (s : State) :
    StoresWithin ba data.length s (missStore src ba run data s).2 := by
  have halloc (w : Nat) (t : State) : StoresWithin ba data.length t (storeLine ba w data (allocate (ba / 256) w true t)) :=
    (storesWithin_of_kept (allocate_dmaRegs ..) (allocate_kept ..)).trans (storeLine_storesWithin ..)
  unfold missStore
  dsimp only
  split
  · exact storeDirect_storesWithin ..
  next w _ =>
    split
    · split
      · exact (storesWithin_of_kept (put_dmaRegs (by decide) s _) (State_inc_kept s LRD_SEQCNT_BYPASS)).trans (storeDirect_storesWithin ..)
      · exact halloc w s
    · have hfill : StoresWithin ba data.length s (fillLine (ba / 256) (ba / 64) {} s).2 :=
        storesWithin_of_kept (fillLine_dmaRegs ..) (fillLine_snd_kept ..)
      refine hfill.trans ?_
      generalize fillLine (ba / 256) (ba / 64) {} s = f
      dsimp only
      split
      · exact halloc w _
      · exact ⟨rfl, fun _ _ => rfl⟩

theorem lineStore_storesWithin (src ba : Nat) (data : List Byte) (s : State) :
    StoresWithin ba data.length s (lineStore src ba data .clean s).2 := by
  unfold lineStore
  dsimp only
  generalize hu : pullAhead ba _ = u
  have hpull : StoresWithin ba data.length s u := by
    subst hu
    exact storesWithin_of_kept (pullAhead_dmaRegs ..) (pullAhead_kept ..)
  have hlook : StoresWithin ba data.length u (lookup (ba / 256) u).2 := storesWithin_of_kept (lookup_dmaRegs ..) (lookup_snd_kept ..)
  refine hpull.trans (hlook.trans ?_)
  split
  next t hmiss => rw [hmiss]; exact missStore_storesWithin ..
  next w t hhit =>
    rw [hhit]
    have hcount : StoresWithin ba data.length t (t.inc LRD_HITS_HITS) :=
      storesWithin_of_kept (put_dmaRegs (by decide) t _) (State_inc_kept t LRD_HITS_HITS)
    refine hcount.trans ?_
    simp only [hitLine]
    split
    · exact (storesWithin_of_kept (setLine_dmaRegs ..) (dropLine_kept ..)).trans (storeDirect_storesWithin ..)
    · exact storeLine_storesWithin ..

theorem memStore_storesWithin (src ba : Nat) (data : List Byte) (s : State) :
    StoresWithin ba data.length s (memStore src ba data [] s).2 := by
  refine foldl_snd_storesWithin (true, s) fun y i _ => ?_
  dsimp only
  split
  · exact ⟨rfl, fun _ _ => rfl⟩
  next hne =>
    refine (lineStore_storesWithin src _ _ y.2).mono (Nat.le_max_left ..) ?_
    simp only [List.isEmpty_iff, ← List.length_eq_zero_iff, List.length_take, List.length_drop] at hne ⊢
    omega

/-! ### Deliveries -/

theorem dmaDeliver_dspace (c : Chan) (data : List Byte) (s : State) :
    (dmaDeliver c data s).get (DMA_CTRL_DSPACE c) = s.get (DMA_CTRL_DSPACE c) := by
  have hblock : ∀ c : Chan, block (DMA_CTRL_DSPACE c).off = 0x15 := by decide
  have hputs : ∀ c : Chan, ∀ f ∈ [DMA_DST_LO_ADDR c, DMA_DST_HI_ADDR c, DMA_LEN_LEN c], f.key ≠ (DMA_CTRL_DSPACE c).key := by decide
  have hstats : ∀ c : Chan, ∀ f ∈ [DMA_STAT_BUSY c, DMA_STAT_PAUSED c, DMA_STAT_DONE c, DMA_STAT_ERR c],
      f.key ≠ (DMA_CTRL_DSPACE c).key := by decide
  have hirq : ∀ c : Chan, FIF_IRQ_ST_FIFO.key ≠ (DMA_CTRL_DSPACE c).key ∧ FIF_IRQ_ST_DMA.key ≠ (DMA_CTRL_DSPACE c).key := by decide
  have hadvance (a n : Nat) (t : State) : ((setDst c a t).put (DMA_LEN_LEN c) n).get (DMA_CTRL_DSPACE c) = t.get (DMA_CTRL_DSPACE c) :=
    (get_put_ne _ _ _ _ (hputs c _ (by simp))).trans ((get_put_ne _ _ _ _ (hputs c _ (by simp))).trans
      (get_put_ne _ _ _ _ (hputs c _ (by simp))))
  have hend (t : State) : (dmaEnd c dERR_MEMORY t).get (DMA_CTRL_DSPACE c) = t.get (DMA_CTRL_DSPACE c) := by
    have hstat := get_puts_ne (DMA_CTRL_DSPACE c) [(DMA_STAT_BUSY c, 0), (DMA_STAT_PAUSED c, 0), (DMA_STAT_DONE c, 1),
      (DMA_STAT_ERR c, dERR_MEMORY)] t (by simpa using hstats c)
    unfold dmaEnd
    dsimp only
    split
    · exact (raiseIrq_get (hirq c).1 (hirq c).2 _ _).trans hstat
    · exact hstat
  have hstore (a : Nat) : (memStore srcDMA a data [] s).2.get (DMA_CTRL_DSPACE c) = s.get (DMA_CTRL_DSPACE c) :=
    dmaRegs_get (memStore_storesWithin ..).1 (hblock c)
  unfold dmaDeliver
  dsimp only
  split
  · exact hadvance _ _ _
  · split
    · exact (hadvance _ _ _).trans (hstore _)
    · exact (hend _).trans ((hadvance _ _ _).trans (hstore _))

/-- A delivery changes the bytes of its destination alone, and none where that is the host's. -/
theorem dmaDeliver_bytes (c : Nat) (data : List Byte) (s : State) {a : Nat}
    (ha : (a < s.dmaDst c ∨ s.dmaDst c + data.length ≤ a) ∨ s.get (DMA_CTRL_DSPACE c) = spHOST) :
    Memory.read (dmaDeliver c data s).mem.bytes a = Memory.read s.mem.bytes a := by
  unfold dmaDeliver
  dsimp only
  split
  · exact congrArg (Memory.read · a) (kept_mem (by simp))
  next hspace =>
    have hstored := (memStore_storesWithin srcDMA (s.dmaDst c) data s).2 a (ha.resolve_right (by simpa using hspace))
    generalize memStore srcDMA (s.dmaDst c) data [] s = r at hstored ⊢
    refine Eq.trans (congrArg (Memory.read · a) (kept_mem ?_)) hstored
    split <;> simp

/-! ### The commands -/

/-- Clause 1 of O48 holds in every state. -/
theorem dmaReadCompletion_bytes {c : Chan} {n : Nat} {data : List Byte} {left : Nat} {s t : State}
    (ht : exec (.dmaReadCompletion c n data left) s = .next t) {a : Nat}
    (ha : a < s.dmaDst c ∨ s.dmaDst c + n ≤ a ∨ s.get (DMA_CTRL_DSPACE c) = spHOST) :
    Memory.read t.mem.bytes a = Memory.read s.mem.bytes a := by
  have hregs : ∀ c : Chan, ∀ f ∈ [DMA_DST_LO_ADDR c, DMA_DST_HI_ADDR c, DMA_CTRL_DSPACE c], block f.off = 0x15 ∧
      (DMA_SRC_LO_ADDR c).key ≠ f.key ∧ (DMA_SRC_HI_ADDR c).key ≠ f.key := by decide
  have hdeliver (bytes : List Byte) (hlen : bytes.length = n) (u : State) (hu : u.dmaRegs = s.dmaRegs) (hkept : u.kept = s.kept) (src : Nat)
      (k : DmaSt → DmaSt) : Memory.read (dmaDeliver c bytes (setSrc c src (u.setDma c k))).mem.bytes a = Memory.read s.mem.bytes a := by
    have hget (f : Fld) (hf : f ∈ [DMA_DST_LO_ADDR c, DMA_DST_HI_ADDR c, DMA_CTRL_DSPACE c]) :
        (setSrc c src (u.setDma c k)).get f = s.get f := by
      obtain ⟨hblock, hlo, hhi⟩ := hregs c f hf
      exact (get_put_ne _ _ _ _ hhi).trans ((get_put_ne _ _ _ _ hlo).trans (dmaRegs_get hu hblock))
    have hdst : (setSrc c src (u.setDma c k)).dmaDst c = s.dmaDst c := by
      rw [State.dmaDst, State.dmaDst, hget _ (by simp), hget _ (by simp)]
    refine (dmaDeliver_bytes c bytes _ ?_).trans (congrArg (Memory.read · a) (kept_mem ((by simp : State.kept _ = u.kept).trans hkept)))
    rw [hdst, hlen, hget _ (by simp)]
    exact or_assoc.mpr ha
  have hpaused (b : Bool) (u : State) : (u.when b fun u => u.put (DMA_STAT_PAUSED c) 1).mem.bytes = u.mem.bytes := by cases b <;> rfl
  change execDmaReadCompletion c n data left s = _ at ht
  unfold execDmaReadCompletion State.doIf at ht
  cases ht
  split
  next hrun =>
    simp only [Bool.and_eq_true, Bool.or_eq_true, Bool.not_eq_true', beq_iff_eq] at hrun
    obtain ⟨⟨-, hlen⟩, -⟩ := hrun
    dsimp only
    split
    next u hload =>
      split at hload
      · cases hload
      · exact congrArg (Memory.read · a) (kept_mem ((dmaEnd_kept ..).trans (dmaLoad_kept hload)))
    next bytes u hload =>
      rw [hpaused]
      split at hload
      next hhost =>
        cases hload
        exact hdeliver data (hlen.resolve_left (by simp [hhost])) s rfl rfl _ _
      next =>
        have hkeep := dmaLoad_dmaRegs (s.dmaSrc c) n s
        rw [hload] at hkeep
        exact hdeliver bytes (dmaLoad_length hload) u hkeep (dmaLoad_kept hload) _ _
  next => rfl

/-- A pass that starts again at an address of 64 bits delivers there, in the space it had. -/
theorem restart_dmaDst (c : Chan) {d : Nat} (hd : d < 2 ^ 64) (n : Nat) (k : DmaSt → DmaSt) (s : State) :
    (((setDst c d s).put (DMA_LEN_LEN c) n).setDma c k).dmaDst c = d ∧
      (((setDst c d s).put (DMA_LEN_LEN c) n).setDma c k).get (DMA_CTRL_DSPACE c) = s.get (DMA_CTRL_DSPACE c) := by
  have hhalves : ∀ c : Chan, (DMA_DST_HI_ADDR c).key ≠ (DMA_DST_LO_ADDR c).key := by decide
  have hlen : ∀ c : Chan, ∀ f ∈ [DMA_DST_LO_ADDR c, DMA_DST_HI_ADDR c, DMA_CTRL_DSPACE c], (DMA_LEN_LEN c).key ≠ f.key := by decide
  have hspace : ∀ c : Chan, ∀ f ∈ [DMA_DST_LO_ADDR c, DMA_DST_HI_ADDR c], f.key ≠ (DMA_CTRL_DSPACE c).key := by decide
  have hlo : ((setDst c d s).put (DMA_LEN_LEN c) n).get (DMA_DST_LO_ADDR c) = d % 2 ^ 32 :=
    (get_put_ne _ _ _ _ (hlen c _ (by simp))).trans ((get_put_ne _ _ _ _ (hhalves c)).trans (get_put_self _ _ _))
  have hhi : ((setDst c d s).put (DMA_LEN_LEN c) n).get (DMA_DST_HI_ADDR c) = d / 2 ^ 32 % 2 ^ 32 :=
    (get_put_ne _ _ _ _ (hlen c _ (by simp))).trans (get_put_self _ _ _)
  have hdst : ((setDst c d s).put (DMA_LEN_LEN c) n).dmaDst c = d := by
    rw [State.dmaDst, hlo, hhi]
    omega
  refine ⟨hdst, ?_⟩
  exact (get_put_ne _ _ _ _ (hlen c _ (by simp))).trans ((get_put_ne _ _ _ _ (hspace c _ (by simp))).trans
    (get_put_ne _ _ _ _ (hspace c _ (by simp))))

/-- A packet that crosses the end of a circular buffer changes the bytes from the destination and from the buffer's start on. -/
theorem dmaWrap_bytes {c : Chan} {s : State} (hstart : (s.dmaSt c).dst0 < 2 ^ 64) (data : List Byte) {a : Nat}
    (ha : ((a < s.dmaDst c ∨ s.dmaDst c + data.length ≤ a) ∧ (a < (s.dmaSt c).dst0 ∨ (s.dmaSt c).dst0 + data.length ≤ a)) ∨
      s.get (DMA_CTRL_DSPACE c) = spHOST) :
    Memory.read (dmaWrap c data s).mem.bytes a = Memory.read s.mem.bytes a := by
  have hfirst : Memory.read (dmaDeliver c (data.take (s.get (DMA_LEN_LEN c))) s).mem.bytes a = Memory.read s.mem.bytes a := by
    refine dmaDeliver_bytes c _ s (ha.imp_left fun h => ?_)
    rw [List.length_take]
    omega
  have hkeep := dmaDeliver_dspace c (data.take (s.get (DMA_LEN_LEN c))) s
  unfold dmaWrap State.when
  dsimp only
  generalize dmaDeliver c (data.take (s.get (DMA_LEN_LEN c))) s = v at hfirst hkeep ⊢
  split
  next =>
    obtain ⟨hdst, hspace⟩ := restart_dmaDst c hstart (s.dmaSt c).len0 (fun d => { d with wrapDue := true }) v
    rw [← hfirst]
    refine (dmaDeliver_bytes c _ _ (ha.imp (fun h => ?_) fun h => hspace.trans (hkeep.trans h))).trans rfl
    rw [hdst, List.length_drop]
    omega
  next => exact hfirst

/-- Clause 2 of O48 holds where the start of the buffer is an address that DMA_DST holds. -/
theorem dmaFifoPacket_bytes {c : Chan} {s t : State} (hstart : (s.dmaSt c).dst0 < 2 ^ 64) (ht : exec (.dmaFifoPacket c) s = .next t) {a : Nat}
    (ha : ((a < s.dmaDst c ∨ s.dmaDst c + 4 * (s.dmaPacket c).length ≤ a) ∧
        (s.flag (DMA_CTRL_CIRC c) = true → a < (s.dmaSt c).dst0 ∨ (s.dmaSt c).dst0 + 4 * (s.dmaPacket c).length ≤ a)) ∨
      s.get (DMA_CTRL_DSPACE c) = spHOST) :
    Memory.read t.mem.bytes a = Memory.read s.mem.bytes a := by
  change execDmaFifoPacket c s = _ at ht
  unfold execDmaFifoPacket State.doIf at ht
  cases ht
  split
  case isFalse => rfl
  case isTrue hrun =>
    simp only [Bool.and_eq_true, Bool.or_eq_true, decide_eq_true_iff] at hrun
    obtain ⟨-, hroom⟩ := hrun
    dsimp only at hroom ⊢
    have hlen : ((s.dmaPacket c).flatMap fun w => (List.range 4).map fun i => BitVec.ofNat 8 (w.toNat / 256 ^ i)).length =
        4 * (s.dmaPacket c).length := by simp [List.length_flatMap, Nat.mul_comm]
    generalize ((s.dmaPacket c).flatMap fun w => (List.range 4).map fun i => BitVec.ofNat 8 (w.toNat / 256 ^ i)) = data at hlen hroom ⊢
    rw [← hlen] at ha
    generalize setAt s.fifos (s.dmaSrc c % 4) (s.fifo (s.dmaSrc c % 4)).next = q
    split
    next => exact dmaDeliver_bytes c data { s with fifos := q } (ha.imp_left And.left)
    next hover =>
      have hcirc : s.flag (DMA_CTRL_CIRC c) = true := (hroom.resolve_left hover).1
      exact dmaWrap_bytes (s := { s with fifos := q }) hstart data (ha.imp_left fun h => ⟨h.1, h.2 hcirc⟩)

/-! ### The obligation -/

/-- Channel 1 moves packets of FIFO 0 into a circular buffer of 8 bytes, 4 bytes of whose pass are left at 4096. The start of the buffer is
2^64, which is past what the two halves of DMA_DST hold. -/
def circularPastDst : State :=
  { State.reset.puts [(DMA_STAT_BUSY 1, 1), (DMA_CTRL_SSPACE 1, spFIFO), (DMA_CTRL_DSPACE 1, spBUFFER), (DMA_CTRL_CIRC 1, 1),
      (DMA_SRC_LO_ADDR 1, 0), (DMA_DST_LO_ADDR 1, 4096), (DMA_LEN_LEN 1, 4)] with
    fifos := [{ pkts := [[1#32, 2#32]] }, {}, {}]
    dma := [{}, { dst0 := 2 ^ 64, len0 := 8 }] }

/-- Refutes O48: its last clause speaks of every start of a circular buffer, those among them past the 64 bits of DMA_DST. There the second
word of a packet that crosses the end of the buffer goes to address 0, below both the destination and the recorded start. The rest holds: the
clause of the read completions in every state (`dmaReadCompletion_bytes`), the last where the start fits in DMA_DST
(`dmaFifoPacket_bytes`). -/
theorem not_dmaStoresItsBytesOnly : ¬ Obligations.DmaStoresItsBytesOnly := by
  unfold Obligations.DmaStoresItsBytesOnly
  rintro ⟨-, hpacket⟩
  have hsafe : (0 < circularPastDst.dmaDst 1 ∨ circularPastDst.dmaDst 1 + 4 * (circularPastDst.dmaPacket 1).length ≤ 0) ∧
      (circularPastDst.flag (DMA_CTRL_CIRC 1) = true →
        0 < (circularPastDst.dmaSt 1).dst0 ∨ (circularPastDst.dmaSt 1).dst0 + 4 * (circularPastDst.dmaPacket 1).length ≤ 0) := by
    decide +kernel
  obtain ⟨hdst, hstart⟩ := hsafe
  have hstored : ∃ t, exec (.dmaFifoPacket 1) circularPastDst = .next t ∧ Memory.read t.mem.bytes 0 = 2#8 :=
    ⟨_, rfl, by decide +kernel⟩
  obtain ⟨t, ht, hread⟩ := hstored
  have hsame := hpacket 1 circularPastDst t ht 0 (.inl ⟨hdst, hstart⟩)
  exact absurd (hread.symm.trans hsame) (by decide +kernel)

end Sys2Proof.Machine
end

section
/-! PROOFS. An orderly stop for low VIN, and the resume from it (R43, R481, R502): what leaves the state, its cause and the time for which VIN
has been good. -/

namespace Sys2Proof.Machine
open R

/-! ### What leaves the state, its cause and VIN's time alone -/

/-- What a stop for low VIN and the resume from it turn on: the state, its cause, and whether VIN has been good for 100 ms. -/
def State.stopView (s : State) : Nat × Nat × Bool := (s.life, s.get SYS_STATE_CAUSE, s.sys.vinOk100)

theorem stopView_life {s t : State} (h : t.stopView = s.stopView) : t.life = s.life := congrArg (·.1) h
theorem stopView_cause {s t : State} (h : t.stopView = s.stopView) : t.get SYS_STATE_CAUSE = s.get SYS_STATE_CAUSE := congrArg (·.2.1) h
theorem stopView_vinOk {s t : State} (h : t.stopView = s.stopView) : t.sys.vinOk100 = s.sys.vinOk100 := congrArg (·.2.2) h

/-- A field behind the register SYS_STATE. -/
theorem put_stopView {f : Fld} (hf : 8 * 0x100008 ≤ f.key) (s : State) (v : Nat) : (s.put f v).stopView = s.stopView := by
  have hne {g : Fld} (hg : g.key < 8 * 0x100008) : f.key ≠ g.key := Nat.ne_of_gt (Nat.lt_of_lt_of_le hg hf)
  unfold State.stopView State.life
  rw [get_put_ne s f SYS_STATE_STATE v (hne (by decide)), get_put_ne s f SYS_STATE_CAUSE v (hne (by decide))]
  rfl

theorem put_fld_stopView {off b w reset : Nat} {acc : Acc} {setBy : SetBy} (h : 0x100008 ≤ off) (s : State) (v : Nat) :
    (s.put (fld off b w acc setBy reset) v).stopView = s.stopView :=
  put_stopView (f := fld off b w acc setBy reset) (Nat.le_trans (Nat.mul_le_mul_left 8 h) (Nat.le_add_right _ _)) s v

theorem puts_stopView (l : List (Fld × Nat)) : ∀ s : State, (∀ p ∈ l, 8 * 0x100008 ≤ p.1.key) → (s.puts l).stopView = s.stopView := by
  induction l with
  | nil => exact fun _ _ => rfl
  | cons p l ih =>
    intro s h
    rw [puts_cons]
    exact (ih _ fun q hq => h q (List.mem_cons_of_mem _ hq)).trans (put_stopView (h p List.mem_cons_self) s p.2)

theorem when_stopView {b : Bool} {k : State → State} {s : State} (h : (k s).stopView = s.stopView) : (s.when b k).stopView = s.stopView := by
  cases b
  · rfl
  · exact h

theorem foldl_stopView {α : Type} {k : State → α → State} (h : ∀ s x, (k s x).stopView = s.stopView) (l : List α) (s : State) :
    (l.foldl k s).stopView = s.stopView :=
  List.foldlRecOn _ _ (motive := fun t => t.stopView = s.stopView) rfl fun t ht x _ => (h t x).trans ht

theorem forUpTo_stopView {k : Nat → State → State} (h : ∀ i s, (k i s).stopView = s.stopView) (n : Nat) (s : State) :
    (forUpTo n k s).stopView = s.stopView := foldl_stopView (fun s i => h i s) _ s

theorem sendMsix_stopView (s : State) : (sendMsix s).stopView = s.stopView := by
  unfold sendMsix
  split
  · rfl
  · split <;> rfl

theorem raiseIrq_stopView (b : Nat) (s : State) : (raiseIrq b s).stopView = s.stopView := by
  refine raiseIrq_rec (P := fun t => t.stopView = s.stopView) b s rfl fun f hf v => ?_
  have hput : (s.put f v).stopView = s.stopView := by rcases hf with rfl | rfl <;> exact put_stopView (by decide) s v
  exact ⟨hput, (sendMsix_stopView _).trans hput⟩

theorem pushPkt_stopView (i : Nat) (pkt : List Word) (urgent : Bool) (s : State) : (pushPkt i pkt urgent s).stopView = s.stopView := by
  have hpushed : ∀ (t : State) (n : Nat) (torn : Bool), t.stopView = s.stopView →
      ((t.addSat (FIF_LOST_LOST i) n).when torn fun u => u.put (FIF_STAT_TORN i) 1).stopView = s.stopView :=
    fun t _ _ ht => (when_stopView (put_fld_stopView (by omega) _ 1)).trans ((put_fld_stopView (by omega) t _).trans ht)
  unfold pushPkt
  dsimp only
  split
  · exact (raiseIrq_stopView i _).trans (hpushed _ _ _ rfl)
  · exact hpushed _ _ _ rfl

theorem logFlt_stopView (src kind code unit : Nat) (args : List Nat) (s : State) :
    (logFlt src kind code unit args s).stopView = s.stopView :=
  (when_stopView (put_stopView (by decide) _ _)).trans ((put_stopView (by decide) _ _).trans (pushPkt_stopView 2 _ false s))

theorem orderlyStop_stopView (cause tag code unit : Nat) (s : State) : (orderlyStop cause tag code unit s).stopView = s.stopView := by
  unfold orderlyStop
  split
  · rfl
  · split
    · exact logFlt_stopView ..
    · rfl

/-! ### Completions and the Cellar -/

theorem noteError_stopView (p qid cid : Nat) (st : Nat × Nat × Bool) (s : State) : (noteError p qid cid st s).stopView = s.stopView := by
  unfold noteError
  split
  · rfl
  · have hlog : (s.inc HST_ERRCNT_ERRLOG).stopView = s.stopView := put_stopView (by decide) s _
    refine (when_stopView ?_ : (State.when _ _ _).stopView = _).trans hlog
    exact put_stopView (by decide) (s.inc HST_ERRCNT_ERRLOG) _

theorem completeCmd_stopView (p qid cid : Nat) (st : Nat × Nat × Bool) (dw0 : Nat) (s : State) :
    (completeCmd p qid cid st dw0 s).stopView = s.stopView := by
  have hsync (t : State) : (syncLocks (syncInfl p t)).stopView = t.stopView :=
    (put_stopView (by decide) _ _).trans ((put_fld_stopView (by omega) _ _).trans (put_fld_stopView (by omega) t _))
  unfold completeCmd
  split
  · rfl
  · dsimp only
    split
    · exact hsync _
    · exact (noteError_stopView p qid cid st _).trans (hsync _)

theorem celGone_stopView (o : CelOp) (s : State) : (celGone o s).stopView = s.stopView := by
  unfold celGone
  split
  · exact puts_stopView _ s (by decide)
  · split
    · split
      · split
        · exact completeCmd_stopView ..
        · rfl
      · rfl
    · split
      · exact puts_stopView [(DBG_STAT_RESULT, 5), (DBG_STAT_BUSY, 0)] s (by decide)
      · rfl

theorem celRefuse_stopView (s : State) : (celRefuse s).stopView = s.stopView :=
  foldl_stopView (fun t o => (celGone_stopView o _).trans (put_stopView (by decide) t 6)) _ _

theorem celEndPulse_stopView (s : State) : (celEndPulse s).stopView = s.stopView := by
  refine Eq.trans ?_ (celRefuse_stopView s)
  unfold celEndPulse
  generalize celRefuse s = t
  dsimp only
  split
  · rfl
  · split
    · rfl
    · exact celGone_stopView ..

theorem completeUnmounts_stopView (s : State) : (completeUnmounts s).stopView = s.stopView :=
  foldl_stopView (fun _ _ => completeCmd_stopView ..) _ _

/-! ### The sleds and the spindle -/

theorem spindleCoast_stopView (s : State) : (spindleCoast s).stopView = s.stopView := by
  unfold spindleCoast
  dsimp only
  split
  · rfl
  · exact put_stopView (by decide) _ _

theorem sledAtRest_stopView (h : Nat) (s : State) : (sledAtRest h s).stopView = s.stopView :=
  puts_stopView _ s (by simp [SLD_STAT_MOVING, SLD_STAT_PHASE, SLD_STAT_KIND, fld]; omega)

theorem loadInterval_stopView (h : Nat) (first : Bool) (s : State) : (loadInterval h first s).stopView = s.stopView :=
  put_fld_stopView (by omega) s _

theorem seekFromRest_stopView (h kind : Nat) (target : Int) (s : State) : (seekFromRest h kind target s).stopView = s.stopView := by
  have hplan (a b c : Nat) : ((((spoilWindow s).put (SLD_TGT_TGT h) a).put (SLD_EST_US h) b).put (SLD_STAT_KIND h) c).stopView = s.stopView :=
    (put_fld_stopView (by omega) _ c).trans ((put_fld_stopView (by omega) _ b).trans (put_fld_stopView (by omega) (spoilWindow s) a))
  have hmoves (u : State) (d : Nat) (k : Sled → Sled) :
      ((u.puts [(SLD_STAT_MOVING h, 1), (SLD_STAT_PHASE h, phACCEL), (SLD_STAT_DIR h, d)]).setSl h k).stopView = u.stopView :=
    puts_stopView _ u (by simp [SLD_STAT_MOVING, SLD_STAT_PHASE, SLD_STAT_DIR, fld]; omega)
  unfold seekFromRest
  dsimp only
  split
  · exact (sledAtRest_stopView h _).trans (hplan _ _ _)
  · exact (loadInterval_stopView h true _).trans ((hmoves _ _ _).trans (hplan _ _ _))

theorem parkSeek_stopView (h : Nat) (s : State) : (parkSeek h s).stopView = s.stopView := by
  unfold parkSeek askSeek
  split
  · split
    · rfl
    · exact seekFromRest_stopView ..
  · rfl

theorem brake_stopView (s : State) : (brake s).stopView = s.stopView := by
  have htarget : (s.put SPN_TGT_TARGET 0).stopView = s.stopView := put_stopView (by decide) s 0
  unfold brake
  dsimp only
  split
  · exact (put_stopView (f := ANG_LOCK_RAMP) (by decide) _ 1).trans ((put_stopView (by decide) _ _).trans htarget)
  · split
    · exact htarget
    · exact (put_stopView (f := SPN_STAT_PHASE) (by decide) _ pBRAKING).trans htarget

theorem parkAll_stopView (s : State) : (parkAll s).stopView = s.stopView :=
  (brake_stopView _).trans (forUpTo_stopView parkSeek_stopView 4 s)

/-! ### A transition -/

theorem syncTrackSeqs_stopView (heads : Nat) (s : State) : (syncTrackSeqs heads s).stopView = s.stopView := by
  refine forUpTo_stopView (fun h t => ?_) 4 s
  dsimp only
  split
  · exact when_stopView ((put_fld_stopView (by omega) _ 1).trans (put_fld_stopView (by omega) t _))
  · exact (put_fld_stopView (by omega) _ 0).trans (put_fld_stopView (by omega) t 0)

theorem setDomains_stopView (s : State) : (setDomains s).stopView = s.stopView := by
  have hdecoders (b : Bool) (t : State) : (if b then t.put SYS_DOMAIN_DEC 1 else gateDecoders t).stopView = t.stopView := by
    cases b
    · exact puts_stopView [(SYS_DOMAIN_DEC, 0), (CWD_QUEUE_OCC, 0)] t (by decide)
    · exact put_stopView (by decide) t 1
  unfold setDomains
  refine (put_stopView (by decide) _ _).trans ((put_stopView (by decide) _ _).trans ((put_stopView (by decide) _ _).trans
    ((hdecoders _ _).trans ?_)))
  refine (put_stopView (by decide) _ _).trans ((put_stopView (by decide) _ _).trans ((put_stopView (by decide) _ _).trans ?_))
  exact (syncTrackSeqs_stopView _ _).trans (put_stopView (by decide) s _)

/-- A transition reaches its state with its cause. -/
theorem transition_life_cause {next cause : Nat} (hnext : next < 16) (hcause : cause < 256) (s : State) :
    (transition next cause s).life = next ∧ (transition next cause s).get SYS_STATE_CAUSE = cause := by
  have hview (u : State) (prev : Nat) : (setDomains (spoilWindow (eventRec 0x01 (cause * 256 + prev * 16 + next) [] true u))).stopView = u.stopView :=
    (setDomains_stopView _).trans (pushPkt_stopView 0 _ true u)
  refine ⟨(stopView_life (hview _ _)).trans ?_, (stopView_cause (hview _ _)).trans ?_⟩
  · exact (get_put_ne _ _ _ _ (by decide)).trans ((get_put_self _ _ _).trans (Nat.mod_eq_of_lt hnext))
  · exact (get_put_self _ _ _).trans (Nat.mod_eq_of_lt hcause)

/-! ### Enumeration -/

theorem ageOn_stopView (s : State) : (ageOn s).stopView = s.stopView := by
  unfold ageOn
  dsimp only
  split
  · refine (when_stopView (put_stopView (by decide) _ 1)).trans ?_
    exact put_stopView (f := HLT_AGE_HOURS) (by decide) s.drawn _
  · rfl

theorem tempReading_stopView (h data : Nat) (s : State) : (tempReading h data s).stopView = s.stopView := by
  have hvalid (k : State → State) (hk : ∀ u, (k u).stopView = u.stopView) :
      ((s.putB (OPU_TEMP_VALID h) (data != 0x8000)).when (data != 0x8000) k).stopView = s.stopView :=
    (when_stopView (hk _)).trans (put_fld_stopView (by omega) s _)
  have hread (u : State) (l : List Nat) : (ageOn { u.put (OPU_TEMP_TEMP h) data with thm := { u.thm with pkBand := l } }).stopView =
      u.stopView := (ageOn_stopView _).trans (put_fld_stopView (by omega) u data)
  have hdone (b : Bool) (t : State) : (t.when b fun t => { (t.puts [(THM_DEMAND_BUSY, 0), (THM_DEMAND_DONE, 1)]).inc THM_CNT_HOSTDEM with
      thm := { t.thm with hostDemand := false } }).stopView = t.stopView :=
    when_stopView ((put_stopView (f := THM_CNT_HOSTDEM) (by decide) _ _).trans (puts_stopView _ t (by decide)))
  unfold tempReading
  dsimp only
  split
  · exact (orderlyStop_stopView ..).trans ((hdone _ _).trans (hvalid _ fun u => hread u _))
  · exact (hdone _ _).trans (hvalid _ fun u => hread u _)

theorem syncLon_stopView (h : Nat) (s : State) : (syncLon h s).stopView = s.stopView := put_fld_stopView (by omega) s _

theorem syncLonAll_stopView (s : State) : (syncLonAll s).stopView = s.stopView := forUpTo_stopView syncLon_stopView 4 s

theorem queueXact_stopView (h : Nat) (x : Xact) (s : State) : (queueXact h x s).stopView = s.stopView := by
  have hbegin (t : State) : (beginXact h t).stopView = t.stopView := by
    unfold beginXact
    dsimp only
    split
    · rfl
    · exact when_stopView (put_fld_stopView (by omega) _ _)
  unfold queueXact
  split
  · rfl
  · exact hbegin _

theorem startEnum_stopView (h : Nat) (restore : Bool) (s : State) : (startEnum h restore s).stopView = s.stopView := by
  have hlost (t : State) : (tempLost h t).stopView = t.stopView := by
    unfold tempLost
    dsimp only
    split
    · exact tempReading_stopView ..
    · rfl
  exact (queueXact_stopView h xNOP _).trans ((hlost _).trans
    ((syncLon_stopView h _).trans (put_fld_stopView (by omega) s _)))

theorem enumerateAll_stopView (s : State) : (enumerateAll s).stopView = s.stopView :=
  forUpTo_stopView (fun h _ => when_stopView (startEnum_stopView h false _)) 4 s

/-! ### The obligation -/

/-- VIN's good level as it comes clears both levels and its own field. -/
theorem vinPowerGood_good {s : State} (hon : s.on = true) : ∃ t, exec .vinPowerGood s = .next t ∧
    t = { s with rf := t.rf, sys := { s.sys with holdUp := false, brownOut := false, regWait := s.sys.off } } ∧
      ∀ f : Fld, f.key ≠ PWR_STAT_VINLVL.key → t.get f = s.get f :=
  ⟨_, (show execVinPowerGood s = _ from doIf_true _ (by rw [hon]; rfl)), rfl, fun f hf => get_put_ne s PWR_STAT_VINLVL f 0 hf.symm⟩

/-- VIN back for 100 ms sets its condition alone, whatever the park that it lets begin. -/
theorem vinRecovered_good {s : State} (hon : s.on = true) (hhold : s.sys.holdUp = false) (hbrown : s.sys.brownOut = false) :
    ∃ t, exec .vinRecovered s = .next t ∧ t.stopView = (s.life, s.get SYS_STATE_CAUSE, true) := by
  refine ⟨_, (show execVinRecovered s = _ from doIf_true _ (by rw [hon, hhold, hbrown]; rfl)), ?_⟩
  have hput : ({ s.put CEL_STATUS_LOWV 0 with sys := { s.sys with vinOk100 := true } } : State).stopView =
      (s.life, s.get SYS_STATE_CAUSE, true) :=
    put_stopView (f := CEL_STATUS_LOWV) (by decide) { s with sys := { s.sys with vinOk100 := true } } 0
  dsimp only
  split
  · exact (parkAll_stopView _).trans hput
  · exact hput

/-- While a level stands, VIN is not back. -/
theorem vinRecovered_low {s : State} (h : s.sys.holdUp = true ∨ s.sys.brownOut = true) : exec .vinRecovered s = .next s := by
  show execVinRecovered s = _
  exact doIf_false _ (by rcases h with h | h <;> simp [h])

/-- An accepted resume reaches PRIMED. -/
theorem resume_primed {s : State} (hlife : s.life = HALTED) (hcleared : s.haltCleared = true) (hlsr : s.sys.lsrEn = true) :
    (resume s).life = PRIMED := by
  have hrun : (s.life == HALTED && s.haltCleared && s.sys.lsrEn) = true := by rw [hlife, hcleared, hlsr]; rfl
  unfold resume
  rw [if_pos hrun]
  refine (stopView_life ((enumerateAll_stopView _).trans ((syncLonAll_stopView _).trans (when_stopView ?_)))).trans
    (transition_life_cause (by decide) (by decide) _).1
  exact put_stopView (by decide) _ pCOAST

theorem resume_rejected {s : State} (h : s.haltCleared = false ∨ s.sys.lsrEn = false) : resume s = s.put SYS_STATE_RSMREJ 1 :=
  if_neg (by rcases h with h | h <;> simp [h])

/-- A resume that is not a safe stop too. -/
theorem execResume_reaches {p : Port} {v : Word} {s : State} (hr : s.reaches p false = true) (hstop : v.toNat.testBit 1 = false) :
    exec (.resume p v) s = .next (resume s) := by
  show execResume p v s = _
  refine (vendorWrite_reaches hr _ _).trans (congrArg _ ?_)
  have hresume : (v.toNat ||| 1).testBit 0 = true := by rw [Nat.testBit_or]; exact Bool.or_true _
  have hkeep : (v.toNat ||| 1).testBit 1 = false := by rw [Nat.testBit_or, hstop]; rfl
  simp [sysCtrl, hresume, hkeep]

/-- Settles O51: the park, the levels and the resume each leave what they do not set of the state, its cause and VIN's time. -/
theorem holdUpStopAndRecovery : Obligations.HoldUpStopAndRecovery := by
  unfold Obligations.HoldUpStopAndRecovery
  refine ⟨?recovery, ?parked, ?levels, ?resumed⟩
  case recovery =>
    intro s hon hlife hcause
    refine ⟨vinPowerGood_good hon, ?_⟩
    by_cases hlow : s.sys.holdUp = true ∨ s.sys.brownOut = true
    · exact ⟨s, vinRecovered_low hlow, hlife, hcause⟩
    · simp only [not_or, Bool.not_eq_true] at hlow
      obtain ⟨t, ht, hview⟩ := vinRecovered_good hon hlow.1 hlow.2
      exact ⟨t, ht, (congrArg (·.1) hview).trans hlife, (congrArg (·.2.1) hview).trans hcause⟩
  case parked =>
    intro s hparked hcause
    have hdone := completeUnmounts_stopView (transition HALTED 0x22 s)
    obtain ⟨hhalted, hcode⟩ := transition_life_cause (next := HALTED) (cause := 0x22) (by decide) (by decide) s
    refine ⟨completeUnmounts (transition HALTED 0x22 s), ?_, (stopView_life hdone).trans hhalted, (stopView_cause hdone).trans hcode⟩
    show execParkComplete s = _
    exact (doIf_true _ hparked).trans (congrArg _ (by simp [parkDone, hcause]))
  case levels =>
    intro s hon
    refine ⟨fun hhold hbrown => ?_, vinRecovered_low, fun hhold => ?_, fun hbrown => ?_, fun mv => ?_⟩
    · obtain ⟨t, ht, hview⟩ := vinRecovered_good hon hhold hbrown
      exact ⟨t, ht, congrArg (·.2.2) hview⟩
    · refine ⟨_, (show execVinHoldUp s = _ from doIf_true _ (by rw [hon, hhold]; rfl)), ?_⟩
      exact (stopView_vinOk (orderlyStop_stopView ..)).trans ((stopView_vinOk (celRefuse_stopView _)).trans
        (stopView_vinOk (spindleCoast_stopView _)))
    · refine ⟨_, (show execVinBrownOut s = _ from doIf_true _ (by rw [hon, hbrown]; rfl)), ?_⟩
      exact stopView_vinOk (celEndPulse_stopView _)
    · refine ⟨_, (show execVinSample mv s = _ from doIf_true _ hon), ?_⟩
      by_cases hlow : mv.toNat < 10600
      · simp [State.when, hlow]
      · simp [State.when, hlow, Nat.not_lt.mp hlow]
  case resumed =>
    intro p v s hr hlife hcause hstop
    have hcond : s.haltCleared = s.sys.vinOk100 := by simp [State.haltCleared, hcause]
    refine ⟨fun hok hlsr => ⟨_, execResume_reaches hr hstop, resume_primed hlife (hcond.trans hok) hlsr⟩, fun hno => ?_⟩
    rw [execResume_reaches hr hstop, resume_rejected (by rwa [hcond])]

end Sys2Proof.Machine
end
